-- ==== Sys2Proof/Word.lean ====
section
/-! DEFINITION. The word types of the Varwient model and its sparse tables: bytes, port, channel, region and lane
numbers, and a table of key and value pairs kept in one canonical form. -/

namespace Sys2Proof

/-- One byte on a wire or in a value. -/
abbrev Byte := BitVec 8

/-- A sequence of bytes, most significant byte of every field first (R3). -/
abbrev Bytes := List Byte

/-- A Wasel port of the concentrator, 0x00 to 0x1F (R11). -/
abbrev Port := Fin 32

/-- A channel of a front end (R52). -/
abbrev ChanNo := Fin 4096

/-- A region of a front end (R52). -/
abbrev RegionNo := Fin 256

/-- A logical data lane of a port (R177). -/
abbrev Lane := Fin 4

/-- A physical uplink lane of a port, 4 the spare (R11). -/
abbrev PhysLane := Fin 5

/-- A 48-bit record of a front end (R126 to R132). -/
abbrev Record := BitVec 48

/-- A sparse table. Its canonical form has strictly rising keys and no entry equal to what an unlisted key reads as. -/
abbrev Tbl (α : Type) := List (Nat × α)

end Sys2Proof
end

