-- ==== Sys2Proof/Syntax.lean ====
section
/-! DEFINITION. The commands of the Varwient read-out chipset: the names the commands carry (modes, status codes,
writers, link ends, message contents) and `Instr`, one constructor per row of the spec's table of commands. -/

namespace Sys2Proof

/-- The nine modes of R19. -/
inductive Mode where
  | boot | safe | configure | calibrate | sentinel | stream | gated | snapshot | loopback
deriving DecidableEq, Repr

/-- The status codes of R408. -/
inductive Status where
  | accepted | repeat | busy | stale | range | wrongMode | notPresent | type | access | guard | outcomeUnknown
  | portDown | noResource | pitchOvercommit | calConflict | portNotReady | timeoutShort | routeUnset | stallUnfit
  | notApplied | unsupported | failed | version
deriving DecidableEq, Repr

/-- Who writes or reads an object of the concentrator: a client (entry `c` of the client table) in transaction `tid`
(R415, R417), a service core (R423), or the active Keeper or a chip's own logic. -/
inductive Writer where
  | client (c : Fin 16) (tid : BitVec 16)
  | core
  | keeper
deriving DecidableEq, Repr

/-- The client identities of R415. -/
inductive ClientId where
  | udp (ip udpPort : Nat)
  | can (bus client : Nat)
deriving DecidableEq, Repr

/-- The transport a request arrived on: a back-end port or a CAN FD bus (R412, R413). -/
inductive Via where
  | udp (be : Fin 8)
  | can (bus : Fin 2)
deriving DecidableEq, Repr

/-- A receiver of a Wasel port (R177): an uplink lane at the concentrator or a downlink at the front end. -/
inductive Rx where
  | up (lane : PhysLane)
  | down (dl : Fin 2)
deriving DecidableEq, Repr

/-- A block of the line code (R178): header and payload, the payload as it stands before scrambling. -/
structure Block where
  header : BitVec 2
  payload : BitVec 128
deriving DecidableEq, Repr

/-- Where a received block stands on its lane (R180, R182, R183): its number in the superblock, 0 for the place of the
SUPER block, and the run of equal line bits before it. -/
structure LinePlace where
  index : Fin 1024
  last : Bool
  run : Fin 25
deriving DecidableEq, Repr

/-- What a Wasel packet carries after its frame name (R185): records in packing order, a snapshot (descriptor block and
128 samples), or a configuration response. -/
inductive Payload where
  | records (rs : List Record)
  | snapshot (descriptor : BitVec 128) (samples : List (BitVec 12))
  | response (msg : Bytes)
deriving DecidableEq, Repr

/-- The operand of a fast command by FORM (R196). -/
inductive FcmdOp where
  | cal (entries : List (Fin 64))
  | bias (groups : BitVec 16) (level : Fin 4)
  | mode (code : Fin 16)
  | cycleEnd
  | inject
  | tickPhase (halfTicks : Int)
deriving DecidableEq, Repr

/-- One lane's part of a LINKSTAT or a SYNC from the concentrator (R190, R207). -/
structure LaneStat where
  ackValid : Bool
  ackSeq : BitVec 12
  credit : BitVec 8
deriving DecidableEq, Repr

/-- One lane's part of a SYNC from the front end (R207). -/
structure LaneSync where
  reset : Bool
  sent : BitVec 8
deriving DecidableEq, Repr

/-- A SYNC block received (R207): at the front end on a downlink for a physical lane that is ready, or at the
concentrator on a physical lane. -/
inductive SyncMsg where
  | down (dl : Fin 2) (phys : PhysLane) (lanes : List LaneStat)
  | up (phys : PhysLane) (lanes : List LaneSync)
deriving DecidableEq, Repr

/-- One raw stamp of a TDC with its own calibration pair (R103, R208): the stop edge's coarse tick in the slot, the raw code,
and the pair. -/
structure TdcStamp where
  tick : Fin 8
  code : BitVec 12
  c1 : BitVec 12
  c2 : BitVec 12
deriving DecidableEq, Repr

/-- An edge sent on a pair and its reflection (R210): its stamp, the stamp of the reflection, and the whole slots between the
two slots. -/
structure Reflection where
  sent : TdcStamp
  slots : BitVec 8
  back : TdcStamp
deriving DecidableEq, Repr

/-- What a region's monitors read over one cycle (R103, R106): the stamps of its phase monitor since the last boundary,
newest first, of which the last 1,024 matter; the temperature in 0.125 °C, and the supplies in mV. -/
structure RegionMeas where
  region : RegionNo
  stamps : List TdcStamp
  temp : Int
  vdda : Nat
  vddt : Nat
deriving DecidableEq, Repr

/-- The front-end queues a pointer mismatch can hit (R119, R167). -/
inductive FeQueue where
  | channel (c : ChanNo) | region (r : RegionNo) | column (c : Fin 16) | lane (l : Lane) | record | snapshot
deriving DecidableEq, Repr

/-- The concentrator queues a pointer mismatch can hit (R51): on the way into a basket or out (R295), an engine's descriptor
queue (R463), a list of the scheduler, or the entry concerned of the trace ring (R387). -/
inductive ConcQueue where
  | receive (p : Port) | slice (s : Fin 8) | egress (b : Fin 8) | engine (e : Fin 4)
  | readyData | readyService | staging | trace (entry : Fin 65536)
deriving DecidableEq, Repr

/-- A word of external memory as a read finds it (R310, R335): its channel, its block on the channel, its place in the block, and
the two beats of its burst, each of 32 data bits and 8 check bits. -/
structure BadWord where
  chan : Fin 8
  block : BitVec 14
  word : BitVec 18
  beats : BitVec 40 × BitVec 40
deriving DecidableEq, Repr

/-- A word that a scrubber reads (R338): one of external memory, or of the SRAM with its 64 data bits and its CHECK byte (R311). -/
inductive ScrubWord where
  | external (x : BadWord)
  | sram (bits : BitVec 72)
deriving DecidableEq, Repr

/-- What a word read with a basket holds (R336): a word of the basket's header or summaries kept in the INDEX stall, with
whether both copies fail; a port summary word; a record entry; a hit entry. -/
inductive ReadWord where
  | index (word : Nat) (both : Bool)
  | summary (word : Nat)
  | record (i : Nat)
  | hit (i : Nat)
deriving DecidableEq, Repr

/-- A structure in the on-chip SRAM that holds an uncorrectable word (R345, R387, R435): a concentrator queue with what it
held of open baskets, a block table entry, the window table, a word of the Keeper's area, a transaction table, the Keeper's
message buffer, the task table, the read-out engine's queue, the index write cache, or a stall's state (R311). -/
inductive SramPlace where
  | queue (q : ConcQueue) (lost : List (BitVec 64 × Nat))
  | blockTable (m : Fin 8) (block : BitVec 20)
  | windowTable
  | dictionary (both : Bool)
  | transactions (c : Fin 16)
  | keeperOther
  | taskTable (t : Fin 1024)
  | readOutQueue
  | indexCache
  | stallState (k : Fin 64)
deriving DecidableEq, Repr

/-- An item of a DATA source (R382): a delegated request with the task and ARG of its job, a completion that waits at an
engine, a result that waits at a channel, or 64 stamps of an interval-monitor channel. -/
inductive DataItem where
  | keeper (c : Fin 16) (tid : BitVec 16) (task : Fin 1024) (arg : BitVec 32)
  | cvu (e : Fin 4)
  | env (n : Fin 16)
  | tim (i : Fin 8) (task : Fin 1024) (arg : BitVec 32)
deriving DecidableEq, Repr

/-- A store of a service core (R337, R371): its address and the low 2 to the power `len` bytes of `data`. -/
structure CoreStore where
  addr : BitVec 32
  len : Fin 3
  data : BitVec 32
deriving DecidableEq, Repr

/-- An access of a service core (R371): 2 to the power `len` bytes at an address, a store of `data` or a load, and for a load the
word of external memory that it finds. -/
structure CoreAccess where
  addr : BitVec 32
  len : Fin 3
  store : Bool
  data : BitVec 32 := 0
  word : Option BadWord
deriving DecidableEq, Repr

/-- What a PTP message carries in its header, and the mapping it came in (R232): UDP over IPv4, the domain, the sender's port
identity, the sequence number, the log message interval, and the correction in 2⁻¹⁶ ns. -/
structure PtpHead where
  udp : Bool
  domain : BitVec 8
  src : BitVec 80
  seq : BitVec 16
  interval : BitVec 8
  corr : BitVec 64
deriving DecidableEq, Repr

/-- What an Announce says of its grandmaster (R232): the two priorities, the clock class, accuracy and variance, the identity, and
the steps removed from it. -/
structure Announced where
  prio1 : BitVec 8
  clockClass : BitVec 8
  accuracy : BitVec 8
  variance : BitVec 16
  prio2 : BitVec 8
  identity : BitVec 64
  steps : BitVec 16
deriving DecidableEq, Repr

/-- An edge at an input of the interval monitor (R263): on pin TIM_INi the voltage before and after it in mV; on a line of codes
1 to 4, 7 and 8 its direction; on a divided reference of codes 5, 6 and 9 its direction, and how many half periods of the
undivided reference passed since the edge before. -/
inductive TimSignal where
  | pin (before after : BitVec 12)
  | line (code : Fin 10) (rising : Bool)
  | tap (code : Fin 10) (rising : Bool) (halves : BitVec 21)
deriving DecidableEq, Repr

/-- What a received frame carries, as far as its acceptance goes (R298, R299): IPv4 with options or as a fragment, a MAC control
frame of an opcode, or another. -/
inductive RxKind where
  | ipv4 (options fragment : Bool)
  | control (opcode : BitVec 16)
  | other
deriving DecidableEq, Repr

/-- What a back-end port receives (R223, R297, R298): a frame with its destination, its length and its tag, an RS-FEC codeword with
the number of its symbols in error, or the bits of a lane in a pattern test. -/
inductive BackEndRx where
  | frame (dst : BitVec 48) (len : BitVec 16) (tagged : Bool) (kind : RxKind)
  | codeword (errors : BitVec 10)
  | bits (lane : Fin 4) (line : List Bool)
deriving DecidableEq, Repr

/-- What a conversion measures (R466, R467, R469, R472). RTD types, in nV and nA: V1 between FP and FN and the sensed voltage
in each phase, the current, and the peak of V1. Other types: in-phase and quadrature sums of the sense signal (pA, or nV for
BRIDGE) and of the drive (nV), and the peak of the sense signal. -/
inductive EmMeas where
  | rtd (v1Pos v1Neg vsPos vsNeg : Int) (current : Nat) (peak : Nat)
  | sine (sIn sQuad dIn dQuad : Int) (peak : Nat)
deriving DecidableEq, Repr

/-- What the memory sequence of R341 finds of a DDR5 channel: absent, or its size in MiB, failing step 3 or 4 or past step 5. -/
inductive MemTest where
  | absent
  | failed (mib : BitVec 16)
  | passed (mib : BitVec 16)
deriving DecidableEq, Repr

/-- What a flash device's SFDP tables say of it (R391): its size, whether it has a 1-1-4 fast read, and a 4 KiB erase. -/
structure Sfdp where
  mbit : BitVec 32
  fast114 : Bool
  erase4k : Bool
deriving DecidableEq, Repr

/-- A flash device as step 3 finds it (R391, R508): its tables, if it answers, and the SEQ of the records of its ledger segment
that fail their CRC. -/
structure FlashScan where
  sfdp : Option Sfdp
  bad : List (BitVec 32)
deriving DecidableEq, Repr

/-- What a boot step gives when it completes or reaches its timeout (R487): 1, which Keepers passed the self-test; 2; 3,
the flash devices; 4; 5; 6, whether R341 steps 1 and 2 passed, and its channels; 7; 8. -/
inductive BootResult where
  | selfTest (a b : Bool)
  | failedStarts
  | flash (a b : FlashScan)
  | image
  | loaded
  | memory (sram : Bool) (chans : List MemTest)
  | clocks
  | ports
deriving DecidableEq, Repr

/-- The commands of the block: one constructor per row of the spec's table, with the rule that names it first. -/
inductive Instr where
  /-- CYCLE_BOUNDARY (R24). -/
  | cycleBoundary
  /-- FRAME_BOUNDARY (R272). -/
  | frameBoundary
  /-- FE_CYCLE_BOUNDARY (R103). -/
  | feCycleBoundary (p : Port) (meas : List RegionMeas)
  /-- FE_FRAME_BOUNDARY (R147). -/
  | feFrameBoundary (p : Port)
  /-- MODE_REQUEST (R445). -/
  | modeRequest (w : Writer) (val : Bytes)
  /-- MODE_REQUEST_CANCEL (R30). -/
  | modeRequestCancel (w : Writer)
  /-- MODE_CHANGE (R491). -/
  | modeChange
  /-- CALENDAR_COMMIT (R41). -/
  | calendarCommit (w : Writer) (val : Bytes)
  /-- CALENDAR_COMMIT_APPLY (R40). -/
  | calendarCommitApply
  /-- CYCLE_LENGTH_WRITE (R47). -/
  | cycleLengthWrite (w : Writer) (val : Bytes)
  /-- GRID_MOVE_APPLY (R26). -/
  | gridMoveApply
  /-- FCMD_ISSUE (R198). -/
  | fcmdIssue (p : Port)
  /-- FCMD_TARGET_PASSED (R198). -/
  | fcmdTargetPassed (p : Port)
  /-- MIRROR_LAG_DETECT (R200). -/
  | mirrorLagDetect (p : Port)
  /-- FCMD_RECEIVE (R199). -/
  | fcmdReceive (p : Port) (id : BitVec 8) (op : FcmdOp) (cyc : BitVec 8) (slot : BitVec 20)
  /-- MODE_COMMAND (R541). -/
  | modeCommand (p : Port)
  /-- QUEUE_RESET (R35). -/
  | queueReset (p : Port)
  /-- RATE_LATCH (R35). -/
  | rateLatch (p : Port)
  /-- PAIR_REFRESH (R96). -/
  | pairRefresh (p : Port) (pair : BitVec 12 × BitVec 12) (meas : List (ChanNo × BitVec 12 × BitVec 12))
  /-- CALENDAR_SNAPSHOT_TRIGGER (R156). -/
  | calendarSnapshotTrigger (p : Port)
  /-- BIAS_COMMAND (R68). -/
  | biasCommand (p : Port)
  /-- CYCLE_END_COMMAND (R28). -/
  | cycleEndCommand (p : Port)
  /-- INJECT_COMMAND (R72). -/
  | injectCommand (p : Port)
  /-- TICK_PHASE_COMMAND (R212). -/
  | tickPhaseCommand (p : Port)
  /-- SCRUB_WINDOW_OPEN (R338). -/
  | scrubWindowOpen
  /-- SCRUB_WINDOW_END (R338). -/
  | scrubWindowEnd
  /-- TRIGGER_WINDOW_OPEN (R328). -/
  | triggerWindowOpen
  /-- PRECISION_GRANT (R360). -/
  | precisionGrant (p : Port)
  /-- RAISE_END (R36). -/
  | raiseEnd (p : Port)
  /-- BIAS_REPEAT (R363). -/
  | biasRepeat
  /-- INJECT_REQUEST (R73). -/
  | injectRequest (w : Writer) (p : Port) (val : Bytes)
  /-- CONFIG_APPLY (R76). -/
  | configApply (p : Port)
  /-- LEAKAGE_SATURATION (R55). -/
  | leakageSaturation (p : Port) (c : ChanNo)
  /-- SETTLING_END (R67). -/
  | settlingEnd (p : Port) (r : RegionNo)
  /-- LEADING_EDGE (R86). -/
  | leadingEdge (p : Port) (c : ChanNo) (coarse : Fin 8) (fine : BitVec 12)
  /-- WAKE_REQUEST_EXPIRE (R361). -/
  | wakeRequestExpire (p : Port) (group : Fin 16)
  /-- TRAILING_EDGE (R86). -/
  | trailingEdge (p : Port) (c : ChanNo) (coarse : Fin 8) (fine : BitVec 12)
  /-- TOT_SATURATION (R87). -/
  | totSaturation (p : Port) (c : ChanNo)
  /-- REARM_COMPLETE (R89). -/
  | rearmComplete (p : Port) (c : ChanNo) (c1 c2 : BitVec 12)
  /-- REGION_READOUT (R123). -/
  | regionReadout (p : Port) (r : RegionNo)
  /-- COLUMN_ARBITER_MOVE (R123). -/
  | columnArbiterMove (p : Port) (c : Fin 16)
  /-- DEALER_DEAL (R124). -/
  | dealerDeal (p : Port)
  /-- FRAME_COMPLETE (R138). -/
  | frameComplete (p : Port)
  /-- FRAME_CLOSE_DEADLINE (R139). -/
  | frameCloseDeadline (p : Port)
  /-- PACKET_WAIT_EXPIRE (R134). -/
  | packetWaitExpire (p : Port) (l : Lane)
  /-- PACKET_SEND (R135). -/
  | packetSend (p : Port) (l : Lane)
  /-- SNAPSHOT_PACKET_SEND (R167). -/
  | snapshotPacketSend (p : Port)
  /-- QUEUE_POINTER_MISMATCH (R150). -/
  | queuePointerMismatch (p : Port) (q : FeQueue)
  /-- FLOOD_ENTER (R143). -/
  | floodEnter (p : Port) (r : RegionNo)
  /-- FLOOD_EXIT (R145). -/
  | floodExit (p : Port) (r : RegionNo)
  /-- CHIP_FLOOD_ENTER (R148). -/
  | chipFloodEnter (p : Port)
  /-- CHIP_FLOOD_EXIT (R148). -/
  | chipFloodExit (p : Port)
  /-- CONFIG_FAULT (R151). -/
  | configFault (p : Port) (r : RegionNo)
  /-- TIMING_COUNTER_CLEAR (R118). -/
  | timingCounterClear (p : Port) (alive : BitVec 4) (val : Bytes)
  /-- READOUT_COUNTER_CLEAR (R152). -/
  | readoutCounterClear (p : Port) (alive : BitVec 4) (val : Bytes)
  /-- FE_COUNTER_CLEAR_APPLY (R118). -/
  | feCounterClearApply (p : Port)
  /-- PULSE_WIDTH_TRIGGER (R157). -/
  | pulseWidthTrigger (p : Port) (c : ChanNo)
  /-- FORCE_SNAPSHOT (R156). -/
  | forceSnapshot (p : Port) (alive : BitVec 4) (val : Bytes)
  /-- FREEZE_EVENT (R158). -/
  | freezeEvent (p : Port)
  /-- SNAPSHOT_CONVERSION_COMPLETE (R162). -/
  | snapshotConversionComplete (p : Port) (e : Fin 1024) (codes : List (BitVec 12))
  /-- SNAPSHOT_BUS_GRANT (R163). -/
  | snapshotBusGrant (p : Port) (e : Fin 1024)
  /-- SNAP_CAL_ZERO (R170). -/
  | snapCalZero (p : Port) (alive : BitVec 4)
  /-- SNAP_CAL_FULL (R170). -/
  | snapCalFull (p : Port) (alive : BitVec 4)
  /-- SNAP_CAL_COMPUTE (R170). -/
  | snapCalCompute (p : Port) (alive : BitVec 4)
  /-- SNAP_CAL_CLEAR (R170). -/
  | snapCalClear (p : Port) (alive : BitVec 4)
  /-- SNAP_CAL_PHASE_DONE (R170). -/
  | snapCalPhaseDone (p : Port)
  /-- COEFFICIENT_WORD_ERROR (R171). -/
  | coefficientWordError (p : Port) (e : Fin 1024) (cell : BitVec 7)
  /-- SNAPSHOT_RING_WRITE (R168). -/
  | snapshotRingWrite
  /-- SNAPSHOT_DATAGRAM_SEND (R301). -/
  | snapshotDatagramSend (bad : List (Nat × Nat × BadWord))
  /-- BLOCK_LOCK_ACQUIRE (R184). -/
  | blockLockAcquire (p : Port) (rx : Rx) (headers : List (BitVec 2))
  /-- BLOCK_LOCK_LOSS (R184). -/
  | blockLockLoss (p : Port) (rx : Rx) (window : List (Option (BitVec 2)))
  /-- PACKET_RECEIVE (R189). -/
  | packetReceive (p : Port) (blocks : List Block)
  /-- LINKSTAT_SEND (R191). -/
  | linkstatSend (p : Port)
  /-- LINKSTAT_RECEIVE (R191). -/
  | linkstatReceive (p : Port) (lanes : List LaneStat)
  /-- NAK_RECEIVE (R193). -/
  | nakReceive (p : Port) (l : Lane) (seq : BitVec 12)
  /-- ACK_TIMEOUT (R194). -/
  | ackTimeout (p : Port) (l : Lane)
  /-- CREDIT_GRANT (R317). -/
  | creditGrant (p : Port) (l : Lane)
  /-- FESTAT_PERIODIC_SEND (R201). -/
  | festatPeriodicSend (p : Port) (power : BitVec 16) (temp : BitVec 12)
  /-- WAKE_FESTAT_SEND (R350). -/
  | wakeFestatSend (p : Port)
  /-- FESTAT_PERIODIC_RECEIVE (R355). -/
  | festatPeriodicReceive (p : Port) (exec : BitVec 16) (late : BitVec 8) (power : BitVec 16) (temp : BitVec 12) (trip fence : Bool) (cancelled : BitVec 8)
  /-- FESTAT_WAKE_RECEIVE (R361). -/
  | festatWakeReceive (p : Port) (exec : BitVec 16) (late cancelled : BitVec 8) (groups : BitVec 16)
  /-- FESTAT_STALE (R351). -/
  | festatStale (p : Port)
  /-- STALE_CRITICAL (R351). -/
  | staleCritical (p : Port)
  /-- TRAINING_ATTEMPT_START (R203). -/
  | trainingAttemptStart (p : Port) (dl : Fin 2)
  /-- TRAIN_RECEIVE (R203). -/
  | trainReceive (p : Port) (rx : Rx) (locked : Bool) (lock : BitVec 5) (attempt : BitVec 8)
  /-- TRAINING_ATTEMPT_TIMEOUT (R203). -/
  | trainingAttemptTimeout (p : Port)
  /-- BEACON_BURST (R204). -/
  | beaconBurst (p : Port)
  /-- BEACON_RECEIVE (R205). -/
  | beaconReceive (p : Port) (request failed : BitVec 5)
  /-- PORT_RELEASE (R206). -/
  | portRelease (w : Writer) (e : BitVec 16) (val : Bytes)
  /-- SYNC_RECEIVE (R207). -/
  | syncReceive (p : Port) (msg : SyncMsg)
  /-- LANEMAP_RECEIVE (R214). -/
  | lanemapReceive (p : Port) (l : Lane) (phys : BitVec 3) (frame : BitVec 12)
  /-- DELAY_PROBE_SEND (R210). -/
  | delayProbeSend (p : Port) (t1 : TdcStamp)
  /-- DELAY_REQ_RECEIVE (R209). -/
  | delayReqReceive (p : Port) (id : BitVec 8) (t2 : TdcStamp) (wait : BitVec 10) (t3 : TdcStamp)
  /-- DELAY_RESP_RECEIVE (R209). -/
  | delayRespReceive (p : Port) (id : BitVec 8) (t2 t3 : BitVec 32) (t4 : TdcStamp)
  /-- TIME_SET_RECEIVE (R211). -/
  | timeSetReceive (p : Port) (dl : Fin 2) (cyc : BitVec 8) (slot : BitVec 20) (tick : Fin 8) (half : Bool) (fine : Fin 4096)
  /-- DOWNLINK_LOSS_TIMEOUT (R483). -/
  | downlinkLossTimeout (p : Port)
  /-- PRIMARY_RETURN (R217). -/
  | primaryReturn (p : Port)
  /-- FORCE_LANE_SWAP (R218). -/
  | forceLaneSwap (w : Writer) (e : BitVec 16) (val : Bytes)
  /-- FORCE_DOWNLINK_SWAP (R218). -/
  | forceDownlinkSwap (w : Writer) (e : BitVec 16) (val : Bytes)
  /-- DOWNLINK_SWAP_APPLY (R218). -/
  | downlinkSwapApply (p : Port)
  /-- LINK_DELAY_CALIBRATION (R210). -/
  | linkDelayCalibration (w : Writer) (e : BitVec 16) (val : Bytes) (pairs : List (Reflection × Reflection))
  /-- CONFIG_WRITE_MESSAGE (R220). -/
  | configWriteMessage (p : Port) (dl : Fin 2) (blocks : List Block)
  /-- CONFIG_READ_MESSAGE (R220). -/
  | configReadMessage (p : Port) (dl : Fin 2) (blocks : List Block)
  /-- CONFIG_MIRROR_MESSAGE (R200). -/
  | configMirrorMessage (p : Port) (dl : Fin 2) (blocks : List Block)
  /-- CONFIG_RESPONSE_RECEIVE (R426). -/
  | configResponseReceive (p : Port) (alive : BitVec 4) (status : BitVec 8) (value : Bytes)
  /-- CONFIG_RESEND (R221). -/
  | configResend (p : Port)
  /-- CONFIG_TIMEOUT (R431). -/
  | configTimeout (p : Port)
  /-- UNRESOLVED_RESOLVE (R432). -/
  | unresolvedResolve (p : Port)
  /-- PTP_SYNC_RECEIVE (R232). -/
  | ptpSyncReceive (p : Fin 2) (head : PtpHead) (twoStep : Bool) (stamp : TdcStamp)
  /-- PTP_FOLLOW_UP_RECEIVE (R233). -/
  | ptpFollowUpReceive (p : Fin 2) (head : PtpHead) (origin : BitVec 80)
  /-- PTP_DELAY_REQ_SEND (R233). -/
  | ptpDelayReqSend (p : Fin 2) (seq : BitVec 16) (stamp : TdcStamp)
  /-- PTP_DELAY_RESP_RECEIVE (R233). -/
  | ptpDelayRespReceive (p : Fin 2) (head : PtpHead) (receipt : BitVec 80)
  /-- PTP_ANNOUNCE_RECEIVE (R232). -/
  | ptpAnnounceReceive (p : Fin 2) (head : PtpHead) (data : Announced)
  /-- ANNOUNCE_RECEIPT_TIMEOUT (R234). -/
  | announceReceiptTimeout (p : Fin 2)
  /-- SYNC_INTERVAL_TIMEOUT (R234). -/
  | syncIntervalTimeout (p : Fin 2)
  /-- TIMING_LINK_CHANGE (R234). -/
  | timingLinkChange (p : Fin 2) (up : Bool)
  /-- ESMC_RECEIVE (R235). -/
  | esmcReceive (p : Fin 2) (dnu : Bool)
  /-- SYNCE_WINDOW_END (R235). -/
  | synceWindowEnd (p : Fin 2) (freq : BitVec 64)
  /-- HOME_RETURN (R237). -/
  | homeReturn
  /-- ACCEPT_STEP (R246). -/
  | acceptStep (w : Writer) (val : Bytes)
  /-- TIME_STEP_APPLY (R246). -/
  | timeStepApply
  /-- FIRST_TIME_SET_APPLY (R247). -/
  | firstTimeSetApply
  /-- TIME_PRESET (R247). -/
  | timePreset (w : Writer) (val : Bytes)
  /-- REFCLK_MEASURE_WINDOW (R248). -/
  | refclkMeasureWindow (q : Fin 2) (ppb : BitVec 32) (vsUse : BitVec 32)
  /-- REFERENCE_SELECT (R249). -/
  | referenceSelect (w : Writer) (val : Bytes)
  /-- REFERENCE_CHANGE_APPLY (R249). -/
  | referenceChangeApply
  /-- CYCLE_MARKER (R252). -/
  | cycleMarker (input : Fin 2)
  /-- TIME_PULSE (R258). -/
  | timePulse (o : Fin 2)
  /-- FORCE_TIME_BASE_SWAP (R261). -/
  | forceTimeBaseSwap (w : Writer) (val : Bytes)
  /-- TIME_BASE_CHECK_FAIL (R261). -/
  | timeBaseCheckFail
  /-- TIME_BASE_SELF_TEST_DONE (R261). -/
  | timeBaseSelfTestDone (u : Fin 2) (pass : Bool)
  /-- TIM_EDGE (R264). -/
  | timEdge (i : Fin 8) (signal : TimSignal) (tick : Fin 8) (code : BitVec 12) (pair : BitVec 12 × BitVec 12)
  /-- STATISTICS_RESTART (R268). -/
  | statisticsRestart (w : Writer) (e : BitVec 16) (val : Bytes)
  /-- STAMP_QUEUE_READ (R266). -/
  | stampQueueRead (w : Writer) (i : Fin 8)
  /-- BASKET_CLOSE (R279). -/
  | basketClose
  /-- BASKET_TIMEOUT (R279). -/
  | basketTimeout
  /-- BASKET_RELEASE (R281). -/
  | basketRelease
  /-- EGRESS_FRAGMENT_SEND (R290). -/
  | egressFragmentSend (b : Fin 8)
  /-- ROUTE_ENTRY_WRITE (R286). -/
  | routeEntryWrite (w : Writer) (col : Fin 6) (key : BitVec 16) (val : Bytes)
  /-- ROUTE_COMMIT (R287). -/
  | routeCommit (w : Writer) (val : Bytes)
  /-- ROUTE_COMMIT_APPLY (R287). -/
  | routeCommitApply
  /-- FORMAT_PIN (R302). -/
  | formatPin (w : Writer) (val : Bytes)
  /-- FORMAT_PIN_APPLY (R302). -/
  | formatPinApply
  /-- ARP_REQUEST_RECEIVE (R300). -/
  | arpRequestReceive (b : Fin 8) (dst senderMac : BitVec 48) (senderIp targetIp : BitVec 32)
  /-- ICMP_ECHO_RECEIVE (R300). -/
  | icmpEchoReceive (b : Fin 8) (dst srcMac : BitVec 48) (srcIp dstIp : BitVec 32) (rest : Bytes)
  /-- PAUSE_FRAME_RECEIVE (R298). -/
  | pauseFrameReceive (b : Fin 8) (quanta : BitVec 16)
  /-- PAUSE_EXPIRE (R298). -/
  | pauseExpire (b : Fin 8)
  /-- BACKEND_LINK_CHANGE (R289). -/
  | backendLinkChange (b : Fin 8) (up : Bool)
  /-- CONC_QUEUE_POINTER_MISMATCH (R295). -/
  | concQueuePointerMismatch (q : ConcQueue) (lost : List (BitVec 64 × Nat))
  /-- DECISION_POINT (R325). -/
  | decisionPoint
  /-- PIN_TRIGGER (R327). -/
  | pinTrigger (i : Fin 2)
  /-- GATED_READOUT (R331). -/
  | gatedReadout (bad : List (ReadWord × BadWord))
  /-- SCRUB_LAP_END (R339). -/
  | scrubLapEnd (sram : Bool)
  /-- LAP_LIMIT_EXCEEDED (R339). -/
  | lapLimitExceeded
  /-- STALL_PITCH_WRITE (R320). -/
  | stallPitchWrite (w : Writer) (bw : Bool) (k : BitVec 16) (val : Bytes)
  /-- PITCH_SCALING (R321). -/
  | pitchScaling
  /-- PITCH_RESTORE (R322). -/
  | pitchRestore
  /-- MEMORY_CHANNEL_OFFLINE (R344). -/
  | memoryChannelOffline (m : Fin 8) (cause : Fin 3)
  /-- SRAM_WORD_UNCORRECTABLE (R345). -/
  | sramWordUncorrectable (place : SramPlace) (bits : BitVec 72)
  /-- DIAGNOSTIC_ENABLE (R342). -/
  | diagnosticEnable (w : Writer) (val : Bytes)
  /-- DIAGNOSTIC_WRITE_RAW (R342). -/
  | diagnosticWriteRaw (w : Writer)
  /-- DIAGNOSTIC_READ_RAW (R342). -/
  | diagnosticReadRaw (w : Writer)
  /-- DIAGNOSTIC_READ_CHECKED (R342). -/
  | diagnosticReadChecked (w : Writer)
  /-- THERMAL_EVALUATION (R352). -/
  | thermalEvaluation (sensors : List (BitVec 16))
  /-- FLAP_HOLD_END (R353). -/
  | flapHoldEnd (i : Fin 33)
  /-- DOMAIN_CADDY_UPDATE (R358). -/
  | domainCaddyUpdate (logic serdes memory : BitVec 32)
  /-- FE_THERMAL_TRIP (R367). -/
  | feThermalTrip (p : Port) (mean : BitVec 16)
  /-- FE_TRIP_RELEASE (R367). -/
  | feTripRelease (p : Port) (mean : BitVec 16) (cool : BitVec 32)
  /-- CONC_THERMAL_TRIP (R367). -/
  | concThermalTrip (sensor : Fin 12) (mean : BitVec 16)
  /-- FENCE_BIAS_LIMIT_WRITE (R366). -/
  | fenceBiasLimitWrite (w : Writer) (e : BitVec 16) (val : Bytes)
  /-- SERVICE_POST (R375). -/
  | servicePost (poster : Option (Fin 16)) (task : Fin 1024) (arg : BitVec 32)
  /-- DATA_JOB_POST (R381). -/
  | dataJobPost (item : DataItem)
  /-- JOB_DISPATCH (R378). -/
  | jobDispatch
  /-- JOB_COMPLETE (R379). -/
  | jobComplete (core : Fin 16) (stores : List CoreStore)
  /-- JOB_ABORT (R385). -/
  | jobAbort (core : Fin 16) (stores : List CoreStore)
  /-- TASK_RESTORE (R386). -/
  | taskRestore (w : Writer) (e : BitVec 16) (val : Bytes)
  /-- SPILL_SEGMENT_READBACK (R383). -/
  | spillSegmentReadback (bad : List (Fin 64 × BadWord))
  /-- CORE_ACCESS_FAULT (R371). -/
  | coreAccessFault (core : Fin 16) (access : CoreAccess)
  /-- CORE_SRAM_ERROR (R387). -/
  | coreSramError (core : Fin 16)
  /-- TRACE_READ (R390). -/
  | traceRead (w : Writer)
  /-- IMAGE_ERASE (R396). -/
  | imageErase (w : Writer) (e : BitVec 16) (val : Bytes)
  /-- IMAGE_DATA (R396). -/
  | imageData (w : Writer) (e : BitVec 16) (data : Bytes)
  /-- IMAGE_VERIFY (R396). -/
  | imageVerify (w : Writer) (e : BitVec 16) (val : Bytes)
  /-- IMAGE_OPERATION_COMPLETE (R394). -/
  | imageOperationComplete (i : Fin 2)
  /-- IMAGE_TRIAL (R397). -/
  | imageTrial (w : Writer) (val : Bytes)
  /-- IMAGE_TRIAL_CANCEL (R397). -/
  | imageTrialCancel (w : Writer)
  /-- IMAGE_CONFIRM (R397). -/
  | imageConfirm (w : Writer) (val : Bytes)
  /-- PREFERRED_IMAGE (R397). -/
  | preferredImage (w : Writer) (val : Bytes)
  /-- MARORI_MESSAGE_RECEIVE (R421). -/
  | maroriMessageReceive (be : Fin 8) (ip : BitVec 32) (udp : BitVec 16) (mac : BitVec 48) (bytes : Bytes)
  /-- CAN_FD_FRAME_RECEIVE (R414). -/
  | canFdFrameReceive (bus : Fin 2) (id : BitVec 29) (data : Bytes)
  /-- CAN_SEGMENT_TIMEOUT (R414). -/
  | canSegmentTimeout (bus : Fin 2) (client : BitVec 8)
  /-- MARORI_READ (R421). -/
  | maroriRead (w : Writer) (port : BitVec 8) (index : BitVec 16) (sub : BitVec 8) (elem : BitVec 16)
  /-- MARORI_WRITE (R421). -/
  | maroriWrite (w : Writer) (port : BitVec 8) (index : BitVec 16) (sub : BitVec 8) (elem : BitVec 16) (val : Bytes)
  /-- MARORI_NOP (R411). -/
  | maroriNop (w : Writer)
  /-- MARORI_TRIGGER (R329). -/
  | maroriTrigger (w : Writer) (port : BitVec 8) (index : BitVec 16) (sub : BitVec 8) (elem : BitVec 16) (payload : Bytes)
  /-- GUARD_TOKEN (R424). -/
  | guardToken (w : Writer) (val : Bytes)
  /-- GUARD_TOKEN_EXPIRE (R424). -/
  | guardTokenExpire (c : Fin 16)
  /-- TRANSACTION_ENTRY_EXPIRE (R417). -/
  | transactionEntryExpire (c : Fin 16) (tid : BitVec 16)
  /-- RESTART (R443). -/
  | restart (w : Writer) (val : Bytes)
  /-- LEDGER_READ (R510). -/
  | ledgerRead (w : Writer)
  /-- LEDGER_REWIND (R510). -/
  | ledgerRewind (w : Writer) (val : Bytes)
  /-- LEDGER_WRITE (R506). -/
  | ledgerWrite (okA okB : Bool)
  /-- FORCE_KEEPER_SWAP (R452). -/
  | forceKeeperSwap (w : Writer) (val : Bytes)
  /-- ALIVE_RESET (R462). -/
  | aliveReset (w : Writer) (e : BitVec 16) (val : Bytes)
  /-- CVU_SUBMIT (R458). -/
  | cvuSubmit (core : Fin 16) (e : Fin 4) (slot : Fin 16) (desc : Bytes)
  /-- CVU_DESCRIPTOR_START (R460). -/
  | cvuDescriptorStart (e : Fin 4)
  /-- CVU_DESCRIPTOR_COMPLETE (R461). -/
  | cvuDescriptorComplete (e : Fin 4) (data : Bytes) (bad : Option ScrubWord)
  /-- EM_CHANNEL_TYPE_WRITE (R465). -/
  | emChannelTypeWrite (w : Writer) (e : BitVec 16) (val : Bytes)
  /-- EM_CONVERSION_START (R474). -/
  | emConversionStart (n : Fin 16)
  /-- EM_CONVERSION_COMPLETE (R473). -/
  | emConversionComplete (n : Fin 16) (meas : EmMeas)
  /-- EXCITATION_CLAMP (R470). -/
  | excitationClamp (n : Fin 16) (current : BitVec 32)
  /-- BLANK_RISE (R475). -/
  | blankRise (i : Fin 2)
  /-- BLANK_FALL (R475). -/
  | blankFall (i : Fin 2)
  /-- BLANK_HOLD_END (R475). -/
  | blankHoldEnd (i : Fin 2)
  /-- FE_POWER_ON_RESET (R483). -/
  | fePowerOnReset (p : Port)
  /-- FE_SUPPLY_FAULT (R483). -/
  | feSupplyFault (p : Port)
  /-- RESET_ASSERT (R485). -/
  | resetAssert (aonLost : Bool)
  /-- RESET_RELEASE (R487). -/
  | resetRelease (strap : BitVec 8)
  /-- BOOT_TIMEOUT (R488). -/
  | bootTimeout
  /-- START_CONFIRM (R489). -/
  | startConfirm
  /-- FATAL_FAULT (R495). -/
  | fatalFault
  /-- SAFE_DRAIN_END (R493). -/
  | safeDrainEnd
  /-- RATE_SWEEP_COMPLETE (R497). -/
  | rateSweepComplete
  /-- KEEPER_FAILURE (R500). -/
  | keeperFailure (cause : Fin 4) (us : Fin 1001) (torn : Bool)
  /-- KEEPER_SELF_TEST_DONE (R501). -/
  | keeperSelfTestDone (pass : Bool)
  /-- WARM_STANDBY_END (R501). -/
  | warmStandbyEnd
  /-- REFCLK_EDGE_LOSS (R248). -/
  | refclkEdgeLoss (q : Fin 2)
  /-- INVALID_BLOCK (R178). -/
  | invalidBlock (p : Port) (rx : Rx) (at_ : LinePlace) (line : List Bool)
  /-- SCRUB_READ (R338). -/
  | scrubRead (word : ScrubWord)
  /-- CONFIGURATION_CORRECTION (R151). -/
  | configurationCorrection (p : Port) (r : RegionNo)
  /-- CORE_RELOAD_COMPLETE (R387). -/
  | coreReloadComplete (core : Fin 16)
  /-- BOOT_STEP_COMPLETE (R487). -/
  | bootStepComplete (r : BootResult)
  /-- RECEIVE_DISCARD (R298). -/
  | receiveDiscard (b : Fin 8) (rx : BackEndRx)
deriving DecidableEq, Repr

end Sys2Proof
end

