-- ==== Sys2Proof/Decode.lean ====
section
/-! DEFINITION. The command a word spells by the bits of the spec's command table. -/

namespace Sys2Proof

/-- No row of the command table has bits: the commands are events and object accesses, so no word spells one. -/
def decodeTableWord (_nbits _w : Nat) : Option Instr := none

end Sys2Proof
end

