-- ==== Sys2Proof/Config.lean ====
section
/-! DEFINITION. What the spec leaves to the part or leaves open: constants without a body, so that no proof can see
which value one has. -/

namespace Sys2Proof.Config

/-- The values the spec gives no instruction to fix: the n-th value the device draws (log entry 3). -/
opaque freeValue : Nat → Nat

/-- Chip serial number of the concentrator, fused per part (R441). -/
opaque serial : Nat

/-- Chip serial number of the front end on a port, fused per part (R453). -/
opaque feSerial : Nat → Nat

/-- Source MAC address of back-end port 0, fused per part (R307). -/
opaque sourceMac : Nat

/-- Region Phase Offset fused at production test, as the 16-bit word of port and region (R105, R118). -/
opaque phaseOffset : Nat → Nat → Nat

/-- Code c1 of the nominal calibration pair in the fuses of the front end on a port (R95); under 0xFF, of the interval monitor's
cells (R265). -/
opaque nominalC1 : Nat → Nat

/-- Code c2 of the nominal calibration pair in the fuses of the front end on a port (R95); under 0xFF, of the interval monitor's
cells (R265). -/
opaque nominalC2 : Nat → Nat

/-- Fused path delays of the delay stamps in fine bins (R208), by port: 0 transmit and 1 receive at the concentrator, 2 transmit
and 3 receive at the front end. -/
opaque pathDelay : Nat → Nat → Nat

/-- Fused PHY path delays of the PTP stamps in fine bins (R233), by timing port: 0 transmit and 1 receive. -/
opaque phyDelay : Nat → Nat → Nat

/-- The bytes of the image area of a flash device as it was delivered: device and offset (R391). -/
opaque flashByte : Nat → Nat → Nat

end Sys2Proof.Config
end

