-- ==== Sys2Proof/Machine/Bits.lean ====
section
/-! DEFINITION. Bit fields, two's complement, byte order, rounding, check sequences and the sparse tables of the
model: the plain arithmetic every other file of Machine/ uses. -/

namespace Sys2Proof.Machine

/-- The bit `i` of `v` (R2). -/
def bit (v i : Nat) : Bool := v.testBit i

/-- The field `[hi:lo]` of `v` (R2). -/
def field (v hi lo : Nat) : Nat := (v >>> lo) % 2 ^ (hi + 1 - lo)

/-- `v` with its field `[hi:lo]` replaced by `x`. -/
def setField (v hi lo x : Nat) : Nat :=
  let m := (2 ^ (hi + 1 - lo) - 1) <<< lo
  (v ||| m) - m + ((x % 2 ^ (hi + 1 - lo)) <<< lo)

/-- `v` with its bit `i` set to `b`. -/
def setBit (v i : Nat) (b : Bool) : Nat := setField v i i b.toNat

/-- A flag as the bit `i` of a word. -/
def flag (i : Nat) (b : Bool) : Nat := if b then 2 ^ i else 0

/-- The signed value of the `w`-bit two's complement word `v` (R404). -/
def sgn (w v : Nat) : Int := if 2 ^ (w - 1) ≤ v % 2 ^ w then (v % 2 ^ w : Nat) - (2 ^ w : Nat) else (v % 2 ^ w : Nat)

/-- The `w`-bit two's complement word of `i` (R404). -/
def unsgn (w : Nat) (i : Int) : Nat := (i % (2 ^ w : Nat)).toNat

/-- `i` limited to `lo` to `hi`. -/
def limit (lo hi i : Int) : Int := max lo (min hi i)

/-- `n / d` rounded to the nearest integer, halves upward. -/
def roundHalfUp (n d : Int) : Int := (2 * n + d) / (2 * d)

/-- `n / d` rounded up. -/
def ceilDiv (n d : Nat) : Nat := (n + d - 1) / d

/-- The value of bytes sent most significant byte first (R3). -/
def beNat (bs : Bytes) : Nat := bs.foldl (fun a b => a * 256 + b.toNat) 0

/-- `v` as `n` bytes, most significant byte first (R3). -/
def beBytes : Nat → Nat → Bytes
  | 0, _ => []
  | n + 1, v => BitVec.ofNat 8 (v >>> (8 * n)) :: beBytes n v

/-- The numbers below `n` whose bit is set in `mask`, rising. -/
def bitsOf (mask n : Nat) : List Nat := (List.range n).filter (bit mask)

/-- The word whose bits are set exactly at the members of `l`. -/
def maskOf (l : List Nat) : Nat := l.foldl (fun a i => a ||| 2 ^ i) 0

/-- The number of set bits of `v` below bit `n`. -/
def popCount (v n : Nat) : Nat := (bitsOf v n).length

/-- `v` with the order of its low `w` bits reversed. -/
def reflect : Nat → Nat → Nat
  | 0, _ => 0
  | w + 1, v => (v % 2) * 2 ^ w + reflect w (v / 2)

/-! ### Check sequences (R179, R186, R455) -/

/-- One message bit through a `w`-bit check register with polynomial `poly`. -/
def crcBit (w poly reg : Nat) (b : Bool) : Nat :=
  let r := (2 * reg) % 2 ^ w
  if Bool.xor (bit reg (w - 1)) b then r ^^^ poly else r

/-- One message byte, most significant bit first unless `refin`. -/
def crcByte (w poly : Nat) (refin : Bool) (reg : Nat) (b : Byte) : Nat :=
  let order := if refin then [0, 1, 2, 3, 4, 5, 6, 7] else [7, 6, 5, 4, 3, 2, 1, 0]
  order.foldl (fun r i => crcBit w poly r (bit b.toNat i)) reg

/-- The check value of `data` (R455). -/
def crc (w poly init xorout : Nat) (refin refout : Bool) (data : Bytes) : Nat :=
  let r := data.foldl (crcByte w poly refin) init
  (if refout then reflect w r else r) ^^^ xorout

/-- The CRC-16 of control blocks and configuration messages (R179). -/
def crc16 (data : Bytes) : Nat := crc 16 0x1021 0xFFFF 0 false false data

/-- The CRC-32C of packets, Marori messages and ledger records (R186). -/
def crc32c (data : Bytes) : Nat := crc 32 0x1EDC6F41 0xFFFFFFFF 0xFFFFFFFF true true data

/-! ### Sparse tables -/

/-- The canonical form of a table whose unlisted keys read as `d`: keys strictly rising, no entry equal to `d`. -/
def tblWf {α : Type} [DecidableEq α] (d : Nat → α) : Tbl α → Bool
  | [] => true
  | (k, v) :: rest => decide (v ≠ d k) && (rest.all fun e => decide (k < e.1)) && tblWf d rest

/-- What the table reads at key `k`. -/
def tblRead {α : Type} (d : Nat → α) : Tbl α → Nat → α
  | [], k => d k
  | (k', v) :: rest, k => if k' = k then v else tblRead d rest k

/-- The table without an entry at `k`. -/
def tblDrop {α : Type} : Tbl α → Nat → Tbl α
  | [], _ => []
  | (k', v) :: rest, k => if k' = k then tblDrop rest k else (k', v) :: tblDrop rest k

/-- The table with the entry `v` at `k`. -/
def tblPut {α : Type} : Tbl α → Nat → α → Tbl α
  | [], k, v => [(k, v)]
  | (k', v') :: rest, k, v =>
    if k' = k then (k, v) :: rest
    else if k < k' then (k, v) :: (k', v') :: rest
    else (k', v') :: tblPut rest k v

/-- The table that reads `v` at `k` and as before elsewhere, in canonical form. -/
def tblWrite {α : Type} [DecidableEq α] (d : Nat → α) (t : Tbl α) (k : Nat) (v : α) : Tbl α :=
  if v = d k then tblDrop t k else tblPut t k v

/-! ### Lists as queues -/

/-- `l` with the element at `i` replaced by `f` of it. -/
def updAt {α : Type} : List α → Nat → (α → α) → List α
  | [], _, _ => []
  | a :: rest, 0, f => f a :: rest
  | a :: rest, i + 1, f => a :: updAt rest i f

/-- The last `n` elements of `l`. -/
def lastN {α : Type} (n : Nat) (l : List α) : List α := l.drop (l.length - n)

/-- The sum of `f` over `l`. -/
def sumBy {α : Type} (f : α → Nat) (l : List α) : Nat := l.foldl (fun a x => a + f x) 0

/-- The element of `l` with the least key, the first of equals. -/
def leastBy {α : Type} (f : α → Nat) : List α → Option α
  | [] => none
  | a :: rest =>
    match leastBy f rest with
    | none => some a
    | some b => if f b < f a then some b else some a

/-- `f` applied for each number below `n`, in rising order. -/
def forRange {σ : Type} (n : Nat) (f : Nat → σ → σ) (s : σ) : σ :=
  (List.range n).foldl (fun s i => f i s) s

/-- `f` applied for each member of `l`, in order. -/
def forEach {α σ : Type} (l : List α) (f : α → σ → σ) (s : σ) : σ := l.foldl (fun s a => f a s) s

/-! ### The rows of the object dictionary -/

/-- The value types of R404. -/
inductive ObjTy where
  | bool | u8 | u16 | u32 | u64 | i16 | i32 | i64 | time96 | string | domain
deriving DecidableEq, Repr

/-- The access classes of Scope and conventions. -/
inductive Access where
  | ro | rw | rwc | wo | cmd | guarded
deriving DecidableEq, Repr

/-- One object of the dictionary: its address (index and subindex), type, access class, number of elements (1 when it
is not an array), default word, and range. -/
structure ObjRow where
  addr : Nat
  ty : ObjTy
  access : Access
  elems : Nat
  dflt : Nat
  lo : Int
  hi : Int
deriving DecidableEq, Repr

/-- The bytes of a fixed-size type (R404); 0 for STRING and DOMAIN. -/
def ObjTy.bytes : ObjTy → Nat
  | .bool | .u8 => 1
  | .u16 | .i16 => 2
  | .u32 | .i32 => 4
  | .u64 | .i64 => 8
  | .time96 => 12
  | .string | .domain => 0

/-- Whether the type is two's complement (R404). -/
def ObjTy.signed : ObjTy → Bool
  | .i16 | .i32 | .i64 => true
  | .bool | .u8 | .u16 | .u32 | .u64 | .time96 | .string | .domain => false

end Sys2Proof.Machine
end

