-- ==== Sys2Proof/Machine/Operands.lean ====
section
/-! DEFINITION. The layouts of what the chips send: records (R126 to R132, R165), packets' blocks and descriptors
(R166, R185), fast-command and link blocks (R190, R196), configuration messages (R219). -/

namespace Sys2Proof.Machine

/-! ### Records -/

/-- A hit record (R126). `time` is TIME[33:14]. -/
def hitRecord (chan time tot : Nat) (settling totSat stale : Bool) : Record :=
  BitVec.ofNat 48 (chan % 4096 * 2 ^ 34 + time % 2 ^ 20 * 2 ^ 14 + tot % 2048 * 8 + flag 2 settling + flag 1 totSat
    + flag 0 stale)

/-- The kinds of a flood record (R127). -/
inductive FloodKind where
  | regionStart | regionEnd | chipStart | chipEnd
deriving DecidableEq, Repr

/-- The code of a flood record's kind (R127). -/
def floodKindCode : FloodKind → Nat
  | .regionStart => 0 | .regionEnd => 1 | .chipStart => 2 | .chipEnd => 3

/-- A flood record (R127). `time` has the layout of TIME with fine bin 0; 0xFFFFF stands for still in FLOOD at the
frame's end. COUNT saturates. -/
def floodRecord (region time count : Nat) (k : FloodKind) : Record :=
  BitVec.ofNat 48 (1 * 2 ^ 46 + min region 255 * 2 ^ 38 + time % 2 ^ 20 * 2 ^ 18 + min count 65535 * 4 + floodKindCode k)

/-- A frame marker (R128). -/
def markerRecord (frame hits dead lane : Nat) (short ovf floodOpen dtSat : Bool) : Record :=
  BitVec.ofNat 48 (2 * 2 ^ 46 + frame % 4096 * 2 ^ 34 + min hits 4095 * 2 ^ 22 + min dead 65535 * 2 ^ 6 + lane % 4 * 16
    + flag 3 short + flag 2 ovf + flag 1 floodOpen + flag 0 dtSat)

/-- An extended record of a subtype (R129). -/
def extRecord (subtype payload : Nat) : Record :=
  BitVec.ofNat 48 (3 * 2 ^ 46 + subtype % 16 * 2 ^ 42 + payload % 2 ^ 42)

/-- The kinds of a LOSS record (R130). -/
inductive LossKind where
  | frameClose | deadTime
deriving DecidableEq, Repr

/-- A LOSS record (R130). -/
def lossRecord (k : LossKind) (region value : Nat) : Record :=
  extRecord 0 ((match k with | .frameClose => 1 | .deadTime => 2) * 2 ^ 38 + region % 256 * 2 ^ 30 + min value (2 ^ 30 - 1))

/-- A QUEUE_RESET record (R131): queue code, index, cause, NONHIT, discarded hits and their frame. -/
def queueResetRecord (queue index cause : Nat) (nonHit : Bool) (count frame : Nat) : Record :=
  extRecord 1 (queue % 8 * 2 ^ 39 + index % 256 * 2 ^ 31 + cause % 4 * 2 ^ 29 + flag 28 nonHit
    + min count 65535 * 2 ^ 12 + frame % 4096)

/-- The events of a CAL_STATUS record (R132). -/
inductive CalEvent where
  | maskSet | maskClear | regionOffSet | regionOffClear | envelopeEnter | envelopeExit | configFault | configRestored
deriving DecidableEq, Repr

/-- The code of a CAL_STATUS event (R132). -/
def calEventCode : CalEvent → Nat
  | .maskSet => 0 | .maskClear => 1 | .regionOffSet => 2 | .regionOffClear => 3 | .envelopeEnter => 4
  | .envelopeExit => 5 | .configFault => 6 | .configRestored => 7

/-- A CAL_STATUS record (R132). `time` is slot, coarse tick and fine bin in the record's frame. -/
def calStatusRecord (e : CalEvent) (region chan time cause : Nat) : Record :=
  extRecord 2 (calEventCode e * 2 ^ 38 + region % 256 * 2 ^ 30 + chan % 16 * 2 ^ 26 + time % 2 ^ 20 * 2 ^ 6 + cause % 64)

/-- A SNAPSHOT_HEADER record (R165). -/
def snapHeaderRecord (region mask source slot coarse sub event : Nat) (partial_ settling missed : Bool) : Record :=
  extRecord 3 (region % 256 * 2 ^ 34 + mask % 16 * 2 ^ 30 + source % 4 * 2 ^ 28 + slot % 256 * 2 ^ 20
    + coarse % 8 * 2 ^ 17 + sub % 8 * 2 ^ 14 + event % 256 * 2 ^ 6 + flag 5 partial_ + flag 4 settling + flag 3 missed)

/-- The TIME field of a slot in frame and coarse tick, fine bin 0 (R127, R132). -/
def timeField (slot coarse : Nat) : Nat := slot % 256 * 2 ^ 12 + coarse % 8 * 2 ^ 9

/-- The TYPE of a record (R126 to R129). -/
def recType (r : Record) : Nat := field r.toNat 47 46

/-! ### Configuration messages (R219) -/

/-- A configuration message (R219): MSG_TYPE, ALIVE, object, element, value, CRC-16. -/
def configBytes (type alive index sub elem : Nat) (value : Bytes) : Bytes :=
  let body := beBytes 1 type ++ beBytes 1 (alive % 16 * 16) ++ beBytes 2 index ++ beBytes 1 sub ++ beBytes 2 elem
    ++ beBytes 1 value.length ++ value
  body ++ beBytes 2 (crc16 body)

/-- A configuration response (R219). -/
def configResponse (type alive status sub elem : Nat) (value : Bytes) : Bytes :=
  let body := beBytes 1 (type ||| 0x80) ++ beBytes 1 (alive % 16 * 16) ++ beBytes 1 status ++ beBytes 1 0
    ++ beBytes 1 sub ++ beBytes 2 elem ++ beBytes 1 value.length ++ value
  body ++ beBytes 2 (crc16 body)

/-! ### Control blocks (R179, R185, R190, R196) -/

/-- A control block's payload: bits [127:16] given, the CRC-16 of them in [15:0] (R179). -/
def controlBlock (v : Nat) : BitVec 128 :=
  let hi := v / 2 ^ 16 % 2 ^ 112
  BitVec.ofNat 128 (hi * 2 ^ 16 + crc16 (beBytes 14 hi))

/-- The SOP block (R185). -/
def sopBlock (kind lane seq frame cyc blocks : Nat) : BitVec 128 :=
  controlBlock (0x33 * 2 ^ 120 + kind % 4 * 2 ^ 118 + lane % 8 * 2 ^ 115 + seq % 4096 * 2 ^ 103 + frame % 4096 * 2 ^ 91
    + cyc % 256 * 2 ^ 83 + blocks % 64 * 2 ^ 77)

/-- The EOP block (R185). -/
def eopBlock (seq validBytes crc32 : Nat) : BitVec 128 :=
  controlBlock (0x4B * 2 ^ 120 + seq % 4096 * 2 ^ 108 + validBytes % 32 * 2 ^ 103 + crc32 % 2 ^ 32 * 2 ^ 71)

/-- FORM and OPERAND of a fast command (R196). -/
def fcmdFields : FcmdOp → Nat × Nat
  | .cal es => (1, maskOf (es.map Fin.val))
  | .bias g l => (2, g.toNat * 2 ^ 48 + l.val * 2 ^ 46)
  | .mode c => (3, c.val * 2 ^ 48)
  | .cycleEnd => (4, 0)
  | .inject => (5, 0)
  | .tickPhase h => (6, unsgn 8 h * 2 ^ 48)

/-- The FCMD block (R196). -/
def fcmdBlock (id : Nat) (op : FcmdOp) (cyc slot : Nat) : BitVec 128 :=
  let (form, operand) := fcmdFields op
  controlBlock (0x87 * 2 ^ 120 + id % 256 * 2 ^ 112 + form * 2 ^ 108 + cyc % 256 * 2 ^ 100 + slot % 2 ^ 20 * 2 ^ 80
    + operand * 2 ^ 16)

/-- The LINKSTAT block, and with type 0xC3 the concentrator's SYNC (R190, R207). -/
def linkstatBlock (type : Nat) (lanes : List LaneStat) : BitVec 128 :=
  let part := fun (il : LaneStat × Nat) =>
    (flag 20 il.1.ackValid + il.1.ackSeq.toNat * 2 ^ 8 + il.1.credit.toNat) * 2 ^ (99 - 21 * il.2)
  controlBlock (type * 2 ^ 120 + (lanes.zipIdx.take 4).foldl (fun a il => a + part il) 0)

/-- Data blocks of a packet of `m` records, and the valid bytes of the last (R133). -/
def recordBlocks (m : Nat) : Nat × Nat := (ceilDiv (6 * m) 16, if 6 * m % 16 = 0 then 16 else 6 * m % 16)

/-- The bytes of records packed in queue order (R133). -/
def packRecords (rs : List Record) : Bytes := rs.flatMap fun r => beBytes 6 r.toNat

/-! ### The snapshot descriptor (R166) -/

/-- The descriptor block of a snapshot packet (R166). -/
def snapDescriptor (event region sampler input : Nat) (raw : Bool) (cycLo frame slot coarse sub stop valid : Nat)
    (phase : Int) (source : Nat) (settling calFault : Bool) (missed dead clipped : Nat) (lostBefore : Bool) : Nat :=
  event % 256 * 2 ^ 120 + region % 256 * 2 ^ 112 + sampler % 4 * 2 ^ 110 + input % 32 * 2 ^ 105 + flag 104 raw
    + cycLo % 256 * 2 ^ 96 + frame % 4096 * 2 ^ 84 + slot % 256 * 2 ^ 76 + coarse % 8 * 2 ^ 73 + sub % 8 * 2 ^ 70
    + stop % 128 * 2 ^ 63 + valid % 256 * 2 ^ 55 + unsgn 10 phase * 2 ^ 45 + source % 4 * 2 ^ 43 + flag 42 settling
    + flag 41 calFault + min missed 255 * 2 ^ 33 + min dead 65535 * 2 ^ 17 + min clipped 255 * 2 ^ 9 + flag 8 lostBefore

end Sys2Proof.Machine
end

