-- ==== Sys2Proof/Machine/State.lean ====
section
/-! DEFINITION. The state of one Varwient concentrator with its 32 front ends, as plain data: the object dictionary,
the slot grid, the front ends, the ports, the control path and every queue and counter the spec names, and the queue of
commands that wait. -/

namespace Sys2Proof.Machine

/-! ### Front end (chapters 3 to 7) -/

/-- The channel states of R88. -/
inductive ChanSt where
  | armed | pulse | rearm | waitLow | blocked | refresh
deriving DecidableEq, Repr

/-- One entry of a channel queue (R86): stamps as absolute coarse ticks of the stop edge and raw codes, and what is
latched at the leading edge; `cycleAt` is the first slot of the leading edge's cycle. -/
structure HitEntry where
  leadTick : Nat
  leadFine : Nat
  trailTick : Nat
  trailFine : Nat
  complete : Bool
  totSat : Bool
  c1 : Nat
  c2 : Nat
  stale : Bool
  settling : Bool
  lsb : Nat
  cycleAt : Nat
deriving DecidableEq, Repr

/-- One channel (R86 to R97). `deadFrom` is the coarse tick up to which its dead time has been counted; `edgeTick` and
`edgeBin` are the last leading edge's coarse tick and time in fine bins, `captured` says whether it was captured, `crossings`
are the threshold crossings in progress, `stretchTo` the fine bin up to which the output stays high after the last of them
(R85); `edgeBefore` is the slot of the last leading edge in a slot before that of `lastEdge`. REARM, REFRESH, and WAIT_LOW with
no crossing left, end at `endTick`; a reset channel, in REFRESH with `toWait`, then goes to WAIT_LOW when its discriminator is
high (R150). -/
structure Chan where
  st : ChanSt := .armed
  queue : List HitEntry := []
  pairC1 : Nat := 0
  pairC2 : Nat := 0
  pairValid : Bool := false
  pairAt : Nat := 0
  lastInvalid : Bool := false
  rearmed : Bool := false
  deadFrom : Nat := 0
  endTick : Nat := 0
  edgeTick : Nat := 0
  edgeBin : Int := 0
  captured : Bool := false
  high : Bool := false
  crossings : Nat := 0
  stretchTo : Int := 0
  toWait : Bool := false
  lastEdge : Option Nat := none
  edgeBefore : Option Nat := none
  settleUntil : Nat := 0
  fullFrom : Option Nat := none
  fullBase : Nat := 0
  pwDone : Bool := false
deriving DecidableEq, Repr

/-- A record on its way to a lane (R126 to R132): its bits, whether it is a hit, its region, the frame it belongs to
(the frame's first slot) and the slot of its age key (R122). -/
structure QRec where
  bits : Record
  hit : Bool
  region : Nat
  frame : Nat
  idx : Nat
  cyc : Nat
  key : Nat
deriving DecidableEq, Repr

/-- The states of a snapshot sampler (R162, R170). -/
inductive SampSt where
  | idle | armed | frozen | converted
deriving DecidableEq, Repr

/-- What a freeze latches for its descriptor (R166). -/
structure SnapInfo where
  event : Nat
  source : Nat
  input : Nat
  raw : Bool
  inst : Nat
  frame : Nat
  frameIdx : Nat
  cycLo : Nat
  phase : Int
  settling : Bool
  valid : Nat
  missed : Nat
  dead : Nat
  lostBefore : Bool
deriving DecidableEq, Repr

/-- One sampler (R153 to R164). `armedAt`, `frozenAt` and `freeAt`, the end of its last transfer, are absolute sample
periods; `owes` says that the dead interval of its last freeze is not in `lastDead` yet; up to its re-arm `wordWas` is the
configuration in force (R173). -/
structure Sampler where
  st : SampSt := .idle
  armedAt : Nat := 0
  frozenAt : Nat := 0
  freeAt : Nat := 0
  missed : Nat := 0
  owes : Bool := false
  lastDead : Nat := 0
  lostBefore : Bool := false
  forCal : Bool := false
  info : Option SnapInfo := none
  stopCell : Nat := 0
  codes : List Nat := []
  word : Nat := 0
  wordWas : Nat := 0
deriving DecidableEq, Repr

/-- One region: bias (R66 to R70), phase (R103 to R106) with the last stamps of its monitor in fine bins, newest first, and
since when it is out of OFF, flood guard (R143 to R149), queue and round-robin pointer. -/
structure Region where
  level : Nat := 0
  commanded : Nat := 0
  settleUntil : Nat := 0
  settleFrom : Nat := 0
  outFrom : Option Nat := none
  cfgFault : Bool := false
  cfgRewritten : Bool := false
  cfgUntil : Nat := 0
  flood : Bool := false
  floodFrom : Nat := 0
  startDealt : Bool := false
  suppressed : Nat := 0
  lastEdge : Nat := 0
  rate : Nat := 0
  queue : List QRec := []
  lastChan : Nat := 0
  fullFrom : Option Nat := none
  fullAcc : Nat := 0
  phase : Int := 0
  stamps : List Int := []
  onFrom : Nat := 0
  corr : Int := 0
  prevCorr : Int := 0
  readAt : Option Nat := none
  floodDue : Option Nat := none
deriving DecidableEq, Repr

/-- A front-end frame that is not yet complete (R138), named by its first slot; `heldAt` is the last slot in which a
dealer or an arbiter took something of it away. -/
structure FeFrame where
  start : Nat
  stop : Nat
  idx : Nat
  cyc : Nat
  short : Bool := false
  ended : Bool := false
  dead : Nat := 0
  rgDead : Tbl Nat := []
  deadUnits : Nat := 0
  dtSat : Bool := false
  ovf : Bool := false
  floodOpen : Bool := false
  closed : Bool := false
  heldAt : Option Nat := none
  marks : Bool := false
  hits : Bool := false
deriving DecidableEq, Repr

/-- A frame marker waiting in a lane output queue (R128). -/
structure Marker where
  frame : Nat
  idx : Nat
  cyc : Nat
  dead : Nat
  short : Bool
  ovf : Bool
  floodOpen : Bool
  dtSat : Bool
deriving DecidableEq, Repr

/-- What a lane output queue holds. -/
inductive LaneItem where
  | entry (r : QRec)
  | marker (m : Marker)
deriving DecidableEq, Repr

/-- A packet in a lane's replay buffer (R188). -/
structure RPacket where
  seq : Nat
  kind : Nat
  frame : Nat := 0
  frameIdx : Nat
  cycLo : Nat
  payload : Payload
  tx : Nat
  lastTx : Nat
deriving DecidableEq, Repr

/-- One logical lane at the front end: its output queue, packetiser, replay buffer, credits and link state. -/
structure FeLane where
  queue : List LaneItem := []
  placed : Tbl Nat := []
  since : Nat := 0
  due : Bool := false
  nextSeq : Nat := 0
  replay : List RPacket := []
  sent : Nat := 0
  credit : Nat := 0
  creditErrors : Nat := 0
  resetSeen : Bool := true
  inactiveFrom : Option Nat := none
  activeFrom : Option Nat := none
  sinceSnap : Nat := 16
deriving DecidableEq, Repr

/-- A fast command a front end has received and not finished (R199): `left` are the CAL entries not yet processed. -/
structure FeCmd where
  id : Nat
  op : FcmdOp
  cyc : Nat
  slot : Nat
  order : Nat
  left : List (Fin 64)
deriving DecidableEq, Repr

/-- A named freeze instant (R156): absolute sample period, source code, regions and samplers it selects. -/
structure Freeze where
  inst : Nat
  source : Nat
  regions : Nat
  samplers : Nat
deriving DecidableEq, Repr

/-- One converted sampler in the snapshot queue (R163). -/
structure SnapItem where
  region : Nat
  sampler : Nat
  frame : Nat
  frameIdx : Nat
  cycLo : Nat
  descriptor : Nat
  samples : List Nat
  ready : Nat
deriving DecidableEq, Repr

/-- The power states of a front end (R483). -/
inductive FePower where
  | powerOn | lowPower | running
deriving DecidableEq, Repr

/-- One entry of a front end's calendar mirror (R200). -/
structure MirrorEntry where
  action : Nat := 0
  groups : Nat := 0xFFFF
  arg : Nat := 0
deriving DecidableEq, Repr

/-- One VF4096. `step` is the last step of R141 taken in slot `stepSlot`; `chipOver` says whether more than FLOOD_CHIP_N
regions have been in FLOOD since slot `chipSince`, `chipWas` what it said before and since when (R148); in a calibration phase `calLeft` freezes are left, the next at slot
`calNext` (R170); `floorReport` waits for the next configuration response and `floorSent` travels with the one outstanding
(R62); `fence` is the fence's maximum level per group (R366). -/
structure FrontEnd where
  power : FePower := .powerOn
  supplyFrom : Nat := 0
  mode : Mode := .boot
  gridSet : Bool := false
  cycLo : Nat := 0
  cycleStart : Nat := 0
  prevStart : Nat := 0
  cycleLen : Nat := 1000000
  endAt : Option Nat := none
  tickPhase : Int := 0
  frames : List FeFrame := []
  chans : Tbl Chan := []
  regions : Tbl Region := []
  columns : Vector (List QRec) 16 := Vector.replicate 16 []
  colLast : Vector Nat 16 := Vector.replicate 16 0
  colMoved : Vector (Option Nat) 16 := Vector.replicate 16 none
  dealLast : Nat := 0
  dealtAt : Option Nat := none
  dealt : List Nat := []
  records : List QRec := []
  lanes : Vector FeLane 4 := Vector.replicate 4 {}
  deadCarry : Nat := 0
  chipFlood : Bool := false
  chipOver : Bool := false
  chipSince : Nat := 0
  chipWas : Bool × Nat := (false, 0)
  chipSuppr : Nat := 0
  stepSlot : Nat := 0
  step : Nat := 0
  -- samplers and snapshots
  samplers : Tbl Sampler := []
  freezes : List Freeze := []
  eventNo : Nat := 0
  snapQueue : List SnapItem := []
  busFree : Vector Nat 16 := Vector.replicate 16 0
  snapCal : Nat := 0
  calDoneAt : Nat := 0
  calLeft : Nat := 0
  calNext : Nat := 0
  zeroSums : Tbl Nat := []
  fullSums : Tbl Nat := []
  zeroN : Nat := 1
  fullN : Nat := 1
  coefs : Tbl Nat := []
  -- fast commands
  cmds : List FeCmd := []
  history : List Nat := []
  cmdOrder : Nat := 0
  executed : Nat := 0
  late : Nat := 0
  discarded : Nat := 0
  -- configuration
  alive : Option Nat := none
  aliveSkips : Nat := 0
  prevMsg : Bytes := [0, 0, 0, 0, 0, 0, 0, 0]
  prevValue : Bytes := []
  staging : Tbl Nat := []
  applyAt : Option Nat := none
  applyAtCycle : Bool := false
  mirror : Tbl MirrorEntry := []
  mirrorNext : Tbl MirrorEntry := []
  mirrorNextCyc : Option Nat := none
  clearTiming : Option Nat := none
  clearReadout : Option Nat := none
  responses : List Bytes := []
  floorReport : List (Nat × Nat) := []
  floorSent : List (Nat × Nat) := []
  fence : Vector Nat 16 := Vector.replicate 16 3
  told : Tbl Nat := []
  -- links
  ulTrain : Vector (Option Nat) 5 := Vector.replicate 5 none
  ulAttempt : Vector Nat 5 := Vector.replicate 5 0
  dlLock : Vector Bool 2 := Vector.replicate 2 false
  activeDl : Nat := 0
  dlLostAt : Option Nat := none
  laneMap : Nat := 0x0688
  spareFor : Option (Nat × Nat) := none
  wakePending : Nat := 0
  wakeSetAt : Tbl Nat := []
  renewAt : Tbl Nat := []
  wakeSentAt : Option Nat := none
  lastPower : Nat := 0
  lastTemp : Int := 0
  fenceActed : Bool := false
  lastFence : Bool := false
  lastTrip : Bool := false
  festatAt : Nat := 0
  tripped : Bool := false
  tripFrom : Option Nat := none
deriving DecidableEq, Repr

/-! ### Concentrator ports (chapter 7) -/

/-- A fast command the concentrator holds for a port (R196 to R198): its target as full cycle number, slot and absolute
slot, the tokens each copy uses, the commands it counts, and how many copies have been sent. -/
structure Fcmd where
  op : FcmdOp
  cycle : Nat
  slot : Nat
  target : Nat
  rank : Nat
  tokens : Nat
  id : Option Nat := none
  copies : Nat := 0
deriving DecidableEq, Repr

/-- One logical lane at the concentrator (R188 to R192). -/
structure ConcLane where
  expected : Nat := 0
  ackValid : Bool := false
  credit : Nat := 0
  received : Nat := 0
  lastNak : Option Nat := none
  statOwed : Bool := false
  nakOwed : Bool := false
deriving DecidableEq, Repr

/-- A delay measurement under way (R209): the downlink, REQ_ID, the slot and the stamp of the request. -/
structure Probe where
  dl : Nat
  id : Nat
  at_ : Nat
  t1 : Nat
deriving DecidableEq, Repr

/-- The transmitter of a lane (R180 to R183): blocks sent of the superblock in progress, SUPER_NUM of the next SUPER block,
the scrambler, the last line bit and its run, and the line bits of the item sent last. -/
structure Tx where
  count : Nat := 0
  superNum : Nat := 0
  scr : Nat := 0
  last : Bool := false
  run : Nat := 0
  line : List Bool := []
deriving DecidableEq, Repr

/-- One physical lane or downlink as its receiver sees it (R184, R203, R204, R213). -/
structure LinkState where
  lock : Bool := false
  ready : Bool := false
  up : Bool := false
  absent : Bool := false
  failed : Bool := false
  training : Bool := false
  attempt : Nat := 0
  attemptAt : Nat := 0
  lockAt : Nat := 0
  reports : Nat := 0
  powered : Bool := true
  bad : Nat := 0
  losses : List Nat := []
  cleanFrom : Nat := 0
  prbs : Nat := 0
deriving DecidableEq, Repr

/-- A LANEMAP received (R213): logical lane, physical lane (7 inactive), first slot of its first frame. -/
structure LaneChange where
  lane : Nat
  phys : Nat
  frame : Nat
  from_ : Nat
deriving DecidableEq, Repr

/-- Why the Keeper sends a configuration message: for a request (R426) or one part of a long value of one (R428), to rewrite
from its mirror (R427), to send
CYCLE_LEN (R47) or the calendar mirror (R200), or to resolve an outcome (R432), or for a rate sweep (R496). -/
inductive CfgWhy where
  | request (w : Writer)
  | chunk (w : Writer)
  | rewrite
  | cycleLen
  | mirror (n : Nat)
  | askPrev
  | readBack
  | rate
deriving DecidableEq, Repr

/-- The configuration message outstanding to a port (R221). -/
structure CfgMsg where
  type : Nat
  alive : Nat
  index : Nat
  sub : Nat
  elem : Nat
  value : Bytes
  firstTx : Nat
  lastTx : Nat
  sends : Nat
  why : CfgWhy
  chunks : List Bytes
deriving DecidableEq, Repr

/-- One port of the concentrator. -/
structure CPort where
  dls : Vector LinkState 2 := #v[{}, { powered := false }]
  uls : Vector LinkState 5 := #v[{}, {}, {}, {}, { powered := false }]
  activeDl : Nat := 0
  trainDl : Nat := 0
  everUp : Bool := false
  request : Nat := 0
  failedMask : Nat := 0
  beaconAt : Nat := 0
  beaconOwed : Bool := false
  burstAt : Option Nat := none
  spareFor : Option Nat := none
  spareLane : Nat := 4
  changes : List LaneChange := []
  lanes : Vector ConcLane 4 := Vector.replicate 4 {}
  linkstatAt : Nat := 0
  -- delay
  reqId : Nat := 0
  probe : Option Probe := none
  probeAt : Nat := 0
  rtts : List (Nat × Int) := []
  otherRtts : List (Nat × Int) := []
  trainMeas : Nat := 0
  otherMeas : Nat := 0
  swapSent : Option Nat := none
  filtD : Int := 0
  gridQ : Int := 0
  tickMoveAt : Option (Nat × Int) := none
  dlSwapAt : Option Nat := none
  dlSwapWanted : Bool := false
  dlGapFrom : Option Nat := none
  -- fast commands
  cmds : List Fcmd := []
  nextId : Nat := 0
  tokens : Nat := 64
  tokensAt : Nat := 0
  calTo : Nat := 0
  winTo : Nat := 0
  limited : Bool := false
  counted : Nat := 0
  feExec : Nat := 0
  feLate : Nat := 0
  feDisc : Nat := 0
  festatAt : Nat := 0
  staleFrom : Option Nat := none
  injectSlot : Nat := 0
  injectLeft : Nat := 0
  injectNext : Nat := 0
  -- configuration
  alive : Nat := 0
  cfg : Option CfgMsg := none
  unresolved : Option CfgMsg := none
  resolved : Option Status := none
  upAt : Nat := 0
  feReset : Bool := false
  cfgWaiting : List CfgMsg := []
  mirrorAcked : Bool := true
  mirrorNo : Nat := 0
  mirrorLeft : Nat := 0
  mirrorBoundary : Nat := 0
  mirrorCycle : Nat := 0
  cycLenAcked : Bool := true
  timeSetOwed : Bool := false
  floorTold : Bool := false
deriving DecidableEq, Repr

/-! ### Time base (chapter 8) -/

/-- The time-base states of R241. -/
inductive TbState where
  | free | acquiring | locked | holdover | disputed
deriving DecidableEq, Repr

/-- A master heard on a timing port (R232): its port identity, what it announces, the slots of its last Announces, newest first,
and their log interval. -/
structure Foreign where
  src : Nat
  data : Announced
  times : List Nat
  log : Int
deriving DecidableEq, Repr

/-- A Sync that waits for its exchange (R233): its number, the slot and the reading t2 of its arrival, its correction, and t1
once its Follow_Up has come. -/
structure PtpSync where
  seq : Nat
  slot : Nat
  t2 : Int
  corr : Int
  t1 : Option Int := none
deriving DecidableEq, Repr

/-- One PTP source (R232 to R234): the masters heard and the one selected; the Syncs that wait, newest first; the Delay_Req that
is open, as number, t3 and slot. `thetas` are the last 16 values of θ in 2⁻¹⁶ ns with the slots they were computed at, newest
first; `paths` the last 16 path delays. -/
structure PtpSource where
  foreign : List Foreign := []
  master : Option Nat := none
  clockClass : Nat := 255
  announceAt : Nat := 0
  logAnnounce : Int := 0
  logSync : Int := 0
  syncs : List PtpSync := []
  requests : List (Nat × Int × Nat) := []
  thetas : List (Int × Nat) := []
  thetaAt : Nat := 0
  paths : List Int := []
  qualified : Bool := false
  qualAt : Nat := 0
  disagree : Bool := false
  badInterval : Nat := 0
deriving DecidableEq, Repr

/-- One SYNCE source (R235): its last 16 frequency windows in 2⁻⁴⁸, newest first, and its last ESMC PDU. -/
structure SynceSource where
  windows : List Int := []
  esmcAt : Option Nat := none
  qualified : Bool := false
  qualAt : Nat := 0
deriving DecidableEq, Repr

/-- A step or first setting that waits for its boundary (R246, R247): from an accepted write, a first source, or a
preset reading in 2⁻¹⁶ ns. -/
inductive StepKind where
  | accepted | first | preset (reading : Int)
deriving DecidableEq, Repr

/-- A movement of the cycle grid that waits for the first boundary of the new grid (R26): that boundary's slot, the
cycle number its first cycle takes when one is named, and the movement in slots. -/
structure GridMove where
  at_ : Nat
  cycle : Option Nat
  delta : Int
  synth : Bool
  record : Bool
  mark : Bool := false
deriving DecidableEq, Repr

/-- Parameters of a reading that were in force until a slot (R229). -/
structure TimeParams where
  until_ : Nat
  ofs : Int
  upd : Nat
  rate : Int
deriving DecidableEq, Repr

/-- The state a time base holds and copies to its standby at each cycle boundary (R260). `integ` is I of R238, `past` the
parameters that were in force before the present ones, `stateWas` the state before `stateFrom`. -/
structure TimeBase where
  ofs : Int := 0
  upd : Nat := 0
  rate : Int := 0
  next : Option (Nat × Int) := none
  past : List TimeParams := []
  integ : Rat := 0
  state : TbState := .acquiring
  stateWas : TbState := .acquiring
  stateFrom : Nat := 0
  timeSet : Bool := false
  freeSet : Bool := false
  ptp : Vector PtpSource 2 := Vector.replicate 2 {}
  synce : Vector SynceSource 2 := Vector.replicate 2 {}
  phaseSrc : Option (Fin 2) := none
  freqSrc : Option (Fin 2) := none
  leftLocked : Option Nat := none
  fallbackFrom : Option Nat := none
  fallbackAcc : Nat := 0
  accepted : List Int := []
  outliers : List Int := []
  slewing : Bool := false
  slewRun : Nat := 0
  tauFrom : Option Nat := none
  step : Option (StepKind × Nat) := none
  homeDue : Bool := false
  -- flywheel and synthesiser
  cmInput : Nat := 0
  cmRun : List Int := []
  cmOther : Nat := 0
  cmMissed : Nat := 0
  cmAwait : List Nat := []
  cmAhead : Option Nat := none
  cmLost : Bool := false
  aligning : Bool := false
  errRun : Nat := 0
deriving DecidableEq, Repr

/-- One REFCLK input (R248). -/
structure RefInput where
  windows : Nat := 0
  qualified : Bool := false
  ppb : Int := 0
deriving DecidableEq, Repr

/-- One queued stamp of the interval monitor, 128 bits (R265). -/
abbrev Stamp := BitVec 128

/-- The block in progress of an interval-monitor channel (R268). -/
structure TimBlock where
  n : Nat := 0
  sum : Int := 0
  sumSq : Nat := 0
  min : Int := 0
  max : Int := 0
  excluded : Nat := 0
  flags : Nat := 0
deriving DecidableEq, Repr

/-- A stamped edge of an interval-monitor channel: its counter value in fine bins, its time in 2⁻¹⁶ ns, PAIR_STALE, the step count at
it, and, for a measurement that waits, the reference input set at it and the FLAGS it brings to its block (R267, R268). -/
structure TimEdge where
  at_ : Int
  time : Int
  stale : Bool
  steps : Nat
  ref : Nat := 0
  flags : Nat := 0
deriving DecidableEq, Repr

/-- One interval-monitor channel (R264 to R268). `pair` is the cell's last valid calibration pair and the slot it was measured at,
`waiting` the stamps of INTERVAL mode whose measurement still waits for the reference input. -/
structure TimChan where
  queue : List Stamp := []
  gained : Nat := 0
  seq : Nat := 0
  lastAt : Option Int := none
  pair : Option (Nat × Nat × Nat) := none
  missed : Bool := false
  overflow : Bool := false
  recent : List TimEdge := []
  lastRise : Option TimEdge := none
  waiting : List TimEdge := []
  block : TimBlock := {}
  blockNo : Nat := 0
  stats : Bytes := List.replicate 56 0
deriving DecidableEq, Repr

/-- The units of chapter 8 beside the active time base's own state. `pulsed` are the seconds that have pulsed, as runs of a first and a
last second and their distance, `pulseAt` the slot of the last pulse (R259); `testFrom` the slots at which the units' self-tests began
(R261); `steppedAt` the slot of the last step. -/
structure TimeUnits where
  copy : TimeBase := {}
  health : Vector Nat 2 := #v[0, 1]
  active : Fin 2 := 0
  swapFrom : Option Nat := none
  refs : Vector RefInput 2 := Vector.replicate 2 {}
  refPend : Option (Nat × Nat) := none
  links : Vector Bool 2 := Vector.replicate 2 false
  pulsed : Vector (List (Nat × Nat × Nat)) 2 := Vector.replicate 2 []
  testFrom : Vector Nat 2 := Vector.replicate 2 0
  pulseAt : Vector (Option Nat) 2 := Vector.replicate 2 none
  steppedAt : Option Nat := none
  tim : Vector TimChan 8 := Vector.replicate 8 {}
  stepRecord : List (Nat × Int × Int) := []
deriving DecidableEq, Repr

/-! ### Grid, modes, control path and ledger (chapters 2, 13, 17) -/

/-- The cycle grid of the concentrator (R21 to R26): the cycle number, the slot at which the cycle began, its length,
the next frame to begin, and a grid movement that is due. -/
structure Grid where
  cycle : Nat := 0
  cycleStart : Nat := 0
  len : Nat := 1000000
  nextFrame : Nat := 0
  move : Option GridMove := none
  bankPend : Option (Nat × Tbl Nat) := none
  calKey : Nat := 0
deriving DecidableEq, Repr

/-- A mode change that waits for its boundary (R29, R30). -/
structure ModePend where
  target : Mode
  cycle : Option Nat
  notBefore : Nat
deriving DecidableEq, Repr

/-- The boot, or the exit from SAFE, in progress (R487, R494): the next step to complete, or none; a SAFE that is planned
and its reason; whether it leaves SAFE; whether steps 6 and 7 are done, alongside each other; whether CONFIGURE is due and
since when; and whether the start still counts as unconfirmed (R489). `cold`: this boot follows a loss of VDD_AON (R442). `stepFrom` is the slot at which the step began. -/
structure BootState where
  step : Option Nat := some 1
  stepFrom : Nat := 0
  planSafe : Option Nat := none
  exitSafe : Bool := false
  cold : Bool := false
  memDone : Bool := false
  clocksDone : Bool := false
  startOpen : Bool := true
deriving DecidableEq, Repr

/-- One ledger record (R507), in the buffer or in flash. -/
structure LedgerRec where
  seq : Nat
  flags : Nat
  time : Nat
  aon : Nat
  source : Nat
  code : Nat
  count : Nat
  v1 : Nat
  v2 : Nat
  v3 : Nat
  restarts : Nat
  cycle : Nat
deriving DecidableEq, Repr

/-- The ledger (R506 to R510): the buffer of waiting records, the records each flash copy holds, the next sequence
number, that of the oldest unread record, and which devices the ledger is written to. -/
structure Ledger where
  buffer : List LedgerRec := []
  copies : Vector (List LedgerRec) 2 := #v[[], []]
  seq : Nat := 0
  readPos : Nat := 0
  devices : Vector Bool 2 := #v[true, true]
deriving DecidableEq, Repr

/-- What VDD_AON keeps through a restart (R395, R398, R442, R489): whether it has just come up, the counts and the reason,
the always-on seconds of failed starts, the image choice, and the milliseconds it had been up when VDD_CORE's reset was last
released. -/
structure AlwaysOn where
  fresh : Bool := true
  restarts : Nat := 0
  reason : Nat := 1
  failedTimes : List Nat := []
  preferred : Nat := 0
  trialState : Nat := 0
  trialImage : Nat := 0xFF
  lost : Nat := 0
  msBase : Nat := 0
deriving DecidableEq, Repr

/-- One entry of a client's transaction table (R417): the stored response when there is one, when it was sent, whether its
outcome is unknown, and whether it was. -/
structure Txn where
  tid : BitVec 16
  response : Option Bytes
  status : Status
  sentAt : Nat
  unknown : Bool
  wasUnknown : Bool := false
deriving DecidableEq, Repr

/-- One client of the Keeper (R415 to R418, R424): its identity and transport, its last accepted ALIVE, when it was heard, its
transactions, its last read of Guard Challenge with the slot, the slot its guard token was given at, and where its responses
go. -/
structure Client where
  id : ClientId
  via : Via
  alive : Option Nat
  heardAt : Nat
  txns : List Txn := []
  challengeRead : Option (Nat × Nat) := none
  tokenAt : Option Nat := none
  mac : Nat := 0
  prio : Nat := 0
deriving DecidableEq, Repr

/-- A request in the Keeper's queue (R409, R421), with the slot of its arrival, and the transport, MAC address and priority its
response goes back with (R412, R413). -/
structure Request where
  arrived : Nat := 0
  client : Fin 16
  tid : BitVec 16
  alive : Nat
  op : Nat
  node : Nat
  port : Nat
  index : Nat
  sub : Nat
  elem : Nat
  value : Bytes
  delegated : Bool := false
  via : Via := .udp 0
  mac : Nat := 0
  prio : Nat := 0
deriving DecidableEq, Repr

/-- A CAN FD request in assembly (R414). -/
structure CanAssembly where
  bus : Nat
  client : Nat
  prio : Nat
  bytes : Bytes
  segNum : Nat
  at_ : Nat
deriving DecidableEq, Repr

/-- The rate sweep in progress (R496). -/
structure RateSweep where
  ports : List Nat
  counts : Nat
  at_ : Nat
deriving DecidableEq, Repr

/-- The Keepers and the control path (R415 to R424, R499 to R503): the active Keeper, the health of both, the slot of the
last takeover, until when the previous one stays a warm standby, and when its self-test began. -/
structure Keeper where
  active : Fin 2 := 0
  health : Vector Nat 2 := #v[0, 1]
  takeover : Option Nat := none
  warmUntil : Option Nat := none
  testFrom : Option Nat := none
  clients : Vector (Option Client) 16 := Vector.replicate 16 none
  queue : List Request := []
  assemblies : List CanAssembly := []
  challenge : Nat := 0
  sweep : Option RateSweep := none
  shared : Tbl Nat := []
deriving DecidableEq, Repr

/-! ### Merge slices and back end (chapter 9) -/

/-- A route-table entry as a slice looked it up (R286, R306). -/
structure Route where
  egress : Nat
  mac : Nat
  ip : Nat
  udp : Nat
  vlan : Nat
  dscp : Nat
deriving DecidableEq, Repr

/-- What a slice takes from a port's packets into a basket (R273): a hit with its corrected in-frame time in fine bins
(R274), ToT and flags, or another record; each with the logical lane that carried it. -/
inductive BItem where
  | hit (port lane chan : Nat) (t : Int) (tot flags : Nat)
  | other (port lane : Nat) (bits : Record)
deriving DecidableEq, Repr

/-- One enabled port's part of a basket (R278, R283, R293): its delay correction for the basket's cycle (R274), the
markers received as HIT_COUNT per lane, DEAD_TIME of the first, the flags of all. -/
structure PortPart where
  port : Nat
  expected : Bool
  missing : Bool
  notUp : Bool
  corr : Int
  degraded : Bool := false
  active : Nat := 0
  marks : Vector (Option Nat) 4 := Vector.replicate 4 none
  dead : Option Nat := none
  flags : Nat := 0
  mismatch : Bool := false
  late : Nat := 0
  lateNonhit : Bool := false
deriving DecidableEq, Repr

/-- Where a basket stands (R279, R281, R325, R331): open, closed and waiting for release, on its way through an egress
queue, held in the latency buffer, or selected and waiting for read-out. -/
inductive BasketSt where
  | open_ | closed | sending | held | selected
deriving DecidableEq, Repr

/-- Where the memory manager has put a run of a port's entries of a basket (R309): the port, the stall, the number of entries and
their block. -/
structure Home where
  port : Nat
  stall : Nat
  count : Nat
  block : Nat
deriving DecidableEq, Repr

/-- One basket (R272, R292). -/
structure Basket where
  num : Nat
  cycle : Nat
  frame : Nat
  start : Nat
  stop : Nat
  mode : Mode
  reading : Int
  rate : Int
  status : Nat
  uncertainty : Nat
  holdover : Nat
  key : Nat
  route : Route
  routePending : Bool
  routeGen : Nat
  format : Nat
  parts : List PortPart
  conc : List Record := []
  items : List BItem := []
  st : BasketSt := .open_
  closeDelay : Nat := 0
  timeout : Bool := false
  tag : Nat := 0
  homes : List Home := []
  index : List Nat := []
deriving DecidableEq, Repr

/-- One fragment or snapshot datagram on its way out (R290, R301): its basket's number, its payload from the fragment
header on, its route and source UDP port, and the numbers of the ring entries it carries. -/
structure Frag where
  num : Option Nat
  last : Bool
  payload : Bytes
  route : Route
  srcUdp : Nat
  entries : List Nat := []
deriving DecidableEq, Repr

/-- The egress queue of one back-end port (R281, R311), and the fragments of the basket the queue is still taking. -/
structure Egress where
  queue : List Frag := []
  feed : List Frag := []
deriving DecidableEq, Repr

/-- The transmitter of one back-end port (R298, R299): the next Identification, a pause in force as its end, its start and its
quanta, and the frames of the management traffic that wait for its end. -/
structure NetPort where
  ident : Nat := 0
  pause : Option (Nat × Nat × Nat) := none
  held : List Bytes := []
deriving DecidableEq, Repr

/-- A snapshot packet received and not yet written into the ring. -/
structure SnapIn where
  port : Nat
  frame : Nat
  cycLo : Nat
  descriptor : BitVec 128
  samples : List (BitVec 12)
  at_ : Nat := 0
deriving DecidableEq, Repr

/-- One unconsumed entry of the snapshot ring (R168): the place of its freeze frame, its 256 bytes, whether it may be
sent, and since when, and whether a datagram with it waits in an egress queue. -/
structure RingEntry where
  seq : Nat
  key : Nat
  bytes : Bytes
  ready : Bool
  at_ : Nat
  queued : Bool := false
deriving DecidableEq, Repr

/-- What stays known of a frame whose basket may have gone (R168, R231): its place cycle × 4,096 + frame, its frame-start
reading and rate, the time status, the port delay corrections in force, whether it is decided by triggers, and how it was
decided. -/
structure FrameInfo where
  key : Nat
  reading : Int
  rate : Int
  status : Nat
  corrs : List Int
  gated : Bool
  decided : Option Bool := none
deriving DecidableEq, Repr

/-- The merge slices, the egress queues and the snapshot ring. `formed` are the frames that have had a basket since the device
left CONFIGURE, newest first, as cycle, first and last frame. -/
structure Merge where
  next : Nat := 0
  baskets : List Basket := []
  caches : Vector (List (Nat × Route)) 8 := Vector.replicate 8 []
  commitAt : Option Nat := none
  rewritten : Bool := false
  formatAt : Option Nat := none
  late : Vector Nat 32 := Vector.replicate 32 0
  lateNonhit : Vector Bool 32 := Vector.replicate 32 false
  waitFrom : Option Nat := none
  egress : Vector Egress 8 := Vector.replicate 8 {}
  ringIn : List SnapIn := []
  ring : List RingEntry := []
  frames : List FrameInfo := []
  formed : List (Nat × Nat × Nat) := []
deriving DecidableEq, Repr

/-! ### Memory, stalls and triggers (chapter 10) -/

/-- A trigger window on grid slots (R326). -/
structure Window where
  start : Int
  width : Nat
  tag : Nat
deriving DecidableEq, Repr

/-- One stall (R312 to R324): the blocks it holds, oldest first, as channel × 2²⁰ + block with the bytes of data in each; the
bytes left in the newest; the channel of its last block; whether its last admission test failed for lack of space; whether its
effective capacity fell below what it stored; its transfers of the last 4,096 slots as slot and bytes (R315); and the cycle in
which BW_SHORT was last recorded (R324). -/
structure Stall where
  blocks : List (Nat × Nat) := []
  room : Nat := 0
  lastCh : Nat := 7
  full : Bool := false
  overCap : Bool := false
  moved : List (Nat × Nat) := []
  shortIn : Option Nat := none
deriving DecidableEq, Repr

/-- One word as diagnostic mode stores it (R310, R342). -/
structure RawWord where
  data : Nat := 0
  check : Nat := 0
  tag : Nat := 0
deriving DecidableEq, Repr

/-- The memory manager and the trigger matcher. Blocks are named channel × 2²⁰ + block; `lost` are those whose block-table entry
proved uncorrectable (R345); `spill` holds the bytes of the SPILL window by address (R371). -/
structure Memory where
  stalls : Tbl Stall := []
  epochs : Tbl Nat := []
  corrections : Tbl (List Nat) := []
  marked : List (Nat × Nat) := []
  retired : List Nat := []
  lost : List Nat := []
  uncTimes : Vector (List Nat) 8 := Vector.replicate 8 []
  scaleAt : Option (Nat × Nat) := none
  restoreAt : Option Nat := none
  scaled : Bool := false
  windows : List Window := []
  gatedFrom : Nat := 0
  decidedTo : Nat := 0
  pauseFrom : Option Nat := none
  scrubUntil : Option Nat := none
  scrubPos : Nat := 0
  scrubPaid : Nat := 0
  scrubAt : Nat := 0
  lapFrom : Nat := 0
  sramLapFrom : Nat := 0
  diag : Tbl RawWord := []
  spill : Tbl Nat := []
deriving DecidableEq, Repr

/-! ### Governor (chapter 11) -/

/-- One die under the governor (R352, R353): since when each rise condition and the fall condition have held, the last
changes as slot and the states before and after, and a flap hold as its end and the lowest state it allows. -/
structure Die where
  rise : Vector (Option Nat) 3 := Vector.replicate 3 none
  fall : Option Nat := none
  changes : List (Nat × Nat × Nat) := []
  state : Nat := 0
  trip : Bool := false
  hold : Option (Nat × Nat) := none
  evalAt : Nat := 0
deriving DecidableEq, Repr

/-- A caddy (R355, R357, R358): its balance in nJ, exact, at reset that of the default depth. -/
structure Caddy where
  bal : Rat := 10000000
  empty : Bool := false
  at_ : Nat := 0
deriving DecidableEq, Repr

/-- One raise granted and not yet finished (R356): the group goes to `level` at slot `start` until slot `stop`; a window's own
first slot is `open_`, the settling lead of R36 after `start`; `steps` are the levels it rises from, each with the slots for
which its cost was taken from there; whether a calendar window asked for it, and whether its return has been commanded. -/
structure Raise where
  port : Nat
  group : Nat
  level : Nat
  start : Nat
  open_ : Nat
  stop : Nat
  steps : List (Nat × Nat)
  window : Bool
  ended : Bool := false
deriving DecidableEq, Repr

/-- The governor. `sensors` are the means of the concentrator's twelve sensors at their last evaluation, in 0.125 °C. -/
structure Governor where
  dies : Vector Die 33 := Vector.replicate 33 {}
  caddies : Vector Caddy 35 := Vector.ofFn fun i => { bal := if i.val < 32 then 10000000 else 100000000 }
  raises : List Raise := []
  repeatCycle : Option Nat := none
  staleCritical : Vector Bool 32 := Vector.replicate 32 false
  sensors : Vector Int 12 := Vector.replicate 12 0
deriving DecidableEq, Repr

/-! ### Service cores and images (chapter 12) -/

/-- A job (R374): `data` for class DATA; `request` names the request a KEEPER item stands for (R423). -/
structure Job where
  task : Nat
  data : Bool
  prio : Nat
  source : Nat
  arg : Nat
  seq : Nat
  slot : Nat
  request : Option (Fin 16 × BitVec 16) := none
deriving DecidableEq, Repr

/-- A service core (R370, R371, R376, R385, R387): the job it runs and since when, from which slot it may take the next, whether it
is in RELOAD or FAILED, when it was last reloaded, POST_STATUS and POST_ARG; the SERVICE section its local SRAM was loaded from, as
image, offset and length (R393), and the bytes of that SRAM that have been stored since. -/
structure Core where
  job : Option (Job × Nat) := none
  freeAt : Nat := 0
  reload : Bool := false
  failed : Bool := false
  reloadedAt : Option Nat := none
  postStatus : Nat := 0
  postArg : Nat := 0
  code : Option (Fin 2 × Nat × Nat) := none
  sram : Tbl Nat := []
deriving DecidableEq, Repr

/-- A task the image lists (R373, R386, R393): its class, priority, source and entry address, the slot from which its next
job may be a candidate, whether it is FAULTED, and when its jobs were aborted; `unused` marks one that no section lists and
whose word in the task table was lost (R387). -/
structure Task where
  data : Bool
  prio : Nat
  source : Nat
  entry : Nat
  freeAt : Nat := 0
  faulted : Bool := false
  aborts : List Nat := []
  unused : Bool := false
deriving DecidableEq, Repr

/-- The scheduler (R374 to R390). `delegations` are the KEEPER items that wait for room, as request, task and ARG;
`heldFrom` the slot each source reached its limit at; `trace` the unread entries, oldest first, with the slot of the last
write, the entries written in it and the drops not yet written; `gate` the last slot in which the governor changed Cores Allowed
or SERVICE_HOLD, with the values at that slot's start (R376). -/
structure Sched where
  cores : Vector Core 16 := Vector.replicate 16 {}
  tasks : List (Nat × Task) := []
  data : List Job := []
  service : List Job := []
  staging : List Job := []
  spilled : List (List Job) := []
  seq : Nat := 0
  unspillAt : Nat := 0
  dispatchAt : Option Nat := none
  gate : Option (Nat × Nat × Bool) := none
  heldFrom : Vector (Option Nat) 4 := Vector.replicate 4 none
  delegations : List ((Fin 16 × BitVec 16) × Nat × Nat) := []
  trace : List Nat := []
  traceAt : Nat := 0
  traceCount : Nat := 0
  gap : Nat := 0
deriving DecidableEq, Repr

/-- What an image area is busy with (R394, R396). -/
inductive ImageOp where
  | erase | check
  | program (off : Nat) (data : Bytes)
deriving DecidableEq, Repr

/-- One flash device (R391, R394): whether it was accepted, and its image area's bytes where they differ from those it
was delivered with. -/
structure Flash where
  accepted : Bool := false
  bytes : Tbl Nat := []
  erased : Bool := false
  busy : Option ImageOp := none
deriving DecidableEq, Repr

/-! ### Check-value unit (chapter 15) -/

/-- One engine of the check-value unit (R454 to R463): its slots' bytes by slot, the queue of slots with the core that
submitted each, the descriptor in progress with the parameters and the status it started with, the slots DONE, and the task
and ARG of a completion job that waits for its source. -/
structure Engine where
  slots : Tbl Bytes := []
  queue : List (Nat × Nat) := []
  running : Option (Nat × Nat) := none
  done : Nat := 0
  held : Option (Nat × Nat) := none
  params : List Nat := []
  verdict : Nat := 0
deriving DecidableEq, Repr

/-! ### Environment monitor (chapter 16) -/

/-- What the device drives a terminal of the environment monitor with (R464): nothing, at high impedance; the excitation current or
its return; the sine drive, itself or in antiphase; a copy of the drive for a shield; virtual ground. -/
inductive EmDrive where
  | highZ | current | currentReturn | sine | antiSine | guard | virtualGround
deriving DecidableEq, Repr

/-- A terminal of a channel (R464): what drives it, and whether the channel senses there. -/
structure EmTerminal where
  drive : EmDrive := .highZ
  sense : Bool := false
deriving DecidableEq, Repr

/-- One channel (R464 to R480): its terminals FP, SP, SN and FN, the slot its conversion started at, when the next is due, the result and the slot of its
last integration sample, and the job it waits to post. -/
structure EmChan where
  terms : List EmTerminal := [{}, {}, {}, {}]
  running : Option Nat := none
  startedAt : Option Nat := none
  swap : Bool := false
  interval : Nat := 100
  blankSel : Nat := 0
  spoiled : Bool := false
  clamped : Bool := false
  value : Int := 0
  aux : Int := 0
  aux2 : Int := 0
  flags : Nat := 0
  sampleAt : Nat := 0
  valid : Bool := false
  withheld : Bool := false
  heldBefore : Bool := false
  waiting : Option Nat := none
deriving DecidableEq, Repr

/-- A blanking input (R475): whether it is high, the start of the interval in progress and the end of its hold. -/
structure Blank where
  high : Bool := false
  start : Option Nat := none
  holdUntil : Option Nat := none
deriving DecidableEq, Repr

/-- The environment monitor. -/
structure EnvMon where
  chans : Vector EmChan 16 := Vector.replicate 16 {}
  blanks : Vector Blank 2 := Vector.replicate 2 {}
deriving DecidableEq, Repr
/-! ### What the block sends -/

/-- Everything the two chips send or drive outward. -/
inductive Out where
  | fcmd (p : Nat) (id : Nat) (op : FcmdOp) (cyc slot : Nat)
  | linkstat (p : Nat) (lanes : List LaneStat)
  | nak (p lane seq : Nat)
  | train (p dl : Nat) (locked : Bool) (upLock attempt : Nat)
  | trainUp (p lane : Nat) (locked dlLock : Bool) (attempt : Nat)
  | beacon (p dl request failed : Nat) (burst : Bool)
  | sync (p dl : Nat) (lanes : List LaneStat)
  | syncUp (p phys : Nat) (lanes : List LaneSync)
  | timeSet (p dl cyc slot tick half : Nat)
  | delayReq (p dl id stamp : Nat)
  | delayResp (p id t2 t3 : Nat)
  | lanemap (p on lane phys frame : Nat)
  | festatPeriodic (p executed late discarded temp power : Nat) (trip fence : Bool)
  | festatWake (p groups executed late discarded temp power : Nat) (trip fence : Bool)
  | packet (p lane seq kind frame cyc : Nat) (payload : Payload)
  | config (p : Nat) (msg : Bytes)
  | answer (w : Writer) (status : Status) (value : Bytes)
  | test (p key : Nat) (payload : BitVec 128)
  | backEndTest (b lane : Nat) (bits : List Bool)
  | injection (p slot : Nat) (pulses : List (Nat × Nat × Int))
  | pulse (o : Nat) (edge : Int) (width : Nat) (low : Bool)
  | delayReqPtp (p seq : Nat)
  | l1Sync (p : Nat) (syntonized : Bool)
  | frame (be : Nat) (bytes : Bytes)
  | can (bus id : Nat) (data : Bytes)
  | startJob (core entry arg task seq sp : Nat)
  | coreLoad (core value : Nat)
  | coreFault (core : Nat)
  | terminals (n : Nat) (terms : List EmTerminal) (level freq : Nat)
deriving DecidableEq, Repr

/-- The device: everything but the queue of waiting commands. `now` is the number of slots since the reset of VDD_CORE
was released, so the free-running counter reads 8 × `now` at a slot boundary (R227). -/
structure Dev where
  now : Nat := 0
  free : Nat := 0
  mode : Mode := .boot
  modePend : Option ModePend := none
  modeFrom : Nat := 0
  safeReason : Option Nat := none
  safeFrom : Nat := 0
  draining : Bool := false
  confirmAt : Option Nat := none
  inReset : Bool := false
  regs : Tbl Nat := []
  applied : Tbl Nat := []
  mirror : Tbl Nat := []
  mirrorDom : Tbl Bytes := []
  grid : Grid := {}
  tb : TimeBase := {}
  tu : TimeUnits := {}
  fes : Vector FrontEnd 32 := Vector.replicate 32 {}
  ports : Vector CPort 32 := Vector.replicate 32 {}
  lines : Tbl Tx := []
  boot : BootState := {}
  aon : AlwaysOn := {}
  merge : Merge := {}
  net : Vector NetPort 8 := Vector.replicate 8 {}
  mem : Memory := {}
  gov : Governor := {}
  sched : Sched := {}
  flash : Vector Flash 2 := Vector.replicate 2 {}
  cvu : Vector Engine 4 := Vector.replicate 4 {}
  aliveFresh : Nat := 2 ^ 64 - 1
  aliveAt : Tbl Nat := []
  beTest : Tbl Nat := []
  em : EnvMon := {}
  ledger : Ledger := {}
  keeper : Keeper := {}
  out : List Out := []
deriving DecidableEq, Repr

/-- Why a command stops the device with a fault. The spec gives every command of its table an effect, so no meaning
raises one; the type has no constructor. -/
inductive Fault where
deriving DecidableEq, Repr

/-- Why a command has no meaning. -/
inductive Refusal where
  /-- Raised only by an arm of `exec` whose command has no meaning yet; safe, since the model stops. -/
  | notModelled (mnemonic : String)
deriving DecidableEq, Repr

/-- The machine: the device and the commands that wait, first in first out. -/
structure State where
  dev : Dev
  pending : List Instr
deriving DecidableEq, Repr

/-- The machine at its first reset with VDD_AON: reset held, BOOT, every object at its default (R407, R439), no command
waiting. RESET_RELEASE begins the boot (R486, R487). -/
def State.reset : State := { dev := { inReset := true }, pending := [] }

end Sys2Proof.Machine
end

