-- ==== Sys2Proof/Machine/Line.lean ====
section
/-! DEFINITION. The line code of a Wasel lane (R178 to R187): scrambling, superblocks and stuffing on the way out and in, the
check of a received block, the blocks of everything a lane carries, and the reading of a packet. -/

namespace Sys2Proof.Machine

/-! ### Lanes (R177) -/

/-- The physical lane of a logical lane in a Lane Map (R177); 7 when inactive. -/
def mapOf (m l : Nat) : Nat := field m (3 * l + 2) (3 * l)

/-- A Lane Map with a logical lane on another physical lane. -/
def setMap (m l phys : Nat) : Nat := setField m (3 * l + 2) (3 * l) phys

/-- The logical lane on a physical lane of a Lane Map. -/
def logicalOn (m phys : Nat) : Option Nat := (List.range 4).find? fun l => mapOf m l == phys

/-- The key of a port's uplink lane among the transmitters. -/
def ulKey (p phys : Nat) : Nat := p * 8 + phys

/-- The key of a port's downlink among the transmitters. -/
def dlKey (p dl : Nat) : Nat := p * 8 + 5 + dl

/-- The key of the lane a receiver listens to. -/
def rxKey (p : Nat) : Rx → Nat
  | .up l => ulKey p l.val
  | .down dl => dlKey p dl.val

/-- LANE of a TRAIN or SUPER block: the physical uplink lane, or the downlink (R182, R202). -/
def laneNo (key : Nat) : Nat := if key % 8 < 5 then key % 8 else key % 8 - 5

/-- The lane seed (R181). -/
def laneSeed (key : Nat) : Nat := if key % 8 < 5 then 0x7FFFF8 + key % 8 else 0x7FFFF5 + (key % 8 - 5)

/-! ### Scrambling and stuffing (R180, R183) -/

/-- The low `n` bits of `v`, most significant first (R178). -/
def bitsMsb : Nat → Nat → List Bool
  | 0, _ => []
  | n + 1, v => bit v n :: bitsMsb n v

/-- The value of bits sent most significant first. -/
def natOfBits (bs : List Bool) : Nat := bs.foldl (fun a b => 2 * a + b.toNat) 0

/-- The bit k of the scrambler and its next state (R180). -/
def scrStep (s : Nat) : Bool × Nat :=
  let k := Bool.xor (bit s 22) (bit s 17)
  (k, (2 * s + k.toNat) % 2 ^ 23)

/-- Payload bits through the scrambler, or line bits through the descrambler, which does the same (R180). -/
def scramble : List Bool → Nat → List Bool × Nat
  | [], s => ([], s)
  | b :: bs, s =>
    let (k, s) := scrStep s
    let (rest, s) := scramble bs s
    (Bool.xor b k :: rest, s)

/-- The state of the scrambler `n` payload bits after `s`. -/
def scrAfter : Nat → Nat → Nat
  | 0, s => s
  | n + 1, s => scrAfter n (scrStep s).2

/-- The run of equal line bits after one more bit. -/
def nextRun (last : Bool) (run : Nat) (b : Bool) : Nat := if run ≠ 0 ∧ b = last then run + 1 else 1

/-- Bits with the stuffing of R183, and the last line bit and its run. -/
def stuff : List Bool → Bool → Nat → List Bool × Bool × Nat
  | [], last, run => ([], last, run)
  | b :: bs, last, run =>
    if nextRun last run b = 24 then
      let (rest, e) := stuff bs (!b) 1
      (b :: (!b) :: rest, e)
    else
      let (rest, e) := stuff bs b (nextRun last run b)
      (b :: rest, e)

/-- The first `n` bits of line bits without their stuffing, and whether a stuffed bit equals the 24 before it (R183); none when
the line ends first. -/
def unstuff : List Bool → Nat → Bool → Nat → Option (List Bool × Bool)
  | _, 0, _, _ => some ([], false)
  | [], _ + 1, _, _ => none
  | b :: bs, n + 1, last, run =>
    if run = 24 then (unstuff bs (n + 1) b 1).map fun x => (x.1, x.2 || b == last)
    else (unstuff bs n b (nextRun last run b)).map fun x => (b :: x.1, x.2)

/-! ### Control blocks (R178, R179) -/

/-- A data block (R178). -/
def dataBlock (payload : BitVec 128) : Block := { header := 0b01#2, payload := payload }

/-- A control block whose payload has the given bits [127:16] (R178, R179). -/
def ctlBlock (payload : BitVec 128) : Block := { header := 0b10#2, payload := payload }

/-- The type of a control block (R179). -/
def blockType (b : Block) : Nat := field b.payload.toNat 127 120

/-- The types of R179. -/
def blockTypes : List Nat :=
  [0x1E, 0x2D, 0x33, 0x4B, 0x55, 0x66, 0x78, 0x87, 0x99, 0xAA, 0xB4, 0xC3, 0xCC, 0xD2, 0xE1]

/-- Whether a header is valid (R178). -/
def headerOk (h : BitVec 2) : Bool := h == 0b01#2 || h == 0b10#2

/-- Whether a control block passes its CRC (R179). -/
def crcOk (b : Block) : Bool := controlBlock b.payload.toNat == b.payload

/-- Whether the type of a control block is listed, and the FORM of an FCMD one of R196. -/
def typeOk (b : Block) : Bool :=
  blockTypes.contains (blockType b) && (blockType b != 0x87 || decide (1 ≤ field b.payload.toNat 111 108 ∧ field b.payload.toNat 111 108 ≤ 6))

/-- Whether a block is a control block that R179 lets through. -/
def isCtl (b : Block) : Bool := b.header == 0b10#2 && crcOk b && typeOk b

/-- A control block's payload by its type and its other fields, each with its lowest bit. -/
def typed (type : Nat) (fields : List (Nat × Nat)) : Block :=
  ctlBlock (controlBlock (fields.foldl (fun a x => a + x.1 * 2 ^ x.2) (type * 2 ^ 120)))

/-- The SUPER block of a lane (R182): SUPER_NUM, LANE, and 0b10 alternating from bit 84 downward. -/
def superBlock (num lane : Nat) : Block :=
  typed 0x2D ([(num % 2 ^ 32, 88), (lane % 8, 85)] ++ (List.range 35).map fun i => (1, 84 - 2 * i))

/-- The IDLE block (R179). -/
def idleBlock : Block := typed 0x1E []

/-- The NAK block (R193). -/
def nakBlock (lane seq : Nat) : Block := typed 0x66 [(lane % 8, 117), (seq % 4096, 105)]

/-- The FESTAT block (R349). -/
def festatBlock (exec late wake kind power temp : Nat) (trip fence : Bool) (cancelled : Nat) : Block :=
  typed 0x78 [(exec % 2 ^ 16, 104), (late % 256, 96), (wake % 2 ^ 16, 80), (kind % 4, 78), (power % 2 ^ 16, 62), (temp % 2 ^ 12, 50),
    (trip.toNat, 49), (fence.toNat, 48), (cancelled % 256, 40)]

/-- The TRAIN block (R202). -/
def trainBlock (lane : Nat) (locked : Bool) (upLock : Nat) (dlLock : Bool) (attempt : Nat) : Block :=
  typed 0x99 [(lane % 8, 117), (locked.toNat, 116), (upLock % 32, 111), (dlLock.toNat, 110), (attempt % 256, 102)]

/-- The BEACON block (R205). -/
def beaconBlock (request failed : Nat) (burst : Bool) : Block :=
  typed 0xE1 [(request % 32, 115), (failed % 32, 110), (burst.toNat, 109)]

/-- The front end's SYNC block (R207). -/
def syncUpBlock (lanes : List LaneSync) : Block :=
  typed 0xC3 ((lanes.zipIdx.take 4).flatMap fun x => [(x.1.reset.toNat, 119 - 21 * x.2), (x.1.sent.toNat, 99 - 21 * x.2)])

/-- The DELAY_REQ block (R209). -/
def delayReqBlock (id stamp : Nat) : Block := typed 0xAA [(stamp % 2 ^ 32, 88), (id % 256, 80)]

/-- The DELAY_RESP block (R209). -/
def delayRespBlock (id t2 t3 : Nat) : Block := typed 0xB4 [(t2 % 2 ^ 32, 88), (t3 % 2 ^ 32, 56), (id % 256, 48)]

/-- The LANEMAP block (R213). -/
def lanemapBlock (lane phys frame : Nat) : Block := typed 0xCC [(lane % 4, 118), (phys % 8, 115), (frame % 4096, 103)]

/-- The TIME_SET block (R211). -/
def timeSetBlock (cyc slot tick half : Nat) : Block :=
  typed 0xD2 [(cyc % 256, 112), (slot % 2 ^ 20, 92), (tick % 8, 89), (half % 2, 88)]

/-- Why a received block is not used. -/
inductive BadBlock where
  | header | stuffing | crc | unknownType | dataOutside
deriving DecidableEq, Repr

/-- Why a block outside a packet is not used, if it is not. -/
def badBlock (b : Block) (stuffing : Bool) : Option BadBlock :=
  if stuffing then some .stuffing
  else if !headerOk b.header then some .header
  else if b.header == 0b01#2 then some .dataOutside
  else if !crcOk b then some .crc
  else if !typeOk b then some .unknownType
  else none

/-! ### Packets (R133, R166, R185, R186) -/

/-- Bytes in groups of `n`; `fuel` bounds their number. -/
def byteGroups (n : Nat) : Nat → Bytes → List Bytes
  | 0, _ => []
  | fuel + 1, bs => if bs.isEmpty then [] else bs.take n :: byteGroups n fuel (bs.drop n)

/-- The data blocks of a packet's bytes, the last padded with zeros (R133). -/
def dataBlocks (bs : Bytes) : List Block :=
  (byteGroups 16 bs.length bs).map fun c => dataBlock (BitVec.ofNat 128 (beNat (c ++ List.replicate (16 - c.length) 0)))

/-- Valid bytes of the last data block of a packet of `n` bytes (R133, R185). -/
def validBytes (n : Nat) : Nat := if n % 16 = 0 then 16 else n % 16

/-- The bytes CRC32 covers: SOP bits [127:16], then every data block (R186). -/
def packetBytes (sop : Block) (data : List Block) : Bytes :=
  beBytes 14 (sop.payload.toNat / 2 ^ 16) ++ data.flatMap fun b => beBytes 16 b.payload.toNat

/-- The blocks of a packet (R185, R186). -/
def packetBlocks (kind lane seq frame cyc : Nat) (bs : Bytes) : List Block :=
  let data := dataBlocks bs
  let sop := ctlBlock (sopBlock kind lane seq frame cyc data.length)
  sop :: data ++ [ctlBlock (eopBlock seq (validBytes bs.length) (crc32c (packetBytes sop data)))]

/-- The samples of a snapshot, 12 bits each, most significant first (R166). -/
def packSamples (xs : List (BitVec 12)) : Bytes :=
  let v := xs.foldl (fun a x => a * 4096 + x.toNat) 0
  beBytes (ceilDiv (12 * xs.length) 8) v

/-- The bytes a packet carries. -/
def payloadBytes : Payload → Bytes
  | .records rs => packRecords rs
  | .snapshot desc samples => beBytes 16 desc.toNat ++ packSamples samples
  | .response msg => msg

/-- The blocks that may stand inside a packet and do not belong to it (R187). -/
def insertable : List Nat := [0x1E, 0x2D, 0x55, 0x66, 0x78, 0x87, 0xAA, 0xB4]

/-- The data blocks of a packet and the EOP that ends it; no EOP where another block ends the packet as failed (R187). Blocks that
are discarded or ignored belong to no packet (R178, R179). -/
def packetBody : List Block → List Block × Option Block
  | [] => ([], none)
  | b :: rest =>
    if b.header == 0b01#2 then
      let (data, e) := packetBody rest
      (b :: data, e)
    else if !isCtl b || insertable.contains (blockType b) then packetBody rest
    else if blockType b = 0x4B then ([], some b)
    else ([], none)

/-- The bad blocks among those after an SOP, up to the block that ends the packet (R178, R179). -/
def badInside : List Block → List BadBlock
  | [] => []
  | b :: rest =>
    if b.header == 0b01#2 then badInside rest
    else match badBlock b false with
    | some why => why :: badInside rest
    | none => if insertable.contains (blockType b) then badInside rest else []

/-- A packet as received: what its SOP names, and its bytes, none for a failed packet (R186). -/
structure PacketIn where
  kind : Nat
  lane : Nat
  seq : Nat
  frame : Nat
  cyc : Nat
  bytes : Option Bytes
deriving DecidableEq, Repr

/-- Blocks from an SOP that passes R179 on, read as a packet under R186 and R187; none where no packet begins. -/
def readPacket : List Block → Option PacketIn
  | [] => none
  | sop :: rest =>
    if !isCtl sop || blockType sop != 0x33 then none
    else
      let v := sop.payload.toNat
      let (data, eop) := packetBody rest
      let seq := field v 114 103
      let bytes := match eop with
        | none => none
        | some e =>
          let w := e.payload.toNat
          if field w 119 108 = seq ∧ data.length = field v 82 77 ∧ field w 102 71 = crc32c (packetBytes sop data) then
            some ((data.flatMap fun b => beBytes 16 b.payload.toNat).take (16 * (data.length - 1) + field w 107 103))
          else none
      some { kind := field v 119 118, lane := field v 117 115, seq := seq, frame := field v 102 91, cyc := field v 90 83, bytes := bytes }

/-- Numbers of `n` bits each, most significant first, from the top of a value of `k` of them. -/
def fieldsOf (n : Nat) : Nat → Nat → List Nat
  | 0, _ => []
  | k + 1, v => (v >>> (n * k)) % 2 ^ n :: fieldsOf n k v

/-- What the bytes of an accepted packet carry, by KIND (R133, R166, R185). -/
def payloadOf (kind : Nat) (bs : Bytes) : Payload :=
  if kind = 0 then .records ((fieldsOf 48 (bs.length / 6) (beNat (bs.take (bs.length / 6 * 6)))).map (BitVec.ofNat 48))
  else if kind = 1 then
    .snapshot (BitVec.ofNat 128 (beNat (bs.take 16))) ((fieldsOf 12 128 (beNat ((bs.drop 16).take 192))).map (BitVec.ofNat 12))
  else .response bs

/-- A configuration message as received (R219): MSG_TYPE, ALIVE, object address, element, value. -/
structure ConfigIn where
  type : Nat
  alive : Nat
  addr : Nat
  elem : Nat
  value : Bytes
deriving DecidableEq, Repr

/-- The configuration message in the bytes of a CONFIG packet, when LENGTH and the CRC-16 hold (R219, R220). -/
def readConfig (bs : Bytes) : Option ConfigIn :=
  let n := (bs.getD 7 0).toNat
  let body := bs.take (8 + n)
  if 8 ≤ bs.length ∧ n ≤ 240 ∧ bs.length = 10 + n ∧ beNat (bs.drop (8 + n)) = crc16 body then
    some { type := (bs.getD 0 0).toNat, alive := (bs.getD 1 0).toNat / 16, addr := beNat ((bs.drop 2).take 3)
           elem := beNat ((bs.drop 5).take 2), value := body.drop 8 }
  else none

/-! ### What a lane carries -/

/-- The blocks of an item on a Wasel lane; `key` names the lane. -/
def Out.blocks (key : Nat) : Out → List Block
  | .fcmd _ id op cyc slot => [ctlBlock (fcmdBlock id op cyc slot)]
  | .linkstat _ lanes => [ctlBlock (linkstatBlock 0x55 lanes)]
  | .nak _ lane seq => [nakBlock lane seq]
  | .train _ _ locked upLock attempt => [trainBlock (laneNo key) locked upLock false attempt]
  | .trainUp _ _ locked dlLock attempt => [trainBlock (laneNo key) locked 0 dlLock attempt]
  | .beacon _ _ request failed burst => [beaconBlock request failed burst]
  | .sync _ _ lanes => [ctlBlock (linkstatBlock 0xC3 lanes)]
  | .syncUp _ _ lanes => [syncUpBlock lanes]
  | .timeSet _ _ cyc slot tick half => [timeSetBlock cyc slot tick half]
  | .delayReq _ _ id stamp => [delayReqBlock id stamp]
  | .delayResp _ id t2 t3 => [delayRespBlock id t2 t3]
  | .lanemap _ _ lane phys idx => [lanemapBlock lane phys idx]
  | .festatPeriodic _ exec late disc temp power trip fence => [festatBlock exec late 0 0 power temp trip fence disc]
  | .festatWake _ groups exec late disc temp power trip fence => [festatBlock exec late groups 1 power temp trip fence disc]
  | .packet _ lane seq kind idx cyc payload => packetBlocks kind lane seq idx cyc (payloadBytes payload)
  | .config _ msg => packetBlocks 2 7 0 0 0 msg
  | .test _ _ payload => [dataBlock payload]
  | .answer .. | .backEndTest .. | .injection .. | .pulse .. | .delayReqPtp .. | .l1Sync .. | .frame .. | .can ..
  | .startJob .. | .coreLoad .. | .coreFault .. | .terminals .. => []

/-- The lane an item leaves on: downlink items without one of their own on the active downlink, packets on the physical lane of
their logical lane, FESTAT and DELAY_RESP on that of logical lane 0 (R201, R209); none without a lane. -/
def Dev.lineOf (d : Dev) (o : Out) : Option Nat :=
  let active := fun (p : Nat) => some (dlKey p ((d.ports.toList.map CPort.activeDl).getD p 0))
  let carried := fun (p l : Nat) =>
    let phys := mapOf ((d.fes.toList.map FrontEnd.laneMap).getD p 0) l
    if phys < 5 then some (ulKey p phys) else none
  match o with
  | .fcmd p .. | .linkstat p .. | .nak p .. | .config p .. => active p
  | .train p dl .. | .beacon p dl .. | .sync p dl .. | .timeSet p dl .. | .delayReq p dl .. => some (dlKey p dl)
  | .trainUp p n .. | .syncUp p n .. | .lanemap p n .. => some (ulKey p n)
  | .delayResp p .. | .festatPeriodic p .. | .festatWake p .. => carried p 0
  | .packet p lane .. => carried p lane
  | .test _ key _ => some key
  | .answer .. | .backEndTest .. | .injection .. | .pulse .. | .delayReqPtp .. | .l1Sync .. | .frame .. | .can ..
  | .startJob .. | .coreLoad .. | .coreFault .. | .terminals .. => none

/-- Bits put on the line (R183). -/
def Tx.bits (tx : Tx) (bs : List Bool) : Tx :=
  let (line, last, run) := stuff bs tx.last tx.run
  { tx with line := tx.line ++ line, last := last, run := run }

/-- A SUPER block sent, unscrambled; the scrambler is loaded for the block that follows (R180, R182). -/
def Tx.super (tx : Tx) (key : Nat) : Tx :=
  let b := superBlock tx.superNum (laneNo key)
  { tx.bits (bitsMsb 2 b.header.toNat ++ bitsMsb 128 b.payload.toNat) with
    superNum := (tx.superNum + 1) % 2 ^ 32, scr := laneSeed key, count := 1 }

/-- A block sent, after the SUPER block where one is due (R180, R182); `plain` where a pattern test leaves payloads unscrambled
(R222). -/
def Tx.block (key : Nat) (plain : Bool) (tx : Tx) (b : Block) : Tx :=
  let tx := if tx.count = 0 then tx.super key else tx
  let bs := bitsMsb 128 b.payload.toNat
  let (payload, scr) := if plain then (bs, scrAfter 128 tx.scr) else scramble bs tx.scr
  { tx.bits (bitsMsb 2 b.header.toNat ++ payload) with scr := scr, count := (tx.count + 1) % 1024 }

/-- An item sent: its blocks follow one another, with the SUPER blocks that fall due. -/
def Tx.send (tx : Tx) (key : Nat) (plain : Bool) (bs : List Block) : Tx := bs.foldl (Tx.block key plain) { tx with line := [] }

/-- Whether an item is sent unscrambled (R222). -/
def Out.plain : Out → Bool
  | .test .. => true
  | _ => false

/-- The transmitters after an item. -/
def Dev.linesAfter (d : Dev) (o : Out) : Tbl Tx :=
  match d.lineOf o with
  | some key => tblWrite (fun _ => {}) d.lines key ((tblRead (fun _ => {}) d.lines key).send key o.plain (o.blocks key))
  | none => d.lines

/-- A lane that trains starts its superblocks afresh (R182). -/
def Dev.restartLine (d : Dev) (key : Nat) : Dev := { d with lines := tblDrop d.lines key }

/-! ### Blocks off the line, and pattern tests (R183, R222, R223) -/

/-- A block off the line: its stuffing removed, and its payload descrambled but at the place of a SUPER block; `plain` where a
pattern test leaves payloads unscrambled (R222). None when the line bits do not make a block; the flag tells a stuffing
error. -/
def readBlock (key : Nat) (plain : Bool) (at_ : LinePlace) (line : List Bool) : Option (Block × Bool) :=
  (unstuff line 130 at_.last at_.run.val).map fun x =>
    let payload := x.1.drop 2
    let payload := if plain || at_.index.val == 0 then payload
      else (scramble payload (scrAfter (128 * (at_.index.val - 1)) (laneSeed key))).1
    ({ header := BitVec.ofNat 2 (natOfBits (x.1.take 2)), payload := BitVec.ofNat 128 (natOfBits payload) }, x.2)

/-- The next bit of the pattern `x^n + x^m + 1` and the next state of its generator, which holds the last `n` bits (R222, R223). -/
def prbsStep (n m s : Nat) : Bool × Nat :=
  let k := Bool.xor (bit s (n - 1)) (bit s (m - 1))
  (k, (2 * s + k.toNat) % 2 ^ n)

/-- The first bits of a pattern from a state. -/
def prbsBits (n m : Nat) : Nat → Nat → List Bool
  | 0, _ => []
  | k + 1, s => (prbsStep n m s).1 :: prbsBits n m k (prbsStep n m s).2

/-- The bits that differ from a pattern that goes on from a state, and the pattern's state after them. -/
def prbsFollow (n m : Nat) : List Bool → Nat → Nat × Nat
  | [], s => (0, s)
  | b :: bs, s =>
    let (k, s) := prbsStep n m s
    let (e, s) := prbsFollow n m bs s
    (e + (Bool.xor b k).toNat, s)

/-- A checker of a pattern (R222, R223): one without a place, at state 0, takes it from the first `n` bits (log entry 145); it counts
the bits that differ from there on. -/
def prbsCheck (n m : Nat) (bs : List Bool) (s : Nat) : Nat × Nat :=
  if s ≠ 0 then prbsFollow n m bs s
  else if bs.length < n then (0, 0)
  else prbsFollow n m (bs.drop n) (natOfBits (bs.take n))

end Sys2Proof.Machine
end

