-- ==== Sys2Proof/Machine/Objects.lean ====
section
/-! DEFINITION. The object dictionary (R402 to R404, R438 to R440): the address of every object of the spec's
dictionary tables under the spec's own code name, and one row per object with its type, access class, number of
elements, default and range. A `—` default is 0 here; `regDflt` in Ops gives the defaults that depend on the element
or on another object. -/

namespace Sys2Proof.Machine

namespace Reg
/-- Vendor, 0x1000:01 (R441). -/
abbrev ID_VENDOR : Nat := 0x100001
/-- Product, 0x1000:02 (R441). -/
abbrev ID_PRODUCT : Nat := 0x100002
/-- Silicon Revision, 0x1000:03 (R441). -/
abbrev ID_REV : Nat := 0x100003
/-- Serial Number, 0x1000:04 (R441). -/
abbrev ID_SERIAL : Nat := 0x100004
/-- Ports, 0x1000:05 (R441). -/
abbrev ID_PORTS : Nat := 0x100005
/-- Dictionary Version, 0x1000:06 (R441). -/
abbrev ID_DICT_VER : Nat := 0x100006
/-- Uptime, 0x1000:07 (R441). -/
abbrev ID_UPTIME : Nat := 0x100007
/-- Node Address, 0x1100:01 (R436). -/
abbrev COM_NODE : Nat := 0x110001
/-- CAN Enable, 0x1100:02 (R436). -/
abbrev COM_CAN_EN : Nat := 0x110002
/-- CAN Nominal Bit Rate, 0x1100:03 (R436). -/
abbrev COM_CAN_NBR : Nat := 0x110003
/-- CAN Data Bit Rate, 0x1100:04 (R436). -/
abbrev COM_CAN_DBR : Nat := 0x110004
/-- Guard Challenge, 0x1101:01 (R436). -/
abbrev COM_GUARD_CHAL : Nat := 0x110101
/-- Guard Token, 0x1101:02 (R436). -/
abbrev COM_GUARD_TOKEN : Nat := 0x110102
/-- Requests Executed, 0x1102:01 (R436). -/
abbrev COM_EXEC : Nat := 0x110201
/-- Message Errors, 0x1102:02 (R436). -/
abbrev COM_MSG_ERR : Nat := 0x110202
/-- Replays Served, 0x1102:03 (R436). -/
abbrev COM_REPLAYS : Nat := 0x110203
/-- Alive Rejections, 0x1102:04 (R436). -/
abbrev COM_ALIVE_REJ : Nat := 0x110204
/-- Alive Skips, 0x1102:05 (R436). -/
abbrev COM_SKIPS : Nat := 0x110205
/-- Busy Answers, 0x1102:06 (R436). -/
abbrev COM_BUSY : Nat := 0x110206
/-- Client Table Refusals, 0x1102:07 (R436). -/
abbrev COM_NORES : Nat := 0x110207
/-- Retries While In Progress, 0x1102:08 (R436). -/
abbrev COM_INPROG : Nat := 0x110208
/-- Unknown Outcomes, 0x1102:09 (R436). -/
abbrev COM_UNKNOWN : Nat := 0x110209
/-- Resolved Outcomes, 0x1102:0A (R436). -/
abbrev COM_RESOLVED : Nat := 0x11020A
/-- Active Clients, 0x1102:0B (R436). -/
abbrev COM_CLIENTS : Nat := 0x11020B
/-- Port Unresolved, 0x1102:0C (R436). -/
abbrev COM_UNRES : Nat := 0x11020C
/-- Restart Count, 0x1200:01 (R442). -/
abbrev BT_RESTARTS : Nat := 0x120001
/-- Failed Start Count, 0x1200:02 (R442). -/
abbrev BT_FAILED : Nat := 0x120002
/-- Last Restart Reason, 0x1200:03 (R442). -/
abbrev BT_REASON : Nat := 0x120003
/-- Restart, 0x1200:04 (R442). -/
abbrev BT_RESTART : Nat := 0x120004
/-- Ledger Read, 0x1201:01 (R442). -/
abbrev LG_READ : Nat := 0x120101
/-- Ledger Unread, 0x1201:02 (R442). -/
abbrev LG_UNREAD : Nat := 0x120102
/-- Ledger Next Sequence, 0x1201:03 (R442). -/
abbrev LG_SEQ : Nat := 0x120103
/-- Ledger Rewind, 0x1201:04 (R442). -/
abbrev LG_REWIND : Nat := 0x120104
/-- Ledger Records Lost, 0x1201:05 (R442). -/
abbrev LG_LOST : Nat := 0x120105
/-- Image In Use, 0x1210:01 (R401). -/
abbrev IMG_IN_USE : Nat := 0x121001
/-- Preferred Image, 0x1210:02 (R401). -/
abbrev IMG_PREFER : Nat := 0x121002
/-- Trial State, 0x1210:03 (R401). -/
abbrev IMG_TRIAL_STATE : Nat := 0x121003
/-- Image Trial, 0x1210:04 (R401). -/
abbrev IMG_TRIAL : Nat := 0x121004
/-- Image Confirm, 0x1210:05 (R401). -/
abbrev IMG_CONFIRM : Nat := 0x121005
/-- Image Fallbacks, 0x1210:06 (R401). -/
abbrev IMG_FALLBACKS : Nat := 0x121006
/-- Image Status, 0x1211:01 (R401). -/
abbrev IMG_STATUS : Nat := 0x121101
/-- Image Version, 0x1211:02 (R401). -/
abbrev IMG_VERSION : Nat := 0x121102
/-- Image Erase, 0x1211:03 (R401). -/
abbrev IMG_ERASE : Nat := 0x121103
/-- Image Write Offset, 0x1211:04 (R401). -/
abbrev IMG_WOFS : Nat := 0x121104
/-- Image Data, 0x1211:05 (R401). -/
abbrev IMG_DATA : Nat := 0x121105
/-- Image Verify, 0x1211:06 (R401). -/
abbrev IMG_VERIFY : Nat := 0x121106
/-- Mode, 0x2000:01 (R444). -/
abbrev MD_MODE : Nat := 0x200001
/-- Mode Request, 0x2000:02 (R444). -/
abbrev MD_REQUEST : Nat := 0x200002
/-- Mode Target Cycle, 0x2000:03 (R444). -/
abbrev MD_TARGET_CYC : Nat := 0x200003
/-- Mode Pending, 0x2000:04 (R444). -/
abbrev MD_PENDING : Nat := 0x200004
/-- Mode Pending Cycle, 0x2000:05 (R444). -/
abbrev MD_PENDING_CYC : Nat := 0x200005
/-- Last Mode Refusal, 0x2000:06 (R444). -/
abbrev MD_REFUSAL : Nat := 0x200006
/-- Mode Changes, 0x2000:07 (R444). -/
abbrev MD_CHANGES : Nat := 0x200007
/-- Sentinel Promotion, 0x2000:08 (R444). -/
abbrev MD_SEN_PROMOTE : Nat := 0x200008
/-- Promotion Rate, 0x2000:09 (R444). -/
abbrev MD_SEN_RATE : Nat := 0x200009
/-- Promotion Regions, 0x2000:0A (R444). -/
abbrev MD_SEN_REGIONS : Nat := 0x20000A
/-- Time Now, 0x2100:01 (R270). -/
abbrev TB_NOW : Nat := 0x210001
/-- Time Status, 0x2100:02 (R270). -/
abbrev TB_STATUS : Nat := 0x210002
/-- Time Base State, 0x2100:03 (R270). -/
abbrev TB_STATE : Nat := 0x210003
/-- Uncertainty, 0x2100:04 (R270). -/
abbrev TB_UNCERT : Nat := 0x210004
/-- Holdover Elapsed, 0x2100:05 (R270). -/
abbrev TB_HO_TIME : Nat := 0x210005
/-- Counter, 0x2100:06 (R270). -/
abbrev TB_FRC : Nat := 0x210006
/-- Offset, Integer, 0x2100:07 (R270). -/
abbrev TB_OFS_INT : Nat := 0x210007
/-- Offset, Fraction, 0x2100:08 (R270). -/
abbrev TB_OFS_FRAC : Nat := 0x210008
/-- Rate, 0x2100:09 (R270). -/
abbrev TB_RATE : Nat := 0x210009
/-- Nominal Reference Frequency, 0x2100:0A (R270). -/
abbrev TB_FNOM : Nat := 0x21000A
/-- Max Slew, 0x2110:01 (R270). -/
abbrev TB_MAX_SLEW : Nat := 0x211001
/-- Step Threshold, 0x2110:02 (R270). -/
abbrev TB_STEP_THRESH : Nat := 0x211002
/-- Accept Step, 0x2110:03 (R270). -/
abbrev TB_ACCEPT_STEP : Nat := 0x211003
/-- Pending Step, 0x2110:04 (R270). -/
abbrev TB_STEP_PEND : Nat := 0x211004
/-- Servo Phase Time, 0x2110:05 (R270). -/
abbrev TB_TP : Nat := 0x211005
/-- Servo Integral Time, 0x2110:06 (R270). -/
abbrev TB_TI : Nat := 0x211006
/-- Holdover Base Uncertainty, 0x2110:07 (R270). -/
abbrev TB_HO_BASE : Nat := 0x211007
/-- Holdover Growth, 0x2110:08 (R270). -/
abbrev TB_HO_GROWTH : Nat := 0x211008
/-- Fallback Growth, 0x2110:09 (R270). -/
abbrev TB_FB_GROWTH : Nat := 0x211009
/-- Step Refusals, 0x2110:0A (R270). -/
abbrev TB_STEP_REFUSED : Nat := 0x21100A
/-- Steps Applied, 0x2110:0B (R270). -/
abbrev TB_STEPS : Nat := 0x21100B
/-- Outliers, 0x2110:0C (R270). -/
abbrev TB_OUTLIERS : Nat := 0x21100C
/-- Time Preset, 0x2110:0D (R270). -/
abbrev TB_PRESET : Nat := 0x21100D
/-- Source Enable, 0x2120:01 (R270). -/
abbrev TB_SRC_EN : Nat := 0x212001
/-- Home Reference, 0x2120:02 (R270). -/
abbrev TB_HOME : Nat := 0x212002
/-- Source State, 0x2120:03 (R270). -/
abbrev TB_SRC_STATE : Nat := 0x212003
/-- Source Offset, 0x2120:04 (R270). -/
abbrev TB_SRC_OFS : Nat := 0x212004
/-- Source Qualified Time, 0x2120:05 (R270). -/
abbrev TB_SRC_QTIME : Nat := 0x212005
/-- Return Time, 0x2120:06 (R270). -/
abbrev TB_RETURN_TIME : Nat := 0x212006
/-- PTP Domain, 0x2120:07 (R270). -/
abbrev TB_PTP_DOMAIN : Nat := 0x212007
/-- Max Clock Class, 0x2120:08 (R270). -/
abbrev TB_PTP_MAXCLASS : Nat := 0x212008
/-- Port Asymmetry, 0x2120:09 (R270). -/
abbrev TB_PTP_ASYM : Nat := 0x212009
/-- PTP Transport, 0x2120:0A (R270). -/
abbrev TB_PTP_TRANSPORT : Nat := 0x21200A
/-- Qualify Spread, 0x2120:0B (R270). -/
abbrev TB_QSPREAD : Nat := 0x21200B
/-- One-Step Syncs Ignored, 0x2120:0C (R270). -/
abbrev TB_PTP_1STEP : Nat := 0x21200C
/-- Reference Select, 0x2130:01 (R270). -/
abbrev TB_REF_SEL : Nat := 0x213001
/-- Reference In Use, 0x2130:02 (R270). -/
abbrev TB_REF_USE : Nat := 0x213002
/-- Reference State, 0x2130:03 (R270). -/
abbrev TB_REF_STATE : Nat := 0x213003
/-- Reference Tolerance, 0x2130:04 (R270). -/
abbrev TB_REF_TOL : Nat := 0x213004
/-- Reference Frequency Offset, 0x2130:05 (R270). -/
abbrev TB_REF_FOFS : Nat := 0x213005
/-- Reference Switches, 0x2130:06 (R270). -/
abbrev TB_REF_SW : Nat := 0x213006
/-- Cycle Source, 0x2140:01 (R270). -/
abbrev TB_CYC_SRC : Nat := 0x214001
/-- Marker Window, 0x2140:02 (R270). -/
abbrev CM_WINDOW : Nat := 0x214002
/-- Marker Offset, 0x2140:03 (R270). -/
abbrev CM_OFFSET : Nat := 0x214003
/-- Cycle Number Preset, 0x2140:04 (R270). -/
abbrev TB_CYC_PRESET : Nat := 0x214004
/-- Cycle Epoch, 0x2140:05 (R270). -/
abbrev TB_CYC_EPOCH : Nat := 0x214005
/-- Marker Deviation, 0x2140:06 (R270). -/
abbrev CM_DEV : Nat := 0x214006
/-- Marker Anomalies, 0x2140:07 (R270). -/
abbrev CM_ANOM : Nat := 0x214007
/-- Marker Jitter, 0x2140:08 (R270). -/
abbrev CM_JIT : Nat := 0x214008
/-- Re-phases, 0x2140:09 (R270). -/
abbrev TB_REPHASE : Nat := 0x214009
/-- Grid Error, 0x2140:0A (R270). -/
abbrev TB_GRID_ERR : Nat := 0x21400A
/-- Grid Tolerance, 0x2140:0B (R270). -/
abbrev TB_GRID_TOL : Nat := 0x21400B
/-- Cycle Number Slip, 0x2140:0C (R270). -/
abbrev TB_CYC_SLIP : Nat := 0x21400C
/-- Timing Input Filter, 0x2140:0D (R270). -/
abbrev TB_CM_FILTER : Nat := 0x21400D
/-- TPO Mode, 0x2150:01 (R270). -/
abbrev TPO_MODE : Nat := 0x215001
/-- TPO Period, 0x2150:02 (R270). -/
abbrev TPO_N : Nat := 0x215002
/-- TPO Width, 0x2150:03 (R270). -/
abbrev TPO_WIDTH : Nat := 0x215003
/-- TPO Delay, 0x2150:04 (R270). -/
abbrev TPO_DELAY : Nat := 0x215004
/-- TPO Polarity, 0x2150:05 (R270). -/
abbrev TPO_POL : Nat := 0x215005
/-- TPO Skipped, 0x2150:06 (R270). -/
abbrev TPO_SKIP : Nat := 0x215006
/-- Force Time-Base Swap, 0x2160:01 (R270). -/
abbrev TB_SWAP : Nat := 0x216001
/-- Time Base Health, 0x2160:02 (R270). -/
abbrev TB_HEALTH : Nat := 0x216002
/-- Time-Base Swaps, 0x2160:03 (R270). -/
abbrev TB_SWAP_CNT : Nat := 0x216003
/-- Input Select, 0x2200:01 (R271). -/
abbrev TIM_SEL : Nat := 0x220001
/-- Threshold, 0x2200:02 (R271). -/
abbrev TIM_THR : Nat := 0x220002
/-- Slope, 0x2200:03 (R271). -/
abbrev TIM_SLOPE : Nat := 0x220003
/-- Mode, 0x2200:04 (R271). -/
abbrev TIM_MODE : Nat := 0x220004
/-- Reference Input, 0x2200:05 (R271). -/
abbrev TIM_REF : Nat := 0x220005
/-- Statistics Count Exponent, 0x2200:06 (R271). -/
abbrev TIM_NEXP : Nat := 0x220006
/-- Glitch Filter, 0x2200:07 (R271). -/
abbrev TIM_FILTER : Nat := 0x220007
/-- Stamp Queue, 0x2200:08 (R271). -/
abbrev TIM_QUEUE : Nat := 0x220008
/-- Queue Fill, 0x2200:09 (R271). -/
abbrev TIM_QFILL : Nat := 0x220009
/-- Stamp Overflows, 0x2200:0A (R271). -/
abbrev TIM_QOVF : Nat := 0x22000A
/-- Missed Edges, 0x2200:0B (R271). -/
abbrev TIM_MISSED : Nat := 0x22000B
/-- Statistics, 0x2200:0C (R271). -/
abbrev TIM_STATS : Nat := 0x22000C
/-- Statistics Restart, 0x2200:0D (R271). -/
abbrev TIM_RESTART : Nat := 0x22000D
/-- Reference Tap Divider, 0x2200:0E (R271). -/
abbrev TIM_DIV : Nat := 0x22000E
/-- Port Enable, 0x2300:01 (R225). -/
abbrev WP_EN : Nat := 0x230001
/-- Port State, 0x2300:02 (R225). -/
abbrev WP_STATE : Nat := 0x230002
/-- Port Status, 0x2300:03 (R225). -/
abbrev WP_STATUS : Nat := 0x230003
/-- Lane Map, 0x2300:04 (R225). -/
abbrev WP_LANE_MAP : Nat := 0x230004
/-- Round-Trip Delay, 0x2300:05 (R225). -/
abbrev WP_RTT : Nat := 0x230005
/-- Downlink Delay, 0x2300:06 (R225). -/
abbrev WP_DL_DELAY : Nat := 0x230006
/-- Cable Asymmetry, 0x2300:07 (R225). -/
abbrev WP_ASYM : Nat := 0x230007
/-- Delay Correction, 0x2300:08 (R225). -/
abbrev WP_DCORR : Nat := 0x230008
/-- Replays, 0x2300:09 (R225). -/
abbrev WP_REPLAYS : Nat := 0x230009
/-- Retrains, 0x2300:0A (R225). -/
abbrev WP_RETRAINS : Nat := 0x23000A
/-- CRC Errors, 0x2300:0B (R225). -/
abbrev WP_CRC_ERR : Nat := 0x23000B
/-- Control Block Errors, 0x2300:0C (R225). -/
abbrev WP_CTL_ERR : Nat := 0x23000C
/-- Failed Training Runs, 0x2300:0D (R225). -/
abbrev WP_RUN_FAIL : Nat := 0x23000D
/-- Lost Commands, 0x2300:0E (R225). -/
abbrev WP_CMD_LOST : Nat := 0x23000E
/-- Phase Steps, 0x2300:0F (R225). -/
abbrev WP_PHASE_STEPS : Nat := 0x23000F
/-- Test Errors, 0x2300:10 (R225). -/
abbrev WP_TEST_ERR : Nat := 0x230010
/-- ACK Timeout, 0x2301:01 (R225). -/
abbrev WL_ACK_TIMEOUT : Nat := 0x230101
/-- Delay Interval, 0x2301:02 (R225). -/
abbrev WL_DLY_INT : Nat := 0x230102
/-- Delay Filter Exponent, 0x2301:03 (R225). -/
abbrev WL_DLY_FILT : Nat := 0x230103
/-- Lane Fail Count, 0x2301:04 (R225). -/
abbrev WL_LANE_FAIL : Nat := 0x230104
/-- Port Release, 0x2302:01 (R225). -/
abbrev WP_RELEASE : Nat := 0x230201
/-- Force Lane Swap, 0x2302:02 (R225). -/
abbrev WP_LANE_SWAP : Nat := 0x230202
/-- Force Downlink Swap, 0x2302:03 (R225). -/
abbrev WP_DL_SWAP : Nat := 0x230203
/-- Link Delay Calibration, 0x2302:04 (R225). -/
abbrev WP_DLY_CAL : Nat := 0x230204
/-- Test Select, 0x2302:05 (R225). -/
abbrev WP_TEST : Nat := 0x230205
/-- Basket Timeout, 0x2400:01 (R306). -/
abbrev BASKET_TIMEOUT : Nat := 0x240001
/-- Route Span, 0x2400:02 (R306). -/
abbrev ROUTE_SPAN : Nat := 0x240002
/-- Merge Status, 0x2400:03 (R306). -/
abbrev MG_STATUS : Nat := 0x240003
/-- Route Commit, 0x2400:04 (R306). -/
abbrev ROUTE_COMMIT : Nat := 0x240004
/-- Route Generation, 0x2400:05 (R306). -/
abbrev ROUTE_GEN : Nat := 0x240005
/-- Basket Number, 0x2400:06 (R306). -/
abbrev MG_BASKET_NUM : Nat := 0x240006
/-- Baskets Closed, 0x2400:07 (R306). -/
abbrev MG_CLOSED : Nat := 0x240007
/-- Baskets Closed by Timeout, 0x2400:08 (R306). -/
abbrev MG_TIMEOUTS : Nat := 0x240008
/-- Late Arrivals, 0x2400:09 (R306). -/
abbrev MG_LATE : Nat := 0x240009
/-- Missing Frames, 0x2400:0A (R306). -/
abbrev MG_MISSING : Nat := 0x24000A
/-- Count Mismatches, 0x2400:0B (R306). -/
abbrev MG_CNT_MISM : Nat := 0x24000B
/-- Frame Name Errors, 0x2400:0C (R306). -/
abbrev MG_NAME_ERR : Nat := 0x24000C
/-- Slice Cache Misses, 0x2400:0D (R306). -/
abbrev MG_MISS : Nat := 0x24000D
/-- Slice Cache Evictions, 0x2400:0E (R306). -/
abbrev MG_EVICT : Nat := 0x24000E
/-- Egress Waits, 0x2400:0F (R306). -/
abbrev MG_EGR_WAIT : Nat := 0x24000F
/-- Route Egress, 0x2401:01 (R306). -/
abbrev RT_EGRESS : Nat := 0x240101
/-- Route MAC, 0x2401:02 (R306). -/
abbrev RT_MAC : Nat := 0x240102
/-- Route IPv4, 0x2401:03 (R306). -/
abbrev RT_IP : Nat := 0x240103
/-- Route UDP Port, 0x2401:04 (R306). -/
abbrev RT_UDP : Nat := 0x240104
/-- Route VLAN, 0x2401:05 (R306). -/
abbrev RT_VLAN : Nat := 0x240105
/-- Route DSCP, 0x2401:06 (R306). -/
abbrev RT_DSCP : Nat := 0x240106
/-- Installed Memory, 0x2500:01 (R346). -/
abbrev MEM_INSTALLED : Nat := 0x250001
/-- Online Channels, 0x2500:02 (R346). -/
abbrev MEM_ONLINE : Nat := 0x250002
/-- Usable Capacity, 0x2500:03 (R346). -/
abbrev MEM_USABLE : Nat := 0x250003
/-- Available Bandwidth, 0x2500:04 (R346). -/
abbrev MEM_BW_AVAIL : Nat := 0x250004
/-- Stream Staging Limit, 0x2500:05 (R346). -/
abbrev MEM_STAGE_LIM : Nat := 0x250005
/-- Retired Blocks, 0x2500:06 (R346). -/
abbrev MEM_RETIRED : Nat := 0x250006
/-- Retire Threshold, 0x2500:07 (R346). -/
abbrev MEM_RETIRE_THR : Nat := 0x250007
/-- Read-Modify-Writes, 0x2500:08 (R346). -/
abbrev MEM_RMW : Nat := 0x250008
/-- Channel State, 0x2500:09 (R346). -/
abbrev MEM_CH_STATE : Nat := 0x250009
/-- Channel Size, 0x2500:0A (R346). -/
abbrev MEM_CH_SIZE : Nat := 0x25000A
/-- Stall Capacity, 0x2510:01 (R346). -/
abbrev ST_CAP : Nat := 0x251001
/-- Stall Bandwidth, 0x2510:02 (R346). -/
abbrev ST_BW : Nat := 0x251002
/-- Stall Priority, 0x2510:03 (R346). -/
abbrev ST_PRIO : Nat := 0x251003
/-- Receive Reserve, 0x2510:04 (R346). -/
abbrev ST_RSV : Nat := 0x251004
/-- Stall Status, 0x2510:05 (R346). -/
abbrev ST_STATUS : Nat := 0x251005
/-- Stored, 0x2510:06 (R346). -/
abbrev ST_STORED : Nat := 0x251006
/-- Effective Capacity, 0x2510:07 (R346). -/
abbrev ST_EFF_CAP : Nat := 0x251007
/-- Effective Bandwidth, 0x2510:08 (R346). -/
abbrev ST_EFF_BW : Nat := 0x251008
/-- Quota Losses, 0x2510:09 (R346). -/
abbrev ST_QLOSS : Nat := 0x251009
/-- Refused Portions, 0x2510:0A (R346). -/
abbrev ST_REFUSED : Nat := 0x25100A
/-- Port Stall, 0x2520:01 (R346). -/
abbrev ST_PORT : Nat := 0x252001
/-- Ring Size, 0x2580:01 (R176). -/
abbrev SNAP_RING_LOG2 : Nat := 0x258001
/-- Ring Full Policy, 0x2580:02 (R176). -/
abbrev SNAP_RING_POLICY : Nat := 0x258002
/-- Snapshots in Acquisition, 0x2580:03 (R176). -/
abbrev SNAP_IN_ACQ : Nat := 0x258003
/-- Ring Write Sequence, 0x2580:04 (R176). -/
abbrev SNAP_RING_WSEQ : Nat := 0x258004
/-- Ring Entries Held, 0x2580:05 (R176). -/
abbrev SNAP_RING_HELD : Nat := 0x258005
/-- Ring Drops, 0x2580:06 (R176). -/
abbrev SNAP_RING_DROP : Nat := 0x258006
/-- Ring Overwrites, 0x2580:07 (R176). -/
abbrev SNAP_RING_OVWR : Nat := 0x258007
/-- Hold Time, 0x2600:01 (R347). -/
abbrev TRG_HOLD : Nat := 0x260001
/-- Read-out Backlog Limit, 0x2600:02 (R347). -/
abbrev TRG_BACKLOG : Nat := 0x260002
/-- Effective Hold Time, 0x2600:03 (R347). -/
abbrev TRG_HOLD_EFF : Nat := 0x260003
/-- Message Triggers, 0x2600:04 (R347). -/
abbrev TRG_MSG_EN : Nat := 0x260004
/-- Window Table Fill, 0x2600:05 (R347). -/
abbrev TRG_WFILL : Nat := 0x260005
/-- Windows Opened, 0x2600:06 (R347). -/
abbrev TRG_OPENED : Nat := 0x260006
/-- Windows Refused, 0x2600:07 (R347). -/
abbrev TRG_REFUSED : Nat := 0x260007
/-- Late Windows, 0x2600:08 (R347). -/
abbrev TRG_LATE : Nat := 0x260008
/-- Baskets Selected, 0x2600:09 (R347). -/
abbrev TRG_SELECTED : Nat := 0x260009
/-- Baskets Expired, 0x2600:0A (R347). -/
abbrev TRG_EXPIRED : Nat := 0x26000A
/-- Read-out Backlog, 0x2600:0B (R347). -/
abbrev TRG_BACKLOG_NOW : Nat := 0x26000B
/-- Decision Pause, 0x2600:0C (R347). -/
abbrev TRG_PAUSE : Nat := 0x26000C
/-- Trigger Enable, 0x2610:01 (R347). -/
abbrev TRG_PIN_EN : Nat := 0x261001
/-- Trigger Offset, 0x2610:02 (R347). -/
abbrev TRG_OFFSET : Nat := 0x261002
/-- Trigger Width, 0x2610:03 (R347). -/
abbrev TRG_WIDTH : Nat := 0x261003
/-- Trigger Filter, 0x2610:04 (R347). -/
abbrev TRG_FILTER : Nat := 0x261004
/-- Pin Triggers, 0x2610:05 (R347). -/
abbrev TRG_PIN_CNT : Nat := 0x261005
/-- Core Health, 0x2700:01 (R400). -/
abbrev SC_HEALTH : Nat := 0x270001
/-- Core Jobs, 0x2700:02 (R400). -/
abbrev SC_CORE_JOBS : Nat := 0x270002
/-- Core Busy Slots, 0x2700:03 (R400). -/
abbrev SC_CORE_BUSY : Nat := 0x270003
/-- Core Access Faults, 0x2700:04 (R400). -/
abbrev SC_CORE_AFLT : Nat := 0x270004
/-- Core Disable, 0x2700:05 (R400). -/
abbrev SC_CORE_DIS : Nat := 0x270005
/-- Job Run Limit, 0x2700:06 (R400). -/
abbrev SC_RUN_LIMIT : Nat := 0x270006
/-- Aging Limit, 0x2700:07 (R400). -/
abbrev SC_AGING : Nat := 0x270007
/-- Affinity Wait, 0x2700:08 (R400). -/
abbrev SC_AFF_WAIT : Nat := 0x270008
/-- Task State, 0x2701:01 (R400). -/
abbrev SC_TASK_STATE : Nat := 0x270101
/-- Task Priority, 0x2701:02 (R400). -/
abbrev SC_TASK_PRIO : Nat := 0x270102
/-- Task Affinity, 0x2701:03 (R400). -/
abbrev SC_TASK_AFF : Nat := 0x270103
/-- Task Jobs, 0x2701:04 (R400). -/
abbrev SC_TASK_JOBS : Nat := 0x270104
/-- Task Aborts, 0x2701:05 (R400). -/
abbrev SC_TASK_ABORTS : Nat := 0x270105
/-- Task Restore, 0x2701:06 (R400). -/
abbrev SC_TASK_RESTORE : Nat := 0x270106
/-- Source Job Limit, 0x2702:01 (R400). -/
abbrev SC_SRC_LIM : Nat := 0x270201
/-- Source Jobs, 0x2702:02 (R400). -/
abbrev SC_SRC_JOBS : Nat := 0x270202
/-- Source Held Slots, 0x2702:03 (R400). -/
abbrev SC_SRC_HELD : Nat := 0x270203
/-- Service Jobs On Chip, 0x2702:04 (R400). -/
abbrev SC_SVC_ONCHIP : Nat := 0x270204
/-- Service Jobs Spilled, 0x2702:05 (R400). -/
abbrev SC_SVC_SPILLED : Nat := 0x270205
/-- Spill Queue Size, 0x2702:06 (R400). -/
abbrev SC_SPILL_Q : Nat := 0x270206
/-- Service Posts Refused, 0x2702:07 (R400). -/
abbrev SC_SVC_REFUSED : Nat := 0x270207
/-- Job Aborts, 0x2702:08 (R400). -/
abbrev SC_ABORTS : Nat := 0x270208
/-- Jobs Lost, 0x2702:09 (R400). -/
abbrev SC_LOST : Nat := 0x270209
/-- Ready List Resets, 0x2702:0A (R400). -/
abbrev SC_LIST_RST : Nat := 0x27020A
/-- Spill Load Faults, 0x2702:0B (R400). -/
abbrev SC_SPILL_FLT : Nat := 0x27020B
/-- Trace Mode, 0x2703:01 (R400). -/
abbrev SC_TRACE_MODE : Nat := 0x270301
/-- Trace Filter, 0x2703:02 (R400). -/
abbrev SC_TRACE_FILT : Nat := 0x270302
/-- Trace Read, 0x2703:03 (R400). -/
abbrev SC_TRACE_READ : Nat := 0x270303
/-- Trace Fill, 0x2703:04 (R400). -/
abbrev SC_TRACE_FILL : Nat := 0x270304
/-- Trace Drops, 0x2703:05 (R400). -/
abbrev SC_TRACE_DROP : Nat := 0x270305
/-- Thermal State, 0x2800:01 (R369). -/
abbrev GV_TSTATE : Nat := 0x280001
/-- Die Temperature, 0x2800:02 (R369). -/
abbrev GV_TEMP : Nat := 0x280002
/-- Warm Threshold, 0x2800:03 (R369). -/
abbrev GV_T_WARM : Nat := 0x280003
/-- Hot Threshold, 0x2800:04 (R369). -/
abbrev GV_T_HOT : Nat := 0x280004
/-- Critical Threshold, 0x2800:05 (R369). -/
abbrev GV_T_CRIT : Nat := 0x280005
/-- Hysteresis, 0x2800:06 (R369). -/
abbrev GV_T_HYST : Nat := 0x280006
/-- Steep Time, 0x2800:07 (R369). -/
abbrev GV_STEEP : Nat := 0x280007
/-- Flap Count, 0x2800:08 (R369). -/
abbrev GV_FLAP_N : Nat := 0x280008
/-- Flap Window, 0x2800:09 (R369). -/
abbrev GV_FLAP_WIN : Nat := 0x280009
/-- Flap Hold, 0x2800:0A (R369). -/
abbrev GV_FLAP_HOLD : Nat := 0x28000A
/-- State Changes, 0x2800:0B (R369). -/
abbrev GV_TCHANGES : Nat := 0x28000B
/-- Flap Holds, 0x2800:0C (R369). -/
abbrev GV_FLAPS : Nat := 0x28000C
/-- Front-End Budget, 0x2810:01 (R369). -/
abbrev GV_FE_BUDGET : Nat := 0x281001
/-- Caddy Depth, 0x2810:02 (R369). -/
abbrev GV_FE_DEPTH : Nat := 0x281002
/-- Caddy Balance, 0x2810:03 (R369). -/
abbrev GV_FE_BAL : Nat := 0x281003
/-- Committed Energy, 0x2810:04 (R369). -/
abbrev GV_FE_COMMIT : Nat := 0x281004
/-- Measured Power, 0x2810:05 (R369). -/
abbrev GV_FE_POWER : Nat := 0x281005
/-- Caddy Status, 0x2810:06 (R369). -/
abbrev GV_FE_CSTAT : Nat := 0x281006
/-- Caddy Resume, 0x2810:07 (R369). -/
abbrev GV_RESUME : Nat := 0x281007
/-- Resting Level, 0x2820:01 (R369). -/
abbrev GV_REST : Nat := 0x282001
/-- Wake Enable, 0x2820:02 (R369). -/
abbrev GV_WAKE_EN : Nat := 0x282002
/-- Group Priority, 0x2820:03 (R369). -/
abbrev GV_GPRIO : Nat := 0x282003
/-- Fence Bias Limit, 0x2820:04 (R369). -/
abbrev GV_FENCE_MAX : Nat := 0x282004
/-- Commanded Level, 0x2820:05 (R369). -/
abbrev GV_LEVEL : Nat := 0x282005
/-- Refused Grants, 0x2820:06 (R369). -/
abbrev GV_REFUSED : Nat := 0x282006
/-- Reduced Grants, 0x2820:07 (R369). -/
abbrev GV_REDUCED : Nat := 0x282007
/-- Wakes, 0x2820:08 (R369). -/
abbrev GV_WAKES : Nat := 0x282008
/-- Wake Hold, 0x2820:09 (R369). -/
abbrev GV_WAKE_HOLD : Nat := 0x282009
/-- Domain Budget, 0x2830:01 (R369). -/
abbrev GV_DOM_BUDGET : Nat := 0x283001
/-- Domain Depth, 0x2830:02 (R369). -/
abbrev GV_DOM_DEPTH : Nat := 0x283002
/-- Domain Balance, 0x2830:03 (R369). -/
abbrev GV_DOM_BAL : Nat := 0x283003
/-- Domain Power, 0x2830:04 (R369). -/
abbrev GV_DOM_POWER : Nat := 0x283004
/-- Cores Allowed, 0x2840:01 (R369). -/
abbrev GV_CORES : Nat := 0x284001
/-- Governor Status, 0x2840:02 (R369). -/
abbrev GV_STATUS : Nat := 0x284002
/-- Memory Throttle, 0x2840:03 (R369). -/
abbrev GV_MEM_THROTTLE : Nat := 0x284003
/-- Scrub Permit, 0x2840:04 (R369). -/
abbrev GV_SCRUB_PERMIT : Nat := 0x284004
/-- Minimum Cores, 0x2840:05 (R369). -/
abbrev GV_MIN_CORES : Nat := 0x284005
/-- Fence Events, 0x2850:01 (R369). -/
abbrev GV_FENCE_CNT : Nat := 0x285001
/-- Fence Status, 0x2850:02 (R369). -/
abbrev GV_FENCE_STAT : Nat := 0x285002
/-- Engine Preset, 0x2900:01 (R446). -/
abbrev CV_PRESET : Nat := 0x290001
/-- Width, 0x2900:02 (R446). -/
abbrev CV_WIDTH : Nat := 0x290002
/-- Polynomial, 0x2900:03 (R446). -/
abbrev CV_POLY : Nat := 0x290003
/-- Initial Value, 0x2900:04 (R446). -/
abbrev CV_INIT : Nat := 0x290004
/-- Final XOR, 0x2900:05 (R446). -/
abbrev CV_XOROUT : Nat := 0x290005
/-- Reflect Input, 0x2900:06 (R446). -/
abbrev CV_REFIN : Nat := 0x290006
/-- Reflect Output, 0x2900:07 (R446). -/
abbrev CV_REFOUT : Nat := 0x290007
/-- Descriptors Completed, 0x2900:08 (R446). -/
abbrev CV_DONE : Nat := 0x290008
/-- Descriptor Errors, 0x2900:09 (R446). -/
abbrev CV_DERR : Nat := 0x290009
/-- Engine State, 0x2900:0A (R446). -/
abbrev CV_STATE : Nat := 0x29000A
/-- Alive Last Accepted, 0x2901:01 (R446). -/
abbrev CV_ALIVE_LAST : Nat := 0x290101
/-- Alive Repeats, 0x2901:02 (R446). -/
abbrev CV_ALIVE_REP : Nat := 0x290102
/-- Alive Stale, 0x2901:03 (R446). -/
abbrev CV_ALIVE_STALE : Nat := 0x290103
/-- Alive Skips, 0x2901:04 (R446). -/
abbrev CV_ALIVE_SKIP : Nat := 0x290104
/-- Alive Reset, 0x2901:05 (R446). -/
abbrev CV_ALIVE_RESET : Nat := 0x290105
/-- Channel Type, 0x2A00:01 (R448). -/
abbrev EM_TYPE : Nat := 0x2A0001
/-- Excitation Current, 0x2A00:02 (R448). -/
abbrev EM_IEXC : Nat := 0x2A0002
/-- Current Swap, 0x2A00:03 (R448). -/
abbrev EM_SWAP : Nat := 0x2A0003
/-- Nominal Resistance, 0x2A00:04 (R448). -/
abbrev EM_RNOM : Nat := 0x2A0004
/-- Drive Frequency, 0x2A00:05 (R448). -/
abbrev EM_FDRIVE : Nat := 0x2A0005
/-- Drive Amplitude, 0x2A00:06 (R448). -/
abbrev EM_VDRIVE : Nat := 0x2A0006
/-- Conversion Interval, 0x2A00:07 (R448). -/
abbrev EM_INTERVAL : Nat := 0x2A0007
/-- Blanking Select, 0x2A00:08 (R448). -/
abbrev EM_BLANK_SEL : Nat := 0x2A0008
/-- Result, 0x2A00:09 (R448). -/
abbrev EM_RESULT : Nat := 0x2A0009
/-- Conversions, 0x2A00:0A (R448). -/
abbrev EM_CONV : Nat := 0x2A000A
/-- Blanked Conversions, 0x2A00:0B (R448). -/
abbrev EM_BLANKED : Nat := 0x2A000B
/-- Blank Hold, 0x2A01:01 (R448). -/
abbrev EM_BLANK_HOLD : Nat := 0x2A0101
/-- Blank Events, 0x2A01:02 (R448). -/
abbrev EM_BLANK_CNT : Nat := 0x2A0102
/-- Excitation Clamps, 0x2A01:03 (R448). -/
abbrev EM_IEXC_CLAMP : Nat := 0x2A0103
/-- Active Keeper, 0x2B00:01 (R451). -/
abbrev RD_KEEPER : Nat := 0x2B0001
/-- Keeper Health, 0x2B00:02 (R451). -/
abbrev RD_KP_HEALTH : Nat := 0x2B0002
/-- Force Keeper Swap, 0x2B00:03 (R451). -/
abbrev RD_KP_SWAP : Nat := 0x2B0003
/-- Keeper Swaps, 0x2B00:04 (R451). -/
abbrev RD_KP_SWAPS : Nat := 0x2B0004
/-- Redundancy Summary, 0x2B00:05 (R451). -/
abbrev RD_SUMMARY : Nat := 0x2B0005
/-- Background Scrub Rate, 0x2C00:01 (R348). -/
abbrev SCR_RATE : Nat := 0x2C0001
/-- Window Scrub Rate, 0x2C00:02 (R348). -/
abbrev SCR_WIN_RATE : Nat := 0x2C0002
/-- Lap Limit, 0x2C00:03 (R348). -/
abbrev SCR_LAP_LIMIT : Nat := 0x2C0003
/-- Last Lap Time, 0x2C00:04 (R348). -/
abbrev SCR_LAP : Nat := 0x2C0004
/-- Laps Completed, 0x2C00:05 (R348). -/
abbrev SCR_LAPS : Nat := 0x2C0005
/-- Scrub Status, 0x2C00:06 (R348). -/
abbrev SCR_STATUS : Nat := 0x2C0006
/-- SRAM Lap Time, 0x2C00:07 (R348). -/
abbrev SCR_SRAM_LAP : Nat := 0x2C0007
/-- Corrected Words, 0x2C00:08 (R348). -/
abbrev ECC_COR : Nat := 0x2C0008
/-- Uncorrectable Words, 0x2C00:09 (R348). -/
abbrev ECC_UNC : Nat := 0x2C0009
/-- Tag Errors, 0x2C00:0A (R348). -/
abbrev ECC_TAG : Nat := 0x2C000A
/-- SRAM Corrected Words, 0x2C00:0B (R348). -/
abbrev ECC_SRAM_COR : Nat := 0x2C000B
/-- SRAM Uncorrectable Words, 0x2C00:0C (R348). -/
abbrev ECC_SRAM_UNC : Nat := 0x2C000C
/-- Self-Test Result, 0x2C00:0D (R348). -/
abbrev ECC_SELFTEST : Nat := 0x2C000D
/-- Diagnostic Enable, 0x2C10:01 (R348). -/
abbrev ECC_DIAG_EN : Nat := 0x2C1001
/-- Diagnostic Target, 0x2C10:02 (R348). -/
abbrev ECC_DIAG_CH : Nat := 0x2C1002
/-- Diagnostic Address, 0x2C10:03 (R348). -/
abbrev ECC_DIAG_ADDR : Nat := 0x2C1003
/-- Diagnostic Data, 0x2C10:04 (R348). -/
abbrev ECC_DIAG_DATA : Nat := 0x2C1004
/-- Diagnostic Check, 0x2C10:05 (R348). -/
abbrev ECC_DIAG_CHK : Nat := 0x2C1005
/-- Diagnostic Tag, 0x2C10:06 (R348). -/
abbrev ECC_DIAG_TAG : Nat := 0x2C1006
/-- Diagnostic Command, 0x2C10:07 (R348). -/
abbrev ECC_DIAG_CMD : Nat := 0x2C1007
/-- Diagnostic Result, 0x2C10:08 (R348). -/
abbrev ECC_DIAG_RES : Nat := 0x2C1008
/-- Back-End Port Mode, 0x2D00:01 (R307). -/
abbrev BE_MODE : Nat := 0x2D0001
/-- Auto-Negotiation, 0x2D00:02 (R307). -/
abbrev BE_AN : Nat := 0x2D0002
/-- Source MAC, 0x2D00:03 (R307). -/
abbrev BE_SRC_MAC : Nat := 0x2D0003
/-- Source IPv4, 0x2D00:04 (R307). -/
abbrev BE_SRC_IP : Nat := 0x2D0004
/-- Source UDP Base, 0x2D00:05 (R307). -/
abbrev BE_SRC_UDP : Nat := 0x2D0005
/-- Link State, 0x2D00:06 (R307). -/
abbrev BE_LINK : Nat := 0x2D0006
/-- Pause Honour, 0x2D00:07 (R307). -/
abbrev BE_PAUSE : Nat := 0x2D0007
/-- Frames Sent, 0x2D00:08 (R307). -/
abbrev BE_TX_FRAMES : Nat := 0x2D0008
/-- Bytes Sent, 0x2D00:09 (R307). -/
abbrev BE_TX_BYTES : Nat := 0x2D0009
/-- FEC Corrected, 0x2D00:0A (R307). -/
abbrev BE_FEC_COR : Nat := 0x2D000A
/-- FEC Uncorrected, 0x2D00:0B (R307). -/
abbrev BE_FEC_UNC : Nat := 0x2D000B
/-- Receive Discards, 0x2D00:0C (R307). -/
abbrev BE_RX_DISC : Nat := 0x2D000C
/-- Pause Time, 0x2D00:0D (R307). -/
abbrev BE_PAUSE_TIME : Nat := 0x2D000D
/-- Egress Resets, 0x2D00:0E (R307). -/
abbrev BE_EGR_RST : Nat := 0x2D000E
/-- Back-End Test Errors, 0x2D00:0F (R307). -/
abbrev BE_TEST_ERR : Nat := 0x2D000F
/-- IP MTU, 0x2D01:01 (R307). -/
abbrev BE_MTU : Nat := 0x2D0101
/-- IP TTL, 0x2D01:02 (R307). -/
abbrev BE_TTL : Nat := 0x2D0102
/-- Snapshot Route Key, 0x2D01:03 (R307). -/
abbrev SNAP_ROUTE : Nat := 0x2D0103
/-- Back-End Test Select, 0x2D01:04 (R307). -/
abbrev BE_TEST : Nat := 0x2D0104
/-- Format Pin, 0x2D10:01 (R307). -/
abbrev BE_FMT_PIN : Nat := 0x2D1001
/-- Format In Use, 0x2D10:02 (R307). -/
abbrev BE_FMT : Nat := 0x2D1002
/-- Firmware Version, 0x2D10:03 (R307). -/
abbrev BE_FW_VER : Nat := 0x2D1003
/-- Cycle Length, 0x2E00:01 (R33). -/
abbrev CYCLE_LEN : Nat := 0x2E0001
/-- Cycle Number, 0x2E00:02 (R33). -/
abbrev CYCLE_NUM : Nat := 0x2E0002
/-- Slot in Cycle, 0x2E00:03 (R33). -/
abbrev CYCLE_SLOT : Nat := 0x2E0003
/-- Frame Index, 0x2E00:04 (R33). -/
abbrev FRAME_IDX : Nat := 0x2E0004
/-- Frames per Cycle, 0x2E00:05 (R33). -/
abbrev FRAMES_PER_CYC : Nat := 0x2E0005
/-- Command Lead, 0x2E00:06 (R33). -/
abbrev CAL_LEAD : Nat := 0x2E0006
/-- Entry Enable, 0x2E01:01 (R33). -/
abbrev CAL_EN : Nat := 0x2E0101
/-- Entry Slot, 0x2E01:02 (R33). -/
abbrev CAL_SLOT : Nat := 0x2E0102
/-- Entry Action, 0x2E01:03 (R33). -/
abbrev CAL_ACTION : Nat := 0x2E0103
/-- Entry Period Exponent, 0x2E01:04 (R33). -/
abbrev CAL_EVERY : Nat := 0x2E0104
/-- Entry Phase, 0x2E01:05 (R33). -/
abbrev CAL_PHASE : Nat := 0x2E0105
/-- Entry Ports, 0x2E01:06 (R33). -/
abbrev CAL_PORTS : Nat := 0x2E0106
/-- Entry Region Groups, 0x2E01:07 (R33). -/
abbrev CAL_GROUPS : Nat := 0x2E0107
/-- Entry Argument, 0x2E01:08 (R33). -/
abbrev CAL_ARG : Nat := 0x2E0108
/-- Calendar Commit, 0x2E02:01 (R33). -/
abbrev CAL_COMMIT : Nat := 0x2E0201
/-- Calendar Status, 0x2E02:02 (R33). -/
abbrev CAL_STATUS : Nat := 0x2E0202
/-- Calendar Commit Cycle, 0x2E02:03 (R33). -/
abbrev CAL_COMMIT_CYC : Nat := 0x2E0203
/-- Calendar Refusal Entry, 0x2E02:04 (R33). -/
abbrev CAL_REFUSED_AT : Nat := 0x2E0204
/-- Skipped Entries, 0x2E03:01 (R33). -/
abbrev CAL_SKIPPED : Nat := 0x2E0301
/-- Late Commands, 0x2E03:02 (R33). -/
abbrev CAL_LATE : Nat := 0x2E0302
/-- Cancelled Commands, 0x2E03:03 (R33). -/
abbrev CAL_CANCELLED : Nat := 0x2E0303
/-- Lead Check Failures, 0x2E03:04 (R33). -/
abbrev CAL_LEAD_SHORT : Nat := 0x2E0304
/-- Active bank Entry Enable, 0x2E04:01 (R33). -/
abbrev CALA_EN : Nat := 0x2E0401
/-- Active bank Entry Slot, 0x2E04:02 (R33). -/
abbrev CALA_SLOT : Nat := 0x2E0402
/-- Active bank Entry Action, 0x2E04:03 (R33). -/
abbrev CALA_ACTION : Nat := 0x2E0403
/-- Active bank Entry Period Exponent, 0x2E04:04 (R33). -/
abbrev CALA_EVERY : Nat := 0x2E0404
/-- Active bank Entry Phase, 0x2E04:05 (R33). -/
abbrev CALA_PHASE : Nat := 0x2E0405
/-- Active bank Entry Ports, 0x2E04:06 (R33). -/
abbrev CALA_PORTS : Nat := 0x2E0406
/-- Active bank Entry Region Groups, 0x2E04:07 (R33). -/
abbrev CALA_GROUPS : Nat := 0x2E0407
/-- Active bank Entry Argument, 0x2E04:08 (R33). -/
abbrev CALA_ARG : Nat := 0x2E0408
/-- Chip Serial, 0x4000:01 (R453). -/
abbrev FE_SERIAL : Nat := 0x400001
/-- Silicon Revision, 0x4000:02 (R453). -/
abbrev FE_REV : Nat := 0x400002
/-- Channel Count, 0x4000:03 (R453). -/
abbrev FE_CHANNELS : Nat := 0x400003
/-- Applied Mode, 0x4000:04 (R453). -/
abbrev FE_MODE : Nat := 0x400004
/-- Cycle Length, 0x4000:05 (R453). -/
abbrev FE_CYCLE_LEN : Nat := 0x400005
/-- Calendar Mirror Cycle, 0x4000:06 (R453). -/
abbrev FE_MIRROR_CYC : Nat := 0x400006
/-- Messages Accepted, 0x4000:07 (R453). -/
abbrev FE_CFG_ACC : Nat := 0x400007
/-- Messages Rejected, 0x4000:08 (R453). -/
abbrev FE_CFG_REJ : Nat := 0x400008
/-- Previous Message, 0x4001:01 (R437). -/
abbrev FE_PREV_MSG : Nat := 0x400101
/-- Staging Buffer, 0x4001:02 (R437). -/
abbrev FE_STAGE : Nat := 0x400102
/-- Channel Analogue Configuration, 0x4100:01 (R84). -/
abbrev FE_CH_ANA : Nat := 0x410001
/-- Channel Analogue Status, 0x4100:02 (R84). -/
abbrev FE_CH_STAT : Nat := 0x410002
/-- Region Analogue Configuration, 0x4110:01 (R84). -/
abbrev FE_RG_ANA : Nat := 0x411001
/-- Region Bias Status, 0x4110:02 (R84). -/
abbrev FE_RG_BIAS : Nat := 0x411002
/-- Threshold Floor, HIGH, 0x4111:01 (R84). -/
abbrev FE_THR_FLOOR_H : Nat := 0x411101
/-- Threshold Floor, LOW, 0x4111:02 (R84). -/
abbrev FE_THR_FLOOR_L : Nat := 0x411102
/-- Floored Channels, 0x4111:03 (R84). -/
abbrev FE_THR_FLOORED_CNT : Nat := 0x411103
/-- Inject, 0x4120:01 (R84). -/
abbrev FE_INJECT : Nat := 0x412001
/-- Channel Dead Time, Busy, 0x4130:01 (R118). -/
abbrev FE_CH_DT_BUSY : Nat := 0x413001
/-- Channel Dead Time, Blocked, 0x4130:02 (R118). -/
abbrev FE_CH_DT_BLK : Nat := 0x413002
/-- Channel Calibration Pair, 0x4130:03 (R118). -/
abbrev FE_CH_PAIR : Nat := 0x413003
/-- Channel Pair Faults, 0x4130:04 (R118). -/
abbrev FE_CH_PAIR_FLT : Nat := 0x413004
/-- Region Timing Configuration, 0x4131:01 (R118). -/
abbrev FE_RG_TIME : Nat := 0x413101
/-- Region Timing Status, 0x4131:02 (R118). -/
abbrev FE_RG_TSTAT : Nat := 0x413102
/-- Region Phase Offset, 0x4131:03 (R118). -/
abbrev FE_RG_PHASE_OFS : Nat := 0x413103
/-- Region Temperature, 0x4131:04 (R118). -/
abbrev FE_RG_TEMP : Nat := 0x413104
/-- Region VDDA, 0x4131:05 (R118). -/
abbrev FE_RG_VDDA : Nat := 0x413105
/-- Region VDDT, 0x4131:06 (R118). -/
abbrev FE_RG_VDDT : Nat := 0x413106
/-- Region Dead Time, 0x4131:07 (R118). -/
abbrev FE_RG_DT : Nat := 0x413107
/-- Pair Age Limit, 0x4132:01 (R118). -/
abbrev FE_PAIR_AGE : Nat := 0x413201
/-- Chip Dead Time, 0x4132:02 (R118). -/
abbrev FE_CHIP_DT : Nat := 0x413202
/-- Regions Out of Envelope, 0x4132:03 (R118). -/
abbrev FE_ENV_CNT : Nat := 0x413203
/-- Timing Counter Clear, 0x4132:04 (R118). -/
abbrev FE_TCNT_CLEAR : Nat := 0x413204
/-- Frame Close, 0x4140:01 (R152). -/
abbrev FE_FRAME_CLOSE : Nat := 0x414001
/-- Packet Wait, 0x4140:02 (R152). -/
abbrev FE_PKT_WAIT : Nat := 0x414002
/-- Region Rate, 0x4140:03 (R152). -/
abbrev FE_RG_RATE : Nat := 0x414003
/-- Readout Counter Clear, 0x4140:04 (R152). -/
abbrev FE_RCNT_CLEAR : Nat := 0x414004
/-- Flood Channels, 0x4141:01 (R152). -/
abbrev FLOOD_N : Nat := 0x414101
/-- Flood Window, 0x4141:02 (R152). -/
abbrev FLOOD_W : Nat := 0x414102
/-- Flood Queue Time, 0x4141:03 (R152). -/
abbrev FLOOD_Q : Nat := 0x414103
/-- Flood Quiet, 0x4141:04 (R152). -/
abbrev FLOOD_QUIET : Nat := 0x414104
/-- Chip Flood Regions, 0x4141:05 (R152). -/
abbrev FLOOD_CHIP_N : Nat := 0x414105
/-- Region Flood Enable, 0x4141:06 (R152). -/
abbrev FE_RG_FLOOD_EN : Nat := 0x414106
/-- Region Flood State, 0x4141:07 (R152). -/
abbrev FE_RG_FLOOD : Nat := 0x414107
/-- Chip Flood State, 0x4141:08 (R152). -/
abbrev FE_CHIP_FLOOD : Nat := 0x414108
/-- Region Flood Episodes, 0x4142:01 (R152). -/
abbrev FE_RG_FLOOD_CNT : Nat := 0x414201
/-- Region Suppressed Edges, 0x4142:02 (R152). -/
abbrev FE_RG_SUPPR : Nat := 0x414202
/-- Region Frame-Close Losses, 0x4142:03 (R152). -/
abbrev FE_RG_CLOSE_LOSS : Nat := 0x414203
/-- Chip Flood Episodes, 0x4142:04 (R152). -/
abbrev FE_CHIP_FLOOD_CNT : Nat := 0x414204
/-- Queue-Reset Losses, 0x4142:05 (R152). -/
abbrev FE_QRST_LOSS : Nat := 0x414205
/-- Queue Resets, 0x4142:06 (R152). -/
abbrev FE_QRST_CNT : Nat := 0x414206
/-- Record Overflows, 0x4142:07 (R152). -/
abbrev FE_REC_OVF : Nat := 0x414207
/-- Frames Closed by Deadline, 0x4142:08 (R152). -/
abbrev FE_CLOSE_DL : Nat := 0x414208
/-- Region Configuration Faults, 0x4142:09 (R152). -/
abbrev FE_RG_CFG_FLT : Nat := 0x414209
/-- Region Configuration Corrections, 0x4142:0A (R152). -/
abbrev FE_RG_CFG_COR : Nat := 0x41420A
/-- Region Snapshot Configuration, 0x4150:01 (R175). -/
abbrev FE_RG_SNAP : Nat := 0x415001
/-- Region Missed Triggers, 0x4150:02 (R175). -/
abbrev FE_RG_SNAP_MISS : Nat := 0x415002
/-- Pulse Width, 0x4151:01 (R175). -/
abbrev SNAP_PW_WIDTH : Nat := 0x415101
/-- Pulse-Width Delay, 0x4151:02 (R175). -/
abbrev SNAP_PW_DELAY : Nat := 0x415102
/-- Calendar Snapshot Delay, 0x4151:03 (R175). -/
abbrev SNAP_CAL_DELAY : Nat := 0x415103
/-- Snapshot Lane Share, 0x4151:04 (R175). -/
abbrev SNAP_SHARE : Nat := 0x415104
/-- Snapshot Events, 0x4151:05 (R175). -/
abbrev FE_SNAP_EVENTS : Nat := 0x415105
/-- Force Snapshot, 0x4151:06 (R175). -/
abbrev FE_SNAP_FORCE : Nat := 0x415106
/-- Snapshot Queue Losses, 0x4151:07 (R175). -/
abbrev FE_SNAP_QLOSS : Nat := 0x415107
/-- Snapshot Calibration Control, 0x4152:01 (R175). -/
abbrev FE_SNAP_CAL : Nat := 0x415201
/-- Calibration Count Exponent, 0x4152:02 (R175). -/
abbrev FE_SNAP_CAL_N : Nat := 0x415202
/-- Snapshot Calibration Status, 0x4152:03 (R175). -/
abbrev FE_SNAP_CAL_STAT : Nat := 0x415203
/-- Invalid Cells, 0x4152:04 (R175). -/
abbrev FE_SNAP_BADCELLS : Nat := 0x415204
/-- Sampler Coefficients, 0x4152:05 (R175). -/
abbrev FE_SNAP_COEF : Nat := 0x415205
end Reg

/-- Rows 0 to 39 of the dictionary, in address order. -/
def objRows0 : List ObjRow := [
  ⟨Reg.ID_VENDOR, .string, .ro, 1, 0, 0, 0⟩,
  ⟨Reg.ID_PRODUCT, .string, .ro, 1, 0, 0, 0⟩,
  ⟨Reg.ID_REV, .u8, .ro, 1, 176, 0, 255⟩,
  ⟨Reg.ID_SERIAL, .u64, .ro, 1, 0, 0, 18446744073709551615⟩,
  ⟨Reg.ID_PORTS, .u8, .ro, 1, 32, 0, 255⟩,
  ⟨Reg.ID_DICT_VER, .u32, .ro, 1, 0, 0, 4294967295⟩,
  ⟨Reg.ID_UPTIME, .u64, .ro, 1, 0, 0, 18446744073709551615⟩,
  ⟨Reg.COM_NODE, .u8, .ro, 1, 0, 0, 255⟩,
  ⟨Reg.COM_CAN_EN, .u8, .rwc, 1, 3, 0, 3⟩,
  ⟨Reg.COM_CAN_NBR, .u32, .rwc, 1, 1000000, 125000, 1000000⟩,
  ⟨Reg.COM_CAN_DBR, .u32, .rwc, 1, 5000000, 1000000, 5000000⟩,
  ⟨Reg.COM_GUARD_CHAL, .u32, .ro, 1, 0, 0, 4294967295⟩,
  ⟨Reg.COM_GUARD_TOKEN, .u32, .wo, 1, 0, 0, 4294967295⟩,
  ⟨Reg.COM_EXEC, .u64, .ro, 1, 0, 0, 18446744073709551615⟩,
  ⟨Reg.COM_MSG_ERR, .u32, .ro, 1, 0, 0, 4294967295⟩,
  ⟨Reg.COM_REPLAYS, .u32, .ro, 1, 0, 0, 4294967295⟩,
  ⟨Reg.COM_ALIVE_REJ, .u32, .ro, 1, 0, 0, 4294967295⟩,
  ⟨Reg.COM_SKIPS, .u32, .ro, 1, 0, 0, 4294967295⟩,
  ⟨Reg.COM_BUSY, .u32, .ro, 1, 0, 0, 4294967295⟩,
  ⟨Reg.COM_NORES, .u32, .ro, 1, 0, 0, 4294967295⟩,
  ⟨Reg.COM_INPROG, .u32, .ro, 1, 0, 0, 4294967295⟩,
  ⟨Reg.COM_UNKNOWN, .u32, .ro, 1, 0, 0, 4294967295⟩,
  ⟨Reg.COM_RESOLVED, .u32, .ro, 1, 0, 0, 4294967295⟩,
  ⟨Reg.COM_CLIENTS, .u8, .ro, 1, 0, 0, 255⟩,
  ⟨Reg.COM_UNRES, .bool, .ro, 32, 0, 0, 255⟩,
  ⟨Reg.BT_RESTARTS, .u32, .ro, 1, 0, 0, 4294967295⟩,
  ⟨Reg.BT_FAILED, .u8, .ro, 1, 0, 0, 255⟩,
  ⟨Reg.BT_REASON, .u8, .ro, 1, 0, 0, 255⟩,
  ⟨Reg.BT_RESTART, .u8, .guarded, 1, 0, 1, 1⟩,
  ⟨Reg.LG_READ, .domain, .ro, 1, 0, 0, 0⟩,
  ⟨Reg.LG_UNREAD, .u32, .ro, 1, 0, 0, 4294967295⟩,
  ⟨Reg.LG_SEQ, .u32, .ro, 1, 0, 0, 4294967295⟩,
  ⟨Reg.LG_REWIND, .u8, .cmd, 1, 0, 1, 1⟩,
  ⟨Reg.LG_LOST, .u32, .ro, 1, 0, 0, 4294967295⟩,
  ⟨Reg.IMG_IN_USE, .u8, .ro, 1, 0, 0, 255⟩,
  ⟨Reg.IMG_PREFER, .u8, .guarded, 1, 0, 0, 1⟩,
  ⟨Reg.IMG_TRIAL_STATE, .u8, .ro, 1, 0, 0, 255⟩,
  ⟨Reg.IMG_TRIAL, .u8, .guarded, 1, 0, 0, 255⟩,
  ⟨Reg.IMG_CONFIRM, .u8, .guarded, 1, 0, 1, 1⟩,
  ⟨Reg.IMG_FALLBACKS, .u32, .ro, 1, 0, 0, 4294967295⟩]

/-- Rows 40 to 79 of the dictionary, in address order. -/
def objRows1 : List ObjRow := [
  ⟨Reg.IMG_STATUS, .u8, .ro, 2, 0, 0, 255⟩,
  ⟨Reg.IMG_VERSION, .u32, .ro, 2, 0, 0, 4294967295⟩,
  ⟨Reg.IMG_ERASE, .u8, .guarded, 2, 0, 1, 1⟩,
  ⟨Reg.IMG_WOFS, .u32, .rw, 2, 0, 0, 8388604⟩,
  ⟨Reg.IMG_DATA, .domain, .wo, 2, 0, 4, 1024⟩,
  ⟨Reg.IMG_VERIFY, .u8, .cmd, 2, 0, 1, 1⟩,
  ⟨Reg.MD_MODE, .u8, .ro, 1, 0, 0, 255⟩,
  ⟨Reg.MD_REQUEST, .u8, .rw, 1, 0, 2, 9⟩,
  ⟨Reg.MD_TARGET_CYC, .u64, .rw, 1, 0, 0, 1099511627775⟩,
  ⟨Reg.MD_PENDING, .u8, .ro, 1, 0, 0, 255⟩,
  ⟨Reg.MD_PENDING_CYC, .u64, .ro, 1, 0, 0, 18446744073709551615⟩,
  ⟨Reg.MD_REFUSAL, .u8, .ro, 1, 0, 0, 255⟩,
  ⟨Reg.MD_CHANGES, .u32, .ro, 1, 0, 0, 4294967295⟩,
  ⟨Reg.MD_SEN_PROMOTE, .bool, .rwc, 1, 0, 0, 1⟩,
  ⟨Reg.MD_SEN_RATE, .u32, .rwc, 1, 1000, 1, 16777215⟩,
  ⟨Reg.MD_SEN_REGIONS, .u16, .rwc, 1, 1, 1, 8192⟩,
  ⟨Reg.TB_NOW, .time96, .ro, 1, 0, 0, 79228162514264337593543950335⟩,
  ⟨Reg.TB_STATUS, .u32, .ro, 1, 8, 0, 4294967295⟩,
  ⟨Reg.TB_STATE, .u8, .ro, 1, 1, 0, 255⟩,
  ⟨Reg.TB_UNCERT, .u32, .ro, 1, 4294967295, 0, 4294967295⟩,
  ⟨Reg.TB_HO_TIME, .u32, .ro, 1, 0, 0, 4294967295⟩,
  ⟨Reg.TB_FRC, .u64, .ro, 1, 0, 0, 18446744073709551615⟩,
  ⟨Reg.TB_OFS_INT, .i64, .ro, 1, 0, -9223372036854775808, 9223372036854775807⟩,
  ⟨Reg.TB_OFS_FRAC, .u16, .ro, 1, 0, 0, 65535⟩,
  ⟨Reg.TB_RATE, .i64, .ro, 1, 0, -9223372036854775808, 9223372036854775807⟩,
  ⟨Reg.TB_FNOM, .u32, .rwc, 1, 125000, 100000, 160000⟩,
  ⟨Reg.TB_MAX_SLEW, .u32, .rw, 1, 1000, 10, 100000⟩,
  ⟨Reg.TB_STEP_THRESH, .u32, .rw, 1, 10, 1, 1000000⟩,
  ⟨Reg.TB_ACCEPT_STEP, .u8, .guarded, 1, 0, 1, 1⟩,
  ⟨Reg.TB_STEP_PEND, .i64, .ro, 1, 0, -9223372036854775808, 9223372036854775807⟩,
  ⟨Reg.TB_TP, .u16, .rw, 1, 8, 1, 1024⟩,
  ⟨Reg.TB_TI, .u16, .rw, 1, 32, 2, 4096⟩,
  ⟨Reg.TB_HO_BASE, .u32, .rw, 1, 2, 0, 1000000⟩,
  ⟨Reg.TB_HO_GROWTH, .u32, .rw, 1, 500, 1, 100000000⟩,
  ⟨Reg.TB_FB_GROWTH, .u32, .rw, 1, 1000000, 1, 100000000⟩,
  ⟨Reg.TB_STEP_REFUSED, .u32, .ro, 1, 0, 0, 4294967295⟩,
  ⟨Reg.TB_STEPS, .u32, .ro, 1, 0, 0, 4294967295⟩,
  ⟨Reg.TB_OUTLIERS, .u32, .ro, 1, 0, 0, 4294967295⟩,
  ⟨Reg.TB_PRESET, .time96, .guarded, 1, 0, 0, 79228162514264337593543950335⟩,
  ⟨Reg.TB_SRC_EN, .u8, .rwc, 1, 15, 0, 15⟩]

/-- Rows 80 to 119 of the dictionary, in address order. -/
def objRows2 : List ObjRow := [
  ⟨Reg.TB_HOME, .u8, .rwc, 1, 0, 0, 1⟩,
  ⟨Reg.TB_SRC_STATE, .u8, .ro, 4, 0, 0, 255⟩,
  ⟨Reg.TB_SRC_OFS, .i64, .ro, 4, 0, -9223372036854775808, 9223372036854775807⟩,
  ⟨Reg.TB_SRC_QTIME, .u32, .ro, 4, 0, 0, 4294967295⟩,
  ⟨Reg.TB_RETURN_TIME, .u16, .rw, 1, 60, 10, 3600⟩,
  ⟨Reg.TB_PTP_DOMAIN, .u8, .rwc, 1, 0, 0, 255⟩,
  ⟨Reg.TB_PTP_MAXCLASS, .u8, .rwc, 1, 7, 6, 255⟩,
  ⟨Reg.TB_PTP_ASYM, .i32, .rw, 2, 0, -1000000, 1000000⟩,
  ⟨Reg.TB_PTP_TRANSPORT, .u8, .rwc, 1, 0, 0, 1⟩,
  ⟨Reg.TB_QSPREAD, .u32, .rw, 1, 50, 1, 100000⟩,
  ⟨Reg.TB_PTP_1STEP, .u32, .ro, 2, 0, 0, 4294967295⟩,
  ⟨Reg.TB_REF_SEL, .u8, .rw, 1, 0, 0, 1⟩,
  ⟨Reg.TB_REF_USE, .u8, .ro, 1, 0, 0, 255⟩,
  ⟨Reg.TB_REF_STATE, .u8, .ro, 2, 0, 0, 255⟩,
  ⟨Reg.TB_REF_TOL, .u16, .rw, 1, 100, 5, 500⟩,
  ⟨Reg.TB_REF_FOFS, .i32, .ro, 2, 0, -2147483648, 2147483647⟩,
  ⟨Reg.TB_REF_SW, .u32, .ro, 1, 0, 0, 4294967295⟩,
  ⟨Reg.TB_CYC_SRC, .u8, .rwc, 1, 0, 0, 2⟩,
  ⟨Reg.CM_WINDOW, .u8, .rw, 1, 2, 0, 255⟩,
  ⟨Reg.CM_OFFSET, .i32, .rw, 1, 0, -1048575, 1048575⟩,
  ⟨Reg.TB_CYC_PRESET, .u64, .rwc, 1, 0, 0, 1099511627775⟩,
  ⟨Reg.TB_CYC_EPOCH, .time96, .rwc, 1, 0, 0, 79228162514264337593543950335⟩,
  ⟨Reg.CM_DEV, .i32, .ro, 1, 0, -2147483648, 2147483647⟩,
  ⟨Reg.CM_ANOM, .u32, .ro, 1, 0, 0, 4294967295⟩,
  ⟨Reg.CM_JIT, .u32, .ro, 1, 0, 0, 4294967295⟩,
  ⟨Reg.TB_REPHASE, .u32, .ro, 1, 0, 0, 4294967295⟩,
  ⟨Reg.TB_GRID_ERR, .i64, .ro, 1, 0, -9223372036854775808, 9223372036854775807⟩,
  ⟨Reg.TB_GRID_TOL, .u8, .rw, 1, 1, 1, 255⟩,
  ⟨Reg.TB_CYC_SLIP, .i64, .ro, 1, 0, -9223372036854775808, 9223372036854775807⟩,
  ⟨Reg.TB_CM_FILTER, .u8, .rw, 1, 3, 1, 15⟩,
  ⟨Reg.TPO_MODE, .u8, .rw, 2, 1, 0, 4⟩,
  ⟨Reg.TPO_N, .u16, .rw, 2, 10, 2, 3600⟩,
  ⟨Reg.TPO_WIDTH, .u32, .rw, 2, 12500, 1, 62500000⟩,
  ⟨Reg.TPO_DELAY, .i32, .rw, 2, 0, -1000000, 1000000⟩,
  ⟨Reg.TPO_POL, .bool, .rw, 2, 0, 0, 1⟩,
  ⟨Reg.TPO_SKIP, .u32, .ro, 2, 0, 0, 4294967295⟩,
  ⟨Reg.TB_SWAP, .u8, .cmd, 1, 0, 1, 1⟩,
  ⟨Reg.TB_HEALTH, .u8, .ro, 2, 0, 0, 255⟩,
  ⟨Reg.TB_SWAP_CNT, .u32, .ro, 1, 0, 0, 4294967295⟩,
  ⟨Reg.TIM_SEL, .u8, .rw, 8, 0, 0, 9⟩]

/-- Rows 120 to 159 of the dictionary, in address order. -/
def objRows3 : List ObjRow := [
  ⟨Reg.TIM_THR, .u8, .rw, 8, 60, 0, 250⟩,
  ⟨Reg.TIM_SLOPE, .u8, .rw, 8, 0, 0, 2⟩,
  ⟨Reg.TIM_MODE, .u8, .rw, 8, 0, 0, 4⟩,
  ⟨Reg.TIM_REF, .u8, .rw, 8, 0, 0, 7⟩,
  ⟨Reg.TIM_NEXP, .u8, .rw, 8, 10, 0, 20⟩,
  ⟨Reg.TIM_FILTER, .u8, .rw, 8, 3, 0, 15⟩,
  ⟨Reg.TIM_QUEUE, .domain, .ro, 8, 0, 0, 0⟩,
  ⟨Reg.TIM_QFILL, .u16, .ro, 8, 0, 0, 65535⟩,
  ⟨Reg.TIM_QOVF, .u32, .ro, 8, 0, 0, 4294967295⟩,
  ⟨Reg.TIM_MISSED, .u32, .ro, 8, 0, 0, 4294967295⟩,
  ⟨Reg.TIM_STATS, .domain, .ro, 8, 0, 0, 0⟩,
  ⟨Reg.TIM_RESTART, .u8, .cmd, 8, 0, 1, 1⟩,
  ⟨Reg.TIM_DIV, .u8, .rw, 1, 10, 0, 20⟩,
  ⟨Reg.WP_EN, .bool, .rwc, 32, 1, 0, 1⟩,
  ⟨Reg.WP_STATE, .u8, .ro, 32, 0, 0, 255⟩,
  ⟨Reg.WP_STATUS, .u32, .rw, 32, 0, 0, 4294967295⟩,
  ⟨Reg.WP_LANE_MAP, .u16, .ro, 32, 1672, 0, 65535⟩,
  ⟨Reg.WP_RTT, .u32, .ro, 32, 0, 0, 4294967295⟩,
  ⟨Reg.WP_DL_DELAY, .u32, .ro, 32, 0, 0, 4294967295⟩,
  ⟨Reg.WP_ASYM, .i32, .rw, 32, 0, -5120, 5120⟩,
  ⟨Reg.WP_DCORR, .i16, .ro, 32, 0, -32768, 32767⟩,
  ⟨Reg.WP_REPLAYS, .u32, .ro, 32, 0, 0, 4294967295⟩,
  ⟨Reg.WP_RETRAINS, .u32, .ro, 32, 0, 0, 4294967295⟩,
  ⟨Reg.WP_CRC_ERR, .u32, .ro, 32, 0, 0, 4294967295⟩,
  ⟨Reg.WP_CTL_ERR, .u32, .ro, 32, 0, 0, 4294967295⟩,
  ⟨Reg.WP_RUN_FAIL, .u8, .ro, 32, 0, 0, 255⟩,
  ⟨Reg.WP_CMD_LOST, .u32, .ro, 32, 0, 0, 4294967295⟩,
  ⟨Reg.WP_PHASE_STEPS, .u32, .ro, 32, 0, 0, 4294967295⟩,
  ⟨Reg.WP_TEST_ERR, .u64, .ro, 32, 0, 0, 18446744073709551615⟩,
  ⟨Reg.WL_ACK_TIMEOUT, .u16, .rw, 1, 256, 64, 4096⟩,
  ⟨Reg.WL_DLY_INT, .u16, .rw, 1, 4096, 1024, 65535⟩,
  ⟨Reg.WL_DLY_FILT, .u8, .rw, 1, 6, 0, 10⟩,
  ⟨Reg.WL_LANE_FAIL, .u8, .rw, 1, 4, 1, 255⟩,
  ⟨Reg.WP_RELEASE, .u8, .cmd, 32, 0, 1, 1⟩,
  ⟨Reg.WP_LANE_SWAP, .u8, .cmd, 32, 0, 0, 3⟩,
  ⟨Reg.WP_DL_SWAP, .u8, .cmd, 32, 0, 1, 1⟩,
  ⟨Reg.WP_DLY_CAL, .u8, .cmd, 32, 0, 1, 1⟩,
  ⟨Reg.WP_TEST, .u8, .rw, 1, 0, 0, 3⟩,
  ⟨Reg.BASKET_TIMEOUT, .u8, .rwc, 1, 8, 2, 64⟩,
  ⟨Reg.ROUTE_SPAN, .u16, .rwc, 1, 1, 1, 4096⟩]

/-- Rows 160 to 199 of the dictionary, in address order. -/
def objRows4 : List ObjRow := [
  ⟨Reg.MG_STATUS, .u32, .ro, 1, 0, 0, 4294967295⟩,
  ⟨Reg.ROUTE_COMMIT, .u8, .cmd, 1, 0, 1, 1⟩,
  ⟨Reg.ROUTE_GEN, .u16, .ro, 1, 0, 0, 65535⟩,
  ⟨Reg.MG_BASKET_NUM, .u64, .ro, 1, 0, 0, 18446744073709551615⟩,
  ⟨Reg.MG_CLOSED, .u64, .ro, 1, 0, 0, 18446744073709551615⟩,
  ⟨Reg.MG_TIMEOUTS, .u32, .ro, 1, 0, 0, 4294967295⟩,
  ⟨Reg.MG_LATE, .u64, .ro, 32, 0, 0, 18446744073709551615⟩,
  ⟨Reg.MG_MISSING, .u32, .ro, 32, 0, 0, 4294967295⟩,
  ⟨Reg.MG_CNT_MISM, .u32, .ro, 32, 0, 0, 4294967295⟩,
  ⟨Reg.MG_NAME_ERR, .u32, .ro, 32, 0, 0, 4294967295⟩,
  ⟨Reg.MG_MISS, .u32, .ro, 8, 0, 0, 4294967295⟩,
  ⟨Reg.MG_EVICT, .u32, .ro, 8, 0, 0, 4294967295⟩,
  ⟨Reg.MG_EGR_WAIT, .u64, .ro, 1, 0, 0, 18446744073709551615⟩,
  ⟨Reg.RT_EGRESS, .u8, .rw, 4096, 0, 0, 255⟩,
  ⟨Reg.RT_MAC, .u64, .rw, 4096, 0, 0, 281474976710655⟩,
  ⟨Reg.RT_IP, .u32, .rw, 4096, 0, 0, 4026531839⟩,
  ⟨Reg.RT_UDP, .u16, .rw, 4096, 40920, 1, 65535⟩,
  ⟨Reg.RT_VLAN, .u16, .rw, 4096, 0, 0, 65535⟩,
  ⟨Reg.RT_DSCP, .u8, .rw, 4096, 0, 0, 63⟩,
  ⟨Reg.MEM_INSTALLED, .u32, .ro, 1, 0, 0, 4294967295⟩,
  ⟨Reg.MEM_ONLINE, .u8, .ro, 1, 0, 0, 255⟩,
  ⟨Reg.MEM_USABLE, .u32, .ro, 1, 0, 0, 4294967295⟩,
  ⟨Reg.MEM_BW_AVAIL, .u32, .ro, 1, 307000, 0, 4294967295⟩,
  ⟨Reg.MEM_STAGE_LIM, .u32, .rw, 1, 256, 16, 65536⟩,
  ⟨Reg.MEM_RETIRED, .u32, .ro, 1, 0, 0, 4294967295⟩,
  ⟨Reg.MEM_RETIRE_THR, .u8, .rw, 1, 8, 1, 255⟩,
  ⟨Reg.MEM_RMW, .u64, .ro, 1, 0, 0, 18446744073709551615⟩,
  ⟨Reg.MEM_CH_STATE, .u8, .ro, 8, 0, 0, 255⟩,
  ⟨Reg.MEM_CH_SIZE, .u32, .ro, 8, 0, 0, 4294967295⟩,
  ⟨Reg.ST_CAP, .u32, .rw, 64, 0, 0, 262144⟩,
  ⟨Reg.ST_BW, .u32, .rw, 64, 0, 0, 307000⟩,
  ⟨Reg.ST_PRIO, .u8, .rw, 64, 0, 0, 7⟩,
  ⟨Reg.ST_RSV, .u16, .rwc, 64, 0, 0, 16384⟩,
  ⟨Reg.ST_STATUS, .u8, .ro, 64, 0, 0, 255⟩,
  ⟨Reg.ST_STORED, .u64, .ro, 64, 0, 0, 18446744073709551615⟩,
  ⟨Reg.ST_EFF_CAP, .u32, .ro, 64, 0, 0, 4294967295⟩,
  ⟨Reg.ST_EFF_BW, .u32, .ro, 64, 0, 0, 4294967295⟩,
  ⟨Reg.ST_QLOSS, .u64, .ro, 64, 0, 0, 18446744073709551615⟩,
  ⟨Reg.ST_REFUSED, .u32, .ro, 64, 0, 0, 4294967295⟩,
  ⟨Reg.ST_PORT, .u8, .rwc, 32, 3, 3, 63⟩]

/-- Rows 200 to 239 of the dictionary, in address order. -/
def objRows5 : List ObjRow := [
  ⟨Reg.SNAP_RING_LOG2, .u8, .rwc, 1, 16, 10, 24⟩,
  ⟨Reg.SNAP_RING_POLICY, .u8, .rwc, 1, 0, 0, 1⟩,
  ⟨Reg.SNAP_IN_ACQ, .bool, .rwc, 1, 0, 0, 1⟩,
  ⟨Reg.SNAP_RING_WSEQ, .u32, .ro, 1, 0, 0, 4294967295⟩,
  ⟨Reg.SNAP_RING_HELD, .u32, .ro, 1, 0, 0, 4294967295⟩,
  ⟨Reg.SNAP_RING_DROP, .u32, .ro, 1, 0, 0, 4294967295⟩,
  ⟨Reg.SNAP_RING_OVWR, .u32, .ro, 1, 0, 0, 4294967295⟩,
  ⟨Reg.TRG_HOLD, .u32, .rwc, 1, 48828, 16, 16777215⟩,
  ⟨Reg.TRG_BACKLOG, .u32, .rwc, 1, 65536, 256, 1048576⟩,
  ⟨Reg.TRG_HOLD_EFF, .u32, .ro, 1, 0, 0, 4294967295⟩,
  ⟨Reg.TRG_MSG_EN, .bool, .rw, 1, 0, 0, 1⟩,
  ⟨Reg.TRG_WFILL, .u16, .ro, 1, 0, 0, 65535⟩,
  ⟨Reg.TRG_OPENED, .u64, .ro, 1, 0, 0, 18446744073709551615⟩,
  ⟨Reg.TRG_REFUSED, .u32, .ro, 1, 0, 0, 4294967295⟩,
  ⟨Reg.TRG_LATE, .u32, .ro, 1, 0, 0, 4294967295⟩,
  ⟨Reg.TRG_SELECTED, .u64, .ro, 1, 0, 0, 18446744073709551615⟩,
  ⟨Reg.TRG_EXPIRED, .u64, .ro, 1, 0, 0, 18446744073709551615⟩,
  ⟨Reg.TRG_BACKLOG_NOW, .u32, .ro, 1, 0, 0, 4294967295⟩,
  ⟨Reg.TRG_PAUSE, .u64, .ro, 1, 0, 0, 18446744073709551615⟩,
  ⟨Reg.TRG_PIN_EN, .bool, .rw, 2, 0, 0, 1⟩,
  ⟨Reg.TRG_OFFSET, .i32, .rw, 2, 4294966272, -2147483648, 1048575⟩,
  ⟨Reg.TRG_WIDTH, .u32, .rw, 2, 2048, 1, 16777215⟩,
  ⟨Reg.TRG_FILTER, .u8, .rw, 2, 3, 1, 15⟩,
  ⟨Reg.TRG_PIN_CNT, .u32, .ro, 2, 0, 0, 4294967295⟩,
  ⟨Reg.SC_HEALTH, .u8, .ro, 16, 0, 0, 255⟩,
  ⟨Reg.SC_CORE_JOBS, .u64, .ro, 16, 0, 0, 18446744073709551615⟩,
  ⟨Reg.SC_CORE_BUSY, .u64, .ro, 16, 0, 0, 18446744073709551615⟩,
  ⟨Reg.SC_CORE_AFLT, .u32, .ro, 16, 0, 0, 4294967295⟩,
  ⟨Reg.SC_CORE_DIS, .u16, .rwc, 1, 0, 0, 65534⟩,
  ⟨Reg.SC_RUN_LIMIT, .u32, .rw, 1, 125000, 1250, 125000000⟩,
  ⟨Reg.SC_AGING, .u32, .rw, 1, 65536, 1024, 1073741824⟩,
  ⟨Reg.SC_AFF_WAIT, .u16, .rw, 1, 32, 0, 4096⟩,
  ⟨Reg.SC_TASK_STATE, .u8, .ro, 1024, 0, 0, 255⟩,
  ⟨Reg.SC_TASK_PRIO, .u8, .rw, 1024, 0, 0, 7⟩,
  ⟨Reg.SC_TASK_AFF, .u8, .ro, 1024, 255, 0, 255⟩,
  ⟨Reg.SC_TASK_JOBS, .u64, .ro, 1024, 0, 0, 18446744073709551615⟩,
  ⟨Reg.SC_TASK_ABORTS, .u32, .ro, 1024, 0, 0, 4294967295⟩,
  ⟨Reg.SC_TASK_RESTORE, .u8, .cmd, 1024, 0, 1, 1⟩,
  ⟨Reg.SC_SRC_LIM, .u16, .rwc, 4, 256, 1, 1024⟩,
  ⟨Reg.SC_SRC_JOBS, .u16, .ro, 4, 0, 0, 65535⟩]

/-- Rows 240 to 279 of the dictionary, in address order. -/
def objRows6 : List ObjRow := [
  ⟨Reg.SC_SRC_HELD, .u64, .ro, 4, 0, 0, 18446744073709551615⟩,
  ⟨Reg.SC_SVC_ONCHIP, .u16, .ro, 1, 0, 0, 65535⟩,
  ⟨Reg.SC_SVC_SPILLED, .u32, .ro, 1, 0, 0, 4294967295⟩,
  ⟨Reg.SC_SPILL_Q, .u16, .rwc, 1, 16, 2, 1024⟩,
  ⟨Reg.SC_SVC_REFUSED, .u32, .ro, 1, 0, 0, 4294967295⟩,
  ⟨Reg.SC_ABORTS, .u32, .ro, 1, 0, 0, 4294967295⟩,
  ⟨Reg.SC_LOST, .u32, .ro, 1, 0, 0, 4294967295⟩,
  ⟨Reg.SC_LIST_RST, .u32, .ro, 1, 0, 0, 4294967295⟩,
  ⟨Reg.SC_SPILL_FLT, .u32, .ro, 1, 0, 0, 4294967295⟩,
  ⟨Reg.SC_TRACE_MODE, .u8, .rw, 1, 1, 0, 2⟩,
  ⟨Reg.SC_TRACE_FILT, .u16, .rw, 1, 8190, 0, 8190⟩,
  ⟨Reg.SC_TRACE_READ, .domain, .ro, 1, 0, 0, 0⟩,
  ⟨Reg.SC_TRACE_FILL, .u32, .ro, 1, 0, 0, 4294967295⟩,
  ⟨Reg.SC_TRACE_DROP, .u32, .ro, 1, 0, 0, 4294967295⟩,
  ⟨Reg.GV_TSTATE, .u8, .ro, 33, 0, 0, 255⟩,
  ⟨Reg.GV_TEMP, .i16, .ro, 33, 0, -32768, 32767⟩,
  ⟨Reg.GV_T_WARM, .i16, .rw, 1, 115, 60, 147⟩,
  ⟨Reg.GV_T_HOT, .i16, .rw, 1, 130, 61, 148⟩,
  ⟨Reg.GV_T_CRIT, .i16, .rw, 1, 145, 62, 149⟩,
  ⟨Reg.GV_T_HYST, .u8, .rw, 1, 4, 1, 20⟩,
  ⟨Reg.GV_STEEP, .u16, .rw, 1, 20, 1, 10000⟩,
  ⟨Reg.GV_FLAP_N, .u8, .rw, 1, 4, 2, 16⟩,
  ⟨Reg.GV_FLAP_WIN, .u16, .rw, 1, 10, 1, 3600⟩,
  ⟨Reg.GV_FLAP_HOLD, .u16, .rw, 1, 10, 1, 3600⟩,
  ⟨Reg.GV_TCHANGES, .u32, .ro, 33, 0, 0, 4294967295⟩,
  ⟨Reg.GV_FLAPS, .u32, .ro, 33, 0, 0, 4294967295⟩,
  ⟨Reg.GV_FE_BUDGET, .u32, .rw, 32, 2900, 100, 5000⟩,
  ⟨Reg.GV_FE_DEPTH, .u32, .rw, 32, 10000, 1, 1000000⟩,
  ⟨Reg.GV_FE_BAL, .i64, .ro, 32, 0, -9223372036854775808, 9223372036854775807⟩,
  ⟨Reg.GV_FE_COMMIT, .u64, .ro, 32, 0, 0, 18446744073709551615⟩,
  ⟨Reg.GV_FE_POWER, .u16, .ro, 32, 0, 0, 65535⟩,
  ⟨Reg.GV_FE_CSTAT, .u8, .ro, 32, 0, 0, 255⟩,
  ⟨Reg.GV_RESUME, .u8, .rw, 1, 25, 0, 100⟩,
  ⟨Reg.GV_REST, .u8, .rw, 512, 1, 1, 2⟩,
  ⟨Reg.GV_WAKE_EN, .bool, .rw, 512, 1, 0, 1⟩,
  ⟨Reg.GV_GPRIO, .u8, .rw, 512, 0, 0, 7⟩,
  ⟨Reg.GV_FENCE_MAX, .u8, .rw, 512, 3, 1, 3⟩,
  ⟨Reg.GV_LEVEL, .u8, .ro, 512, 1, 0, 255⟩,
  ⟨Reg.GV_REFUSED, .u32, .ro, 512, 0, 0, 4294967295⟩,
  ⟨Reg.GV_REDUCED, .u32, .ro, 512, 0, 0, 4294967295⟩]

/-- Rows 280 to 319 of the dictionary, in address order. -/
def objRows7 : List ObjRow := [
  ⟨Reg.GV_WAKES, .u32, .ro, 512, 0, 0, 4294967295⟩,
  ⟨Reg.GV_WAKE_HOLD, .u32, .rw, 1, 2048, 256, 16777215⟩,
  ⟨Reg.GV_DOM_BUDGET, .u32, .rw, 3, 0, 1000, 100000⟩,
  ⟨Reg.GV_DOM_DEPTH, .u32, .rw, 3, 100000, 1, 1000000⟩,
  ⟨Reg.GV_DOM_BAL, .i64, .ro, 3, 0, -9223372036854775808, 9223372036854775807⟩,
  ⟨Reg.GV_DOM_POWER, .u32, .ro, 3, 0, 0, 4294967295⟩,
  ⟨Reg.GV_CORES, .u8, .ro, 1, 16, 0, 255⟩,
  ⟨Reg.GV_STATUS, .u8, .ro, 1, 0, 0, 255⟩,
  ⟨Reg.GV_MEM_THROTTLE, .u8, .ro, 1, 100, 0, 255⟩,
  ⟨Reg.GV_SCRUB_PERMIT, .u32, .ro, 1, 200000, 0, 4294967295⟩,
  ⟨Reg.GV_MIN_CORES, .u8, .rw, 1, 4, 1, 16⟩,
  ⟨Reg.GV_FENCE_CNT, .u32, .ro, 1, 0, 0, 4294967295⟩,
  ⟨Reg.GV_FENCE_STAT, .u16, .rw, 1, 0, 0, 65535⟩,
  ⟨Reg.CV_PRESET, .u8, .rw, 4, 0, 0, 8⟩,
  ⟨Reg.CV_WIDTH, .u8, .rw, 4, 32, 3, 64⟩,
  ⟨Reg.CV_POLY, .u64, .rw, 4, 517762881, 1, 18446744073709551615⟩,
  ⟨Reg.CV_INIT, .u64, .rw, 4, 4294967295, 0, 18446744073709551615⟩,
  ⟨Reg.CV_XOROUT, .u64, .rw, 4, 4294967295, 0, 18446744073709551615⟩,
  ⟨Reg.CV_REFIN, .bool, .rw, 4, 1, 0, 1⟩,
  ⟨Reg.CV_REFOUT, .bool, .rw, 4, 1, 0, 1⟩,
  ⟨Reg.CV_DONE, .u64, .ro, 4, 0, 0, 18446744073709551615⟩,
  ⟨Reg.CV_DERR, .u32, .ro, 4, 0, 0, 4294967295⟩,
  ⟨Reg.CV_STATE, .u8, .ro, 4, 0, 0, 255⟩,
  ⟨Reg.CV_ALIVE_LAST, .u8, .ro, 64, 0, 0, 255⟩,
  ⟨Reg.CV_ALIVE_REP, .u32, .ro, 64, 0, 0, 4294967295⟩,
  ⟨Reg.CV_ALIVE_STALE, .u32, .ro, 64, 0, 0, 4294967295⟩,
  ⟨Reg.CV_ALIVE_SKIP, .u32, .ro, 64, 0, 0, 4294967295⟩,
  ⟨Reg.CV_ALIVE_RESET, .u8, .cmd, 64, 0, 1, 1⟩,
  ⟨Reg.EM_TYPE, .u8, .rwc, 16, 0, 0, 6⟩,
  ⟨Reg.EM_IEXC, .u16, .rwc, 16, 1000, 10, 1000⟩,
  ⟨Reg.EM_SWAP, .bool, .rwc, 16, 1, 0, 1⟩,
  ⟨Reg.EM_RNOM, .u32, .rwc, 16, 100000, 10000, 1000000⟩,
  ⟨Reg.EM_FDRIVE, .u32, .rwc, 16, 10000, 100, 1000000⟩,
  ⟨Reg.EM_VDRIVE, .u16, .rwc, 16, 500, 10, 1000⟩,
  ⟨Reg.EM_INTERVAL, .u32, .rw, 16, 100, 1, 60000⟩,
  ⟨Reg.EM_BLANK_SEL, .u8, .rw, 16, 0, 0, 3⟩,
  ⟨Reg.EM_RESULT, .domain, .ro, 16, 0, 0, 0⟩,
  ⟨Reg.EM_CONV, .u32, .ro, 16, 0, 0, 4294967295⟩,
  ⟨Reg.EM_BLANKED, .u32, .ro, 16, 0, 0, 4294967295⟩,
  ⟨Reg.EM_BLANK_HOLD, .u32, .rw, 1, 100, 0, 1000000⟩]

/-- Rows 320 to 359 of the dictionary, in address order. -/
def objRows8 : List ObjRow := [
  ⟨Reg.EM_BLANK_CNT, .u32, .ro, 2, 0, 0, 4294967295⟩,
  ⟨Reg.EM_IEXC_CLAMP, .u32, .ro, 1, 0, 0, 4294967295⟩,
  ⟨Reg.RD_KEEPER, .u8, .ro, 1, 0, 0, 255⟩,
  ⟨Reg.RD_KP_HEALTH, .u8, .ro, 2, 0, 0, 255⟩,
  ⟨Reg.RD_KP_SWAP, .u8, .cmd, 1, 0, 1, 1⟩,
  ⟨Reg.RD_KP_SWAPS, .u32, .ro, 1, 0, 0, 4294967295⟩,
  ⟨Reg.RD_SUMMARY, .u16, .ro, 1, 0, 0, 65535⟩,
  ⟨Reg.SCR_RATE, .u32, .rw, 1, 2000, 100, 50000⟩,
  ⟨Reg.SCR_WIN_RATE, .u32, .rw, 1, 40000, 100, 200000⟩,
  ⟨Reg.SCR_LAP_LIMIT, .u32, .rw, 1, 3600, 60, 604800⟩,
  ⟨Reg.SCR_LAP, .u32, .ro, 1, 0, 0, 4294967295⟩,
  ⟨Reg.SCR_LAPS, .u32, .ro, 1, 0, 0, 4294967295⟩,
  ⟨Reg.SCR_STATUS, .u8, .ro, 1, 0, 0, 255⟩,
  ⟨Reg.SCR_SRAM_LAP, .u32, .ro, 1, 0, 0, 4294967295⟩,
  ⟨Reg.ECC_COR, .u64, .ro, 8, 0, 0, 18446744073709551615⟩,
  ⟨Reg.ECC_UNC, .u64, .ro, 8, 0, 0, 18446744073709551615⟩,
  ⟨Reg.ECC_TAG, .u64, .ro, 8, 0, 0, 18446744073709551615⟩,
  ⟨Reg.ECC_SRAM_COR, .u64, .ro, 1, 0, 0, 18446744073709551615⟩,
  ⟨Reg.ECC_SRAM_UNC, .u64, .ro, 1, 0, 0, 18446744073709551615⟩,
  ⟨Reg.ECC_SELFTEST, .u16, .ro, 1, 0, 0, 65535⟩,
  ⟨Reg.ECC_DIAG_EN, .u8, .guarded, 1, 0, 0, 1⟩,
  ⟨Reg.ECC_DIAG_CH, .u8, .rw, 1, 0, 0, 8⟩,
  ⟨Reg.ECC_DIAG_ADDR, .u32, .rw, 1, 0, 0, 262143⟩,
  ⟨Reg.ECC_DIAG_DATA, .u64, .rw, 1, 0, 0, 18446744073709551615⟩,
  ⟨Reg.ECC_DIAG_CHK, .u8, .rw, 1, 0, 0, 255⟩,
  ⟨Reg.ECC_DIAG_TAG, .u8, .rw, 1, 0, 0, 255⟩,
  ⟨Reg.ECC_DIAG_CMD, .u8, .cmd, 1, 0, 1, 3⟩,
  ⟨Reg.ECC_DIAG_RES, .u16, .ro, 1, 0, 0, 65535⟩,
  ⟨Reg.BE_MODE, .u8, .rwc, 8, 3, 0, 3⟩,
  ⟨Reg.BE_AN, .bool, .rwc, 8, 1, 0, 1⟩,
  ⟨Reg.BE_SRC_MAC, .u64, .rwc, 8, 0, 0, 281474976710655⟩,
  ⟨Reg.BE_SRC_IP, .u32, .rwc, 8, 0, 0, 4294967295⟩,
  ⟨Reg.BE_SRC_UDP, .u16, .rwc, 8, 40960, 1024, 65528⟩,
  ⟨Reg.BE_LINK, .u8, .ro, 8, 0, 0, 255⟩,
  ⟨Reg.BE_PAUSE, .bool, .rwc, 8, 0, 0, 1⟩,
  ⟨Reg.BE_TX_FRAMES, .u64, .ro, 8, 0, 0, 18446744073709551615⟩,
  ⟨Reg.BE_TX_BYTES, .u64, .ro, 8, 0, 0, 18446744073709551615⟩,
  ⟨Reg.BE_FEC_COR, .u64, .ro, 8, 0, 0, 18446744073709551615⟩,
  ⟨Reg.BE_FEC_UNC, .u64, .ro, 8, 0, 0, 18446744073709551615⟩,
  ⟨Reg.BE_RX_DISC, .u64, .ro, 8, 0, 0, 18446744073709551615⟩]

/-- Rows 360 to 399 of the dictionary, in address order. -/
def objRows9 : List ObjRow := [
  ⟨Reg.BE_PAUSE_TIME, .u64, .ro, 8, 0, 0, 18446744073709551615⟩,
  ⟨Reg.BE_EGR_RST, .u32, .ro, 8, 0, 0, 4294967295⟩,
  ⟨Reg.BE_TEST_ERR, .u64, .ro, 8, 0, 0, 18446744073709551615⟩,
  ⟨Reg.BE_MTU, .u16, .rwc, 1, 9000, 1500, 9000⟩,
  ⟨Reg.BE_TTL, .u8, .rwc, 1, 64, 1, 255⟩,
  ⟨Reg.SNAP_ROUTE, .u16, .rwc, 1, 0, 0, 4095⟩,
  ⟨Reg.BE_TEST, .u8, .rw, 1, 0, 0, 2⟩,
  ⟨Reg.BE_FMT_PIN, .u8, .rw, 1, 0, 0, 2⟩,
  ⟨Reg.BE_FMT, .u8, .ro, 1, 3, 0, 255⟩,
  ⟨Reg.BE_FW_VER, .u32, .ro, 1, 0, 0, 4294967295⟩,
  ⟨Reg.CYCLE_LEN, .u32, .rwc, 1, 1000000, 1, 1048576⟩,
  ⟨Reg.CYCLE_NUM, .u64, .ro, 1, 0, 0, 18446744073709551615⟩,
  ⟨Reg.CYCLE_SLOT, .u32, .ro, 1, 0, 0, 4294967295⟩,
  ⟨Reg.FRAME_IDX, .u16, .ro, 1, 0, 0, 65535⟩,
  ⟨Reg.FRAMES_PER_CYC, .u16, .ro, 1, 3907, 0, 65535⟩,
  ⟨Reg.CAL_LEAD, .u16, .rw, 1, 64, 32, 4096⟩,
  ⟨Reg.CAL_EN, .bool, .rw, 64, 0, 0, 1⟩,
  ⟨Reg.CAL_SLOT, .u32, .rw, 64, 0, 0, 1048575⟩,
  ⟨Reg.CAL_ACTION, .u8, .rw, 64, 0, 0, 7⟩,
  ⟨Reg.CAL_EVERY, .u8, .rw, 64, 0, 0, 15⟩,
  ⟨Reg.CAL_PHASE, .u16, .rw, 64, 0, 0, 65535⟩,
  ⟨Reg.CAL_PORTS, .u32, .rw, 64, 4294967295, 0, 4294967295⟩,
  ⟨Reg.CAL_GROUPS, .u16, .rw, 64, 65535, 0, 65535⟩,
  ⟨Reg.CAL_ARG, .u32, .rw, 64, 0, 0, 4294967295⟩,
  ⟨Reg.CAL_COMMIT, .u8, .cmd, 1, 0, 1, 1⟩,
  ⟨Reg.CAL_STATUS, .u8, .ro, 1, 0, 0, 255⟩,
  ⟨Reg.CAL_COMMIT_CYC, .u64, .ro, 1, 0, 0, 18446744073709551615⟩,
  ⟨Reg.CAL_REFUSED_AT, .u8, .ro, 1, 255, 0, 255⟩,
  ⟨Reg.CAL_SKIPPED, .u32, .ro, 1, 0, 0, 4294967295⟩,
  ⟨Reg.CAL_LATE, .u32, .ro, 32, 0, 0, 4294967295⟩,
  ⟨Reg.CAL_CANCELLED, .u32, .ro, 32, 0, 0, 4294967295⟩,
  ⟨Reg.CAL_LEAD_SHORT, .u32, .ro, 32, 0, 0, 4294967295⟩,
  ⟨Reg.CALA_EN, .bool, .ro, 64, 0, 0, 1⟩,
  ⟨Reg.CALA_SLOT, .u32, .ro, 64, 0, 0, 1048575⟩,
  ⟨Reg.CALA_ACTION, .u8, .ro, 64, 0, 0, 7⟩,
  ⟨Reg.CALA_EVERY, .u8, .ro, 64, 0, 0, 15⟩,
  ⟨Reg.CALA_PHASE, .u16, .ro, 64, 0, 0, 65535⟩,
  ⟨Reg.CALA_PORTS, .u32, .ro, 64, 4294967295, 0, 4294967295⟩,
  ⟨Reg.CALA_GROUPS, .u16, .ro, 64, 65535, 0, 65535⟩,
  ⟨Reg.CALA_ARG, .u32, .ro, 64, 0, 0, 4294967295⟩]

/-- Rows 400 to 439 of the dictionary, in address order. -/
def objRows10 : List ObjRow := [
  ⟨Reg.FE_SERIAL, .u64, .ro, 1, 0, 0, 18446744073709551615⟩,
  ⟨Reg.FE_REV, .u8, .ro, 1, 176, 0, 255⟩,
  ⟨Reg.FE_CHANNELS, .u16, .ro, 1, 4096, 0, 65535⟩,
  ⟨Reg.FE_MODE, .u8, .ro, 1, 1, 0, 255⟩,
  ⟨Reg.FE_CYCLE_LEN, .u32, .ro, 1, 1000000, 0, 4294967295⟩,
  ⟨Reg.FE_MIRROR_CYC, .u8, .ro, 1, 0, 0, 255⟩,
  ⟨Reg.FE_CFG_ACC, .u32, .ro, 1, 0, 0, 4294967295⟩,
  ⟨Reg.FE_CFG_REJ, .u32, .ro, 1, 0, 0, 4294967295⟩,
  ⟨Reg.FE_PREV_MSG, .domain, .ro, 1, 0, 0, 0⟩,
  ⟨Reg.FE_STAGE, .domain, .rw, 1024, 0, 1, 240⟩,
  ⟨Reg.FE_CH_ANA, .u16, .rw, 4096, 256, 0, 511⟩,
  ⟨Reg.FE_CH_STAT, .u16, .rw, 4096, 0, 0, 3⟩,
  ⟨Reg.FE_RG_ANA, .u32, .rw, 256, 0, 0, 1073741823⟩,
  ⟨Reg.FE_RG_BIAS, .u8, .ro, 256, 24, 0, 255⟩,
  ⟨Reg.FE_THR_FLOOR_H, .u16, .rw, 1, 20, 20, 1023⟩,
  ⟨Reg.FE_THR_FLOOR_L, .u16, .rw, 1, 10, 10, 1023⟩,
  ⟨Reg.FE_THR_FLOORED_CNT, .u16, .ro, 1, 0, 0, 65535⟩,
  ⟨Reg.FE_INJECT, .u32, .cmd, 1, 0, 0, 4294967295⟩,
  ⟨Reg.FE_CH_DT_BUSY, .u64, .ro, 4096, 0, 0, 18446744073709551615⟩,
  ⟨Reg.FE_CH_DT_BLK, .u64, .ro, 4096, 0, 0, 18446744073709551615⟩,
  ⟨Reg.FE_CH_PAIR, .u32, .ro, 4096, 0, 0, 4294967295⟩,
  ⟨Reg.FE_CH_PAIR_FLT, .u32, .ro, 4096, 0, 0, 4294967295⟩,
  ⟨Reg.FE_RG_TIME, .u16, .rw, 256, 0, 0, 7⟩,
  ⟨Reg.FE_RG_TSTAT, .u32, .rw, 256, 0, 0, 4294967295⟩,
  ⟨Reg.FE_RG_PHASE_OFS, .i16, .rw, 256, 0, -256, 255⟩,
  ⟨Reg.FE_RG_TEMP, .i16, .ro, 256, 0, -32768, 32767⟩,
  ⟨Reg.FE_RG_VDDA, .u16, .ro, 256, 0, 0, 65535⟩,
  ⟨Reg.FE_RG_VDDT, .u16, .ro, 256, 0, 0, 65535⟩,
  ⟨Reg.FE_RG_DT, .u64, .ro, 256, 0, 0, 18446744073709551615⟩,
  ⟨Reg.FE_PAIR_AGE, .u32, .rw, 1, 2000000, 4096, 16777215⟩,
  ⟨Reg.FE_CHIP_DT, .u64, .ro, 1, 0, 0, 18446744073709551615⟩,
  ⟨Reg.FE_ENV_CNT, .u16, .ro, 1, 0, 0, 65535⟩,
  ⟨Reg.FE_TCNT_CLEAR, .u8, .cmd, 1, 0, 1, 1⟩,
  ⟨Reg.FE_FRAME_CLOSE, .u16, .rw, 1, 512, 64, 1536⟩,
  ⟨Reg.FE_PKT_WAIT, .u16, .rw, 1, 96, 1, 255⟩,
  ⟨Reg.FE_RG_RATE, .u32, .ro, 256, 0, 0, 4294967295⟩,
  ⟨Reg.FE_RCNT_CLEAR, .u8, .cmd, 1, 0, 1, 1⟩,
  ⟨Reg.FLOOD_N, .u8, .rw, 1, 12, 1, 15⟩,
  ⟨Reg.FLOOD_W, .u8, .rw, 1, 4, 1, 64⟩,
  ⟨Reg.FLOOD_Q, .u16, .rw, 1, 64, 4, 4096⟩]

/-- Rows 440 to 468 of the dictionary, in address order. -/
def objRows11 : List ObjRow := [
  ⟨Reg.FLOOD_QUIET, .u16, .rw, 1, 256, 16, 65535⟩,
  ⟨Reg.FLOOD_CHIP_N, .u16, .rw, 1, 32, 1, 255⟩,
  ⟨Reg.FE_RG_FLOOD_EN, .bool, .rw, 256, 1, 0, 1⟩,
  ⟨Reg.FE_RG_FLOOD, .u8, .ro, 256, 0, 0, 255⟩,
  ⟨Reg.FE_CHIP_FLOOD, .u8, .ro, 1, 0, 0, 255⟩,
  ⟨Reg.FE_RG_FLOOD_CNT, .u32, .ro, 256, 0, 0, 4294967295⟩,
  ⟨Reg.FE_RG_SUPPR, .u64, .ro, 256, 0, 0, 18446744073709551615⟩,
  ⟨Reg.FE_RG_CLOSE_LOSS, .u64, .ro, 256, 0, 0, 18446744073709551615⟩,
  ⟨Reg.FE_CHIP_FLOOD_CNT, .u32, .ro, 1, 0, 0, 4294967295⟩,
  ⟨Reg.FE_QRST_LOSS, .u64, .ro, 1, 0, 0, 18446744073709551615⟩,
  ⟨Reg.FE_QRST_CNT, .u32, .ro, 1, 0, 0, 4294967295⟩,
  ⟨Reg.FE_REC_OVF, .u32, .ro, 1, 0, 0, 4294967295⟩,
  ⟨Reg.FE_CLOSE_DL, .u32, .ro, 1, 0, 0, 4294967295⟩,
  ⟨Reg.FE_RG_CFG_FLT, .u32, .ro, 256, 0, 0, 4294967295⟩,
  ⟨Reg.FE_RG_CFG_COR, .u32, .ro, 256, 0, 0, 4294967295⟩,
  ⟨Reg.FE_RG_SNAP, .u32, .rw, 256, 0, 0, 2147483647⟩,
  ⟨Reg.FE_RG_SNAP_MISS, .u32, .ro, 256, 0, 0, 4294967295⟩,
  ⟨Reg.SNAP_PW_WIDTH, .u8, .rw, 1, 20, 1, 255⟩,
  ⟨Reg.SNAP_PW_DELAY, .u16, .rw, 1, 0, 0, 4095⟩,
  ⟨Reg.SNAP_CAL_DELAY, .u16, .rw, 1, 0, 0, 65535⟩,
  ⟨Reg.SNAP_SHARE, .u8, .rw, 1, 4, 1, 16⟩,
  ⟨Reg.FE_SNAP_EVENTS, .u32, .ro, 1, 0, 0, 4294967295⟩,
  ⟨Reg.FE_SNAP_FORCE, .u8, .cmd, 1, 0, 1, 1⟩,
  ⟨Reg.FE_SNAP_QLOSS, .u32, .ro, 1, 0, 0, 4294967295⟩,
  ⟨Reg.FE_SNAP_CAL, .u8, .cmd, 1, 0, 1, 4⟩,
  ⟨Reg.FE_SNAP_CAL_N, .u8, .rw, 1, 8, 4, 12⟩,
  ⟨Reg.FE_SNAP_CAL_STAT, .u8, .ro, 1, 0, 0, 255⟩,
  ⟨Reg.FE_SNAP_BADCELLS, .u32, .ro, 1, 0, 0, 4294967295⟩,
  ⟨Reg.FE_SNAP_COEF, .domain, .rw, 1024, 0, 0, 0⟩]

/-- Every object of the dictionary (R438). -/
def objTable : List ObjRow :=
  objRows0 ++ objRows1 ++ objRows2 ++ objRows3 ++ objRows4 ++ objRows5 ++ objRows6 ++ objRows7 ++ objRows8 ++ objRows9 ++ objRows10 ++ objRows11

end Sys2Proof.Machine
end

