-- ==== Sys2Proof/Machine/Ops.lean ====
section
/-! DEFINITION. The shared operations of the model: reading and writing the objects of the dictionary, the units of
time, the slot grid, the ledger, and the handling of a request by the Keeper (R421). -/

namespace Sys2Proof.Machine

/-! ### Codes -/

/-- The mode code of R19. -/
def modeCode : Mode → Nat
  | .boot => 1 | .safe => 2 | .configure => 3 | .calibrate => 4 | .sentinel => 5 | .stream => 6 | .gated => 7
  | .snapshot => 8 | .loopback => 9

/-- The mode of a code of R19. -/
def modeOf (c : Nat) : Option Mode :=
  [Mode.boot, .safe, .configure, .calibrate, .sentinel, .stream, .gated, .snapshot, .loopback][c - 1]?.filter
    fun m => modeCode m == c

/-- The status code of R408. -/
def statusCode : Status → Nat
  | .accepted => 0x00 | .repeat => 0x01 | .busy => 0x02 | .stale => 0x03 | .range => 0x04 | .wrongMode => 0x05
  | .notPresent => 0x06 | .type => 0x07 | .access => 0x08 | .guard => 0x09 | .outcomeUnknown => 0x0A
  | .portDown => 0x0B | .noResource => 0x0C | .pitchOvercommit => 0x0D | .calConflict => 0x0E | .portNotReady => 0x0F
  | .timeoutShort => 0x10 | .routeUnset => 0x11 | .stallUnfit => 0x12 | .notApplied => 0x13 | .unsupported => 0x14
  | .failed => 0x15 | .version => 0x16

/-- The status of a code of R408; a reserved code is taken as NOT_PRESENT. -/
def statusOf (c : Nat) : Status :=
  ([.accepted, .repeat, .busy, .stale, .range, .wrongMode, .notPresent, .type, .access, .guard, .outcomeUnknown,
    .portDown, .noResource, .pitchOvercommit, .calConflict, .portNotReady, .timeoutShort, .routeUnset, .stallUnfit,
    .notApplied, .unsupported, .failed, .version] : List Status).getD c .notPresent

/-- The modes in which front ends send frame markers (R142). -/
def sendsMarkers : Mode → Bool
  | .calibrate | .sentinel | .stream | .gated | .snapshot => true
  | .boot | .safe | .configure | .loopback => false

/-- The modes in which hit records are produced (R142). -/
def producesHits : Mode → Bool
  | .calibrate | .stream | .gated => true
  | .boot | .safe | .configure | .sentinel | .snapshot | .loopback => false

/-- The modes entered from CONFIGURE after the checks of R491, LOOPBACK apart. -/
def acquiring : Mode → Bool := sendsMarkers

/-! ### The object store -/

/-- The dictionary row of an address, if the object exists (R438). -/
def objRow (a : Nat) : Option ObjRow := objTable.find? fun r => r.addr == a

/-- The highest subindex of an index, when the index exists (R402). -/
def topSub (index : Nat) : Option Nat :=
  let subs := (objTable.filter fun r => r.addr / 256 == index).map fun r => r.addr % 256
  if subs.isEmpty then none else some (subs.foldl max 0)

/-- The store key of element `e` of the object at address `a` of a port (0xFF the concentrator, R8): 8, 24 and 16 bits. -/
def regKey (port a e : Nat) : Nat := (port % 2 ^ 8 * 2 ^ 24 + a % 2 ^ 24) * 2 ^ 16 + e % 2 ^ 16

/-- The value after a restart of the object word at a store key (R407, R439): the dictionary's default column, with
the defaults that depend on the element or are fused per part. -/
def regDflt (k : Nat) : Nat :=
  let e := k % 2 ^ 16
  let a := k / 2 ^ 16 % 2 ^ 24
  let p := k / 2 ^ 40
  if a == Reg.FE_RG_ANA then 0xC8 + (e % 16) * 2 ^ 12
  else if a == Reg.FE_RG_PHASE_OFS then (Config.phaseOffset p e % 512 + (2 ^ 16 - 256)) % 2 ^ 16
  else if a == Reg.FE_SERIAL then Config.feSerial p
  else if a == Reg.ID_SERIAL then Config.serial
  else if a == Reg.BE_SRC_MAC then Config.sourceMac + e
  else if a == Reg.ST_CAP ∨ a == Reg.ST_EFF_CAP then
    if e = 0 then 16 else if e = 1 then 64 else if e = 2 then 224 else if e = 3 then 1024 else 0
  else if a == Reg.ST_BW ∨ a == Reg.ST_EFF_BW then
    if e = 0 then 1000 else if e = 1 then 500 else if e = 2 then 2048 else if e = 3 then 100000 else 0
  else if a == Reg.ST_PRIO then if e = 0 then 6 else if e = 1 then 7 else if e = 2 then 8 else 4
  else if a == Reg.ST_RSV then if e = 3 then 16384 else 0
  else if a == Reg.TRG_HOLD_EFF then 48828
  else if a == Reg.MD_REQUEST then 1
  else if a == Reg.IMG_STATUS then 9
  else if a == Reg.IMG_IN_USE then 2
  else if a == Reg.GV_FE_BAL then 10000000
  else if a == Reg.GV_DOM_BAL then 100000000
  else if a == Reg.GV_DOM_BUDGET then if e = 0 then 50000 else if e = 1 then 20000 else 15000
  else match objRow a with
    | some r => r.dflt
    | none => 0

/-- The bits an object's word holds (R404). -/
def regBits (a : Nat) : Nat :=
  match objRow a with
  | some r => 8 * r.ty.bytes
  | none => 64

/-- A store after a write of the word `v` to an object. -/
def storeSet (t : Tbl Nat) (port a e v : Nat) : Tbl Nat := tblWrite regDflt t (regKey port a e) (v % 2 ^ regBits a)

/-- A concentrator object's word. -/
def Dev.get (d : Dev) (a : Nat) (e : Nat := 0) : Nat := tblRead regDflt d.regs (regKey 0xFF a e)

/-- A concentrator object's signed value. -/
def Dev.getI (d : Dev) (a : Nat) (e : Nat := 0) : Int := sgn (regBits a) (d.get a e)

/-- The device with a concentrator object's word written. -/
def Dev.set (d : Dev) (a e v : Nat) : Dev := { d with regs := storeSet d.regs 0xFF a e v }

/-- The device with a concentrator object's signed value written. -/
def Dev.setI (d : Dev) (a e : Nat) (v : Int) : Dev := d.set a e (unsgn (regBits a) v)

/-- A concentrator counter advanced by `n`, saturating (R439). -/
def Dev.bump (d : Dev) (a : Nat) (e : Nat := 0) (n : Nat := 1) : Dev :=
  d.set a e (min (d.get a e + n) (2 ^ regBits a - 1))

/-- A concentrator counter advanced by one, wrapping (R439). -/
def Dev.wrap (d : Dev) (a : Nat) (e : Nat := 0) : Dev := d.set a e (d.get a e + 1)

/-- A front-end object's word as a read returns it: the shadow copy (R76), or a status. -/
def Dev.fget (d : Dev) (p : Port) (a : Nat) (e : Nat := 0) : Nat := tblRead regDflt d.regs (regKey p.val a e)

/-- The device with a front-end object's word written in the shadow copy or status. -/
def Dev.fset (d : Dev) (p : Port) (a e v : Nat) : Dev := { d with regs := storeSet d.regs p.val a e v }

/-- A front-end counter advanced by `n`, saturating. -/
def Dev.fbump (d : Dev) (p : Port) (a : Nat) (e : Nat := 0) (n : Nat := 1) : Dev :=
  d.fset p a e (min (d.fget p a e + n) (2 ^ regBits a - 1))

/-- The applied value of a front-end setting (R76). -/
def Dev.ap (d : Dev) (p : Port) (a : Nat) (e : Nat := 0) : Nat := tblRead regDflt d.applied (regKey p.val a e)

/-- The device with the applied value of a front-end setting written. -/
def Dev.setAp (d : Dev) (p : Port) (a e v : Nat) : Dev := { d with applied := storeSet d.applied p.val a e v }

/-- The Keeper's mirror of a front-end setting (R427). -/
def Dev.mir (d : Dev) (p : Port) (a : Nat) (e : Nat := 0) : Nat := tblRead regDflt d.mirror (regKey p.val a e)

/-- A concentrator object that steers a front end, as the front end was last told it by configuration message (log entry
176). -/
def Dev.toldOf (d : Dev) (p : Port) (a : Nat) (e : Nat := 0) : Nat := tblRead regDflt (d.fes[p.val]).told (regKey 0xFF a e)

/-- The store without the entries of one port. -/
def dropPort (t : Tbl Nat) (p : Port) : Tbl Nat := t.filter fun e => e.1 / 2 ^ 40 != p.val

/-- The entries of one object of one port in a store, as element and value. -/
def objEntries (t : Tbl Nat) (p a : Nat) : List (Nat × Nat) :=
  (t.filter fun e => e.1 / 2 ^ 16 == p * 2 ^ 24 + a).map fun e => (e.1 % 2 ^ 16, e.2)

/-! ### Parts of the device -/

/-- The front end on a port. -/
def Dev.fe (d : Dev) (p : Port) : FrontEnd := d.fes[p.val]

/-- The device with the front end on a port replaced. -/
def Dev.setFe (d : Dev) (p : Port) (f : FrontEnd) : Dev := { d with fes := d.fes.set p.val f }

/-- The device with the front end on a port changed by `g`. -/
def Dev.updFe (d : Dev) (p : Port) (g : FrontEnd → FrontEnd) : Dev := d.setFe p (g (d.fe p))

/-- The device with a port of the concentrator changed by `g`. -/
def Dev.updPort (d : Dev) (p : Port) (g : CPort → CPort) : Dev :=
  { d with ports := d.ports.set p.val (g d.ports[p.val]) }

/-- The concentrator's port. -/
def Dev.port (d : Dev) (p : Port) : CPort := d.ports[p.val]

/-- The device with a port of the concentrator replaced. -/
def Dev.setPort (d : Dev) (p : Port) (c : CPort) : Dev := { d with ports := d.ports.set p.val c }

/-- The channel `c` of a front end. -/
def FrontEnd.chan (f : FrontEnd) (c : Nat) : Chan := tblRead (fun _ => {}) f.chans c

/-- The front end with a channel replaced. -/
def FrontEnd.setChan (f : FrontEnd) (c : Nat) (ch : Chan) : FrontEnd :=
  { f with chans := tblWrite (fun _ => {}) f.chans c ch }

/-- The region `r` of a front end. -/
def FrontEnd.region (f : FrontEnd) (r : Nat) : Region := tblRead (fun _ => {}) f.regions r

/-- The front end with a region replaced. -/
def FrontEnd.setRegion (f : FrontEnd) (r : Nat) (g : Region) : FrontEnd :=
  { f with regions := tblWrite (fun _ => {}) f.regions r g }

/-- The front end with a region changed by `g`. -/
def FrontEnd.updRegion (f : FrontEnd) (r : Nat) (g : Region → Region) : FrontEnd := f.setRegion r (g (f.region r))

/-- The sampler `e` = region × 4 + sampler of a front end (R175). -/
def FrontEnd.sampler (f : FrontEnd) (e : Nat) : Sampler := tblRead (fun _ => {}) f.samplers e

/-- The front end with a sampler replaced. -/
def FrontEnd.setSampler (f : FrontEnd) (e : Nat) (s : Sampler) : FrontEnd :=
  { f with samplers := tblWrite (fun _ => {}) f.samplers e s }

/-- The device with something sent; on a Wasel lane its blocks leave the lane's transmitter. -/
def Dev.emit (d : Dev) (o : Out) : Dev := { d with out := o :: d.out, lines := d.linesAfter o }

/-- A fresh free value, and the device that has drawn it. -/
def Dev.draw (d : Dev) : Nat × Dev := (Config.freeValue d.free, { d with free := d.free + 1 })

/-- The region of a channel (R52). -/
def regionOf (c : Nat) : Nat := (c / 64 / 4) * 16 + (c % 64) / 4

/-- The channels of a region, in the numbering of R132 within the region. -/
def channelsOf (r : Nat) : List Nat :=
  (List.range 16).map fun k => ((r / 16) * 4 + k / 4) * 64 + (r % 16) * 4 + k % 4

/-- The number of a channel within its region: (row mod 4) × 4 + (column mod 4) (R132). -/
def chanInRegion (c : Nat) : Nat := (c / 64 % 4) * 4 + c % 4

/-- Every port, rising. -/
def allPorts : List Port := List.finRange 32

/-! ### Time (R6, R7, R227 to R231) -/

/-- Slots in `n` milliseconds, rounded up (R7; TB_FNOM is in kHz). -/
def Dev.ms (d : Dev) (n : Nat) : Nat := n * d.get Reg.TB_FNOM

/-- Slots in `n` microseconds, rounded up. -/
def Dev.us (d : Dev) (n : Nat) : Nat := ceilDiv (n * d.get Reg.TB_FNOM) 1000

/-- Milliseconds since VDD_AON came up. -/
def Dev.aonMs (d : Dev) : Nat := d.aon.msBase + d.now / d.get Reg.TB_FNOM

/-- The nominal tick in 2⁻⁴⁸ ns (R228). -/
def nominalTick (fnom : Nat) : Nat := (roundHalfUp (2 ^ 48 * 125000) fnom).toNat

/-- The counter at the start of slot `slot` (R227). -/
def counterAt (slot : Nat) : Nat := 8 * slot % 2 ^ 64

/-- The past parameters of a time base whose present ones end at slot `s`: the last four sets. -/
def TimeBase.pastUntil (tb : TimeBase) (s : Nat) : List TimeParams :=
  ({ until_ := s, ofs := tb.ofs, upd := tb.upd, rate := tb.rate } :: tb.past).take 4

/-- O within its 64 + 16 bits (R229; log entry 192). -/
def ofsWord (x : Int) : Int := sgn 80 (unsgn 80 x)

/-- The time base with the parameters in force at slot `slot`: a new rate takes over at its slot boundary, and the value of
time there stays (R230). -/
def TimeBase.settled (tb : TimeBase) (fnom slot : Nat) : TimeBase :=
  match tb.next with
  | none => tb
  | some (s, r) =>
    if s ≤ slot then
      let u := counterAt s
      { tb with ofs := ofsWord (tb.ofs + ((u : Int) - tb.upd) * nominalTick fnom * tb.rate / 2 ^ 80), upd := u, rate := r
                next := none, past := tb.pastUntil s }
    else tb

/-- The parameters of readings in force at slot `slot`. -/
def TimeBase.paramsAt (tb : TimeBase) (slot : Nat) : TimeParams :=
  (tb.past.reverse.find? fun x => decide (slot < x.until_)).getD { until_ := slot, ofs := tb.ofs, upd := tb.upd, rate := tb.rate }

/-- The reading `cf` fine bins after the release of reset, in 2⁻¹⁶ ns, truncated towards minus infinity (R229), under the
parameters in force then; the counter wraps (R227). -/
def TimeBase.reading (tb : TimeBase) (fnom cf : Nat) : Int :=
  let t : Int := nominalTick fnom
  let x := (tb.settled fnom (cf / 4096)).paramsAt (cf / 4096)
  let c : Int := (cf % (2 ^ 64 * 512) : Nat)
  (c * t * 2 ^ 48 + (c - 512 * x.upd) * t * x.rate) / 2 ^ 89 + x.ofs

/-- The reading at the current slot boundary, in 2⁻¹⁶ ns, under the present parameters. -/
def Dev.reading (d : Dev) : Int := TimeBase.reading { d.tb with past := [] } (d.get Reg.TB_FNOM) (d.now * 8 * 512)

/-- The reading at fine bin `fb` after the start of slot `slot`, in 2⁻¹⁶ ns. -/
def Dev.readingAt (d : Dev) (slot fb : Nat) : Int := d.tb.reading (d.get Reg.TB_FNOM) (slot * 4096 + fb)

/-- The reading at a stamp `bins` fine bins after the release of reset. -/
def Dev.readingBins (d : Dev) (bins : Int) : Int := d.tb.reading (d.get Reg.TB_FNOM) bins.toNat

/-- A reading as TIME96 (R229). -/
def time96 (t : Int) : Nat :=
  let ns := t / 65536
  let frac := (t % 65536).toNat
  (ns / 1000000000 % 2 ^ 48).toNat * 2 ^ 48 + (ns % 1000000000).toNat * 2 ^ 16 + frac

/-- The reading a TIME96 stands for, in 2⁻¹⁶ ns. -/
def ofTime96 (v : Nat) : Int :=
  ((v / 2 ^ 48 : Nat) : Int) * 1000000000 * 65536 + ((v / 2 ^ 16 % 2 ^ 32 : Nat) : Int) * 65536 + (v % 2 ^ 16 : Nat)

/-- The active time base with the parameters in force in the present slot. -/
def Dev.tbNow (d : Dev) : TimeBase := d.tb.settled (d.get Reg.TB_FNOM) d.now

/-- A rate within the range of Rate (R270). -/
def rateLimit (r : Int) : Int := limit (-2 ^ 39) (2 ^ 39 - 1) r

/-- The parameters of the time base changed together at the current slot boundary: step `s` in 2⁻¹⁶ ns and new rate
(R230). -/
def Dev.setTime (d : Dev) (s : Int) (rate : Int) : Dev :=
  let t : Int := nominalTick (d.get Reg.TB_FNOM)
  let tb := d.tbNow
  let u := counterAt d.now
  let moved := ((u : Int) - tb.upd) * t * tb.rate / 2 ^ 80
  { d with tb := { tb with
    ofs := ofsWord (tb.ofs + moved + s), upd := u, rate := rateLimit rate, next := none, past := tb.pastUntil d.now } }

/-- A new rate of the servo, in force from the next slot boundary and at most once in 16 slots (R230, R238); one that still
waits is replaced. -/
def Dev.setRate (d : Dev) (rate : Int) : Dev :=
  let tb := d.tbNow
  let due := match tb.next with
    | some (s, _) => s
    | none =>
      let since := (counterAt d.now + 2 ^ 64 - tb.upd) % 2 ^ 64 / 8
      if tb.upd = 0 then d.now + 1 else max (d.now + 1) (d.now + 16 - since)
  { d with tb := { tb with next := some (due, rateLimit rate) } }

/-! ### The slot grid of the concentrator (R21, R22) -/

/-- Frames in a cycle of `len` slots (R22). -/
def framesOf (len : Nat) : Nat := ceilDiv len 256

/-- The slot in cycle. -/
def Dev.slot (d : Dev) : Nat := d.now - d.grid.cycleStart

/-- The CYCLE_LEN in force for checks: the value last written (R41, R47). -/
def Dev.cycleLen (d : Dev) : Nat := d.get Reg.CYCLE_LEN

/-- The movement of the grid that waits, and how many cycles ahead of the one in progress lies the cycle it ends (R26). -/
def Dev.cut (d : Dev) : Option (Nat × GridMove) :=
  (d.grid.move.filter fun m => decide (d.grid.cycleStart < m.at_)).map fun m =>
    (ceilDiv (m.at_ - (d.grid.cycleStart + d.grid.len)) d.cycleLen, m)

/-- The slot at which the cycle `n` cycles ahead ends: a movement of the grid ends one early, and those after it follow on the
moved grid (R26). -/
def Dev.endOf (d : Dev) (n : Nat) : Nat :=
  let free := d.grid.cycleStart + d.grid.len + n * d.cycleLen
  match d.cut with
  | some (k, m) => if n < k then free else m.at_ + (n - k) * d.cycleLen
  | none => free

/-- The slot at which the cycle `n` cycles ahead begins. -/
def Dev.startAhead (d : Dev) (n : Nat) : Nat := match n with | 0 => d.grid.cycleStart | n + 1 => d.endOf n

/-- The slot at which the cycle in progress ends. -/
def Dev.cycleEnd (d : Dev) : Nat := d.endOf 0

/-- The number of the cycle `n` cycles ahead (R24); a movement of the grid may name the cycle it begins (R255, R257). -/
def Dev.cyclePlus (d : Dev) (n : Nat) : Nat :=
  match d.cut with
  | some (k, { cycle := some c, .. }) => if n ≤ k then (d.grid.cycle + n) % 2 ^ 40 else (c + (n - k - 1)) % 2 ^ 40
  | some (_, { cycle := none, .. }) | none => (d.grid.cycle + n) % 2 ^ 40

/-- How many cycles ahead of the one in progress a cycle number lies (R24, modulo 2⁴⁰). -/
def Dev.cyclesAhead (d : Dev) (cyc : Nat) : Nat :=
  let n := (cyc + 2 ^ 40 - d.grid.cycle) % 2 ^ 40
  match d.cut with
  | some (k, { cycle := some c, .. }) => if n ≤ k then n else k + 1 + (cyc + 2 ^ 40 - c % 2 ^ 40) % 2 ^ 40
  | some (_, { cycle := none, .. }) | none => n

/-- The slot at which cycle `cyc` begins on the grid as it stands: the cycle in progress, or one ahead of it. -/
def Dev.startOf (d : Dev) (cyc : Nat) : Nat := d.startAhead (d.cyclesAhead cyc)

/-- The number of whole cycles from the one in progress to the first boundary at or after slot `t`: at least one. -/
def Dev.boundaryAfter (d : Dev) (t : Nat) : Nat :=
  let e := d.grid.cycleStart + d.grid.len
  let n := if t ≤ e then 1 else 1 + ceilDiv (t - e) d.cycleLen
  match d.cut with
  | some (k, m) => if n ≤ k then n else k + 1 + ceilDiv (t - m.at_) d.cycleLen
  | none => n

/-- Whether a cycle number has been reached, counting modulo 2⁴⁰ (R24). -/
def reachedCycle (cyc target : Nat) : Bool := decide ((cyc + 2 ^ 40 - target) % 2 ^ 40 < 2 ^ 39)

/-- Whether a pending mode change is in force in a cycle of the given number and first slot (R29). -/
def ModePend.inForce (m : ModePend) (cyc start : Nat) : Bool :=
  match m.cycle with
  | some c => reachedCycle cyc c
  | none => decide (m.notBefore ≤ start)

/-- Whether a mode change is due at the boundary reached (item 2 of R15). -/
def Dev.modeDue (d : Dev) : Bool :=
  match d.modePend with
  | some m => m.inForce d.grid.cycle d.grid.cycleStart
  | none => false

/-- The cycle at whose start a pending mode change takes effect (R444). -/
def Dev.pendingCycle (d : Dev) : Nat :=
  match d.modePend with
  | some m => m.cycle.getD (d.cyclePlus (d.boundaryAfter m.notBefore))
  | none => 0

/-- How many cycles ahead lies the cycle in progress at slot `t` on the grid as it stands, and the slot in that cycle. -/
def Dev.cycleAt (d : Dev) (t : Nat) : Nat × Nat :=
  let e := d.grid.cycleStart + d.grid.len
  let free := if t < e then (0, t - d.grid.cycleStart) else ((t - e) / d.cycleLen + 1, (t - e) % d.cycleLen)
  match d.cut with
  | some (k, m) => if m.at_ ≤ t then (k + 1 + (t - m.at_) / d.cycleLen, (t - m.at_) % d.cycleLen) else free
  | none => free

/-- The number of the cycle in progress at slot `t` on the grid as it stands, and the slot in that cycle. -/
def Dev.placeAt (d : Dev) (t : Nat) : Nat × Nat := (d.cyclePlus (d.cycleAt t).1, (d.cycleAt t).2)

/-- Where the movement that waits ends its cycle, as cycle number and slot in cycle: none when it ends no cycle early (R27). -/
def Dev.cutPlace (d : Dev) : Option (Nat × Nat) :=
  match d.cut with
  | some (k, m) =>
    if m.at_ < d.grid.cycleStart + d.grid.len + k * d.cycleLen then some (d.cyclePlus k, m.at_ - d.startAhead k) else none
  | none => none

/-- The mode lead of R29, in slots. -/
def modeLead : Nat := 4096

/-- The farthest a fast command may be issued ahead of its target (R45). -/
def Dev.issueWindow (d : Dev) : Nat := min 1048576 (127 * d.cycleLen)

/-! ### The ledger (R506 to R509) -/

/-- The codes whose V2 counts items and is summed in an absorbing record (R508). -/
def sumsV2 (code : Nat) : Bool :=
  [0x0401, 0x0403, 0x0601, 0x0602, 0x0603, 0x0703, 0x0707, 0x0805, 0x0901, 0x0907].contains code

/-- A ledger event (R508): absorbed by a waiting record of the same code, source and V1 of the same cycle, else
entered in the buffer of 1,024 records, else lost. -/
def Dev.log (d : Dev) (source code : Nat) (v1 : Int := 0) (v2 : Int := 0) (v3 : Int := 0) : Dev :=
  let v1 := unsgn 64 v1
  let v2 := unsgn 64 v2
  let same := fun (r : LedgerRec) =>
    r.code == code && r.source == source && r.v1 == v1 && r.cycle == d.grid.cycle
  if d.ledger.buffer.any same then
    let absorb := fun (r : LedgerRec) =>
      if same r then
        { r with count := min (r.count + 1) (2 ^ 32 - 1)
                 v2 := if sumsV2 code then min (r.v2 + v2) (2 ^ 64 - 1) else r.v2 }
      else r
    { d with ledger := { d.ledger with buffer := d.ledger.buffer.map absorb } }
  else if d.ledger.buffer.length < 1024 then
    let flags := flag 0 (d.tb.state == .free || d.tb.state == .acquiring) + flag 1 (d.tb.state == .holdover)
    let r : LedgerRec :=
      { seq := 0, flags := flags, time := time96 d.reading, aon := d.aonMs / 1000 % 2 ^ 32, source := source
        code := code, count := 1, v1 := v1, v2 := v2, v3 := unsgn 64 v3, restarts := d.aon.restarts
        cycle := d.grid.cycle }
    { d with ledger := { d.ledger with buffer := d.ledger.buffer ++ [r] } }
  else { d with aon := { d.aon with lost := min (d.aon.lost + 1) (2 ^ 32 - 1) } }

/-- An action of the fence counted and recorded with its limit (1 to 8 in R365's row order) and the group, channel or lane
concerned. -/
def Dev.fenceEvent (d : Dev) (source limit_ concerned : Nat) : Dev :=
  (d.bump Reg.GV_FENCE_CNT).log source 0x0805 limit_ 1 concerned

/-- An action of the fence at the concentrator (R365, R368): shown in Fence Status, counted and recorded. -/
def Dev.fence (d : Dev) (source limit_ concerned : Nat) : Dev :=
  let statusBit : Option Nat := match limit_ with
    | 1 => some 0 | 5 => some 2 | 6 => some 3 | 7 => some 4 | 8 => some 5 | _ => none
  let d := match statusBit with
    | some b => d.set Reg.GV_FENCE_STAT 0 (setBit (d.get Reg.GV_FENCE_STAT) b true)
    | none => d
  d.fenceEvent source limit_ concerned

/-! ### Requests (R402 to R424) -/

/-- Objects that may be written in SAFE (R492): the image objects, Restart, Mode Request, Guard Token and the
environment-monitor objects other than RWC. -/
def writableInSafe (r : ObjRow) : Bool :=
  let i := r.addr / 256
  i == 0x1210 || i == 0x1211 || r.addr == Reg.BT_RESTART || r.addr == Reg.MD_REQUEST || r.addr == Reg.COM_GUARD_TOKEN
    || (i == 0x2A00 && r.access != .rwc) || (i == 0x2A01 && r.access != .rwc)

/-- Whether RWC objects may be written: in CONFIGURE, with no change out of it pending (R406). -/
def Dev.rwcOpen (d : Dev) : Bool := d.mode == .configure && d.modePend.isNone

/-- Whether the writer holds a valid guard token (R424). -/
def Dev.hasToken (d : Dev) (w : Writer) : Bool :=
  match w with
  | .client c _ =>
    match d.keeper.clients[c.val] with
    | some cl =>
      match cl.tokenAt with
      | some t => decide (d.now ≤ t + d.ms 1000)
      | none => false
    | none => false
  | .core | .keeper => false

/-- The device with a client's entry changed. -/
def Dev.updClient (d : Dev) (c : Fin 16) (f : Client → Client) : Dev :=
  { d with keeper := { d.keeper with clients := d.keeper.clients.set c.val (d.keeper.clients[c.val].map f) } }

/-- The writer's guard token consumed (R425). -/
def Dev.useToken (d : Dev) (w : Writer) : Dev :=
  match w with
  | .client c _ => d.updClient c fun cl => { cl with tokenAt := none }
  | .core | .keeper => d

/-- The numeric value of `val` under a row's type. -/
def rowValue (r : ObjRow) (val : Bytes) : Int :=
  if r.ty.signed then sgn (8 * r.ty.bytes) (beNat val) else beNat val

/-- Steps 9 and 10 of R421 as far as the row itself decides: length against type, then range (R404, R9). -/
def valueCheck (r : ObjRow) (val : Bytes) : Option Status :=
  match r.ty with
  | .string => if 64 < val.length then some .type else if val.all (fun b => 0x20 ≤ b ∧ b ≤ 0x7E) then none else some .range
  | .domain => if 1024 < val.length then some .range else none
  | .time96 => if val.length = 12 then none else some .type
  | .bool | .u8 | .u16 | .u32 | .u64 | .i16 | .i32 | .i64 =>
    if val.length ≠ r.ty.bytes then some .type
    else if r.lo ≤ rowValue r val ∧ rowValue r val ≤ r.hi then none else some .range

/-- Step 7 of R421 for a write: the element (R403); 0xFFFF stands for all elements of an array. -/
def elemCheck (r : ObjRow) (e : Nat) : Option Status :=
  if e < r.elems then none else if e = 0xFFFF ∧ 1 < r.elems then none else some .range

/-- Step 8 of R421 for a write: the access class, the mode it needs, and the guard token, which a GUARDED write
consumes whatever its final outcome (R425). -/
def Dev.accessCheck (d : Dev) (w : Writer) (r : ObjRow) : Option Status × Dev :=
  if d.mode == .safe && !writableInSafe r then
    (some (if r.access == .ro then .access else .wrongMode), if r.access == .guarded && d.hasToken w then d.useToken w else d)
  else match r.access with
    | .ro => (some .access, d)
    | .rw | .wo | .cmd => (none, d)
    | .rwc => (if d.rwcOpen then none else some .wrongMode, d)
    | .guarded => if d.hasToken w then (none, d.useToken w) else (some .guard, d)

/-- Steps 7 to 10 of R421 for a write, as far as the dictionary row decides. -/
def Dev.gate (d : Dev) (w : Writer) (a e : Nat) (val : Bytes) : Option Status × Dev :=
  match objRow a with
  | none => (some .notPresent, d)
  | some r =>
    match elemCheck r e with
    | some st => (some st, d)
    | none =>
      match d.accessCheck w r with
      | (some st, d) => (some st, d)
      | (none, d) => (valueCheck r val, d)

/-- A Marori response (R410): the request's fields, the flags REPLAYED [0] and RESOLVED [1], the status, the value. -/
def responseBytes (q : Request) (flags : Nat) (st : Status) (value : Bytes) : Bytes :=
  let value := if st = .accepted ∧ q.op = 1 then value else []
  let body := beBytes 2 0x4D52 ++ beBytes 1 1 ++ beBytes 1 (q.alive * 16 + flags) ++ beBytes 2 q.tid.toNat
    ++ beBytes 1 (q.op ||| 0x80) ++ beBytes 1 q.node ++ beBytes 1 q.port ++ beBytes 1 (statusCode st)
    ++ beBytes 2 q.index ++ beBytes 1 q.sub ++ beBytes 1 0 ++ beBytes 2 q.elem ++ beBytes 2 value.length ++ value
  body ++ beBytes 4 (crc32c body)

/-- A stored response with the flags bits of byte 3 set, its CRC made again (R410, R418). -/
def withFlags (resp : Bytes) (flags : Nat) : Bytes :=
  let body := resp.take (resp.length - 4)
  let body := body.take 3 ++ [BitVec.ofNat 8 ((body.getD 3 0).toNat ||| flags)] ++ body.drop 4
  body ++ beBytes 4 (crc32c body)

/-- The smallest CAN FD data length that holds `n` bytes (R414). -/
def canLen (n : Nat) : Nat :=
  (([0, 1, 2, 3, 4, 5, 6, 7, 8, 12, 16, 20, 24, 32, 48, 64] : List Nat).find? fun l => decide (n ≤ l)).getD 64

/-- A CAN FD identifier (R413). -/
def canId (prio resp node client seg segNum : Nat) : Nat :=
  prio % 8 * 2 ^ 26 + resp % 2 * 2 ^ 25 + node % 256 * 2 ^ 17 + client % 256 * 2 ^ 9 + seg % 4 * 2 ^ 7 + segNum % 64 * 2

/-- The frames of a message over CAN FD (R413, R414): identifier and padded data; `fuel` bounds their number. -/
def canFrames (id : Nat → Nat → Nat) : Nat → Nat → Bytes → List (Nat × Bytes)
  | 0, _, _ => []
  | fuel + 1, n, bs =>
    let last := decide (bs.length ≤ 64)
    let seg := if n = 0 then (if last then 0 else 1) else if last then 3 else 2
    let part := bs.take 64
    (id seg n, part ++ List.replicate (canLen part.length - part.length) 0)
      :: (if last then [] else canFrames id fuel (n + 1) (bs.drop 64))

/-! ### What a back-end port sends (R298 to R300) -/

/-- The 16-bit words of bytes, added with end-around carry. -/
def onesSum : Nat → Bytes → Nat
  | acc, [] => acc
  | acc, [a] => (acc + a.toNat * 256) % 65535
  | acc, a :: b :: rest => onesSum ((acc + a.toNat * 256 + b.toNat) % 65535) rest

/-- The Internet checksum of bytes. -/
def inetSum (bs : Bytes) : Nat :=
  let s := onesSum 0 bs
  if s = 0 ∧ bs.any (fun b => b.toNat != 0) then 0 else 65535 - s

/-- The Ethernet frame of a UDP datagram, without its frame check sequence (R298, R299). -/
def udpFrame (srcMac srcIp srcUdp ttl ident : Nat) (r : Route) (payload : Bytes) : Bytes :=
  let tag := if bit r.vlan 12 then beBytes 2 0x8100 ++ beBytes 2 (r.vlan &&& 0xEFFF) else []
  let len := payload.length + 8
  let ip := fun (sum : Nat) => beBytes 1 0x45 ++ beBytes 1 (r.dscp * 4) ++ beBytes 2 (len + 20) ++ beBytes 2 ident
    ++ beBytes 2 0x4000 ++ beBytes 1 ttl ++ beBytes 1 17 ++ beBytes 2 sum ++ beBytes 4 srcIp ++ beBytes 4 r.ip
  let udp := fun (sum : Nat) => beBytes 2 srcUdp ++ beBytes 2 r.udp ++ beBytes 2 len ++ beBytes 2 sum ++ payload
  let pseudo := beBytes 4 srcIp ++ beBytes 4 r.ip ++ beBytes 2 17 ++ beBytes 2 len
  let us := inetSum (pseudo ++ udp 0)
  beBytes 6 r.mac ++ beBytes 6 srcMac ++ tag ++ beBytes 2 0x0800 ++ ip (inetSum (ip 0)) ++ udp (if us = 0 then 0xFFFF else us)

/-- The transmitter of a back-end port. -/
def Dev.netPort (d : Dev) (b : Fin 8) : NetPort := d.net[b.val]

/-- The device with the transmitter of a back-end port replaced. -/
def Dev.setNet (d : Dev) (b : Fin 8) (n : NetPort) : Dev := { d with net := d.net.set b.val n }

/-- A frame sent on a back-end port, counted with its check sequence (R299, R307). -/
def Dev.sendFrame (d : Dev) (b : Fin 8) (bytes : Bytes) : Dev :=
  ((d.bump Reg.BE_TX_FRAMES b.val).bump Reg.BE_TX_BYTES b.val (max 64 (bytes.length + 4))).emit (.frame b.val bytes)

/-- A frame of the management traffic (R300): it waits while a pause is in force, and is lost without link. -/
def Dev.sendManaged (d : Dev) (b : Fin 8) (bytes : Bytes) : Dev :=
  let n := d.netPort b
  if d.get Reg.BE_LINK b.val ≠ 1 then d
  else if n.pause.isSome then d.setNet b { n with held := n.held ++ [bytes] }
  else d.sendFrame b bytes

/-- The address a back-end port answers at (R300): its Source IPv4, or in SAFE on port 0 a link-local one. -/
def Dev.portIp (d : Dev) (b : Fin 8) : Nat :=
  let ip := d.get Reg.BE_SRC_IP b.val
  if ip = 0 ∧ b = 0 ∧ d.mode = .safe then 0xA9FE0000 + d.get Reg.COM_NODE else ip

/-- The Identification of the next datagram of a back-end port taken (R299). -/
def Dev.takeIdent (d : Dev) (b : Fin 8) : Nat × Dev :=
  let n := d.netPort b
  (n.ident, d.setNet b { n with ident := (n.ident + 1) % 65536 })

/-- A message sent as one datagram from UDP port 40917 of a back-end port (R412). -/
def Dev.sendMessage (d : Dev) (b : Fin 8) (mac ip udp : Nat) (msg : Bytes) : Dev :=
  let (ident, d) := d.takeIdent b
  let to_ : Route := { egress := b.val, mac := mac, ip := ip, udp := udp, vlan := 0, dscp := 0 }
  d.sendManaged b (udpFrame (d.get Reg.BE_SRC_MAC b.val) (d.portIp b) 40917 (d.get Reg.BE_TTL) ident to_ msg)

/-- A response on its way to a client: a datagram from the port, or frames on the bus, the request came on (R412 to
R414). -/
def Dev.reply (d : Dev) (cl : Client) (resp : Bytes) : Dev :=
  match cl.via, cl.id with
  | .can bus, .can _ client =>
    forEach (canFrames (canId cl.prio 1 (d.get Reg.COM_NODE) client) 17 0 resp) (fun f d => d.emit (.can bus.val f.1 f.2)) d
  | .udp b, .udp ip udp => d.sendMessage b cl.mac ip udp resp
  | .can _, .udp _ _ | .udp _, .can _ _ => d

/-- The outcome of a request known (step 12 of R421): for a client, stored in its transaction entry (R417) and sent;
the request leaves the queue. -/
def Dev.answer (d : Dev) (w : Writer) (st : Status) (value : Bytes := []) : Dev :=
  let d := if st = .accepted then d.bump Reg.COM_EXEC else d
  match w with
  | .core | .keeper => d.emit (.answer w st value)
  | .client c tid =>
    match d.keeper.clients[c.val], d.keeper.queue.find? (fun q => q.client == c && q.tid == tid) with
    | some cl, some q =>
      let resp := responseBytes q 0 st value
      let store := fun (t : Txn) =>
        if t.tid = tid ∧ t.response.isNone then
          { t with response := some resp, status := st, sentAt := d.now, unknown := decide (st = .outcomeUnknown),
                   wasUnknown := decide (st = .outcomeUnknown) }
        else t
      let d := d.updClient c fun cl => { cl with txns := cl.txns.map store }
      let d := { d with keeper := { d.keeper with
        queue := d.keeper.queue.filter fun q => !(q.client == c && q.tid == tid) } }
      (d.reply { cl with via := q.via, mac := q.mac, prio := q.prio } resp).emit (.answer w st value)
    | _, _ => d.emit (.answer w st value)

/-- A dequeued write of an object with behaviour of its own (steps 7 to 12 of R421): `f` gives the outcome and effect
once the dictionary row has let the value through. -/
def Dev.write (d : Dev) (w : Writer) (a e : Nat) (val : Bytes) (f : Dev → Nat → Status × Dev) : Dev :=
  match d.gate w a e val with
  | (some st, d) => d.answer w st
  | (none, d) =>
    match f d (beNat val) with
    | (st, d) => d.answer w st

/-- The elements a write names: one, or all of an array (R403). -/
def elemsOf (r : ObjRow) (e : Nat) : List Nat := if e = 0xFFFF ∧ 1 < r.elems then List.range r.elems else [e]

/-- A dequeued write of an array object with behaviour of its own: `f` gives outcome and effect for one element. A write of
all elements is refused whole when any of them refuses it (R403). -/
def Dev.writeEach (d : Dev) (w : Writer) (a e : Nat) (val : Bytes) (f : Nat → Dev → Nat → Status × Dev) : Dev :=
  d.write w a e val fun d v =>
    let es := match objRow a with | some r => elemsOf r e | none => []
    let done := es.foldl (fun (x : Status × Dev) k => if x.1 = .accepted then f k x.2 v else x) (.accepted, d)
    if done.1 = .accepted then done else (done.1, d)

/-- Outcome and effect of a write that is refused. -/
def refuse (st : Status) (d : Dev) : Status × Dev := (st, d)

/-! ### Running a command -/

/-- The result of a command: its effect on the device, the queue of waiting commands untouched. -/
abbrev Result := Host.Outcome State Fault Refusal

/-- A command whose effect on the device is `f`. -/
def State.on (s : State) (f : Dev → Dev) : Result := .next { s with dev := f s.dev }

end Sys2Proof.Machine
end

