-- ==== Sys2Proof/Machine/Jobs.lean ====
section
/-! DEFINITION. Jobs of the service cores (R373 to R386): the scheduling trace, the posting of DATA jobs under the source
limits, and what becomes of a job that leaves. -/

namespace Sys2Proof.Machine

/-! ### The flash devices (R391) -/

/-- A flash device of the concentrator. -/
def Dev.flashDev (d : Dev) (i : Fin 2) : Flash := d.flash[i.val]

/-- The device with a flash device replaced. -/
def Dev.setFlash (d : Dev) (i : Fin 2) (f : Flash) : Dev := { d with flash := d.flash.set i.val f }

/-- What a byte of an image area reads where nothing has been programmed since. -/
def flashDflt (i : Fin 2) (erased : Bool) (off : Nat) : Nat := if erased then 0xFF else Config.flashByte i.val off % 256

/-- A byte of an image area. -/
def Dev.flashAt (d : Dev) (i : Fin 2) (off : Nat) : Nat :=
  tblRead (flashDflt i (d.flashDev i).erased) (d.flashDev i).bytes off

/-- `n` bytes of an image area. -/
def Dev.flashBytes (d : Dev) (i : Fin 2) (off n : Nat) : Bytes :=
  (List.range n).map fun k => BitVec.ofNat 8 (d.flashAt i (off + k))

/-- A field of `n` bytes of an image area. -/
def Dev.flashNat (d : Dev) (i : Fin 2) (off n : Nat) : Nat := beNat (d.flashBytes i off n)

/-- The basket formats that the image in use can emit (R392): a bit mask; the boot ROM emits none. -/
def Dev.formats (d : Dev) : Nat := if d.get Reg.IMG_IN_USE = 2 then 0 else d.flashNat (Fin.ofNat 2 (d.get Reg.IMG_IN_USE)) 13 1

/-- The basket format that is current for the image in use (R302): 3, or 2 for an image that cannot emit it. -/
def Dev.currentFormat (d : Dev) : Nat := if bit d.formats 2 && !bit d.formats 3 then 2 else 3

/-! ### Tasks and cores -/

/-- The task the image lists under a number. -/
def Dev.task (d : Dev) (t : Nat) : Option Task := (d.sched.tasks.find? fun x => x.1 == t).map Prod.snd

/-- The device with a task changed by `g`. -/
def Dev.updTask (d : Dev) (t : Nat) (g : Task → Task) : Dev :=
  { d with sched := { d.sched with tasks := d.sched.tasks.map fun x => if x.1 = t then (x.1, g x.2) else x } }

/-- The device with a core replaced. -/
def Dev.setCore (d : Dev) (c : Fin 16) (k : Core) : Dev :=
  { d with sched := { d.sched with cores := d.sched.cores.set c.val k } }

/-- The jobs that run, with their cores. -/
def Dev.runningJobs (d : Dev) : List (Nat × Job) :=
  (List.finRange 16).filterMap fun c => (d.sched.cores[c.val]).job.map fun j => (c.val, j.1)

/-- Whether the service cores run in the present mode (R465, R492). -/
def Dev.coresRun (d : Dev) : Bool := d.mode != .boot && d.mode != .safe

/-- The wait of a job (R374), from the low 32 bits of its post slot. -/
def Dev.waitOf (d : Dev) (j : Job) : Nat := (d.now + 2 ^ 32 - j.slot % 2 ^ 32) % 2 ^ 32

/-- The effective priority of a job (R377). -/
def Dev.ePrio (d : Dev) (j : Job) : Nat := if d.get Reg.SC_AGING ≤ d.waitOf j then 7 else j.prio

/-- The state of a check-value engine (R446). -/
def Engine.state (x : Engine) : Nat := if x.held.isSome then 2 else if x.running.isSome then 1 else 0

/-! ### The scheduling trace (R389, R390) -/

/-- A trace entry (R389). -/
def traceWord (event core task cls eprio source detail arg seq slot : Nat) : Nat :=
  event % 16 * 2 ^ 124 + core % 32 * 2 ^ 119 + task % 1024 * 2 ^ 109 + cls % 2 * 2 ^ 108 + eprio % 8 * 2 ^ 105
    + source % 16 * 2 ^ 101 + detail % 32 * 2 ^ 96 + arg % 2 ^ 32 * 2 ^ 64 + seq % 2 ^ 32 * 2 ^ 32 + slot % 2 ^ 32

/-- A trace entry with the fields that R389 gives it; the others are free. -/
def Dev.traceWith (d : Dev) (event : Nat) (task cls eprio source arg seq : Option Nat) (slot : Nat) : Nat × Dev :=
  let (r, d) := d.draw
  (traceWord event 31 (task.getD r) (cls.getD (r / 2 ^ 10)) (eprio.getD (r / 2 ^ 11)) (source.getD (r / 2 ^ 14)) 0
    (arg.getD (r / 2 ^ 18)) (seq.getD (r / 2 ^ 50)) slot, d)

/-- Whether the ring has stopped at 65,536 unread entries (R390). -/
def Dev.traceStopped (d : Dev) : Bool := d.get Reg.SC_TRACE_MODE == 2 && decide (65536 ≤ d.sched.trace.length)

/-- The ring with an entry written; in WRAP mode the newest overwrites the oldest unread. -/
def Dev.tracePush (d : Dev) (w slot : Nat) : Dev :=
  let n := if d.sched.traceAt = slot then d.sched.traceCount + 1 else 1
  { d with sched := { d.sched with trace := lastN 65536 (d.sched.trace ++ [w]), traceAt := slot, traceCount := n } }

/-- The GAP entry for the drops not yet written, at the slot `slot` that has room for it. -/
def Dev.traceGap (d : Dev) (slot : Nat) : Dev :=
  if d.sched.gap = 0 ∨ d.get Reg.SC_TRACE_MODE = 0 ∨ d.traceStopped then d
  else
    let (w, d) := d.traceWith 0xC none none none none (some d.sched.gap) (some 0) slot
    ({ d with sched := { d.sched with gap := 0 } }).tracePush w slot

/-- The GAP entry of drops of an earlier slot, at the first slot that had room for it (R390). -/
def Dev.settleGap (d : Dev) : Dev := if d.sched.traceAt < d.now then d.traceGap (d.sched.traceAt + 1) else d

/-- The entries the ring holds unread in this slot, a GAP entry that is due among them (R390). -/
def Dev.traceFill (d : Dev) : Nat :=
  let due := d.sched.gap != 0 && decide (d.sched.traceAt < d.now) && d.get Reg.SC_TRACE_MODE != 0 && !d.traceStopped
  min 65536 (d.sched.trace.length + if due then 1 else 0)

/-- An entry that Trace Filter has let through: at most 8 a slot, and none while the ring has stopped (R390). -/
def Dev.traceEntry (d : Dev) (w : Nat) : Dev :=
  if d.get Reg.SC_TRACE_MODE = 0 then d
  else
    let d := d.settleGap
    let n := if d.sched.traceAt = d.now then d.sched.traceCount else 0
    if 8 ≤ n ∨ d.traceStopped then
      ({ d with sched := { d.sched with gap := d.sched.gap + 1 } }).bump Reg.SC_TRACE_DROP
    else d.tracePush w d.now

/-- A trace event about a job. -/
def Dev.traceJob (d : Dev) (event core : Nat) (j : Job) (detail : Nat := 0) : Dev :=
  if bit (d.get Reg.SC_TRACE_FILT) event then
    d.traceEntry (traceWord event core j.task (if j.data then 0 else 1) (d.ePrio j) j.source detail j.arg j.seq d.now)
  else d

/-- A trace event that is not about one job. -/
def Dev.traceEvent (d : Dev) (event : Nat) (task cls eprio source arg seq : Option Nat) : Dev :=
  if bit (d.get Reg.SC_TRACE_FILT) event then
    let (w, d) := d.traceWith event task cls eprio source arg seq d.now
    d.traceEntry w
  else d

/-! ### DATA sources (R381, R382) -/

/-- The jobs of a source that are posted and not completed. -/
def Dev.srcJobs (d : Dev) (s : Nat) : Nat :=
  (d.sched.data.filter fun j => j.source == s).length + (d.runningJobs.filter fun j => j.2.data && j.2.source == s).length

/-- Whether a source has reached its limit. -/
def Dev.srcFull (d : Dev) (s : Nat) : Bool := decide (d.get Reg.SC_SRC_LIM s ≤ d.srcJobs s)

/-- A KEEPER item whose job will not complete ends its request in failure (R385, R423). -/
def Dev.failItem (d : Dev) (j : Job) : Dev :=
  match j.request with
  | some (c, tid) =>
    if d.keeper.queue.any fun q => q.client == c && q.tid == tid then d.answer (.client c tid) .failed else d
  | none => d

/-- A new job of a task, and the device with its sequence number used (R374). -/
def Dev.newJob (d : Dev) (t : Nat) (x : Task) (arg : Nat) (request : Option (Fin 16 × BitVec 16)) : Job × Dev :=
  ({ task := t, data := x.data, prio := d.get Reg.SC_TASK_PRIO t, source := if x.data then x.source else 15, arg := arg
     seq := d.sched.seq, slot := d.now, request := request },
   { d with sched := { d.sched with seq := (d.sched.seq + 1) % 2 ^ 32 } })

/-- Source Jobs brought up to date, and the slots at the limit counted once the source is below it again. -/
def Dev.countSource (d : Dev) (s : Fin 4) : Dev :=
  let full := d.srcFull s.val
  let d := d.set Reg.SC_SRC_JOBS s.val (d.srcJobs s.val)
  let setHeld := fun (d : Dev) (h : Option Nat) =>
    { d with sched := { d.sched with heldFrom := d.sched.heldFrom.set s.val h } }
  match d.sched.heldFrom[s.val], full with
  | none, true => (setHeld d (some d.now)).traceEvent 0x8 none (some 0) none (some s.val) none none
  | some t, false => (setHeld d none).bump Reg.SC_SRC_HELD s.val (d.now - t)
  | none, false | some _, true => d

/-- The source `s` posts a job for an item (R375): one for a FAULTED task is discarded (R386), one for a task that is not a
DATA task of the source is not posted. -/
def Dev.postData (d : Dev) (s : Fin 4) (t arg : Nat) (request : Option (Fin 16 × BitVec 16)) : Dev :=
  match d.task t with
  | none => d
  | some x =>
    if !x.data || x.source != s.val then d
    else
      let (j, d') := d.newJob t x arg request
      if x.faulted then d.failItem j
      else
        let d := { d' with sched := { d'.sched with data := d'.sched.data ++ [j] } }
        (d.traceJob 0x1 31 j).countSource s

/-- The oldest delegation that waits is posted when KEEPER has room. -/
def Dev.postDelegation (d : Dev) : Dev :=
  match d.sched.delegations with
  | [] => d
  | (req, t, arg) :: rest =>
    if d.srcFull 0 then d
    else ({ d with sched := { d.sched with delegations := rest } }).postData 0 t arg (some req)

/-- A completion held at an engine is posted when CVU has room (R461). -/
def Dev.postEngine (d : Dev) (e : Fin 4) : Dev :=
  match (d.cvu[e.val]).held with
  | some (t, arg) =>
    if d.srcFull 1 then d
    else ({ d with cvu := d.cvu.set e.val { d.cvu[e.val] with held := none } }).postData 1 t arg none
  | none => d

/-- The DATA tasks of source ENV, rising (R479). -/
def Dev.envTasks (d : Dev) : List Nat :=
  ((d.sched.tasks.filter fun x => x.2.data && x.2.source == 2).map Prod.fst).insertionSort (· ≤ ·)

/-- The environment-monitor channel `n` replaced. -/
def Dev.setEm (d : Dev) (n : Fin 16) (c : EmChan) : Dev := { d with em := { d.em with chans := d.em.chans.set n.val c } }

/-- A result that waits at a channel is posted when ENV has room (R479). -/
def Dev.postEnv (d : Dev) (n : Fin 16) : Dev :=
  let c := d.em.chans[n.val]
  match c.waiting, d.envTasks with
  | some arg, t :: ts =>
    if d.srcFull 2 then d.setEm n { c with heldBefore := true }
    else (d.setEm n { c with waiting := none }).postData 2 ((t :: ts).getD (n.val % (t :: ts).length) 0) arg none
  | some _, [] => d.setEm n { c with waiting := none }
  | none, _ => d

/-- What waits at a source is posted while it is below its limit (R381): delegations oldest first, engines and channels in
rising order. -/
def Dev.postWaiting (d : Dev) (s : Fin 4) : Dev :=
  if s = 0 then forRange 64 (fun _ d => d.postDelegation) d
  else if s = 1 then forEach (List.finRange 4) (fun e d => d.postEngine e) d
  else if s = 2 then forEach (List.finRange 16) (fun n d => d.postEnv n) d
  else d

/-- A source after one of its jobs has gone. -/
def Dev.sourceFreed (d : Dev) (s : Fin 4) : Dev := (d.countSource s).postWaiting s

/-! ### Jobs discarded, tasks FAULTED (R386 to R388) -/

/-- Jobs discarded and counted in Jobs Lost; a KEEPER item among them ends its request. -/
def Dev.loseJobs (d : Dev) (js : List Job) : Dev :=
  forEach js (fun j d => ((d.bump Reg.SC_LOST).traceJob 0xB 31 j).failItem j) d

/-- A task becomes FAULTED (R386): its waiting jobs are discarded. One that no section lists does so when its word in the task table
is lost (R387). -/
def Dev.faultTask (d : Dev) (t : Nat) : Dev :=
  match d.task t with
  | none =>
    let x : Task := { data := false, prio := 0, source := 15, entry := 0, faulted := true, unused := true }
    ({ d with sched := { d.sched with tasks := d.sched.tasks ++ [(t, x)] } }.log 0xFF 0x0903 t).traceEvent 0xA (some t) (some 1) none
      (some 15) none none
  | some x =>
    if x.faulted then d
    else
      let mine := fun (j : Job) => j.task == t
      let sc := d.sched
      let gone := (sc.data ++ sc.service ++ sc.spilled.flatten ++ sc.staging).filter mine
      let keep := fun (l : List Job) => l.filter fun j => !mine j
      let d := { d with sched := { sc with
        data := keep sc.data, service := keep sc.service, staging := keep sc.staging, spilled := sc.spilled.map keep } }
      let d := (d.updTask t fun x => { x with faulted := true, aborts := [] }).log 0xFF 0x0903 t
      let d := d.traceEvent 0xA (some t) (some (if x.data then 0 else 1)) none (some (if x.data then x.source else 15)) none none
      let d := d.loseJobs gone
      if x.data then d.sourceFreed (Fin.ofNat 4 x.source) else d

end Sys2Proof.Machine
end

