-- ==== Sys2Proof/Machine/FrontEndOps.lean ====
section
/-! DEFINITION. The shared operations of a front end: its frames and records (R133 to R150), dead time (R108 to R111),
bias levels and settling (R66 to R70), the fence (R366), queue resets (R150), snapshot triggers (R156, R159) and the order
of a slot (R141). -/

namespace Sys2Proof.Machine

/-! ### Frames -/

/-- Whether the front end runs: it is out of low-power reset (R483). -/
def FrontEnd.runs (f : FrontEnd) : Bool := f.power == .running

/-- Whether the front end hears its downlink: it runs, and the downlink it follows has block lock (R12, R184). -/
def FrontEnd.hears (f : FrontEnd) : Bool := f.runs && f.dlLock.toList.getD f.activeDl false

/-! ### The order of a slot (R141) -/

/-- Whether step `k` of R141 may still run in this slot: 1 fast commands, 2 pointer resets, 3 close deadlines, 4 flood
guards, 5 arbitration and dealing, 6 markers. -/
def Dev.inOrder (d : Dev) (p : Port) (k : Nat) : Bool :=
  let f := d.fe p
  f.stepSlot != d.now || decide (f.step ≤ k)

/-- The device with step `k` of R141 taken in this slot. -/
def Dev.atStep (d : Dev) (p : Port) (k : Nat) : Dev := d.updFe p fun f => { f with stepSlot := d.now, step := k }

/-- The slot in the front end's own cycle. -/
def Dev.feSlot (d : Dev) (p : Port) : Nat := d.now - (d.fe p).cycleStart

/-- The slot at which the front end's cycle ends. -/
def FrontEnd.cycleStop (f : FrontEnd) : Nat := f.endAt.getD (f.cycleStart + f.cycleLen)

/-- The frame of the front end that covers a slot, else the newest frame. -/
def FrontEnd.frameOf (f : FrontEnd) (slot : Nat) : Option FeFrame :=
  (f.frames.find? fun fr => fr.start ≤ slot ∧ slot < fr.stop).or f.frames.getLast?

/-- The first slot of the frame a hit with its corrected leading edge in slot `slot` belongs to (R101): the frame that covers
it; before every frame held, the oldest; after every frame held, the one that begins next. -/
def FrontEnd.placeOf (f : FrontEnd) (slot : Nat) : Nat :=
  match f.frames.find? fun fr => fr.start ≤ slot ∧ slot < fr.stop with
  | some fr => fr.start
  | none => match f.frames.head?, f.frames.getLast? with
    | some a, some b => if slot < a.start then a.start else b.stop
    | _, _ => slot

/-- The first slot of the frame that covers a slot. -/
def FrontEnd.frameStart (f : FrontEnd) (slot : Nat) : Nat := ((f.frameOf slot).map FeFrame.start).getD slot

/-- The frame named by its first slot. -/
def FrontEnd.frameAt (f : FrontEnd) (start : Nat) : Option FeFrame := f.frames.find? fun fr => fr.start == start

/-- The front end with the frame named by its first slot changed. -/
def FrontEnd.updFrame (f : FrontEnd) (start : Nat) (g : FeFrame → FeFrame) : FrontEnd :=
  { f with frames := f.frames.map fun fr => if fr.start = start then g fr else fr }

/-- The 12-bit index of the frame named by its first slot. -/
def FrontEnd.frameIdx (f : FrontEnd) (start : Nat) : Nat := ((f.frameAt start).map FeFrame.idx).getD 0

/-- The TIME field of slot `slot` and coarse tick `coarse` within the frame that covers it. -/
def FrontEnd.timeIn (f : FrontEnd) (slot coarse : Nat) : Nat := timeField (slot - f.frameStart slot) coarse

/-- The low 8 bits of the cycle of the frame named by its first slot. -/
def FrontEnd.frameCyc (f : FrontEnd) (start : Nat) : Nat := ((f.frameAt start).map FeFrame.cyc).getD f.cycLo

/-! ### Records -/

/-- A record other than a hit enters the record queue when its frame belongs to a mode that sends records (R142, R31);
one that finds the queue of 2,048 full is dropped, counted, and flagged in its frame's markers (R136, R149). -/
def Dev.feRecord (d : Dev) (p : Port) (bits : Record) (region frame : Nat) : Dev :=
  let f := d.fe p
  if ((f.frameAt frame).map FeFrame.marks).getD false = false then d
  else if f.records.length < 2048 then
    let q : QRec :=
      { bits := bits, hit := false, region := region, frame := frame, idx := f.frameIdx frame
        cyc := f.frameCyc frame, key := d.now }
    d.setFe p { f with records := f.records ++ [q] }
  else
    (d.setFe p (f.updFrame frame fun fr => { fr with ovf := true })).fbump p Reg.FE_REC_OVF

/-- A CAL_STATUS record at slot `now` (R132). -/
def Dev.feStatusRecord (d : Dev) (p : Port) (e : CalEvent) (region chan cause : Nat) : Dev :=
  let f := d.fe p
  d.feRecord p (calStatusRecord e region chan (f.timeIn d.now 0) cause) region (f.frameStart d.now)

/-! ### Channels -/

/-- The region word in force (R82). -/
def Dev.rgWord (d : Dev) (p : Port) (r : Nat) : Nat := d.ap p Reg.FE_RG_ANA r

/-- The group of a region (R82). -/
def Dev.groupOf (d : Dev) (p : Port) (r : Nat) : Nat := field (d.rgWord p r) 15 12

/-- The regions of the groups in a 16-bit mask. -/
def Dev.regionsIn (d : Dev) (p : Port) (groups : Nat) : List Nat :=
  (List.range 256).filter fun r => bit groups (d.groupOf p r)

/-- Whether a channel is masked (R78). -/
def Dev.masked (d : Dev) (p : Port) (c : Nat) : Bool := bit (d.ap p Reg.FE_CH_ANA c) 7

/-- Whether the discriminator outputs of a region reach the channels: not at OFF, not blocked out of OFF (R70), not
blocked by a configuration fault (R151). -/
def Region.senses (g : Region) : Bool := g.level != 0 && g.outFrom.isNone && !g.cfgFault

/-- The region is settling at a slot (R68, R69). -/
def Region.settling (g : Region) (slot : Nat) : Bool := decide (slot < g.settleUntil)

/-- Whether dead time accrues on a channel (R109). -/
def Dev.accrues (d : Dev) (p : Port) (c : Nat) : Bool :=
  let g := (d.fe p).region (regionOf c)
  !d.masked p c && g.senses && !g.flood

/-- Whether a channel's discriminator output is high at coarse tick `t` (R85): a crossing is in progress, or a stretch. -/
def Chan.outHigh (ch : Chan) (t : Nat) : Bool := ch.high || decide ((t : Int) * 512 < ch.stretchTo)

/-- The first coarse-tick edge at or after the end of a stretch (R88). -/
def Chan.lowTick (ch : Chan) : Nat := ((ch.stretchTo + 511) / 512).toNat

/-- The state that a channel which can capture again takes with its discriminator low: BLOCKED with 4 entries (R88). -/
def Chan.lowSt (ch : Chan) : ChanSt := if 4 ≤ ch.queue.length then .blocked else .armed

/-- The coarse tick at which a channel leaves its state without a further event, and the state it then takes (R88): a REFRESH
ends ARMED, a reset in WAIT_LOW with the discriminator high (R150), and WAIT_LOW once the discriminator has fallen. -/
def Chan.leaves (ch : Chan) : Option (Nat × ChanSt) :=
  match ch.st with
  | .refresh => some (ch.endTick, if ch.toWait && ch.outHigh ch.endTick then .waitLow else .armed)
  | .waitLow => if ch.high then none else some (ch.endTick, ch.lowSt)
  | .armed | .pulse | .rearm | .blocked => none

/-- The channel after one such change, when it is due by coarse tick `t`. -/
def Chan.advance (ch : Chan) (t : Nat) : Chan :=
  match ch.leaves with
  | some (e, st) =>
    if e ≤ t then
      { ch with st := st, toWait := false, deadFrom := if st = .armed then 0 else e
                endTick := if st = .waitLow then ch.lowTick else ch.endTick }
    else ch
  | none => ch

/-- The state of a channel at coarse tick `t`. -/
def Chan.stAt (ch : Chan) (t : Nat) : ChanSt := ((ch.advance t).advance t).st

/-- Whether a channel is ARMED at coarse tick `t`. -/
def Chan.armedAt (ch : Chan) (t : Nat) : Bool := ch.stAt t == .armed

/-- Dead time of a channel in its present state counted up to coarse tick `t` (R108): per channel and kind, per region, per
chip, and in the frame in which the ticks fall (R110). -/
def Dev.countDead (d : Dev) (p : Port) (c t : Nat) : Dev :=
  let f := d.fe p
  let ch := f.chan c
  if ch.st = .armed ∨ t ≤ ch.deadFrom then d
  else
    let n := t - ch.deadFrom
    let r := regionOf c
    let f := f.setChan c { ch with deadFrom := t }
    if d.accrues p c then
      let start := f.frameStart ((t - 1) / 8)
      let f := f.updFrame start fun fr =>
        { fr with dead := fr.dead + n
                  rgDead := tblWrite (fun _ => 0) fr.rgDead r (tblRead (fun _ => 0) fr.rgDead r + n) }
      let d := d.setFe p f
      let d := d.fbump p (if ch.st = .blocked then Reg.FE_CH_DT_BLK else Reg.FE_CH_DT_BUSY) c n
      (d.fbump p Reg.FE_RG_DT r n).fbump p Reg.FE_CHIP_DT 0 n
    else d.setFe p f

/-- A change of a channel's state that is due by coarse tick `t`, with the dead time up to it. -/
def Dev.advanceChan (d : Dev) (p : Port) (c t : Nat) : Dev :=
  match ((d.fe p).chan c).leaves with
  | some (e, _) =>
    if e ≤ t then (d.countDead p c e).updFe p fun f => f.setChan c ((f.chan c).advance t) else d
  | none => d

/-- A channel brought to coarse tick `t`, its dead time counted up to there. -/
def Dev.settleDead (d : Dev) (p : Port) (c t : Nat) : Dev := ((d.advanceChan p c t).advanceChan p c t).countDead p c t

/-- Dead time of every channel of a list counted up to tick `t`. -/
def Dev.settleAll (d : Dev) (p : Port) (cs : List Nat) (t : Nat) : Dev :=
  forEach cs (fun c d => d.settleDead p c t) d

/-- The channels of a front end that hold something other than the idle state. -/
def FrontEnd.busyChans (f : FrontEnd) : List Nat := f.chans.map Prod.fst

/-- Whether a measured pair is valid (R94). -/
def pairValid (c1 c2 : Nat) : Bool :=
  let g : Int := (c2 : Int) - c1
  let c0 : Int := 2 * (c1 : Int) - c2
  decide (560 ≤ g ∧ g ≤ 1400 ∧ -512 ≤ c0 ∧ c0 ≤ 512)

/-- A pair measurement under R94: the pair is taken when valid, else the fault is counted and shown. -/
def Dev.takePair (d : Dev) (p : Port) (c c1 c2 : Nat) : Dev :=
  let f := d.fe p
  let ch := f.chan c
  if pairValid c1 c2 then
    let ch := { ch with pairC1 := c1, pairC2 := c2, pairValid := true, pairAt := d.now, lastInvalid := false }
    (d.setFe p (f.setChan c ch)).fset p Reg.FE_CH_PAIR c (2 ^ 31 + c2 % 4096 * 4096 + c1 % 4096)
  else
    let r := regionOf c
    let d := (d.setFe p (f.setChan c { ch with lastInvalid := true })).fbump p Reg.FE_CH_PAIR_FLT c
    d.fset p Reg.FE_RG_TSTAT r (setBit (d.fget p Reg.FE_RG_TSTAT r) 10 true)

/-- The state a channel takes at coarse tick `t` when it can capture again: WAIT_LOW with the discriminator high, also with 4
entries (log entry 118), else BLOCKED with 4 entries, else ARMED (R88). -/
def Dev.rearmTo (d : Dev) (p : Port) (c t : Nat) : Dev :=
  let d := d.settleDead p c t
  let f := d.fe p
  let ch := f.chan c
  let st := if ch.outHigh t then ChanSt.waitLow else ch.lowSt
  d.setFe p (f.setChan c
    { ch with st := st, toWait := false, deadFrom := if st = .armed then 0 else t, endTick := ch.lowTick })

/-- A BLOCKED channel one of whose entries has gone (R88). -/
def Dev.unblock (d : Dev) (p : Port) (c : Nat) : Dev :=
  let d := d.settleDead p c (8 * d.now)
  if ((d.fe p).chan c).st = .blocked then d.rearmTo p c (8 * d.now) else d

/-- The length in fine bins of the region's ToT LSB (R100). -/
def totLsb (code : Nat) : Nat := if code = 0 then 16 else if code = 1 then 128 else 1024

/-- A raw stamp as fine bins from slot 0 of the model's slot count (R92): `k` is the stop edge's coarse tick. -/
def convertStamp (k c c1 c2 : Nat) : Int :=
  let g : Int := (c2 : Int) - c1
  let c0 : Int := 2 * (c1 : Int) - c2
  let interval := limit 512 1024 (roundHalfUp (((c : Int) - c0) * 512) g)
  (k : Int) * 512 - interval

/-- Whether a raw code lies more than 16 codes outside the pair (R95). -/
def outsidePair (c c1 c2 : Nat) : Bool := decide (c + 16 < c1) || decide (c2 + 16 < c)

/-- The raw code whose stamp with stop tick `k` converts to fine bin `bin` under a pair (R92 read backwards). -/
def rawCode (k : Nat) (bin : Int) (c1 c2 : Nat) : Nat :=
  (2 * (c1 : Int) - c2 + roundHalfUp (((k : Int) * 512 - bin) * ((c2 : Int) - c1)) 512).toNat

/-- The pair in force on a channel: its last valid one, else the chip's nominal pair (R93, R95). -/
def Dev.pairOf (d : Dev) (p : Port) (c : Nat) : Nat × Nat :=
  let ch := (d.fe p).chan c
  if ch.pairValid then (ch.pairC1, ch.pairC2) else (Config.nominalC1 p.val, Config.nominalC2 p.val)

/-- The phase correction of region `r` for the cycle that began at slot `cycleAt`: the present one, that of the previous
cycle, or of an earlier one none (R104). -/
def FrontEnd.corrOf (f : FrontEnd) (r cycleAt : Nat) : Int :=
  if f.cycleStart ≤ cycleAt then (f.region r).corr
  else if f.prevStart ≤ cycleAt then (f.region r).prevCorr
  else 0

/-- The corrected leading edge of an entry, in fine bins (stages 1 and 4 of R99). -/
def FrontEnd.hitLead (f : FrontEnd) (c : Nat) (e : HitEntry) : Nat :=
  (convertStamp e.leadTick e.leadFine e.c1 e.c2 + f.corrOf (regionOf c) e.cycleAt).toNat

/-- The first slot of the frame an entry belongs to (R101). -/
def FrontEnd.hitPlace (f : FrontEnd) (c : Nat) (e : HitEntry) : Nat := f.placeOf (f.hitLead c e / 4096)

/-- The first slot of the frame a channel's pulse in progress belongs to, by its corrected leading edge (R101). -/
def FrontEnd.pulsePlace (f : FrontEnd) (c : Nat) (ch : Chan) : Nat :=
  let cyc := if (f.cycleStart : Int) * 4096 ≤ ch.edgeBin then f.cycleStart else f.prevStart
  f.placeOf ((ch.edgeBin + f.corrOf (regionOf c) cyc).toNat / 4096)

/-- The finished hit record of a completed entry (stages 1 to 6 of R99): its bits and its frame. -/
def Dev.hitOf (d : Dev) (p : Port) (c : Nat) (e : HitEntry) : QRec :=
  let f := d.fe p
  let r := regionOf c
  let lead := convertStamp e.leadTick e.leadFine e.c1 e.c2
  let trail := convertStamp e.trailTick e.trailFine e.c1 e.c2
  let tot := ((trail - lead) / (totLsb e.lsb : Nat)).toNat
  let sat := e.totSat || decide (2047 < tot)
  let start := f.hitPlace c e
  let rel := f.hitLead c e - start * 4096
  let time := rel / 4096 % 256 * 2 ^ 12 + rel / 512 % 8 * 2 ^ 9 + rel % 512
  let stale := e.stale || outsidePair e.leadFine e.c1 e.c2
    || (!e.totSat && outsidePair e.trailFine e.c1 e.c2)
  { bits := hitRecord c time (if sat then 2047 else tot) e.settling sat stale, hit := true, region := r
    frame := start, idx := f.frameIdx start, cyc := f.frameCyc start, key := e.leadTick / 8 }

/-! ### Queue space and the flood guard's queue-full count -/

/-- The region queue has space for a record: 30 usable entries (R119). -/
def Region.hasSpace (g : Region) : Bool := decide (g.queue.length < 30)

/-- Slots up to `now` in which the region queue was full. -/
def Region.fullSlots (g : Region) (now : Nat) : Nat :=
  g.fullAcc + match g.fullFrom with
    | some t => now - t
    | none => 0

/-- The region with its queue replaced, and the account of its full slots kept (R137, R143). -/
def Region.setQueue (g : Region) (now : Nat) (q : List QRec) : Region :=
  let was := !g.hasSpace
  let is := decide (30 ≤ q.length)
  if was && !is then { g with queue := q, fullAcc := g.fullSlots now, fullFrom := none }
  else if !was && is then { g with queue := q, fullFrom := some now }
  else { g with queue := q }

/-- Counted slots of a full channel queue (R143): slots since it last had a free entry in which the region queue had
space. -/
def Chan.fullCount (ch : Chan) (g : Region) (now : Nat) : Nat :=
  match ch.fullFrom with
  | none => 0
  | some t => (now - t) - (g.fullSlots now - ch.fullBase)

/-- The channel with its queue replaced, and the start of its full time kept. -/
def Chan.setQueue (ch : Chan) (g : Region) (now : Nat) (q : List HitEntry) : Chan :=
  if 4 ≤ q.length then
    match ch.fullFrom with
    | some _ => { ch with queue := q }
    | none => { ch with queue := q, fullFrom := some now, fullBase := g.fullSlots now }
  else { ch with queue := q, fullFrom := none, fullBase := 0 }

/-! ### The flood decision (R143) -/

/-- Whether a channel had a leading edge in the last `w` slots before slot `now`. -/
def Chan.edgeWithin (ch : Chan) (w now : Nat) : Bool :=
  let near := fun (t : Option Nat) => t.any fun t => decide (t < now) && decide (now ≤ t + w)
  near ch.lastEdge || near ch.edgeBefore

/-- Whether a region met the flood condition of R143 at the end of the previous slot. A full queue counts also when its
channel has been masked since (log entry 117). -/
def Dev.floodMet (d : Dev) (p : Port) (r : Nat) : Bool :=
  let f := d.fe p
  let g := f.region r
  let chs := (channelsOf r).filter fun c => !d.masked p c
  let hot := chs.filter fun c => (f.chan c).edgeWithin (d.ap p Reg.FLOOD_W) d.now
  decide (d.ap p Reg.FLOOD_N < hot.length)
    || (channelsOf r).any fun c => decide (d.ap p Reg.FLOOD_Q < (f.chan c).fullCount g d.now)

/-- Whether a region was to enter FLOOD at the start of the present slot (R143): as its state now shows, or as it showed before
something changed it in this slot. -/
def Dev.floodDue (d : Dev) (p : Port) (r : Nat) : Bool :=
  ((d.fe p).region r).floodDue == some d.now || (d.ap p Reg.FE_RG_FLOOD_EN r != 0 && d.floodMet p r)

/-- The decision for the present slot kept before something changes what it was taken from (R141, R143). -/
def Dev.noteFlood (d : Dev) (p : Port) (r : Nat) : Dev :=
  if d.floodDue p r then d.updFe p fun f => f.updRegion r fun g => { g with floodDue := some d.now } else d

/-! ### Queue resets and discards (R150) -/

/-- A record a reset discarded: the first slot of its frame, its frame index, whether it was a hit. -/
abbrev Lost := Nat × Nat × Bool

/-- The frames of what leaves the queues ahead of the lanes were held at the start of the slot (R138). -/
def FrontEnd.letGo (f : FrontEnd) (now : Nat) (frames : List Nat) : FrontEnd :=
  forEach frames.dedup (fun s f => f.updFrame s fun fr => { fr with heldAt := some now }) f

/-- The records of a queue reset (R150): one QUEUE_RESET record per frame whose hits were discarded, or one with
NONHIT when only other records were, naming the frame of the first of them; the losses and the reset itself counted. -/
def Dev.resetRecords (d : Dev) (p : Port) (queue index cause : Nat) (lost : List Lost) : Dev :=
  let here := (d.fe p).frameStart d.now
  let d := if queue = 3 then d else d.updFe p fun f => f.letGo d.now (lost.map Prod.fst)
  let hits := lost.filter fun x => x.2.2
  let nonHit := lost.any fun x => !x.2.2
  let deal := fun (x : Lost) (d : Dev) =>
    d.feRecord p (queueResetRecord queue index cause nonHit (hits.count x) x.2.1) 0 here
  let d := forEach hits.dedup deal d
  let d := match hits, lost with
    | [], x :: _ => d.feRecord p (queueResetRecord queue index cause true 0 x.2.1) 0 here
    | _, _ => d
  (d.fbump p Reg.FE_QRST_LOSS 0 hits.length).fbump p Reg.FE_QRST_CNT

/-- What a reset of a queue of records discards. -/
def lostOf (q : List QRec) : List Lost := q.map fun x => (x.frame, x.idx, x.hit)

/-- A channel queue reset (R150): its entries are lost, and the channel is ARMED, or WAIT_LOW with the discriminator
high, at the next slot boundary; the ticks until then are busy dead time and capture nothing. -/
def Dev.resetChannel (d : Dev) (p : Port) (c cause : Nat) : Dev :=
  let d := (d.noteFlood p (regionOf c)).settleDead p c (8 * d.now)
  let f := d.fe p
  let ch := f.chan c
  let lost := ch.queue.map fun e => let s := f.hitPlace c e; (s, f.frameIdx s, true)
  let ch := { ch.setQueue (f.region (regionOf c)) d.now [] with
              st := .refresh, toWait := true, deadFrom := 8 * d.now, endTick := 8 * (d.now + 1) }
  (d.setFe p (f.setChan c ch)).resetRecords p 0 (regionOf c) cause lost

/-- A region queue reset (R35, R150). -/
def Dev.resetRegion (d : Dev) (p : Port) (r cause : Nat) : Dev :=
  let d := d.noteFlood p r
  let g := (d.fe p).region r
  let d := d.setFe p ((d.fe p).setRegion r (g.setQueue d.now []))
  d.resetRecords p 1 r cause (lostOf g.queue)

/-- A column queue reset (R35, R150). -/
def Dev.resetColumn (d : Dev) (p : Port) (c : Fin 16) (cause : Nat) : Dev :=
  let f := d.fe p
  let q := f.columns[c.val]
  let d := d.setFe p { f with columns := f.columns.set c.val [] }
  d.resetRecords p 2 c.val cause (lostOf q)

/-- The records of a lane output queue. -/
def laneRecords (q : List LaneItem) : List QRec :=
  q.filterMap fun i => match i with
    | .entry r => some r
    | .marker _ => none

/-- The markers of a lane output queue. -/
def laneMarkers (q : List LaneItem) : List LaneItem :=
  q.filter fun i => match i with
    | .entry _ => false
    | .marker _ => true

/-- What a reset of a lane output queue discards, markers among it. -/
def lostItems (q : List LaneItem) : List Lost :=
  q.map fun i => match i with
    | .entry r => (r.frame, r.idx, r.hit)
    | .marker m => (m.frame, m.idx, false)

/-- A lane output queue reset (R35, R150): the markers the reset discarded are dealt again (R140). -/
def Dev.resetLane (d : Dev) (p : Port) (l : Lane) (cause : Nat) : Dev :=
  let f := d.fe p
  let lane := f.lanes[l.val]
  let lane' := { lane with queue := laneMarkers lane.queue, since := d.now, due := false }
  let d := d.setFe p { f with lanes := f.lanes.set l.val lane' }
  d.resetRecords p 3 l.val cause (lostItems lane.queue)

/-- The record queue reset (R120, R150). -/
def Dev.resetRecordQueue (d : Dev) (p : Port) : Dev :=
  let f := d.fe p
  (d.setFe p { f with records := [] }).resetRecords p 4 0 0 (lostOf f.records)

/-- The snapshot queue reset (R152, R167): whole samplers are discarded and counted, the reset too, and their next descriptors say
so, also those of samplers that are frozen again already. No QUEUE_RESET record can name this queue (log entry 178). -/
def Dev.resetSnapQueue (d : Dev) (p : Port) : Dev :=
  let f := d.fe p
  let mark := fun (i : SnapItem) (f : FrontEnd) =>
    let e := i.region * 4 + i.sampler
    let sm := f.sampler e
    f.setSampler e (match sm.info with
      | some x => { sm with info := some { x with lostBefore := true } }
      | none => { sm with lostBefore := true })
  let f' := forEach f.snapQueue mark { f with snapQueue := [] }
  ((d.setFe p f').fbump p Reg.FE_SNAP_QLOSS 0 f.snapQueue.length).fbump p Reg.FE_QRST_CNT

/-! ### Bias (R66 to R70) -/

/-- The settling time of R67, in slots. -/
def settleTime (from_ to_ : Nat) : Nat :=
  if from_ = to_ ∨ to_ = 0 then 0
  else if from_ = 0 then 2500
  else if from_ = 1 then if to_ = 2 then 16 else 25
  else if from_ = 2 then if to_ = 1 then 8 else 12
  else if to_ = 1 then 8 else 6

/-- A pulse in progress ended at slot `s` by a change to OFF (R70): its trailing edge is stamped at the slot, and the
channel can capture again at once (log entry 116). -/
def Dev.cutPulse (d : Dev) (p : Port) (c : Nat) : Dev :=
  let f := d.fe p
  let ch := f.chan c
  let done := fun (e : HitEntry) =>
    if e.complete then e else { e with trailTick := 8 * d.now + 2, trailFine := e.c2, complete := true }
  let ch' := { ch with queue := ch.queue.map done, high := false, crossings := 0, stretchTo := 0, captured := false }
  let f := if ch.st = .pulse then f.letGo d.now [f.pulsePlace c ch] else f
  let d := d.setFe p (f.setChan c ch')
  if ch.st = .pulse ∨ ch.st = .waitLow then d.rearmTo p c (8 * d.now) else d

/-- The fence's maximum level for a group, as the front end holds it (R366). -/
def FrontEnd.fenceOf (f : FrontEnd) (g : Nat) : Nat := f.fence.toList.getD g 3

/-- The highest level a region may take in the front end (R66): SENTINEL after a thermal trip (R367), OFF while
REGION_OFF is set, and the fence's maximum for its group. -/
def Dev.regionCap (d : Dev) (p : Port) (r level : Nat) : Nat :=
  if bit (d.rgWord p r) 29 then 0
  else
    let l := min level ((d.fe p).fenceOf (d.groupOf p r))
    if (d.fe p).tripped then min l 1 else l

/-- The dead interval of a sampler's last freeze in slots (R164), to its re-arm, rounded up: 0 before its first freeze (log entry
179). -/
def Sampler.deadSlots (sm : Sampler) : Nat :=
  if sm.owes then min (ceilDiv (sm.armedAt - sm.frozenAt) 40) 65535 else sm.lastDead

/-- The sampler with its dead interval known, once it has re-armed by sample period `t`. -/
def Sampler.settle (sm : Sampler) (t : Nat) : Sampler :=
  if sm.st = .armed ∧ sm.armedAt ≤ t then { sm with lastDead := sm.deadSlots, owes := false } else sm

/-- A region leaves OFF: its channels have measured no pair since (R95), its phase mean starts again (R103), and its armed
samplers begin to sample (R155). -/
def Dev.leaveOff (d : Dev) (p : Port) (r : Nat) : Dev :=
  let paired := (channelsOf r).filter fun c => ((d.fe p).chan c).pairValid
  let d := forEach paired (fun c d => d.fset p Reg.FE_CH_PAIR c (setBit (d.fget p Reg.FE_CH_PAIR c) 31 false)) d
  d.updFe p fun f =>
    let f := forEach paired (fun c f => f.setChan c { f.chan c with pairValid := false }) f
    let f := f.updRegion r fun g => { g with stamps := [], onFrom := d.now }
    forRange 4 (fun s f =>
      let sm := (f.sampler (r * 4 + s)).settle (40 * d.now)
      if sm.st = .armed then f.setSampler (r * 4 + s) { sm with armedAt := max sm.armedAt (40 * d.now) } else f) f

/-- A region takes bias level `l` at the current slot (R67 to R70). -/
def Dev.setLevel (d : Dev) (p : Port) (r l : Nat) : Dev :=
  let g := (d.fe p).region r
  if g.level = l then d
  else
    let d := d.settleAll p (channelsOf r) (8 * d.now)
    let d := if l = 0 then forEach (channelsOf r) (fun c d => d.cutPulse p c) d else d
    let g := (d.fe p).region r
    let until_ := max g.settleUntil (d.now + settleTime g.level l)
    let out := if l = 0 then none else if g.level = 0 then some until_ else g.outFrom.map fun _ => until_
    let from_ := if g.settling d.now then g.settleFrom else d.now
    let d := d.setFe p ((d.fe p).setRegion r
      { g with level := l, settleFrom := from_, settleUntil := until_, outFrom := out })
    if g.level = 0 then d.leaveOff p r else d

/-- The governor's command of a level for a region, capped (R66). -/
def Dev.commandLevel (d : Dev) (p : Port) (r level : Nat) : Dev :=
  let d := d.updFe p fun f => f.updRegion r fun g => { g with commanded := level }
  d.setLevel p r (d.regionCap p r level)

/-- The level of every region of a front end brought to its commanded level under the caps in force (R66). -/
def Dev.recap (d : Dev) (p : Port) : Dev :=
  forRange 256 (fun r d =>
    let c := ((d.fe p).region r).commanded
    let l := d.regionCap p r c
    if ((d.fe p).region r).level = 0 ∨ ((d.fe p).region r).level = l then d else d.setLevel p r l) d

/-! ### Snapshot triggers (R156, R159) -/

/-- The Region Snapshot Configuration in force (R174). -/
def Dev.snapWord (d : Dev) (p : Port) (r : Nat) : Nat := d.ap p Reg.FE_RG_SNAP r

/-- The input selected for sampler `s` by a snapshot word (R154, R174). -/
def snapSel (w s : Nat) : Nat := field w (5 * s + 4) (5 * s)

/-- The samplers of a region with PW_EN in force at sample period `inst` (R156): a change waits for the re-arm of a frozen
sampler (R173). -/
def Dev.pwSamplers (d : Dev) (p : Port) (r inst : Nat) : List Nat :=
  (List.range 4).filter fun s =>
    let sm := (d.fe p).sampler (r * 4 + s)
    let w := match sm.st with
      | .frozen | .converted => sm.word
      | .idle | .armed => if inst < sm.freeAt then sm.wordWas else d.snapWord p r
    bit w (25 + s)

/-- The samplers of a region that a trigger selects (R156). -/
def Dev.selects (d : Dev) (p : Port) (z : Freeze) (r : Nat) : List Nat :=
  let w := d.snapWord p r
  if !bit z.regions r then []
  else match z.source with
    | 1 => d.pwSamplers p r z.inst
    | 2 => bitsOf (field w 24 21) 4
    | _ => bitsOf z.samplers 4

/-- A sampler that misses `n` triggers (R159): counted in its region and in its next descriptor. -/
def Dev.missSampler (d : Dev) (p : Port) (r s n : Nat) : Dev :=
  if n = 0 then d
  else
    let miss := fun (sm : Sampler) => { sm with missed := min (sm.missed + n) 255 }
    (d.fbump p Reg.FE_RG_SNAP_MISS r n).updFe p fun f => f.setSampler (r * 4 + s) (miss (f.sampler (r * 4 + s)))

/-- A trigger that freezes nothing, missed by every sampler it selects (R159, R170, R172). -/
def Dev.missTrigger (d : Dev) (p : Port) (z : Freeze) : Dev :=
  forEach (bitsOf z.regions 256) (fun r d => forEach (d.selects p z r) (fun s d => d.missSampler p r s 1) d) d

/-! ### Flood records (R146 to R148) -/

/-- The region start record (R146). -/
def Dev.floodStart (d : Dev) (p : Port) (r time : Nat) : Dev :=
  let f := d.fe p
  let d := d.feRecord p (floodRecord r time 0 .regionStart) r (f.frameStart d.now)
  d.updFe p fun f => f.updRegion r fun g => { g with startDealt := true }

/-- The number of regions in FLOOD. -/
def FrontEnd.floodCount (f : FrontEnd) : Nat := (f.regions.filter fun e => e.2.flood).length

/-- The chip guard's account of more than FLOOD_CHIP_N regions in FLOOD brought up to date (R148): since which slot the
comparison has had its present outcome, and what it was before; a change undone within its slot is none. -/
def Dev.chipWatch (d : Dev) (p : Port) : Dev :=
  d.updFe p fun f =>
    let over_ := decide (d.ap p Reg.FLOOD_CHIP_N < f.floodCount)
    if over_ = f.chipOver then f
    else if f.chipSince = d.now ∧ f.chipWas.1 = over_ then { f with chipOver := over_, chipSince := f.chipWas.2 }
    else { f with chipOver := over_, chipSince := d.now, chipWas := (f.chipOver, f.chipSince) }

/-- The outcome of that comparison at the end of the previous slot, and since which slot it had it. -/
def FrontEnd.chipBefore (f : FrontEnd) (now : Nat) : Bool × Nat :=
  if f.chipSince < now then (f.chipOver, f.chipSince) else f.chipWas

/-- A region leaves FLOOD at the current slot (R145, R146): its end record, and WAIT_LOW for every channel whose
discriminator is high, but one in PULSE, whose entry is kept and completes (R144, log entry 121). -/
def Dev.floodLeave (d : Dev) (p : Port) (r : Nat) : Dev :=
  let g := (d.fe p).region r
  let d := if g.startDealt then d else
    d.floodStart p r ((d.fe p).timeIn (max g.floodFrom ((d.fe p).frameStart d.now)) 0)
  let f := d.fe p
  let d := d.feRecord p (floodRecord r (f.timeIn d.now 0) g.suppressed .regionEnd) r (f.frameStart d.now)
  let d := d.settleAll p (channelsOf r) (8 * d.now)
  let d := d.updFe p fun f =>
    let f := f.updRegion r fun g => { g with flood := false, startDealt := false, suppressed := 0 }
    forEach (channelsOf r) (fun c f =>
      let ch := f.chan c
      if ch.outHigh (8 * d.now) ∧ ch.st ≠ .pulse then
        f.setChan c { ch with st := .waitLow, toWait := false, deadFrom := max ch.deadFrom (8 * d.now), endTick := ch.lowTick }
      else f) f
  (d.fset p Reg.FE_RG_FLOOD r 0).chipWatch p

/-! ### Lanes -/

/-- Whether a logical lane is active for the frame whose first slot is given (R214). -/
def FeLane.activeFor (l : FeLane) (frame : Nat) : Bool :=
  match l.inactiveFrom with
  | none => true
  | some i => decide (frame < i) || (match l.activeFrom with | some a => decide (a ≤ frame) | none => false)

/-- Records in a lane output queue (markers apart). -/
def FeLane.fill (l : FeLane) : Nat := (laneRecords l.queue).length

/-- An item placed in a lane output queue. -/
def FeLane.place (l : FeLane) (now : Nat) (i : LaneItem) : FeLane :=
  { l with queue := l.queue ++ [i], since := if l.queue.isEmpty then now else l.since
           due := if l.queue.isEmpty then false else l.due }

/-- The hits of a frame a lane has placed in packets (R140). -/
def FeLane.hitsOf (l : FeLane) (frame : Nat) : Nat := tblRead (fun _ => 0) l.placed frame

/-! ### Front-end reset (R484) -/

/-- A front-end reset: OFF everywhere, every object and counter at its default, queues and replay buffers discarded
without records, sequence numbers and histories restarted (R484). What VDD supplies and the links do is left to the
caller. -/
def Dev.feReset (d : Dev) (p : Port) (power : FePower) : Dev :=
  let f := d.fe p
  let fresh : FrontEnd :=
    { power := power, supplyFrom := f.supplyFrom, cycleStart := d.now, prevStart := d.now, chipSince := d.now, chipWas := (false, d.now) }
  let d := { d with regs := dropPort d.regs p, applied := dropPort d.applied p }
  d.setFe p fresh

end Sys2Proof.Machine
end

