-- ==== Sys2Proof/Machine/Analogue.lean ====
section
/-! DEFINITION. The front-end analogue channel (chapter 3): thresholds and their floor, settling, injection requests,
and the applying of settings (R55 to R79). -/

namespace Sys2Proof.Machine

/-- The settings of a front end that are applied under R76. -/
def feSettings : List Nat :=
  [Reg.FE_CH_ANA, Reg.FE_RG_ANA, Reg.FE_THR_FLOOR_H, Reg.FE_THR_FLOOR_L, Reg.FE_RG_TIME, Reg.FE_RG_PHASE_OFS,
   Reg.FE_PAIR_AGE, Reg.FE_FRAME_CLOSE, Reg.FE_PKT_WAIT, Reg.FLOOD_N, Reg.FLOOD_W, Reg.FLOOD_Q, Reg.FLOOD_QUIET,
   Reg.FLOOD_CHIP_N, Reg.FE_RG_FLOOD_EN, Reg.FE_RG_SNAP, Reg.SNAP_PW_WIDTH, Reg.SNAP_PW_DELAY, Reg.SNAP_CAL_DELAY,
   Reg.SNAP_SHARE, Reg.FE_SNAP_CAL_N]

/-- The elements of a setting whose shadow copy differs from what is applied, with the new value. -/
def Dev.changed (d : Dev) (p : Port) (a : Nat) : List (Nat × Nat) :=
  let es := ((objEntries d.regs p.val a).map Prod.fst ++ (objEntries d.applied p.val a).map Prod.fst).dedup
  (es.filter fun e => d.fget p a e != d.ap p a e).map fun e => (e, d.fget p a e)

/-- The floor code of a gain range (R61): the larger of the silicon floor and the Threshold Floor object. -/
def Dev.floorCode (d : Dev) (p : Port) (low : Bool) : Nat :=
  if low then max 10 (d.ap p Reg.FE_THR_FLOOR_L) else max 20 (d.ap p Reg.FE_THR_FLOOR_H)

/-- The effective threshold code E of a channel (R60). -/
def Dev.effCode (d : Dev) (p : Port) (c : Nat) : Int :=
  (field (d.rgWord p (regionOf c)) 9 0 : Nat) + sgn 6 (field (d.ap p Reg.FE_CH_ANA c) 5 0)

/-- The code A applied to a channel's discriminator (R60). -/
def Dev.appliedCode (d : Dev) (p : Port) (c : Nat) : Int :=
  max (d.effCode p c) (d.floorCode p (bit (d.rgWord p (regionOf c)) 10) : Nat)

/-- Whether the floor raises a channel's code (R62). -/
def Dev.floored (d : Dev) (p : Port) (c : Nat) : Bool := d.appliedCode p c != d.effCode p c

/-- The floored channels of a region; none when the region's code clears the floor with any trim. -/
def Dev.flooredIn (d : Dev) (p : Port) (r : Nat) : List Nat :=
  let w := d.rgWord p r
  if d.floorCode p (bit w 10) + 32 ≤ field w 9 0 then []
  else (channelsOf r).filter fun c => d.floored p c

/-- THR_FLOORED of every channel, Floored Channels, the fence's account of the floor, and the report that goes with the next
configuration response, one entry per region with a floored channel, after an apply (R62, R365). -/
def Dev.applyFloor (d : Dev) (p : Port) : Dev :=
  let was := ((objEntries d.regs p.val Reg.FE_CH_STAT).filter fun ev => bit ev.2 1).map Prod.fst
  let clear := fun (c : Nat) (d : Dev) =>
    if d.floored p c then d else d.fset p Reg.FE_CH_STAT c (setBit (d.fget p Reg.FE_CH_STAT c) 1 false)
  let d := forEach was clear d
  let per := ((List.range 256).map fun r => (r, d.flooredIn p r)).filter fun x => !x.2.isEmpty
  let one := fun (x : Nat × List Nat) (d : Dev) =>
    let d := forEach x.2 (fun c d => d.fset p Reg.FE_CH_STAT c (setBit (d.fget p Reg.FE_CH_STAT c) 1 true)) d
    d.updFe p fun f => { f with fenceActed := true, floorReport := f.floorReport ++ [(x.1, x.2.length)] }
  let d := forEach per one d
  d.fset p Reg.FE_THR_FLOORED_CNT 0 (sumBy (fun x => x.2.length) per)

/-- A changed channel word (R77, R78): a trim change settles for 4 slots, a mask change is marked in the stream. -/
def Dev.applyChannel (d : Dev) (p : Port) (ev : Nat × Nat) : Dev :=
  let old := d.ap p Reg.FE_CH_ANA ev.1
  let d := d.settleDead p ev.1 (8 * d.now)
  let d := if field old 5 0 = field ev.2 5 0 then d else
    d.updFe p fun f => f.setChan ev.1 { f.chan ev.1 with settleUntil := d.now + 4 }
  if bit old 7 = bit ev.2 7 then d
  else d.feStatusRecord p (if bit ev.2 7 then .maskSet else .maskClear) (regionOf ev.1) (chanInRegion ev.1) 0

/-- A changed region word, once it is the one applied (R66, R77, R78). -/
def Dev.applyRegion (d : Dev) (p : Port) (old : Nat) (r new : Nat) : Dev :=
  let d := if field old 9 0 = field new 9 0 then d else
    d.updFe p fun f => forEach (channelsOf r) (fun c f => f.setChan c { f.chan c with settleUntil := d.now + 4 }) f
  let d := if bit old 29 = bit new 29 then d else
    d.feStatusRecord p (if bit new 29 then .regionOffSet else .regionOffClear) r 0 0
  let c := ((d.fe p).region r).commanded
  d.setLevel p r (d.regionCap p r c)

/-- A changed snapshot word (R173): a sampler enabled starts to sample, at the earliest when its last transfer has ended
(R162); one disabled while armed stops; the input and RAW of an armed sampler change at once, of a frozen one at its
re-arm. -/
def Dev.applySnap (d : Dev) (p : Port) (r new : Nat) : Dev :=
  d.updFe p fun f => forRange 4 (fun s f =>
    let e := r * 4 + s
    let sm := (f.sampler e).settle (40 * d.now)
    let en := bit new (21 + s)
    match sm.st with
    | .idle => if en then f.setSampler e { sm with st := .armed, armedAt := max sm.freeAt (40 * d.now), word := new } else f
    | .armed => if en then f.setSampler e { sm with word := new } else f.setSampler e { sm with st := .idle, word := new }
    | .frozen | .converted => f) f

/-- Every received setting applied at the current slot (R76). -/
def Dev.feApply (d : Dev) (p : Port) : Dev :=
  let chs := d.changed p Reg.FE_CH_ANA
  let rgs := d.changed p Reg.FE_RG_ANA
  let old := fun r => d.ap p Reg.FE_RG_ANA r
  let snaps := d.changed p Reg.FE_RG_SNAP
  let floods := (d.changed p Reg.FE_RG_FLOOD_EN).filter fun ev => ev.2 == 0
  let d := forEach ((d.fe p).regions.map Prod.fst) (fun r d => d.noteFlood p r) d
  let d := forEach chs (fun ev d => d.applyChannel p ev) d
  let copy := fun (a : Nat) (d : Dev) => forEach (d.changed p a) (fun ev d => d.setAp p a ev.1 ev.2) d
  let d := forEach feSettings copy d
  let d := forEach rgs (fun ev d => d.applyRegion p (old ev.1) ev.1 ev.2) d
  let d := forEach snaps (fun ev d => d.applySnap p ev.1 ev.2) d
  let d := forEach floods (fun ev d => if ((d.fe p).region ev.1).flood then d.floodLeave p ev.1 else d) d
  -- outputs blocked by a configuration fault are released, and settle for 4 slots (R151)
  let faults := ((d.fe p).regions.filter fun e => e.2.cfgFault && e.2.cfgRewritten).map Prod.fst
  let restore := fun (r : Nat) (d : Dev) =>
    let d := d.settleAll p (channelsOf r) (8 * d.now)
    let d := d.updFe p fun f => f.updRegion r fun g => { g with cfgFault := false, cfgRewritten := false, cfgUntil := d.now + 4 }
    d.feStatusRecord p .configRestored r 0 0
  let d := forEach faults restore d
  let d := (d.applyFloor p).chipWatch p
  d.updFe p fun f => { f with applyAt := none, applyAtCycle := false }

/-- CONFIG_APPLY (R76): the received settings take effect at the slot after their receipt in CONFIGURE and CALIBRATE,
and at slot 0 of the first cycle after it in the acquiring modes. -/
def execConfigApply (p : Port) (s : State) : Result :=
  s.on fun d =>
    let f := d.fe p
    match f.applyAt with
    | none => d
    | some t =>
      let due := if f.applyAtCycle then decide (t < f.cycleStart) else decide (t ≤ d.now)
      if f.runs && due then d.feApply p else d

/-- LEAKAGE_SATURATION (R55): with LEAK_COMP set the channel sets LEAK_SAT; the ledger has one entry at the first
setting after each clear. -/
def execLeakageSaturation (p : Port) (c : ChanNo) (s : State) : Result :=
  s.on fun d =>
    let w := d.fget p Reg.FE_CH_STAT c.val
    if (d.fe p).runs && bit (d.ap p Reg.FE_CH_ANA c.val) 8 then
      let d := d.fset p Reg.FE_CH_STAT c.val (setBit w 0 true)
      if bit w 0 then d else d.log p.val 0x0501 c.val
    else d

/-- SETTLING_END (R67, R70): the settling time has passed; outputs blocked out of OFF are released. SETTLING itself
reads 0 from that slot on. -/
def execSettlingEnd (p : Port) (r : RegionNo) (s : State) : Result :=
  s.on fun d =>
    let g := (d.fe p).region r.val
    if g.settleUntil ≤ d.now then
      let d := d.settleAll p (channelsOf r.val) (8 * d.now)
      d.updFe p fun f => f.updRegion r.val fun g => { g with outFrom := none }
    else d

/-- INJECT_REQUEST (R73): accepted only in CALIBRATE; the slot must lie in the cycle and the count be at least 1. It
replaces the port's outstanding injections; the first is for the first cycle in which the slot lies at least CAL_LEAD
slots after the write. -/
def execInjectRequest (w : Writer) (p : Port) (val : Bytes) (s : State) : Result :=
  s.on fun d =>
    let st := d.get Reg.WP_STATE p.val
    if st ≠ 2 ∧ st ≠ 3 then d.answer w .portDown
    else d.write w Reg.FE_INJECT 0 val fun d v =>
      let slot := field v 19 0
      let count := field v 31 20
      if d.mode ≠ .calibrate then refuse .wrongMode d
      else if count = 0 ∨ d.cycleLen ≤ slot then refuse .range d
      else
        let lead := d.get Reg.CAL_LEAD
        let first := if d.now + lead ≤ d.grid.cycleStart + slot then 0
          else d.boundaryAfter (d.now + lead - slot)
        (.accepted, d.updPort p fun c =>
          { c with injectSlot := slot, injectLeft := count, injectNext := d.cyclePlus first
                   cmds := c.cmds.filter fun k => !(k.op == .inject && k.copies == 0) })

end Sys2Proof.Machine
end

