-- ==== Sys2Proof/Machine/HitTiming.lean ====
section
/-! DEFINITION. Hit timing (chapter 4): edges and the channel states (R85 to R89), the calibration pair (R93 to R97),
the region phase and the neighbour check at a front-end cycle boundary (R103 to R107), dead time per frame (R110), and
the front end's frames and counter clears. -/

namespace Sys2Proof.Machine

/-- Whether an applied pair makes a hit stale at its leading edge (R95): too old, never measured since the region left
OFF, the region out of its envelope, or the gap of a lost downlink (R216). -/
def Dev.pairStale (d : Dev) (p : Port) (c : Nat) : Bool :=
  let ch := (d.fe p).chan c
  !ch.pairValid || decide (d.ap p Reg.FE_PAIR_AGE < d.now - ch.pairAt)
    || bit (d.fget p Reg.FE_RG_TSTAT (regionOf c)) 12 || (d.fe p).dlLostAt.isSome

/-- A captured edge asks for a wake of its group at rest, or for a renewal of a raised one (R361, R362). Resting Level and Wake
Enable are the values the front end was last told (log entry 176). -/
def Dev.wakeOnHit (d : Dev) (p : Port) (r : Nat) : Dev :=
  let f := d.fe p
  let gr := d.groupOf p r
  let e := p.val * 16 + gr
  let busy := tblRead (fun _ => 0) f.wakeSetAt gr
  let last := tblRead (fun _ => 0) f.renewAt gr
  let rest := d.toldOf p Reg.GV_REST e
  let raising := f.cmds.any fun c => match c.op with
    | .bias g l => g.toNat.testBit gr && decide (rest < l.val)
    | .cal _ | .mode _ | .cycleEnd | .inject | .tickPhase _ => false
  if (f.region r).level ≤ rest then
    if (f.mode == .stream || f.mode == .gated) && d.toldOf p Reg.GV_WAKE_EN e != 0 && busy == 0 && !raising then
      d.setFe p { f with wakePending := f.wakePending ||| 2 ^ gr, wakeSetAt := tblPut f.wakeSetAt gr (d.now + 1)
                         renewAt := tblPut f.renewAt gr (d.now + 1) }
    else d
  else if last = 0 ∨ last + 256 ≤ d.now + 1 then
    d.setFe p { f with wakePending := f.wakePending ||| 2 ^ gr, renewAt := tblPut f.renewAt gr (d.now + 1) }
  else d

/-- The least width of a discriminator pulse, 500 ps, in fine bins (R85, R7). -/
def Dev.minWidth (d : Dev) : Nat := ceilDiv (2048 * d.get Reg.TB_FNOM) 1000000

/-- A leading edge captured by an ARMED channel (R86): the entry latches the raw stamp, the pair in force, SETTLING
and the ToT LSB. `tick` is the edge's coarse tick. -/
def Dev.capture (d : Dev) (p : Port) (c tick fine : Nat) : Dev :=
  let f := d.fe p
  let r := regionOf c
  let g := f.region r
  let ch := f.chan c
  let stale := d.pairStale p c
  let (c1, c2) := d.pairOf p c
  let e : HitEntry :=
    { leadTick := tick + 2, leadFine := fine, trailTick := 0, trailFine := 0, complete := false, totSat := false
      c1 := c1, c2 := c2, stale := stale
      settling := g.settling d.now || decide (d.now < ch.settleUntil) || decide (d.now < g.cfgUntil)
      lsb := field (d.ap p Reg.FE_RG_TIME r) 1 0, cycleAt := f.cycleStart }
  let ch := { ch.setQueue g d.now (ch.queue ++ [e]) with st := .pulse, deadFrom := tick, edgeTick := tick, captured := true }
  (d.setFe p (f.setChan c ch)).wakeOnHit p r

/-- A suppressed edge of a flooded region (R144, R146): counted, and the first one dealt as the start record. -/
def Dev.suppress (d : Dev) (p : Port) (r tick : Nat) : Dev :=
  let d := if ((d.fe p).region r).startDealt then d else
    d.floodStart p r ((d.fe p).timeIn (tick / 8) (tick % 8))
  let d := d.fbump p Reg.FE_RG_SUPPR r
  d.updFe p fun f =>
    let f := f.updRegion r fun g => { g with suppressed := g.suppressed + 1 }
    if f.chipFlood then { f with chipSuppr := f.chipSuppr + 1 } else f

/-- A channel whose output goes high again within the stretch of its last crossing (R85): a captured pulse that had ended goes
on, with its entry incomplete as before. -/
def Chan.rejoin (ch : Chan) : Chan :=
  let reopen := fun (e : HitEntry) => if e.leadTick = ch.edgeTick + 2 ∧ !e.totSat then { e with complete := false } else e
  let ch := { ch with high := true, crossings := 1 }
  if ch.st = .rearm ∧ ch.captured then { ch with st := .pulse, queue := ch.queue.map reopen } else ch

/-- LEADING_EDGE (R85 to R88, R144): a threshold crossing behind the mask begins at the given coarse tick of the current
slot. It merges into a pulse in progress, its stretch to 500 ps included, and brings a stretch of its own; else it is suppressed
in FLOOD, is captured by an ARMED channel, and is lost in every other state. -/
def execLeadingEdge (p : Port) (c : ChanNo) (coarse : Fin 8) (fine : BitVec 12) (s : State) : Result :=
  s.on fun d =>
    let f := d.fe p
    let r := regionOf c.val
    let tick := 8 * d.now + coarse.val
    let pair := d.pairOf p c.val
    let bin := convertStamp (tick + 2) fine.toNat pair.1 pair.2
    if !f.runs || d.masked p c.val || !(f.region r).senses then d
    else
      let d := d.settleDead p c.val tick
      let f := d.fe p
      let ch := f.chan c.val
      let longer := { ch with stretchTo := max ch.stretchTo (bin + d.minWidth) }
      if ch.high then d.setFe p (f.setChan c.val { longer with crossings := ch.crossings + 1 })
      else if bin < ch.stretchTo then d.setFe p (f.setChan c.val longer.rejoin)
      else
        let before := match ch.lastEdge with
          | some t => if t < d.now then some t else ch.edgeBefore
          | none => none
        let d := d.updFe p fun f =>
          let f := f.updRegion r fun g => { g with rate := g.rate + 1, lastEdge := d.now }
          f.setChan c.val
            { longer with high := true, crossings := 1, lastEdge := some d.now, edgeBefore := before, edgeTick := tick
                          edgeBin := bin, captured := false, pwDone := (f.region r).flood }
        let ch := (d.fe p).chan c.val
        if ((d.fe p).region r).flood then d.suppress p r tick
        else if ch.st == .armed && decide (ch.queue.length < 4) then d.capture p c.val tick fine.toNat
        else d

/-- The incomplete entry of a channel completed with a trailing stamp, or with TOT_SAT and none (R86, R87). -/
def completeEntry (trail : Option (Nat × Nat)) (e : HitEntry) : HitEntry :=
  if e.complete then e
  else match trail with
    | some t => { e with trailTick := t.1, trailFine := t.2, complete := true }
    | none => { e with totSat := true, complete := true }

/-- The stamp of a pulse's trailing edge for a crossing that ends at tick `tick` with raw code `fine` (R85, R90): the stop
tick and the code, those of the end of the stretch when the crossing is shorter than 500 ps. -/
def Dev.trailStamp (d : Dev) (p : Port) (c tick fine : Nat) : Nat × Nat :=
  let ch := (d.fe p).chan c
  let pair := d.pairOf p c
  if convertStamp (tick + 2) fine pair.1 pair.2 < ch.stretchTo then
    let k := max tick (ch.stretchTo.toNat / 512) + 2
    (k, rawCode k ch.stretchTo pair.1 pair.2)
  else (tick + 2, fine)

/-- TRAILING_EDGE (R85 to R89): a threshold crossing ends; the pulse lasts while another goes on, and at least 500 ps. Its
end completes the entry of a channel in PULSE unless R87 already has, and starts the re-arm sequence; a channel in WAIT_LOW
leaves it at the next coarse tick. -/
def execTrailingEdge (p : Port) (c : ChanNo) (coarse : Fin 8) (fine : BitVec 12) (s : State) : Result :=
  s.on fun d =>
    if !(d.fe p).runs || !((d.fe p).chan c.val).high then d
    else
      let at_ := 8 * d.now + coarse.val
      let stamp := d.trailStamp p c.val at_ fine.toNat
      let tick := stamp.1 - 2
      let d := d.settleDead p c.val at_
      let f := d.fe p
      let ch := f.chan c.val
      let low := { ch with high := false, crossings := 0 }
      if 1 < ch.crossings then d.setFe p (f.setChan c.val { ch with crossings := ch.crossings - 1 })
      else match ch.st with
        | .pulse =>
          let q := ch.queue.map (completeEntry (some stamp))
          let f := f.letGo d.now [f.pulsePlace c.val ch]
          d.setFe p (f.setChan c.val { low with queue := q, st := .rearm, endTick := tick + 6 })
        | .waitLow => d.setFe p (f.setChan c.val { low with endTick := tick + 1 })
        | .armed | .rearm | .blocked | .refresh => d.setFe p (f.setChan c.val low)

/-- TOT_SATURATION (R87): a pulse still high at 2,047 ToT LSB completes its entry with TOT_SAT; the channel stays in
PULSE. -/
def execTotSaturation (p : Port) (c : ChanNo) (s : State) : Result :=
  s.on fun d =>
    let f := d.fe p
    let ch := f.chan c.val
    let long := fun (e : HitEntry) => decide (2047 * totLsb e.lsb ≤ (8 * (d.now + 1) - ch.edgeTick) * 512)
    if ch.st = .pulse ∧ ch.queue.any (fun e => !e.complete && long e) then
      d.setFe p (f.setChan c.val { ch with queue := ch.queue.map (completeEntry none) })
    else d

/-- REARM_COMPLETE (R89, R94): the re-arm sequence ends at its tick with the pair measured; the channel goes to ARMED,
WAIT_LOW or BLOCKED. -/
def execRearmComplete (p : Port) (c : ChanNo) (c1 c2 : BitVec 12) (s : State) : Result :=
  s.on fun d =>
    let ch := (d.fe p).chan c.val
    if ch.st = .rearm ∧ ch.endTick ≤ 8 * d.now + 7 then
      let d := d.takePair p c.val c1.toNat c2.toNat
      let d := d.rearmTo p c.val ch.endTick
      d.updFe p fun f => f.setChan c.val { f.chan c.val with rearmed := true }
    else d

/-! ### Frames of the front end -/

/-- The chip's dead time of an ended frame (R110): units of 2 coarse ticks with the odd tick carried; above 0xFFFF
units the marker saturates, nothing is carried, and every region with dead time deals a DEAD_TIME record. -/
def Dev.closeDead (d : Dev) (p : Port) (fr : FeFrame) : Dev :=
  let f := d.fe p
  let total := fr.dead + f.deadCarry
  let sat := decide (0xFFFF < total / 2)
  let f := f.updFrame fr.start fun fr => { fr with deadUnits := if sat then 0xFFFF else total / 2, dtSat := sat }
  let d := d.setFe p { f with deadCarry := if sat then 0 else total % 2 }
  if sat then
    forEach fr.rgDead (fun rn d => d.feRecord p (lossRecord .deadTime rn.1 rn.2) rn.1 fr.start) d
  else d

/-- The end of a frame (R110, R147): dead time counted up to it, flood episodes split with an end record, the frame
marked ended. An episode without a suppressed edge so far has its start record dealt first, at its entry slot (log entry 180). -/
def Dev.feFrameEnd (d : Dev) (p : Port) (fr : FeFrame) : Dev :=
  let d := d.settleAll p (d.fe p).busyChans (8 * fr.stop)
  let floods := ((d.fe p).regions.filter fun e => e.2.flood).map Prod.fst
  let split := fun (r : Nat) (d : Dev) =>
    let g := (d.fe p).region r
    let d := if g.startDealt then d else
      d.feRecord p (floodRecord r (timeField (max g.floodFrom fr.start - fr.start) 0) 0 .regionStart) r fr.start
    let d := d.feRecord p (floodRecord r 0xFFFFF g.suppressed .regionEnd) r fr.start
    d.updFe p fun f => f.updRegion r fun g => { g with suppressed := 0, startDealt := true }
  let d := forEach floods split d
  let f := d.fe p
  let d := if f.chipFlood then
      (d.feRecord p (floodRecord f.floodCount 0xFFFFF f.chipSuppr .chipEnd) 0 fr.start).updFe p fun f =>
        { f with chipSuppr := 0 }
    else d
  let openFlood := !floods.isEmpty || f.chipFlood
  let d := d.updFe p fun f => f.updFrame fr.start fun fr => { fr with ended := true, floodOpen := openFlood }
  match (d.fe p).frameAt fr.start with
  | some fr => d.closeDead p fr
  | none => d

/-- The mode of a frame that begins at slot `start`: that of a MODE command due there, else the mode in force (R31, R541). -/
def FrontEnd.modeFrom (f : FrontEnd) (start : Nat) : Mode :=
  let due := f.cmds.filterMap fun c => match c.op with
    | .mode m => if c.cyc = f.cycLo ∧ f.cycleStart + c.slot = start then modeOf m.val else none
    | .cal _ | .bias _ _ | .cycleEnd | .inject | .tickPhase _ => none
  due.getLast?.getD f.mode

/-- The next frame begins at slot `start` (R22): its records of floods that go on have TIME 0 (R147). -/
def Dev.feFrameOpen (d : Dev) (p : Port) (start idx : Nat) : Dev :=
  let f := d.fe p
  let mode := f.modeFrom start
  let stop := min (start + 256) f.cycleStop
  let fr : FeFrame :=
    { start := start, stop := stop, idx := idx, cyc := f.cycLo, short := decide (stop < start + 256)
      marks := sendsMarkers mode, hits := producesHits mode }
  let d := d.setFe p { f with frames := f.frames ++ [fr] }
  let floods := (f.regions.filter fun e => e.2.flood).map Prod.fst
  let d := forEach floods (fun r d => d.feRecord p (floodRecord r 0 0 .regionStart) r start) d
  if f.chipFlood then d.feRecord p (floodRecord f.floodCount 0 0 .chipStart) 0 start else d

/-- FE_FRAME_BOUNDARY (R147, R110): the frame in progress ends and, inside a cycle, the next begins. -/
def execFeFrameBoundary (p : Port) (s : State) : Result :=
  s.on fun d =>
    let f := d.fe p
    match f.frames.getLast? with
    | none => d
    | some fr =>
      if f.runs && !fr.ended && decide (fr.stop ≤ d.now) then
        let d := d.feFrameEnd p fr
        if fr.stop < f.cycleStop then d.feFrameOpen p fr.stop (fr.idx + 1) else d
      else d

/-! ### The front-end cycle boundary -/

/-- The regions that share an edge with region `r` in the 16 × 16 grid (R106). -/
def neighbours (r : Nat) : List Nat :=
  (if r % 16 = 0 then [] else [r - 1]) ++ (if r % 16 = 15 then [] else [r + 1])
    ++ (if r < 16 then [] else [r - 16]) ++ (if 240 ≤ r then [] else [r + 16])

/-- Whether a phase difference in fine bins exceeds `ps` picoseconds at a reference of `fnom` kHz (R106, R7). -/
def phaseExceeds (fnom ps : Nat) (diff : Int) : Bool := decide (ps * 4096 * fnom < diff.natAbs * 10 ^ 9)

/-- The CAUSE bits (R132) of region `r` against its neighbours under the given limits (R106). -/
def Dev.envelopeCauses (d : Dev) (p : Port) (r ps mv eighths : Nat) : Nat :=
  let f := d.fe p
  let fnom := d.get Reg.TB_FNOM
  let temp := fun r => sgn 16 (d.fget p Reg.FE_RG_TEMP r)
  let far := fun (g : Nat → Nat) (n : Nat) => decide (mv < ((g r : Int) - g n).natAbs)
  let any := fun (t : Nat → Bool) => (neighbours r).any t
  flag 5 (any fun n => phaseExceeds fnom ps ((f.region r).phase - (f.region n).phase))
    + flag 4 (any (far (d.fget p Reg.FE_RG_VDDA)))
    + flag 3 (any (far (d.fget p Reg.FE_RG_VDDT)))
    + flag 2 (any fun n => decide (eighths < (temp r - temp n).natAbs))
    + flag 1 (decide (256 < (f.region r).phase.natAbs))

/-- The phase one stamp of the spine strobe shows, in fine bins: the strobe marks the slot's start, so a late region clock
stamps it early (R92, R103). -/
def TdcStamp.phase (s : TdcStamp) : Int := -convertStamp s.tick.val s.code.toNat s.c1.toNat s.c2.toNat

/-- The mean of a region's stamps as its measured phase, rounded to whole fine bins; without any the phase stays (R103, log
entry 119). -/
def Region.meanPhase (g : Region) : Int :=
  if g.stamps.isEmpty then g.phase else roundHalfUp (g.stamps.foldl (· + ·) 0) g.stamps.length

/-- The latch of a cycle boundary (R103, R105): the measured phase, and the correction, the phase plus Region Phase Offset,
limited; neither changes while PHASE_HOLD freezes them. The correction of the cycle just ended is kept for R104. -/
def Dev.latchPhase (d : Dev) (p : Port) (r : Nat) : Dev :=
  let g := (d.fe p).region r
  if bit (d.ap p Reg.FE_RG_TIME r) 2 then d.updFe p fun f => f.updRegion r fun g => { g with prevCorr := g.corr }
  else
    let phase := g.meanPhase
    let corr := limit (-512) 511 (phase + sgn 16 (d.ap p Reg.FE_RG_PHASE_OFS r))
    let d := d.updFe p fun f => f.updRegion r fun g => { g with phase := phase, prevCorr := g.corr, corr := corr }
    let w := d.fget p Reg.FE_RG_TSTAT r
    d.fset p Reg.FE_RG_TSTAT r (setBit (setField w 9 0 (unsgn 10 corr)) 11 (decide (256 < phase.natAbs)))

/-- The regions the neighbour check of R106 can change: those with a monitor value or a timing status of their own, and
their neighbours; every other has all differences 0. -/
def Dev.envelopeRegions (d : Dev) (p : Port) : List Nat :=
  let at_ := fun (a : Nat) => (objEntries d.regs p.val a).map Prod.fst
  let own := (((d.fe p).regions.map Prod.fst) ++ at_ Reg.FE_RG_TEMP ++ at_ Reg.FE_RG_VDDA ++ at_ Reg.FE_RG_VDDT
    ++ at_ Reg.FE_RG_TSTAT).dedup
  if own.isEmpty then [] else (List.range 256).filter fun r => own.contains r || (neighbours r).any own.contains

/-- The neighbour check of a region (R106, R107): entry and exit are marked in the stream and in the ledger. -/
def Dev.checkEnvelope (d : Dev) (p : Port) (r : Nat) : Dev :=
  let w := d.fget p Reg.FE_RG_TSTAT r
  let causes := d.envelopeCauses p r 120 30 80
  let stay := d.envelopeCauses p r 100 25 64
  if !bit w 12 && causes != 0 then
    let d := d.fset p Reg.FE_RG_TSTAT r (setBit w 12 true)
    (d.feStatusRecord p .envelopeEnter r 0 causes).log p.val 0x0503 r causes 0
  else if bit w 12 && stay == 0 then
    let d := d.fset p Reg.FE_RG_TSTAT r (setBit w 12 false)
    (d.feStatusRecord p .envelopeExit r 0 0).log p.val 0x0503 r 0 1
  else d

/-- The measurements of the cycle just ended (R103, R106): of the phase stamps the last 1,024 are kept, or all since the region
left OFF, one a slot. -/
def Dev.takeMeas (d : Dev) (p : Port) (m : RegionMeas) : Dev :=
  let r := m.region.val
  let d := d.updFe p fun f => f.updRegion r fun g =>
    { g with stamps := (m.stamps.map TdcStamp.phase ++ g.stamps).take (min 1024 (d.now - g.onFrom)) }
  let d := d.fset p Reg.FE_RG_TEMP r (unsgn 16 m.temp)
  (d.fset p Reg.FE_RG_VDDA r m.vdda).fset p Reg.FE_RG_VDDT r m.vddt

/-- FE_CYCLE_BOUNDARY (R24, R28, R103 to R107, R200): the front end's cycle ends at its length or at a cycle-end
command; the monitors' values are latched, corrections and neighbour checks of all regions follow, settings held for the
boundary are applied after them, so that a new Region Phase Offset enters at the next boundary (log entry 120), and a
calendar mirror that names this cycle takes effect. -/
def execFeCycleBoundary (p : Port) (meas : List RegionMeas) (s : State) : Result :=
  s.on fun d =>
    let f := d.fe p
    let stop := f.cycleStop
    if !f.runs || !f.gridSet || decide (d.now < stop) then d
    else
      let d := match f.frames.getLast? with
        | some fr => if fr.ended then d else d.feFrameEnd p fr
        | none => d
      let cyc := (f.cycLo + 1) % 256
      let d := d.updFe p fun f =>
        { f with cycLo := cyc, prevStart := f.cycleStart, cycleStart := stop, endAt := none
                 cycleLen := d.fget p Reg.FE_CYCLE_LEN }
      let d := d.feFrameOpen p stop 0
      let d := forEach meas (fun m d => d.takeMeas p m) d
      let d := forRange 256 (fun r d => d.latchPhase p r) d
      let d := forEach (d.envelopeRegions p) (fun r d => d.checkEnvelope p r) d
      let d : Dev := d.fset p Reg.FE_ENV_CNT 0
        (((objEntries d.regs p.val Reg.FE_RG_TSTAT).filter fun ev => bit ev.2 12).length)
      let f := d.fe p
      let d := if f.mirrorNextCyc = some cyc then
          (d.setFe p { f with mirror := f.mirrorNext, mirrorNextCyc := none }).fset p Reg.FE_MIRROR_CYC 0 cyc
        else d
      if f.applyAt.isSome && f.applyAtCycle then d.feApply p else d

/-! ### Counter clears -/

/-- The counters of the timing table (R118). -/
def timingCounters : List Nat :=
  [Reg.FE_CH_DT_BUSY, Reg.FE_CH_DT_BLK, Reg.FE_CH_PAIR_FLT, Reg.FE_RG_DT, Reg.FE_CHIP_DT]

/-- The counters of 0x4142 (R152). -/
def readoutCounters : List Nat :=
  [Reg.FE_RG_FLOOD_CNT, Reg.FE_RG_SUPPR, Reg.FE_RG_CLOSE_LOSS, Reg.FE_CHIP_FLOOD_CNT, Reg.FE_QRST_LOSS,
   Reg.FE_QRST_CNT, Reg.FE_REC_OVF, Reg.FE_CLOSE_DL, Reg.FE_RG_CFG_FLT, Reg.FE_RG_CFG_COR]

/-- Every element of an object of a port back at 0. -/
def Dev.clearObj (d : Dev) (p : Port) (a : Nat) : Dev :=
  { d with regs := d.regs.filter fun e => e.1 / 2 ^ 16 != p.val * 2 ^ 24 + a }

/-- FE_COUNTER_CLEAR_APPLY (R118, R152): a clear that was written takes effect at the next cycle start. -/
def execFeCounterClearApply (p : Port) (s : State) : Result :=
  s.on fun d =>
    let f := d.fe p
    let due := fun (t : Option Nat) => match t with
      | some t => f.runs && decide (t < f.cycleStart)
      | none => false
    let d := if due f.clearTiming then
        (forEach timingCounters (fun a d => d.clearObj p a) d).updFe p fun f => { f with clearTiming := none }
      else d
    if due f.clearReadout then
      (forEach readoutCounters (fun a d => d.clearObj p a) d).updFe p fun f => { f with clearReadout := none }
    else d

end Sys2Proof.Machine
end

