-- ==== Sys2Proof/Machine/LinkQueue.lean ====
section
/-! DEFINITION. What waits for a port's active downlink: the calendar's executions ahead (R33 to R35), the fast commands the
concentrator holds (R43 to R46, R73, R196 to R198), and the order of the kinds of blocks (R542). -/

namespace Sys2Proof.Machine

/-! ### The port as the concentrator sees it -/

/-- A port's uplink lane. -/
def CPort.ul (c : CPort) (n : Nat) : LinkState := c.uls.toList.getD n {}

/-- A port's downlink. -/
def CPort.dl (c : CPort) (n : Nat) : LinkState := c.dls.toList.getD n {}

/-- The port with an uplink lane changed. -/
def CPort.updUl (c : CPort) (n : Nat) (g : LinkState → LinkState) : CPort :=
  { c with uls := Vector.ofFn fun i => if i.val = n then g c.uls[i.val] else c.uls[i.val] }

/-- The port with a downlink changed. -/
def CPort.updDl (c : CPort) (n : Nat) (g : LinkState → LinkState) : CPort :=
  { c with dls := Vector.ofFn fun i => if i.val = n then g c.dls[i.val] else c.dls[i.val] }

/-- The Lane Map of a port (R177). -/
def Dev.laneMap (d : Dev) (p : Port) : Nat := d.get Reg.WP_LANE_MAP p.val

/-- Whether a port's state is UP or DEGRADED (R426). -/
def Dev.portUp (d : Dev) (p : Port) : Bool := d.get Reg.WP_STATE p.val == 2 || d.get Reg.WP_STATE p.val == 3

/-- Whether a logical lane can send: it is active, and its physical lane is UP (R194, R214). -/
def Dev.laneOpen (d : Dev) (p : Port) (l : Lane) : Bool :=
  let phys := mapOf (d.fe p).laneMap l.val
  decide (phys < 5) && ((d.port p).ul phys).up

/-! ### Blocks not used (R178, R179) -/

/-- A received block not used for a reason: counted on its link, a control block ignored under R179 also in Control Block Errors of
the port (on a downlink too: log entry 188), where it ends the clean time of R217 and the return it had begun. -/
def Dev.countBad (d : Dev) (p : Port) (rx : Rx) (why : BadBlock) : Dev :=
  let ctl := why == .crc || why == .unknownType
  let count := fun (l : LinkState) => { l with bad := l.bad + 1, cleanFrom := if ctl then d.now else l.cleanFrom }
  let d := if ctl then d.bump Reg.WP_CTL_ERR p.val else d
  d.updPort p fun c => match rx with
    | .up l => c.updUl l.val count
    | .down dl =>
      let c := c.updDl dl.val count
      if ctl && dl.val != c.activeDl && c.dlSwapAt.isNone then { c with swapSent := none } else c

/-- Blocks not used inside a packet (R178, R179, R187). -/
def Dev.countBadBlocks (d : Dev) (p : Port) (rx : Rx) (bad : List BadBlock) : Dev :=
  forEach bad (fun why d => d.countBad p rx why) d

/-! ### The calendar's executions ahead -/

/-- A calendar bank: the word of an object of 0x2E01 for an entry. -/
abbrev Bank := Nat → Nat → Nat

/-- The active bank, shown at 0x2E04 (R33). -/
def Dev.activeBank (d : Dev) : Bank := fun a e => d.get (a + 0x300) e

/-- A stored bank. -/
def bankOf (t : Tbl Nat) : Bank := fun a e => tblRead regDflt t (regKey 0xFF a e)

/-- Whether an entry is enabled (R34). -/
def Bank.enabled (b : Bank) (e : Nat) : Bool := b Reg.CAL_EN e == 1 && b Reg.CAL_ACTION e != 0

/-- Whether an enabled entry executes in a cycle (R34). -/
def Bank.runsIn (b : Bank) (e cycle : Nat) : Bool := b.enabled e && cycle % 2 ^ b Reg.CAL_EVERY e == b Reg.CAL_PHASE e

/-- Whether a calendar action executes in a mode (R35); snapshots in acquisition need Snapshots in Acquisition. -/
def actionRuns (action : Nat) (m : Mode) (snapAcq : Bool) : Bool :=
  match action with
  | 1 => m == .calibrate || m == .stream || m == .gated
  | 2 => m == .calibrate || m == .sentinel || m == .stream || m == .gated || m == .snapshot
  | 3 => m == .calibrate || m == .sentinel || m == .stream || m == .gated
  | 4 => m == .calibrate || m == .stream || m == .gated || m == .snapshot
  | 5 => m == .calibrate || m == .snapshot || ((m == .stream || m == .gated) && snapAcq)
  | 6 => !(m == .boot || m == .safe)
  | 7 => m == .gated
  | _ => false

/-- First slot and length of the cycle `n` cycles ahead on the grid as it stands. -/
def Dev.cycleSpan (d : Dev) (n : Nat) : Nat × Nat := (d.startAhead n, d.endOf n - d.startAhead n)

/-- The mode of the cycle `n` cycles ahead, and the slot from which it is in force (R541). -/
def Dev.modeIn (d : Dev) (n : Nat) : Mode × Nat :=
  match d.modePend with
  | none => (d.mode, d.modeFrom)
  | some m =>
    let first := (List.range (n + 1)).find? fun k => m.inForce (d.cyclePlus k) (d.cycleSpan k).1
    match first with
    | some k => (m.target, (d.cycleSpan k).1)
    | none => (d.mode, d.modeFrom)

/-- The bank that governs a cycle that begins at a slot (R40). -/
def Dev.bankAt (d : Dev) (start : Nat) : Bank :=
  match d.grid.bankPend with
  | some (t, b) => if t ≤ start then bankOf b else d.activeBank
  | none => d.activeBank

/-- One execution of an entry: its entry index and action, its argument, ports and groups, its slot as a slot count and
in its cycle, the cycle's number, the slot from which the cycle's mode is in force, and the mode. -/
structure CalOcc where
  entry : Nat
  action : Nat
  arg : Nat
  ports : Nat
  groups : Nat
  at_ : Nat
  slot : Nat
  cycle : Nat
  modeFrom : Nat
  mode : Mode
deriving DecidableEq, Repr

/-- The place of an execution among all (R39). -/
def CalOcc.key (o : CalOcc) : Nat := (o.at_ * 8 + o.action) * 64 + o.entry

/-- The executions in the cycle `n` cycles ahead of entries with one of the given actions (R34, R35, R541). -/
def Dev.occIn (d : Dev) (acts : List Nat) (n : Nat) : List CalOcc :=
  let (start, len) := d.cycleSpan n
  let cyc := d.cyclePlus n
  let (mode, from_) := d.modeIn n
  let b := d.bankAt start
  let snap := d.get Reg.SNAP_IN_ACQ == 1
  ((List.range 64).filter fun e =>
    acts.contains (b Reg.CAL_ACTION e) && b.runsIn e cyc && decide (b Reg.CAL_SLOT e < len)
      && actionRuns (b Reg.CAL_ACTION e) mode snap).map fun e =>
    { entry := e, action := b Reg.CAL_ACTION e, arg := b Reg.CAL_ARG e, ports := b Reg.CAL_PORTS e
      groups := b Reg.CAL_GROUPS e, at_ := start + b Reg.CAL_SLOT e, slot := b Reg.CAL_SLOT e, cycle := cyc
      modeFrom := from_, mode := mode }

/-- The executions in this cycle and in those that begin up to slot `to_`. -/
def Dev.occurrences (d : Dev) (acts : List Nat) (to_ : Nat) : List CalOcc :=
  (List.range (d.boundaryAfter (to_ + 1))).flatMap (d.occIn acts)

/-! ### Fast commands of a port (R43 to R46, R196 to R198) -/

/-- A fast command the concentrator holds for a port, with its target on the grid as it stands and its place in the
order of R46: calendar commands of equal targets first. -/
def Dev.fcmd (d : Dev) (p : Port) (op : FcmdOp) (cyc slot tokens : Nat) : Dev :=
  let target := d.startOf cyc + slot
  let rank := match op with
    | .cal _ => 0 | .bias _ _ => 3 | .mode _ => 4 | .cycleEnd => 5 | .inject => 6 | .tickPhase _ => 7
  d.updPort p fun c =>
    { c with cmds := c.cmds ++ [{ op := op, cycle := cyc, slot := slot, target := target, rank := rank, tokens := tokens }] }

/-- The place of a copy in the order of R46 and R198: target, first copies before second, kind. -/
def Fcmd.key (f : Fcmd) : Nat := (f.target * 2 + f.copies) * 8 + f.rank

/-- Tokens of the port's limiter now (R198). -/
def CPort.tokensNow (c : CPort) (now : Nat) : Nat := min 64 (c.tokens + (now - c.tokensAt))

/-- The copy at the head of the order of R198: a command not sent twice whose target lies ahead, within the window of R45. -/
def Dev.headCopy (d : Dev) (p : Port) : Option Fcmd :=
  leastBy Fcmd.key ((d.port p).cmds.filter fun f =>
    decide (f.copies < 2) && decide (d.now < f.target) && decide (f.target ≤ d.now + d.issueWindow))

/-- How far ahead calendar and injection commands are issued at the least (R43): CAL_LEAD, with room for the commands
that compete. -/
def Dev.horizon (d : Dev) : Nat := min (d.get Reg.CAL_LEAD + 64) d.issueWindow

/-- The next CAL block of a port: the executions that share its earliest target not yet issued (R197). -/
def Dev.nextCal (d : Dev) (p : Port) : List CalOcc :=
  let c := d.port p
  let os := (d.occurrences [1, 2, 3, 5] (d.now + d.horizon)).filter fun o =>
    bit o.ports p.val && decide (max c.calTo c.upAt ≤ o.at_) && decide (o.at_ ≤ d.now + d.horizon)
  match leastBy CalOcc.at_ os with
  | some f => os.filter fun o => o.at_ == f.at_
  | none => []

/-- The FCMD of a CAL block, in the place of its first action in R39's order: one of snapshots alone goes after a window's BIAS
command (R46). -/
def calCmd (os : List CalOcc) (f : CalOcc) : Fcmd :=
  { op := .cal ((os.map fun o => Fin.ofNat 64 o.entry).insertionSort (· ≤ ·)), cycle := f.cycle, slot := f.slot
    target := f.at_, rank := if os.any (fun o => decide (o.action < 4)) then 0 else 2, tokens := os.length }

/-- Whether a CAL block is held for the mirror (R200). -/
def CPort.holds (c : CPort) (target : Nat) : Bool := !c.mirrorAcked && decide (c.mirrorBoundary ≤ target)

/-- The injection commands due within the horizon enter the port's queue (R73), and with them those of cycles that have passed,
which are late (R198, R216); a shortened cycle without the slot has none (log entry 174). `n` bounds their number. -/
def Dev.feedInject (d : Dev) (p : Port) : Nat → Dev
  | 0 => d
  | n + 1 =>
    let c := d.port p
    let ahead := d.cyclesAhead c.injectNext
    let passed := decide (2 ^ 39 ≤ ahead)
    let t := if passed then 0 else d.startAhead ahead + c.injectSlot
    if c.injectLeft = 0 || (!passed && decide (d.now + d.horizon < t)) then d
    else
      let next := if passed then (c.injectNext + 1) % 2 ^ 40 else d.cyclePlus (ahead + 1)
      let f : Fcmd := { op := .inject, cycle := c.injectNext, slot := c.injectSlot, target := t, rank := 6, tokens := 1 }
      let new := if !passed && decide (d.endOf ahead ≤ t) then [] else [f]
      (d.setPort p { c with injectLeft := c.injectLeft - 1, injectNext := next, cmds := c.cmds ++ new }).feedInject p n

/-- Every injection command of a port that is due enters its queue. -/
def Dev.feedInjects (d : Dev) (p : Port) : Dev := d.feedInject p (d.port p).injectLeft

/-- The FCMD copy that goes next, and whether it is that of a CAL block not yet entered (R46, R198): the earlier of the copies held
and the calendar's next block. -/
def Dev.nextCopy (d : Dev) (p : Port) : Option (Fcmd × Bool) :=
  let c := d.port p
  let cal := d.nextCal p
  let new := match cal with
    | [] => none
    | f :: _ => if d.now < f.at_ ∧ ¬ c.holds f.at_ then some (calCmd cal f) else none
  match d.headCopy p, new with
  | none, none => none
  | some h, none => some (h, false)
  | none, some k => some (k, true)
  | some h, some k => if k.key ≤ h.key then some (k, true) else some (h, false)

/-! ### Block opportunities (R542) -/

/-- The kinds of blocks that wait for an opportunity of an active downlink, after SUPER. -/
inductive LinkKind where
  | overdue | fcmd | nak | stat | delayReq | timeSet | beacon | config
deriving DecidableEq, Repr

/-- The kinds in the order of R542. -/
def linkOrder : List LinkKind := [.overdue, .fcmd, .nak, .stat, .delayReq, .timeSet, .beacon, .config]

/-- Whether 19 slots have passed since the last LINKSTAT, which then takes the next block opportunity (R542). -/
def Dev.statOverdue (d : Dev) (p : Port) : Bool := d.portUp p && decide ((d.port p).linkstatAt + 19 ≤ d.now)

/-- Whether an FCMD copy is ready: the limiter has the tokens of the copy that goes next (R198). -/
def Dev.copyReady (d : Dev) (p : Port) : Bool :=
  match (d.feedInjects p).nextCopy p with
  | some (f, _) => decide (f.tokens ≤ (d.port p).tokensNow d.now)
  | none => false

/-- The downlink on which a DELAY_REQ is due (R203, R209, R210, R217), one request at a time: the one in training, once a lane is
ready, up to eight measurements; else the other one in training; else the active one, once every Delay Interval. -/
def Dev.probeDue (d : Dev) (p : Port) : Option Nat :=
  let c := d.port p
  let o := 1 - c.activeDl
  let t := c.dl c.trainDl
  let busy := match c.probe with
    | some k => decide (d.now ≤ k.at_ + 1024)
    | none => false
  if busy then none
  else if d.get Reg.WP_STATE p.val = 1 then
    if t.training && t.lock && decide (c.trainMeas < 8) && (List.range 5).any (fun n => (c.ul n).ready) then some c.trainDl else none
  else if !d.portUp p then none
  else if (c.dl o).training && (c.dl o).lock && decide (c.otherMeas < 8) then some o
  else if c.probeAt + d.get Reg.WL_DLY_INT ≤ d.now then some c.activeDl
  else none

/-- Whether the TIME_SET of R47 is due: the front end has acknowledged CYCLE_LEN, the new length governs the grid, and no cycle-end
command is on its way. -/
def Dev.timeSetDue (d : Dev) (p : Port) : Bool :=
  let c := d.port p
  c.timeSetOwed && d.grid.len == d.cycleLen && d.portUp p && c.cmds.all fun f => f.op != .cycleEnd

/-- Whether a block of a kind is ready on a port's active downlink (R542). -/
def Dev.waits (d : Dev) (p : Port) : LinkKind → Bool
  | .overdue => d.statOverdue p
  | .fcmd => d.copyReady p
  | .nak => (d.port p).lanes.toList.any ConcLane.nakOwed
  | .stat => (d.port p).lanes.toList.any ConcLane.statOwed
  | .delayReq => d.probeDue p == some (d.port p).activeDl
  | .timeSet => d.timeSetDue p
  | .beacon => (d.port p).beaconOwed
  | .config => !(d.port p).cfgWaiting.isEmpty

/-- Whether the next block opportunity of a port's active downlink falls to a kind when it is ready: no block of an earlier kind
waits (R542). The order holds on a downlink that is UP. -/
def Dev.linkFree (d : Dev) (p : Port) (k : LinkKind) : Bool :=
  !d.portUp p || (linkOrder.takeWhile (· != k)).all fun j => !d.waits p j

end Sys2Proof.Machine
end

