-- ==== Sys2Proof/Machine/ConfigChannel.lean ====
section
/-! DEFINITION. The configuration channel of a port (R200, R219 to R221, R426 to R432): the Keeper's messages to a
front end, and the front end's handling of a message it receives. -/

namespace Sys2Proof.Machine

/-! ### The Keeper's side -/

/-- The object and element a message names on the wire: a DOMAIN read that goes on reads the staging buffer (R428). -/
def CfgMsg.wire (m : CfgMsg) : Nat × Nat :=
  if m.type = 2 ∧ ¬ m.chunks.isEmpty then (Reg.FE_STAGE, m.chunks.flatten.length) else (m.index * 256 + m.sub, m.elem)

/-- The bytes of a message (R219). -/
def CfgMsg.bytes (m : CfgMsg) : Bytes :=
  configBytes m.type m.alive (m.wire.1 / 256) (m.wire.1 % 256) m.wire.2 m.value

/-- A message sent for the first time: the next ALIVE, its first and last transmission now, at most one outstanding
(R221). -/
def Dev.cfgStart (d : Dev) (p : Port) (m : CfgMsg) : Dev :=
  let c := d.port p
  let alive := (c.alive + 1) % 16
  let m := { m with alive := alive, firstTx := d.now, lastTx := d.now, sends := 1 }
  (d.setPort p { c with alive := alive, cfg := some m }).emit (.config p.val m.bytes)

/-- The next waiting message sent when none is outstanding, the port is up and not UNRESOLVED (R221, R431), and no block of another
kind waits (R542); messages that resolve an outcome go while it is, the rewriting of a front end that has been reset among them
(R432). -/
def Dev.cfgPump (d : Dev) (p : Port) : Dev :=
  let c := d.port p
  if c.cfg.isSome || c.cfgWaiting.isEmpty || !d.portUp p || !d.linkFree p .config then d
  else
    let ready := fun (m : CfgMsg) =>
      c.unresolved.isNone || m.why == .askPrev || m.why == .readBack || (m.why == .rewrite && c.feReset)
    match c.cfgWaiting.find? ready with
    | none => d
    | some m => (d.setPort p { c with cfgWaiting := c.cfgWaiting.erase m }).cfgStart p m

/-- A message to be sent for object `a` and element `e`. -/
def cfgMsg (type a e : Nat) (value : Bytes) (why : CfgWhy) : CfgMsg :=
  { type := type, alive := 0, index := a / 256, sub := a % 256, elem := e, value := value, firstTx := 0, lastTx := 0
    sends := 0, why := why, chunks := [] }

/-- Messages queued for a port, and the first sent when it can be. -/
def Dev.cfgQueue (d : Dev) (p : Port) (ms : List CfgMsg) : Dev :=
  (d.updPort p fun c => { c with cfgWaiting := c.cfgWaiting ++ ms }).cfgPump p

/-- The bytes of a word under its object's type. -/
def wordBytes (a v : Nat) : Bytes :=
  match objRow a with
  | some r => beBytes r.ty.bytes v
  | none => []

/-- The bytes in chunks of up to 240 with their offsets (R428). -/
def chunksOf : Nat → Nat → Bytes → List (Nat × Bytes)
  | 0, _, _ => []
  | n + 1, o, bs => if bs.isEmpty then [] else (o, bs.take 240) :: chunksOf n (o + 240) (bs.drop 240)

/-- The messages that carry a write of `value`: one, or for more than 240 bytes the chunks to Staging Buffer and a
final WRITE of LENGTH 0 (R428). -/
def writeMsgs (a e : Nat) (value : Bytes) (why : CfgWhy) : List CfgMsg :=
  let part : CfgWhy := match why with
    | .request w => .chunk w
    | .chunk _ | .rewrite | .cycleLen | .mirror _ | .askPrev | .readBack | .rate => .rewrite
  if value.length ≤ 240 then [cfgMsg 1 a e value why]
  else (chunksOf 5 0 value).map (fun c => cfgMsg 1 Reg.FE_STAGE c.1 c.2 part)
    ++ [{ cfgMsg 1 a e [] why with chunks := [value] }]

/-- The messages that restore a staging buffer. -/
def stageMsgs (value : Bytes) : List CfgMsg := (chunksOf 5 0 value).map fun c => cfgMsg 1 Reg.FE_STAGE c.1 c.2 .rewrite

/-- The writes that restore a front end from the Keeper's mirror (R427): the entries of the mirror for which `sel`
holds. -/
def Dev.rewriteMsgs (d : Dev) (p : Port) (sel : Nat → Nat → Bool) : List CfgMsg :=
  let addr := fun (k : Nat) => k / 2 ^ 16 % 2 ^ 24
  let mine := fun (k : Nat) => k / 2 ^ 40 == p.val && sel (addr k) (k % 2 ^ 16)
  ((d.mirror.filter fun e => mine e.1).map fun e => cfgMsg 1 (addr e.1) (e.1 % 2 ^ 16) (wordBytes (addr e.1) e.2) .rewrite)
    ++ ((d.mirrorDom.filter fun e => mine e.1 && addr e.1 != Reg.FE_STAGE).flatMap fun e =>
        writeMsgs (addr e.1) (e.1 % 2 ^ 16) e.2 .rewrite)
    ++ (d.mirrorDom.filter fun e => mine e.1 && addr e.1 == Reg.FE_STAGE).flatMap fun e => stageMsgs e.2

/-- The concentrator's objects that steer a front end, and whether each has an element per port and group (log entry 176). -/
def toldObjects : List (Nat × Bool) :=
  [(Reg.GV_FENCE_MAX, true), (Reg.GV_REST, true), (Reg.GV_WAKE_EN, true), (Reg.SNAP_IN_ACQ, false), (Reg.WL_ACK_TIMEOUT, false)]

/-- The message that tells a front end an object of the concentrator: it names the object's own address and the group (log
entries 125 and 176). -/
def Dev.toldMsg (d : Dev) (p : Port) (a g : Nat) (perGroup : Bool) : CfgMsg :=
  cfgMsg 1 a g (wordBytes a (d.get a (if perGroup then p.val * 16 + g else 0))) .rewrite

/-- An object that steers the front ends written: the front ends concerned that are enabled are told. -/
def Dev.tellFes (d : Dev) (a e : Nat) : Dev :=
  match toldObjects.find? fun x => x.1 == a with
  | none => d
  | some (_, perGroup) =>
    forEach (allPorts.filter fun p => d.get Reg.WP_EN p.val == 1 && (!perGroup || e / 16 == p.val))
      (fun p d => d.cfgQueue p [d.toldMsg p a (if perGroup then e % 16 else 0) perGroup]) d

/-- What a front end that has been reset is told of the objects that steer it, where they differ from their values after a
restart. -/
def Dev.toldMsgs (d : Dev) (p : Port) : List CfgMsg :=
  toldObjects.flatMap fun x =>
    let es := if x.2 then List.range 16 else [0]
    (es.filter fun g =>
      let e := if x.2 then p.val * 16 + g else 0
      d.get x.1 e != regDflt (regKey 0xFF x.1 e)).map fun g => d.toldMsg p x.1 g x.2

/-- The CYCLE_LEN message of R47. -/
def Dev.cycleLenMsg (d : Dev) : CfgMsg :=
  cfgMsg 1 Reg.FE_CYCLE_LEN 0 (beBytes 4 (d.get Reg.CYCLE_LEN)) .cycleLen

/-- The value of a MIRROR message for entry `e` of a bank (R200; its layout is log entry 12): action (NONE when the
entry is not enabled), groups, argument. -/
def mirrorValue (bank : Nat → Nat → Nat) (e : Nat) : Bytes :=
  beBytes 1 (if bank Reg.CAL_EN e = 1 then bank Reg.CAL_ACTION e else 0) ++ beBytes 2 (bank Reg.CAL_GROUPS e)
    ++ beBytes 4 (bank Reg.CAL_ARG e)

/-- The messages of a bank's mirror, the port's `n`-th: 64 entries, then the cycle at whose slot 0 it takes effect (R200). -/
def mirrorMsgs (n : Nat) (bank : Nat → Nat → Nat) (cycle : Nat) : List CfgMsg :=
  ((List.range 64).map fun e => cfgMsg 3 (0x2E04 * 256) e (mirrorValue bank e) (.mirror n))
    ++ [cfgMsg 3 (0x2E04 * 256) 0xFFFF (beBytes 1 cycle) (.mirror n)]

/-- Whether a message is one of a calendar mirror. -/
def CfgMsg.isMirror (m : CfgMsg) : Bool :=
  match m.why with
  | .mirror _ => true
  | .request _ | .chunk _ | .rewrite | .cycleLen | .askPrev | .readBack | .rate => false

/-- A port awaits a mirror that takes effect at a slot (R200): every message of it is to be acknowledged, and none of an earlier
one is sent any more. -/
def CPort.awaitMirror (c : CPort) (cyc at_ : Nat) : CPort :=
  { c with mirrorAcked := false, mirrorNo := c.mirrorNo + 1, mirrorLeft := 65, mirrorBoundary := at_, mirrorCycle := cyc
           cfgWaiting := c.cfgWaiting.filter fun m => !m.isMirror }

/-- A bank's mirror sent to a port, to take effect at slot 0 of a cycle (R200). -/
def Dev.queueMirror (d : Dev) (p : Port) (b : Bank) (cyc at_ : Nat) : Dev :=
  let d := d.updPort p fun c => c.awaitMirror cyc at_
  d.cfgQueue p (mirrorMsgs (d.port p).mirrorNo b (cyc % 256))

/-! ### The front end's side -/

/-- The oldest waiting response leaves as a RESPONSE packet on logical lane 0 (R195) when that lane can send and no earlier one is
unacknowledged: it takes a sequence number and no credit. What the front end has to report of floored channels goes with it
(R62). -/
def Dev.nextResponse (d : Dev) (p : Port) : Dev :=
  let f := d.fe p
  let l := f.lanes[0]
  match f.responses with
  | [] => d
  | msg :: rest =>
    if !d.laneOpen p 0 || decide (64 ≤ l.replay.length) || l.replay.any (fun k => k.kind == 3) then d
    else
      let k : RPacket := { seq := l.nextSeq, kind := 3, frameIdx := 0, cycLo := 0, payload := .response msg, tx := 1, lastTx := d.now }
      let l := { l with nextSeq := (l.nextSeq + 1) % 4096, replay := l.replay ++ [k] }
      let f := { f with lanes := f.lanes.set 0 l, responses := rest
                        floorSent := f.floorSent ++ f.floorReport, floorReport := [] }
      (d.setFe p f).emit (.packet p.val 0 k.seq 3 0 0 k.payload)

/-- A response for the next RESPONSE packet (R195). -/
def Dev.feRespond (d : Dev) (p : Port) (msg : Bytes) : Dev :=
  (d.updFe p fun f => { f with responses := f.responses ++ [msg] }).nextResponse p

/-- A configuration message that passed the CRC checks, under the alive-counter rule of R220: `f` executes it and
gives its status and value. -/
def Dev.feMessage (d : Dev) (p : Port) (alive type a elem : Nat) (f : Dev → Status × Bytes × Dev) : Dev :=
  let fe := d.fe p
  if !fe.hears then d
  else
    let delta := match fe.alive with
      | none => 1
      | some l => (alive + 16 - l) % 16
    if delta = 0 then
      let m := fe.prevMsg
      let stored := (m.getD 1 0).toNat
      let resp := configResponse stored alive 1 (m.getD 4 0).toNat ((m.getD 5 0).toNat * 256 + (m.getD 6 0).toNat)
        (m.getD 7 0 :: fe.prevValue)
      (d.fbump p Reg.FE_CFG_REJ).feRespond p resp
    else if 8 ≤ delta then
      (d.fbump p Reg.FE_CFG_REJ).feRespond p (configResponse type alive 3 (a % 256) elem [])
    else
      let (st, value, d) := f d
      let value := if st = .accepted then value.take 240 else []
      let prev := beBytes 1 (alive * 16) ++ beBytes 1 type ++ beBytes 2 (a / 256) ++ beBytes 1 (a % 256)
        ++ beBytes 2 elem ++ beBytes 1 (statusCode st)
      let d := d.updFe p fun fe =>
        { fe with alive := some alive, aliveSkips := fe.aliveSkips + (if 2 ≤ delta then 1 else 0), prevMsg := prev
                  prevValue := value }
      let d := d.fset p Reg.FE_CFG_ACC 0 (d.fget p Reg.FE_CFG_ACC + 1)
      d.feRespond p (configResponse type alive (statusCode st) (a % 256) elem value)

/-- A message that fails its CRC or R186: discarded without a response and counted (R220). -/
def Dev.feBadMessage (d : Dev) (p : Port) : Dev := if (d.fe p).runs then d.fbump p Reg.FE_CFG_REJ else d

/-- The bytes `o` to `o + n − 1` of the staging buffer. -/
def FrontEnd.staged (f : FrontEnd) (o n : Nat) : Bytes :=
  (List.range n).map fun i => BitVec.ofNat 8 (tblRead (fun _ => 0) f.staging (o + i))

/-- The front end with bytes placed in the staging buffer at an offset. -/
def FrontEnd.stage (f : FrontEnd) (o : Nat) (bs : Bytes) : FrontEnd :=
  { f with staging := forEach bs.zipIdx (fun bi t => tblWrite (fun _ => 0) t (o + bi.2) bi.1.toNat) f.staging }

/-- The coefficient bytes of sampler `e`: per cell Z16 then G (R175). -/
def FrontEnd.coefBytes (f : FrontEnd) (e : Nat) : Bytes :=
  (List.range 128).flatMap fun c => beBytes 4 (tblRead (fun _ => 0) f.coefs (e * 128 + c))

/-- The front end with the coefficients of sampler `e` taken from 512 bytes. -/
def FrontEnd.setCoefs (f : FrontEnd) (e : Nat) (bs : Bytes) : FrontEnd :=
  { f with coefs := forRange 128 (fun c t => tblWrite (fun _ => 0) t (e * 128 + c) (beNat ((bs.drop (4 * c)).take 4))) f.coefs }

/-- Region Bias Status (R83). -/
def Dev.biasStatus (d : Dev) (p : Port) (r : Nat) : Nat :=
  let g := (d.fe p).region r
  (d.fe p).fenceOf (d.groupOf p r) * 8 + flag 2 (g.settling d.now) + g.level

/-- Dead time counted up to the present slot where a READ of a dead-time counter shows it (R108, R118). -/
def Dev.settleFor (d : Dev) (p : Port) (a e : Nat) : Dev :=
  let t := 8 * d.now
  if a = Reg.FE_CH_DT_BUSY ∨ a = Reg.FE_CH_DT_BLK then d.settleDead p e t
  else if a = Reg.FE_RG_DT then d.settleAll p (channelsOf e) t
  else if a = Reg.FE_CHIP_DT then d.settleAll p (d.fe p).busyChans t
  else d

/-- The value a READ of a front-end object returns; none when there is no such object or element. -/
def Dev.feRead (d : Dev) (p : Port) (a e : Nat) : Except Status Bytes :=
  match objRow a with
  | none =>
    match (topSub (a / 256)).filter fun _ => a % 256 == 0 && decide (0x400000 ≤ a) with
    | some n => if e = 0 then .ok (beBytes 1 n) else .error .range
    | none => .error .notPresent
  | some r =>
    if a < 0x400000 then .error .notPresent
    else if r.elems ≤ e then .error .range
    else if r.access = .cmd ∨ r.access = .wo then .error .notPresent
    else if a = Reg.FE_PREV_MSG then .ok (d.fe p).prevMsg
    else if a = Reg.FE_STAGE then .ok ((d.fe p).staged e (min 240 (1024 - e)))
    else if a = Reg.FE_SNAP_COEF then .ok ((d.fe p).coefBytes e)
    else if a = Reg.FE_RG_BIAS then .ok (beBytes 1 (d.biasStatus p e))
    else .ok (beBytes r.ty.bytes (d.fget p a e))

/-- The conditions of its own that a front-end setting puts on a write of element `e` (R53, R75, R105, R115, R174). -/
def Dev.feCondition (d : Dev) (p : Port) (a e v : Nat) : Option Status :=
  let m := (d.fe p).mode
  let old := d.fget p a e
  if a = Reg.FE_RG_ANA then
    if field old 15 10 ≠ field v 15 10 ∧ m ≠ .configure then some .wrongMode else none
  else if a = Reg.FE_RG_TIME then
    if field v 1 0 = 3 then some .range
    else if bit old 2 ≠ bit v 2 ∧ m ≠ .configure ∧ m ≠ .calibrate then some .wrongMode else none
  else if a = Reg.FE_RG_SNAP then
    if [0, 5, 10, 15].any (fun i => decide (16 < field v (i + 4) i)) then some .range else none
  else none

/-- Received settings are applied at the slot after the message, or at the first cycle that begins after it in the
acquiring modes (R76). -/
def Dev.feScheduleApply (d : Dev) (p : Port) : Dev :=
  d.updFe p fun f =>
    let cyc := f.mode == .sentinel || f.mode == .stream || f.mode == .gated || f.mode == .snapshot
    { f with applyAt := some (if cyc then d.now else d.now + 1), applyAtCycle := cyc }

/-- A WRITE of a front-end setting or status word, one element. -/
def Dev.fePut (d : Dev) (p : Port) (a v e : Nat) : Dev :=
  if a = Reg.FE_CH_STAT then if bit v 0 then d.fset p a e (setBit (d.fget p a e) 0 false) else d
  else if a = Reg.FE_RG_TSTAT then if bit v 10 then d.fset p a e (setBit (d.fget p a e) 10 false) else d
  else
    let d := d.fset p a e v
    -- the last word of a rewrite after a configuration fault (R151)
    if a = Reg.FE_RG_FLOOD_EN ∧ ((d.fe p).region e).cfgFault then
      d.updFe p fun f => f.updRegion e fun g => { g with cfgRewritten := true }
    else d

/-- A trigger taken at its naming (R156): missed by every sampler it selects while a calibration phase runs (R170). -/
def Dev.nameFreeze (d : Dev) (p : Port) (z : Freeze) : Dev :=
  if d.fget p Reg.FE_SNAP_CAL_STAT = 1 then d.missTrigger p z
  else d.updFe p fun f => { f with freezes := f.freezes ++ [z] }

/-- A forced freeze of every enabled sampler at the start of the slot after the write is applied (R156). -/
def Dev.feForce (d : Dev) (p : Port) : Dev :=
  d.nameFreeze p { inst := 40 * (d.now + 2), source := 2, regions := 2 ^ 256 - 1, samplers := 15 }

/-- The calibration settings SNAP_CAL_N of R170 as a count. -/
def Dev.calCount (d : Dev) (p : Port) : Nat := 2 ^ d.ap p Reg.FE_SNAP_CAL_N

/-- round(16 × sum / N) (R170). -/
def mean16 (sum n : Nat) : Nat := (roundHalfUp (16 * sum) n).toNat

/-- The gain of a cell from its means, 0 when they lie outside the valid range (R170). -/
def cellGain (z f : Nat) : Nat :=
  if 25600 ≤ (f : Int) - z ∧ (f : Int) - z ≤ 62400 then (roundHalfUp 838860800 ((f : Int) - z)).toNat else 0

/-- Snapshot Calibration Control (R170): ZERO and FULL start a phase of N forced freezes 160 slots apart, COMPUTE derives
the pair of every cell a phase summed, CLEAR makes all pairs invalid, G and Z16 at 0 (log entry 184). A command out of order, any command while a phase runs
included (log entry 123), is answered RANGE, outside CALIBRATE WRONG_MODE. -/
def Dev.feSnapCal (d : Dev) (p : Port) (cmd : Nat) : Status × Dev :=
  let st := d.fget p Reg.FE_SNAP_CAL_STAT
  let n := d.calCount p
  let begin_ := fun (d : Dev) => (d.fset p Reg.FE_SNAP_CAL_STAT 0 1).updFe p fun f =>
    let f := { f with snapCal := cmd, calDoneAt := d.now + 160 * n, calLeft := n, calNext := d.now + 2 }
    if cmd = 1 then { f with zeroSums := [], zeroN := n } else { f with fullSums := [], fullN := n }
  if (d.fe p).mode ≠ .calibrate then (.wrongMode, d)
  else if st = 1 then (.range, d)
  else match cmd with
    | 1 => (.accepted, begin_ d)
    | 2 => if st = 2 then (.accepted, begin_ d) else (.range, d)
    | 3 =>
      if st ≠ 3 then (.range, d)
      else
        let f := d.fe p
        let one := fun (cell : Nat) (fb : Tbl Nat × Nat) =>
          let z := mean16 (tblRead (fun _ => 0) f.zeroSums cell) f.zeroN
          let g := cellGain z (mean16 (tblRead (fun _ => 0) f.fullSums cell) f.fullN)
          (tblWrite (fun _ => 0) fb.1 cell (z * 65536 + g), fb.2 + if g = 0 then 1 else 0)
        let cells := (f.zeroSums.map Prod.fst ++ f.fullSums.map Prod.fst).dedup
        let (coefs, bad) := forEach cells one (f.coefs, 0)
        let d := d.setFe p { f with coefs := coefs }
        (.accepted, (d.fset p Reg.FE_SNAP_BADCELLS 0 bad).fset p Reg.FE_SNAP_CAL_STAT 0 4)
    | 4 => (.accepted, (d.fset p Reg.FE_SNAP_CAL_STAT 0 0).updFe p fun f => { f with coefs := [], zeroSums := [], fullSums := [] })
    | _ => (.range, d)

/-- The effect of a write of 1 to a front-end command object, or of a code to Snapshot Calibration Control. -/
def Dev.feCommand (d : Dev) (p : Port) (a v : Nat) : Status × Dev :=
  if a = Reg.FE_TCNT_CLEAR then (.accepted, d.updFe p fun f => { f with clearTiming := some d.now })
  else if a = Reg.FE_RCNT_CLEAR then (.accepted, d.updFe p fun f => { f with clearReadout := some d.now })
  else if a = Reg.FE_SNAP_FORCE then
    if (d.fe p).mode ≠ .calibrate then (.wrongMode, d) else (.accepted, d.feForce p)
  else if a = Reg.FE_SNAP_CAL then d.feSnapCal p v
  else (.notPresent, d)

/-- A WRITE of the fence's maximum level for a group (R366), named by Fence Bias Limit's index with the group as element (log
entry 125): raising it outside CONFIGURE is answered WRONG_MODE, and a level above the new limit is capped at once, which is
the fence acting (R349, R365). -/
def Dev.feFence (d : Dev) (p : Port) (g v : Nat) : Status × Dev :=
  let f := d.fe p
  if 16 ≤ g ∨ v = 0 ∨ 3 < v then (.range, d)
  else if f.fenceOf g < v ∧ f.mode ≠ .configure then (.wrongMode, d)
  else
    let acts := (List.range 256).any fun r => d.groupOf p r == g && decide (v < (f.region r).level)
    (.accepted, (d.setFe p { f with
      fence := f.fence.set (g % 16) v (Nat.mod_lt _ (by decide)), fenceActed := f.fenceActed || acts }).recap p)

/-- A WRITE of another object that steers the front end (log entry 176). -/
def Dev.feTold (d : Dev) (p : Port) (r : ObjRow) (g : Nat) (perGroup : Bool) (val : Bytes) : Status × Dev :=
  let e := if perGroup then p.val * 16 + g else 0
  if (if perGroup then 16 else 1) ≤ g ∨ (valueCheck r val).isSome then (.range, d)
  else (.accepted, d.updFe p fun f => { f with told := tblWrite regDflt f.told (regKey 0xFF r.addr e) (beNat val) })

/-- A WRITE executed by the front end (R219, R220, R428). -/
def Dev.feWrite (d : Dev) (p : Port) (a e : Nat) (val : Bytes) : Status × Dev :=
  match objRow a with
  | none => (.notPresent, d)
  | some r =>
    if a = Reg.GV_FENCE_MAX then d.feFence p e (beNat val)
    else if let some x := toldObjects.find? fun x => x.1 == a then d.feTold p r e x.2 val
    else if a < 0x400000 ∨ a = Reg.FE_INJECT then (.notPresent, d)
    else match elemCheck r e with
    | some st => (st, d)
    | none =>
      if a = Reg.FE_CYCLE_LEN then
        let v := beNat val
        if val.length = 4 ∧ 1 ≤ v ∧ v ≤ 1048576 then (.accepted, d.fset p a 0 v) else (.range, d)
      else if a = Reg.FE_STAGE then
        if 1 ≤ val.length ∧ val.length ≤ 240 ∧ e + val.length ≤ 1024 then
          (.accepted, d.updFe p fun f => f.stage e val)
        else (.range, d)
      else if a = Reg.FE_SNAP_COEF then
        let bs := if val.isEmpty then (d.fe p).staged 0 512 else val
        if (d.fe p).mode ≠ .configure ∧ (d.fe p).mode ≠ .calibrate then (.wrongMode, d)
        else if bs.length ≠ 512 then (.range, d)
        else (.accepted, d.updFe p fun f => forEach (elemsOf r e) (fun e f => f.setCoefs e bs) f)
      else if r.access = .ro then (.notPresent, d)
      else match valueCheck r val with
      | some _ => (.range, d)
      | none =>
        let v := beNat val
        if r.access = .cmd then d.feCommand p a v
        else
          let es := elemsOf r e
          match es.findSome? (fun e => d.feCondition p a e v) with
          | some st => (st, d)
          | none => (.accepted, (forEach es (fun e d => d.fePut p a v e) d).feScheduleApply p)

/-- A CONFIG packet of a message of type `type` on a downlink (R219, R220): one that fails R186 or its CRC is discarded and
counted, else `f` executes it. Bad blocks inside it count (R178, R179). A packet of another type is another command. -/
def Dev.feConfig (d : Dev) (p : Port) (dl : Fin 2) (type : Nat) (blocks : List Block)
    (f : ConfigIn → Dev → Status × Bytes × Dev) : Dev :=
  let fe := d.fe p
  if !fe.hears || fe.activeDl != dl.val then d
  else
    match readPacket blocks with
    | none => d
    | some k =>
      if k.kind ≠ 2 then d
      else match k.bytes.bind readConfig with
        | none => (d.countBadBlocks p (.down dl) (badInside blocks.tail)).feBadMessage p
        | some m =>
          if m.type ≠ type then d
          else (d.countBadBlocks p (.down dl) (badInside blocks.tail)).feMessage p m.alive type m.addr m.elem (f m)

/-- CONFIG_WRITE_MESSAGE (R220, R428): a WRITE received by the front end is executed and answered. -/
def execConfigWriteMessage (p : Port) (dl : Fin 2) (blocks : List Block) (s : State) : Result :=
  s.on fun d => d.feConfig p dl 1 blocks fun m d =>
    match d.feWrite p m.addr m.elem m.value with
    | (st, d) => (st, [], d)

/-- CONFIG_READ_MESSAGE (R220, R428): a received READ is answered with the value; a DOMAIN longer than 240 bytes is
copied into the staging buffer and its first 240 bytes returned. -/
def execConfigReadMessage (p : Port) (dl : Fin 2) (blocks : List Block) (s : State) : Result :=
  s.on fun d => d.feConfig p dl 2 blocks fun m d =>
    let d := d.settleFor p m.addr m.elem
    match d.feRead p m.addr m.elem with
    | .error st => (st, [], d)
    | .ok v => (.accepted, v, if 240 < v.length then d.updFe p fun f => f.stage 0 v else d)

/-- CONFIG_MIRROR_MESSAGE (R200): one entry of the calendar mirror, or the last message, which names the cycle at
whose slot 0 the mirror takes effect. -/
def execConfigMirrorMessage (p : Port) (dl : Fin 2) (blocks : List Block) (s : State) : Result :=
  s.on fun d => d.feConfig p dl 3 blocks fun m d =>
    if m.elem < 64 ∧ m.value.length = 7 then
      let e : MirrorEntry :=
        { action := beNat (m.value.take 1), groups := beNat ((m.value.drop 1).take 2), arg := beNat (m.value.drop 3) }
      (.accepted, [], d.updFe p fun f => { f with mirrorNext := tblWrite (fun _ => {}) f.mirrorNext m.elem e })
    else if m.elem = 0xFFFF ∧ m.value.length = 1 then
      (.accepted, [], d.updFe p fun f => { f with mirrorNextCyc := some (beNat m.value) })
    else (.range, [], d)

/-- TIMING_COUNTER_CLEAR (R118): a write of Timing Counter Clear schedules the clear for the next cycle start. -/
def execTimingCounterClear (p : Port) (alive : BitVec 4) (val : Bytes) (s : State) : Result :=
  s.on fun d => d.feMessage p alive.toNat 1 Reg.FE_TCNT_CLEAR 0 fun d =>
    match d.feWrite p Reg.FE_TCNT_CLEAR 0 val with
    | (st, d) => (st, [], d)

/-- READOUT_COUNTER_CLEAR (R152): a write of Readout Counter Clear schedules the clear for the next cycle start. -/
def execReadoutCounterClear (p : Port) (alive : BitVec 4) (val : Bytes) (s : State) : Result :=
  s.on fun d => d.feMessage p alive.toNat 1 Reg.FE_RCNT_CLEAR 0 fun d =>
    match d.feWrite p Reg.FE_RCNT_CLEAR 0 val with
    | (st, d) => (st, [], d)

/-- FORCE_SNAPSHOT (R156): in CALIBRATE a write of Force Snapshot names a freeze of all enabled samplers. -/
def execForceSnapshot (p : Port) (alive : BitVec 4) (val : Bytes) (s : State) : Result :=
  s.on fun d => d.feMessage p alive.toNat 1 Reg.FE_SNAP_FORCE 0 fun d =>
    match d.feWrite p Reg.FE_SNAP_FORCE 0 val with
    | (st, d) => (st, [], d)

/-- A write of the given code to Snapshot Calibration Control (R170). -/
def Dev.snapCalWrite (d : Dev) (p : Port) (alive code : Nat) : Dev :=
  d.feMessage p alive 1 Reg.FE_SNAP_CAL 0 fun d =>
    match d.feWrite p Reg.FE_SNAP_CAL 0 (beBytes 1 code) with
    | (st, d) => (st, [], d)

/-- SNAP_CAL_ZERO (R170): a write of 1 starts the forced freezes at the zero level. -/
def execSnapCalZero (p : Port) (alive : BitVec 4) (s : State) : Result := s.on fun d => d.snapCalWrite p alive.toNat 1

/-- SNAP_CAL_FULL (R170): a write of 2 starts the forced freezes at the full-scale level, after ZERO_DONE. -/
def execSnapCalFull (p : Port) (alive : BitVec 4) (s : State) : Result := s.on fun d => d.snapCalWrite p alive.toNat 2

/-- SNAP_CAL_COMPUTE (R170): a write of 3 derives every cell's zero and gain, after FULL_DONE. -/
def execSnapCalCompute (p : Port) (alive : BitVec 4) (s : State) : Result := s.on fun d => d.snapCalWrite p alive.toNat 3

/-- SNAP_CAL_CLEAR (R170): a write of 4 makes every coefficient pair invalid and the status IDLE. -/
def execSnapCalClear (p : Port) (alive : BitVec 4) (s : State) : Result := s.on fun d => d.snapCalWrite p alive.toNat 4

end Sys2Proof.Machine
end

