-- ==== Sys2Proof/Machine/FastCommands.lean ====
section
/-! DEFINITION. Fast commands at the front end (R27, R28, R35, R39, R44, R199 to R201, R541): receipt, the order in
which the commands due at a slot execute, and the effect of each. -/

namespace Sys2Proof.Machine

/-- One thing a due fast command asks for: a whole command, or one entry of a CAL command. -/
structure DueItem where
  cmd : FeCmd
  entry : Option (Fin 64)
  action : Nat
  rank : Nat
deriving DecidableEq, Repr

/-- Commands a block counts as at the front end: one per entry of a CAL block, else one (R201). -/
def feCount : FcmdOp → Nat
  | .cal es => es.length
  | .bias _ _ | .mode _ | .cycleEnd | .inject | .tickPhase _ => 1

/-- (target cycle − own cycle) mod 256 (R44). -/
def FrontEnd.cycleDelta (f : FrontEnd) (cyc : Nat) : Nat := (cyc + 256 - f.cycLo) % 256

/-- The slot of a pending command's target, when it has been reached. -/
def FrontEnd.reached (f : FrontEnd) (now : Nat) (c : FeCmd) : Option Nat :=
  let dl := f.cycleDelta c.cyc
  if dl = 0 then if f.cycleStart + c.slot ≤ now then some (f.cycleStart + c.slot) else none
  else if 128 ≤ dl then some (f.prevStart + c.slot)
  else none

/-- The mirror entry in force (R200). -/
def FrontEnd.mirrorEntry (f : FrontEnd) (e : Nat) : MirrorEntry := tblRead (fun _ => {}) f.mirror e

/-- The place of a command without entries in the order of R199. -/
def opRank : FcmdOp → Nat
  | .mode _ => 0 | .cal _ => 1 | .bias _ _ => 4 | .inject => 6 | .tickPhase _ => 7 | .cycleEnd => 8

/-- Everything due at the current slot, in no order: target first, then R199's order, entry index, order of receipt. -/
def FrontEnd.dueItems (f : FrontEnd) (now : Nat) : List DueItem :=
  f.cmds.flatMap fun c =>
    match f.reached now c with
    | none => []
    | some t =>
      let base := t * 2 ^ 40
      match c.op with
      | .cal _ => c.left.map fun e =>
          let a := (f.mirrorEntry e.val).action
          { cmd := c, entry := some e, action := a, rank := base + min a 9 * 2 ^ 30 + e.val * 2 ^ 20 + c.order % 2 ^ 20 }
      | op => [{ cmd := c, entry := none, action := 0, rank := base + opRank op * 2 ^ 30 + c.order % 2 ^ 20 }]

/-- The thing the front end does next (R199). -/
def FrontEnd.nextDue (f : FrontEnd) (now : Nat) : Option DueItem := leastBy DueItem.rank (f.dueItems now)

/-- A due item taken off the front end's list and counted as executed (R201). -/
def FrontEnd.finish (f : FrontEnd) (i : DueItem) : FrontEnd :=
  let same := fun (c : FeCmd) => c.id == i.cmd.id && c.order == i.cmd.order
  let cmds := match i.entry with
    | none => f.cmds.filter fun c => !same c
    | some e => (f.cmds.map fun c => if same c then { c with left := c.left.erase e } else c).filter fun c =>
        !(same c && c.left.isEmpty)
  { f with cmds := cmds, executed := f.executed + 1 }

/-- Whether a due item does nothing in the mode in force and is passed over, counting only as executed (R200, R541). -/
def Dev.idleItem (d : Dev) (p : Port) (i : DueItem) : Bool :=
  match i.entry with
  | none => false
  | some _ =>
    !([1, 2, 3, 5].contains i.action) || !actionRuns i.action (d.fe p).mode (d.toldOf p Reg.SNAP_IN_ACQ == 1)

/-- The due items that do nothing, passed over up to the first that does something. -/
def Dev.passIdle (d : Dev) (p : Port) : Nat → Dev
  | 0 => d
  | n + 1 =>
    match (d.fe p).nextDue d.now with
    | none => d
    | some i => if d.idleItem p i then (d.setFe p ((d.fe p).finish i)).passIdle p n else d

/-- The device with idle due items passed over, and what is then due next. -/
def Dev.due (d : Dev) (p : Port) : Dev × Option DueItem :=
  let d := d.passIdle p (((d.fe p).dueItems d.now).length)
  (d, if (d.fe p).runs then (d.fe p).nextDue d.now else none)

/-- The next due item run by `g` when it is of the kind `k` selects; nothing when it is not, or when the slot has gone past
the fast commands (R141). -/
def Dev.runDue (d : Dev) (p : Port) (k : DueItem → Bool) (g : DueItem → Dev → Dev) : Dev :=
  if !d.inOrder p 1 then d
  else match d.due p with
    | (d, none) => d
    | (d, some i) => if k i then g i ((d.setFe p ((d.fe p).finish i)).atStep p 1) else d

/-- The mirror entry a CAL item names. -/
def Dev.itemEntry (d : Dev) (p : Port) (i : DueItem) : MirrorEntry :=
  match i.entry with
  | some e => (d.fe p).mirrorEntry e.val
  | none => {}

/-- Whether an item is a CAL entry with the action `a`. -/
def isAction (a : Nat) (i : DueItem) : Bool := i.entry.isSome && i.action == a

/-- FCMD_RECEIVE (R199, R44): an FCMD that passed R179 is dropped when its CMD_ID is in the history of 32; else it
enters the history and is held pending, or counted late when its target does not lie ahead. -/
def execFcmdReceive (p : Port) (id : BitVec 8) (op : FcmdOp) (cyc : BitVec 8) (slot : BitVec 20) (s : State) : Result :=
  s.on fun d =>
    let f := d.fe p
    if !f.hears || f.history.contains id.toNat then d
    else
      let f := { f with history := (id.toNat :: f.history).take 32 }
      let dl := f.cycleDelta cyc.toNat
      let ahead := (1 ≤ dl ∧ dl ≤ 127) ∨ (dl = 0 ∧ d.feSlot p < slot.toNat)
      if ahead then
        let left := match op with
          | .cal es => es
          | .bias _ _ | .mode _ | .cycleEnd | .inject | .tickPhase _ => []
        let c : FeCmd :=
          { id := id.toNat, op := op, cyc := cyc.toNat, slot := slot.toNat, order := f.cmdOrder, left := left }
        d.setFe p { f with cmds := f.cmds ++ [c], cmdOrder := f.cmdOrder + 1 }
      else d.setFe p { f with late := f.late + feCount op }

/-- The code of a MODE command as a mode. -/
def opMode : FcmdOp → Option Mode
  | .mode c => modeOf c.val
  | .cal _ | .bias _ _ | .cycleEnd | .inject | .tickPhase _ => none

/-- Freeze instants at or after a boundary into a mode without snapshots are cancelled and counted as missed (R172). -/
def Dev.cancelFreezes (d : Dev) (p : Port) : Dev :=
  let f := d.fe p
  let gone := f.freezes.filter fun z => 40 * d.now ≤ z.inst
  let d := d.setFe p { f with freezes := f.freezes.filter fun z => z.inst < 40 * d.now }
  forEach gone (fun z d => d.missTrigger p z) d

/-- Whether triggers produce freezes on a front end in a mode (R172). -/
def Dev.snapshotsIn (d : Dev) (p : Port) (m : Mode) : Bool :=
  m == .calibrate || m == .snapshot || ((m == .stream || m == .gated) && d.toldOf p Reg.SNAP_IN_ACQ == 1)

/-- PHASE_HOLD cleared everywhere, received or applied (R105). -/
def Dev.clearHolds (d : Dev) (p : Port) : Dev :=
  let held := fun (t : Tbl Nat) => ((objEntries t p.val Reg.FE_RG_TIME).filter fun ev => bit ev.2 2).map Prod.fst
  let d := forEach (held d.applied) (fun e d =>
    d.setAp p Reg.FE_RG_TIME e (setBit (d.ap p Reg.FE_RG_TIME e) 2 false)) d
  forEach (held d.regs) (fun e d => d.fset p Reg.FE_RG_TIME e (setBit (d.fget p Reg.FE_RG_TIME e) 2 false)) d

/-- A mode taken by a front end at its slot (R19, R105, R172, R483). Out of BOOT and SAFE every region without REGION_OFF
rests at SENTINEL (R66). -/
def Dev.feEnterMode (d : Dev) (p : Port) (m : Mode) : Dev :=
  if m = .boot ∨ m = .safe then (d.feReset p .lowPower).fset p Reg.FE_MODE 0 (modeCode m)
  else
    let asleep := (d.fe p).mode = .boot ∨ (d.fe p).mode = .safe
    let d := d.fset p Reg.FE_MODE 0 (modeCode m)
    let d := if asleep then forRange 256 (fun r d => d.commandLevel p r 1) d else d
    let d := d.updFe p fun f =>
      let f := { f with mode := m }
      f.updFrame (f.frameStart d.now) fun fr => { fr with marks := sendsMarkers m, hits := producesHits m }
    let d := if d.snapshotsIn p m then d else d.cancelFreezes p
    if m = .sentinel ∨ m = .stream ∨ m = .gated ∨ m = .snapshot then d.clearHolds p else d

/-- MODE_COMMAND (R541, R199): the MODE command due applies at the start of its target slot, before every other. -/
def execModeCommand (p : Port) (s : State) : Result :=
  s.on fun d => d.runDue p (fun i => (opMode i.cmd.op).isSome) fun i d =>
    match opMode i.cmd.op with
    | some m => d.feEnterMode p m
    | none => d

/-- QUEUE_RESET (R35, R150): region queues of the selected groups, and with bit 1 every column and lane queue. -/
def execQueueReset (p : Port) (s : State) : Result :=
  s.on fun d => d.runDue p (isAction 1) fun i d =>
    let e := d.itemEntry p i
    let d := if bit e.arg 0 then forEach (d.regionsIn p e.groups) (fun r d => d.resetRegion p r 1) d else d
    if bit e.arg 1 then
      let d := forEach (List.finRange 16) (fun c d => d.resetColumn p c 1) d
      forEach (List.finRange 4) (fun l d => d.resetLane p l 1) d
    else d

/-- PAIR_REFRESH (R96, R97): each channel of the selected groups that has not re-armed since the last refresh, or whose last
pair was invalid, and that is ARMED at tick 0 in a region not at OFF, is in REFRESH for 4 coarse ticks and takes the
measured pair under R94. What the cells measure is `pair`, but where `meas` names another for a channel. -/
def execPairRefresh (p : Port) (pair : BitVec 12 × BitVec 12) (meas : List (ChanNo × BitVec 12 × BitVec 12)) (s : State) :
    Result :=
  s.on fun d => d.runDue p (isAction 3) fun i d =>
    let groups := (d.itemEntry p i).groups
    let sel := fun (c : Nat) => bit groups (d.groupOf p (regionOf c))
    let on_ := (d.regionsIn p groups).filter fun r => ((d.fe p).region r).level != 0
    let due := fun (c : Nat) =>
      let ch := (d.fe p).chan c
      (!ch.rearmed || ch.lastInvalid) && ch.armedAt (8 * d.now)
    let refresh := fun (c : Nat) (d : Dev) =>
      let d := d.settleDead p c (8 * d.now)
      let f := d.fe p
      let m := ((meas.find? fun x => x.1.val == c).map Prod.snd).getD pair
      let ch := { f.chan c with st := .refresh, toWait := false, deadFrom := 8 * d.now, endTick := 8 * d.now + 4 }
      (d.setFe p (f.setChan c ch)).takePair p c m.1.toNat m.2.toNat
    let d := forEach ((on_.flatMap channelsOf).filter due) refresh d
    d.updFe p fun f => forEach f.busyChans (fun c f =>
      if sel c then f.setChan c { f.chan c with rearmed := false } else f) f

/-- CALENDAR_SNAPSHOT_TRIGGER (R35, R156): the entry names the freeze instant SNAP_CAL_DELAY sample periods after the
start of its slot; while a calibration phase runs the trigger counts as missed (R170). -/
def execCalendarSnapshotTrigger (p : Port) (s : State) : Result :=
  s.on fun d => d.runDue p (isAction 5) fun i d =>
    let e := d.itemEntry p i
    let rs := d.regionsIn p e.groups
    let f := d.fe p
    let slot := (f.reached d.now i.cmd).getD d.now
    d.nameFreeze p
      { inst := 40 * slot + d.ap p Reg.SNAP_CAL_DELAY, source := 0, regions := maskOf rs, samplers := field e.arg 3 0 }

/-- The group mask and level of a BIAS command. -/
def opBias : FcmdOp → Option (Nat × Nat)
  | .bias g l => some (g.toNat, l.val)
  | .cal _ | .mode _ | .cycleEnd | .inject | .tickPhase _ => none

/-- The wake requests of a group end when a BIAS command for it executes (R361). -/
def FrontEnd.endWakes (f : FrontEnd) (groups : Nat) : FrontEnd :=
  { f with wakeSetAt := forEach (bitsOf groups 16) (fun g t => tblDrop t g) f.wakeSetAt }

/-- BIAS_COMMAND (R66, R68, R541): every BIAS command due with the same target executes; of two for one group the one
received later is applied. Each region takes the level its cap allows and starts to settle. -/
def execBiasCommand (p : Port) (s : State) : Result :=
  s.on fun d => d.runDue p (fun i => (opBias i.cmd.op).isSome) fun i d =>
    let f := d.fe p
    let others := f.cmds.filter fun c => (opBias c.op).isSome && f.reached d.now c == f.reached d.now i.cmd
    let f' := { f with cmds := f.cmds.filter (fun c => !others.contains c), executed := f.executed + others.length }
    let all := (i.cmd :: others).filterMap fun c => opBias c.op
    let levelOf := fun (g : Nat) => ((all.filter fun b => bit b.1 g).getLast?).map Prod.snd
    let d := d.setFe p (f'.endWakes (maskOf ((List.range 16).filter fun g => (levelOf g).isSome)))
    forEach (List.range 256) (fun r d =>
      match levelOf (d.groupOf p r) with
      | some l =>
        let capped := decide ((d.fe p).fenceOf (d.groupOf p r) < l)
        let d := d.commandLevel p r l
        if capped then d.updFe p fun f => { f with fenceActed := true } else d
      | none => d) d

/-- CYCLE_END_COMMAND (R28): the front end ends its cycle at the targeted slot and discards, counting each, every
pending command whose target no longer lies ahead. -/
def execCycleEndCommand (p : Port) (s : State) : Result :=
  s.on fun d => d.runDue p (fun i => i.cmd.op == .cycleEnd) fun i d =>
    let f := d.fe p
    let stop := (f.reached d.now i.cmd).getD d.now
    let gone := f.cmds.filter fun c => f.cycleDelta c.cyc == 0
    let n := sumBy (fun c => if c.left.isEmpty then 1 else c.left.length) gone
    let f := { f with endAt := some stop, cmds := f.cmds.filter (fun c => f.cycleDelta c.cyc != 0)
                      discarded := f.discarded + n }
    let cut := fun (fr : FeFrame) =>
      if !fr.ended && decide (stop < fr.stop) then { fr with stop := stop, short := true } else fr
    d.setFe p { f with frames := f.frames.map cut }

/-- The test charge of a channel (R71, R82): the coarse tick INJ_DELAY, and INJ_AMP steps of the region's gain range in aC,
25 in HIGH and 200 in LOW, with the sign of SLOPE. -/
def Dev.testCharge (d : Dev) (p : Port) (c : Nat) : Nat × Nat × Int :=
  let w := d.rgWord p (regionOf c)
  let q : Int := (field w 25 16 * (if bit w 10 then 200 else 25) : Nat)
  (c, field w 28 26, if bit w 11 then q else -q)

/-- INJECT_COMMAND (R71, R72, R74): at the target slot the test charge in every channel with INJ_EN whose region is not at
OFF; outside CALIBRATE the command is late and does nothing. -/
def execInjectCommand (p : Port) (s : State) : Result :=
  s.on fun d => d.runDue p (fun i => i.cmd.op == .inject) fun i d =>
    let f := d.fe p
    if f.mode = .calibrate then
      let cs := (objEntries d.applied p.val Reg.FE_CH_ANA).filter fun ev =>
        bit ev.2 6 && (f.region (regionOf ev.1)).level != 0
      d.emit (.injection p.val ((f.reached d.now i.cmd).getD d.now) (cs.map fun ev => d.testCharge p ev.1))
    else d.setFe p { f with executed := f.executed - 1, late := f.late + 1 }

/-- TICK_PHASE_COMMAND (R212): the front end's grid moves by the named half coarse ticks at the target slot. -/
def execTickPhaseCommand (p : Port) (s : State) : Result :=
  s.on fun d => d.runDue p (fun i => opRank i.cmd.op == 7) fun i d =>
    match i.cmd.op with
    | .tickPhase h => d.updFe p fun f => { f with tickPhase := f.tickPhase + h }
    | .cal _ | .bias _ _ | .mode _ | .cycleEnd | .inject => d

end Sys2Proof.Machine
end

