-- ==== Sys2Proof/Machine/Readout.lean ====
section
/-! DEFINITION. Region readout, queues and the flood guard (chapter 5): the three arbiters (R121 to R124), frame
completion and close (R138 to R140), packets (R133 to R135), queue resets by pointer mismatch (R150), the flood guards
(R143 to R149) and the configuration storage (R151). -/

namespace Sys2Proof.Machine

/-! ### Arbiters -/

/-- The rank of an input with age key `key` at a round-robin place `k` of `n` whose last grant was `last`: oldest
first, and among equals the first after the last granted (R123). -/
def grantRank (n last key k : Nat) : Nat := key * n + (k + n - last - 1) % n

/-- Whether an entry yields a hit record (R142): the frame it belongs to is one of a mode that produces them. -/
def FrontEnd.keeps (f : FrontEnd) (c : Nat) (e : HitEntry) : Bool :=
  ((f.frameAt (f.hitPlace c e)).map FeFrame.hits).getD false

/-- Whether the region arbiter may take an entry: it is complete, its frame has begun (R101), and its cycle is the present or
the previous one when it yields a record (R104). -/
def FrontEnd.readable (f : FrontEnd) (c : Nat) (e : HitEntry) : Bool :=
  e.complete && (f.frames.isEmpty || (f.frameAt (f.hitPlace c e)).isSome)
    && (!f.keeps c e || decide (f.prevStart ≤ e.cycleAt))

/-- REGION_READOUT (R121, R123, R142): the arbiter of a region reads its oldest completed entry, once a slot, and
writes the finished record into the region queue; an entry of a frame without hit records is dropped, also when the queue is
full. -/
def execRegionReadout (p : Port) (r : RegionNo) (s : State) : Result :=
  s.on fun d =>
    let f := d.fe p
    let g := f.region r.val
    let chanOf := fun (k : Nat) => (channelsOf r.val).getD k 0
    let head := fun (k : Nat) => ((f.chan (chanOf k)).queue.head?).filter (f.readable (chanOf k))
    let fits := fun (k : Nat) (e : HitEntry) => g.hasSpace || !f.keeps (chanOf k) e
    let cands := (List.range 16).filterMap fun k => ((head k).filter (fits k)).map fun e => (k, e)
    if !f.runs || g.readAt == some d.now || !d.inOrder p 5 then d
    else match leastBy (fun c => grantRank 16 g.lastChan (c.2.leadTick / 8) c.1) cands with
      | none => d
      | some (k, e) =>
        let c := chanOf k
        let keep := f.keeps c e
        let ch := f.chan c
        let q := d.hitOf p c e
        let f := f.setChan c (ch.setQueue g d.now (ch.queue.drop 1))
        let f := if keep then f else f.letGo d.now [q.frame]
        let g := { g with readAt := some d.now, lastChan := k }
        let g := if keep then g.setQueue d.now (g.queue ++ [q]) else g
        ((d.setFe p (f.setRegion r.val g)).atStep p 5).unblock p c

/-- COLUMN_ARBITER_MOVE (R121, R123): once a slot, the oldest head of the column's region queues moves into the column
queue of 256 records. -/
def execColumnArbiterMove (p : Port) (c : Fin 16) (s : State) : Result :=
  s.on fun d =>
    let f := d.fe p
    let heads := (List.range 16).filterMap fun k =>
      ((f.region (k * 16 + c.val)).queue.head?).map fun q => (k, q)
    let col := f.columns[c.val]
    if !f.runs || f.colMoved[c.val] == some d.now || decide (256 ≤ col.length) || !d.inOrder p 5 then d
    else match leastBy (fun x => grantRank 16 f.colLast[c.val] x.2.key x.1) heads with
      | none => d
      | some (k, q) =>
        let r := k * 16 + c.val
        let g := f.region r
        let f := f.setRegion r (g.setQueue d.now (g.queue.drop 1))
        (d.setFe p { f with columns := f.columns.set c.val (col ++ [q]), colLast := f.colLast.set c.val k
                            colMoved := f.colMoved.set c.val (some d.now) }).atStep p 5

/-- The lane that takes the next record of a frame (R124): active, not full, fewer than 4 records dealt to it in this
slot; the one with the fewest records, the lowest on a tie. -/
def FrontEnd.dealLane (f : FrontEnd) (frame : Nat) : Option Lane :=
  leastBy (fun (l : Lane) => f.lanes[l.val].fill)
    ((List.finRange 4).filter fun l =>
      f.lanes[l.val].activeFor frame && decide (f.lanes[l.val].fill < 1022) && decide (f.dealt.count l.val < 4))

/-- A record placed in a lane output queue; its frame was still held at the start of the slot (R138). -/
def FrontEnd.dealTo (f : FrontEnd) (now : Nat) (l : Lane) (q : QRec) : FrontEnd :=
  { f.updFrame q.frame (fun fr => { fr with heldAt := some now }) with
    lanes := f.lanes.set l.val (f.lanes[l.val].place now (.entry q)), dealt := l.val :: f.dealt }

/-- One record dealt (R124): the record queue first, then the oldest column head. -/
def FrontEnd.dealOne (f : FrontEnd) (now : Nat) : FrontEnd :=
  match f.records with
  | q :: rest =>
    match f.dealLane q.frame with
    | some l => { f with records := rest }.dealTo now l q
    | none => f
  | [] =>
    let heads := (List.finRange 16).filterMap fun c => (f.columns[c.val].head?).map fun q => (c, q)
    match leastBy (fun x => grantRank 16 f.dealLast x.2.key x.1.val)
        (heads.filter fun x => (f.dealLane x.2.frame).isSome) with
    | none => f
    | some (c, q) =>
      match f.dealLane q.frame with
      | some l =>
        { f with columns := f.columns.set c.val (f.columns[c.val].drop 1), dealLast := c.val }.dealTo now l q
      | none => f

/-- DEALER_DEAL (R121, R124): in one slot at most 8 records, at most 4 into any lane. -/
def execDealerDeal (p : Port) (s : State) : Result :=
  s.on fun d =>
    let f := d.fe p
    if !f.runs || f.dealtAt == some d.now || !d.inOrder p 5 then d
    else (d.setFe p (forRange 8 (fun _ f => f.dealOne d.now) { f with dealtAt := some d.now, dealt := [] })).atStep p 5

/-! ### Frame completion and close -/

/-- Whether a channel, a region, a column or the record queue still holds something of a frame (R138), entries and pulses by
their corrected leading edge (R101). A pulse in PULSE counts until the frame is closed (R139), also when its entry has been
read out. -/
def FrontEnd.holds (f : FrontEnd) (fr : FeFrame) : Bool :=
  let of_ := fun (q : List QRec) => q.any fun r => r.frame == fr.start
  let pulse := fun (c : Nat) (ch : Chan) => ch.st == .pulse && f.pulsePlace c ch == fr.start
  f.chans.any (fun e => e.2.queue.any (fun h => f.hitPlace e.1 h == fr.start) || (!fr.closed && pulse e.1 e.2))
    || f.regions.any (fun e => of_ e.2.queue) || f.columns.toList.any of_ || of_ f.records

/-- FRAME_COMPLETE (R138, R140, R141): the oldest frame has ended and nothing of it was held upstream at the start of the slot;
its marker goes to every active lane in a mode that sends markers, last in the slot. -/
def execFrameComplete (p : Port) (s : State) : Result :=
  s.on fun d =>
    let f := d.fe p
    match f.frames with
    | [] => d
    | fr :: rest =>
      if !f.runs || !fr.ended || decide (d.now < fr.stop) || f.holds fr || fr.heldAt == some d.now then d
      else
        let m : Marker :=
          { frame := fr.start, idx := fr.idx, cyc := fr.cyc, dead := fr.deadUnits, short := fr.short, ovf := fr.ovf
            floodOpen := fr.floodOpen, dtSat := fr.dtSat }
        let deal := fun (l : FeLane) => if l.activeFor fr.start then l.place d.now (.marker m) else l
        (d.setFe p { f with frames := rest, lanes := if fr.marks then f.lanes.map deal else f.lanes }).atStep p 6

/-- The hits of a frame held in the channel, region and column queues, per region, the regions rising (log entry 181). -/
def FrontEnd.held (f : FrontEnd) (frame : Nat) : List (Nat × Nat) :=
  let inQueues := fun (q : List QRec) => (q.filter fun r => r.hit && r.frame == frame).map QRec.region
  let all := f.chans.flatMap (fun e => (e.2.queue.filter fun h => f.hitPlace e.1 h == frame).map fun _ => regionOf e.1)
    ++ f.regions.flatMap (fun e => inQueues e.2.queue) ++ f.columns.toList.flatMap inQueues
  (all.dedup.insertionSort (· ≤ ·)).map fun r => (r, all.count r)

/-- Every hit of a frame discarded from the channel, region and column queues (R139). -/
def Dev.discardFrame (d : Dev) (p : Port) (frame : Nat) : Dev :=
  let d := forEach ((d.fe p).regions.map Prod.fst) (fun r d => d.noteFlood p r) d
  let f := (d.fe p).letGo d.now [frame]
  let keep := fun (q : List QRec) => q.filter fun r => !(r.hit && r.frame == frame)
  let here := f.hitPlace
  let chs := (f.chans.filter fun e => e.2.queue.any fun h => here e.1 h == frame).map Prod.fst
  let f := forEach chs (fun c f =>
    let ch := f.chan c
    f.setChan c (ch.setQueue (f.region (regionOf c)) d.now (ch.queue.filter fun h => here c h != frame))) f
  let f := forEach (f.regions.map Prod.fst) (fun r f => f.updRegion r fun g => g.setQueue d.now (keep g.queue)) f
  let d := d.setFe p { f with columns := f.columns.map keep }
  forEach chs (fun c d => d.unblock p c) d

/-- FRAME_CLOSE_DEADLINE (R139): FRAME_CLOSE slots after its end a frame that is not complete loses its held hits,
counted per region and reported in LOSS records. -/
def execFrameCloseDeadline (p : Port) (s : State) : Result :=
  s.on fun d =>
    let f := d.fe p
    let fc := d.ap p Reg.FE_FRAME_CLOSE
    match f.frames.find? fun fr => fr.ended && !fr.closed && decide (fr.stop + fc ≤ d.now + 1) && f.holds fr with
    | none => d
    | some fr =>
      if !f.runs || !d.inOrder p 3 then d
      else
        let lost := if fr.hits then f.held fr.start else []
        let d := d.discardFrame p fr.start
        let d := forEach lost (fun rn d =>
          (d.fbump p Reg.FE_RG_CLOSE_LOSS rn.1 rn.2).feRecord p (lossRecord .frameClose rn.1 rn.2) rn.1 fr.start) d
        let d := d.fbump p Reg.FE_CLOSE_DL
        (d.updFe p fun f => f.updFrame fr.start fun fr => { fr with closed := true }).atStep p 3

/-! ### Packets -/

/-- PACKET_WAIT_EXPIRE (R134): Packet Wait slots after its first record a lane's packet may close part-full. -/
def execPacketWaitExpire (p : Port) (l : Lane) (s : State) : Result :=
  s.on fun d =>
    let f := d.fe p
    let ln := f.lanes[l.val]
    if f.runs && !ln.queue.isEmpty && decide (ln.since + d.ap p Reg.FE_PKT_WAIT ≤ d.now) then
      d.setFe p { f with lanes := f.lanes.set l.val { ln with due := true } }
    else d

/-- The frame of a lane output item. -/
def LaneItem.frame : LaneItem → Nat
  | .entry r => r.frame
  | .marker m => m.frame

/-- Frame index and low cycle bits of a lane output item. -/
def LaneItem.name : LaneItem → Nat × Nat
  | .entry r => (r.idx, r.cyc)
  | .marker m => (m.idx, m.cyc)

/-- Whether the item is a frame marker. -/
def LaneItem.isMarker : LaneItem → Bool
  | .entry _ => false
  | .marker _ => true

/-- The items of the packet in progress, and whether an event other than Packet Wait closes it (R134). -/
def packetPrefix (frame : Nat) : Nat → List LaneItem → List LaneItem × Bool
  | 0, _ => ([], true)
  | _ + 1, [] => ([], false)
  | n + 1, i :: rest =>
    if i.frame ≠ frame then ([], true)
    else if i.isMarker then ([i], true)
    else
      let x := packetPrefix frame n rest
      (i :: x.1, x.2)

/-- Whether a lane may send (R135, R188, R214): a credit held, room in the replay buffer, its physical lane up. -/
def Dev.laneReady (d : Dev) (p : Port) (l : Nat) : Bool :=
  let f := d.fe p
  let ln := f.lanes.toList.getD l {}
  let credits := (ln.credit + 256 - ln.sent) % 256
  let phys := field f.laneMap (3 * l + 2) (3 * l)
  decide (1 ≤ credits ∧ credits ≤ 128) && decide (ln.replay.length < 64)
    && (((d.port p).uls.toList.getD phys {}).up)

/-- A packet sent on a lane and kept in its replay buffer (R188): it takes a sequence number and a credit. -/
def Dev.sendPacket (d : Dev) (p : Port) (l : Lane) (kind frame idx cyc : Nat) (payload : Payload) : Dev :=
  let f := d.fe p
  let ln := f.lanes[l.val]
  let k : RPacket :=
    { seq := ln.nextSeq, kind := kind, frame := frame, frameIdx := idx, cycLo := cyc, payload := payload, tx := 1
      lastTx := d.now }
  let ln := { ln with nextSeq := (ln.nextSeq + 1) % 4096, sent := (ln.sent + 1) % 256, replay := ln.replay ++ [k]
                      sinceSnap := if kind = 1 then 0 else ln.sinceSnap + 1 }
  (d.setFe p { f with lanes := f.lanes.set l.val ln }).emit (.packet p.val l.val k.seq kind idx cyc payload)

/-- A lane output item as it leaves the queue: the count of its lane's hits goes into a marker (R140). -/
def FeLane.takeItem (l : Lane) (ln : FeLane) (i : LaneItem) : FeLane × Record :=
  match i with
  | .entry r =>
    (if r.hit then { ln with placed := tblWrite (fun _ => 0) ln.placed r.frame (ln.hitsOf r.frame + 1) } else ln, r.bits)
  | .marker m =>
    ({ ln with placed := tblDrop ln.placed m.frame },
      markerRecord m.idx (ln.hitsOf m.frame) m.dead l.val m.short m.ovf m.floodOpen m.dtSat)

/-- PACKET_SEND (R133 to R135, R140): a lane with a credit closes the packet at the head of its output queue and
sends it. -/
def execPacketSend (p : Port) (l : Lane) (s : State) : Result :=
  s.on fun d =>
    let f := d.fe p
    let ln := f.lanes[l.val]
    match ln.queue with
    | [] => d
    | i :: _ =>
      let (items, closed) := packetPrefix i.frame 128 ln.queue
      if !f.runs || !(closed || ln.due) || !d.laneReady p l.val then d
      else
        let take := fun (acc : FeLane × List Record) (i : LaneItem) =>
          let x := acc.1.takeItem l i
          (x.1, acc.2 ++ [x.2])
        let (ln, rs) := items.foldl take (ln, [])
        let ln := { ln with queue := ln.queue.drop items.length, since := d.now, due := false }
        let d := d.setFe p { f with lanes := f.lanes.set l.val ln }
        d.sendPacket p l 0 i.frame i.name.1 i.name.2 (.records rs)

/-! ### Queue resets -/

/-- QUEUE_POINTER_MISMATCH (R51, R120, R150, R167): the queue named resets, with its records and counts. -/
def execQueuePointerMismatch (p : Port) (q : FeQueue) (s : State) : Result :=
  s.on fun d =>
    if !(d.fe p).runs || !d.inOrder p 2 then d
    else
      let d := d.atStep p 2
      match q with
      | .channel c => d.resetChannel p c.val 0
      | .region r => d.resetRegion p r.val 0
      | .column c => d.resetColumn p c 0
      | .lane l => d.resetLane p l 0
      | .record => d.resetRecordQueue p
      | .snapshot => d.resetSnapQueue p

/-! ### Flood guards -/

/-- FLOOD_ENTER (R143, R144): a region in NORMAL with its guard enabled meets the condition and enters FLOOD. -/
def execFloodEnter (p : Port) (r : RegionNo) (s : State) : Result :=
  s.on fun d =>
    let f := d.fe p
    if !f.runs || (f.region r.val).flood || !d.floodDue p r.val || !d.inOrder p 4 then d
    else
      let d := (d.atStep p 4).settleAll p (channelsOf r.val) (8 * d.now)
      let d := d.updFe p fun f => f.updRegion r.val fun g =>
        { g with flood := true, floodFrom := d.now, startDealt := false, suppressed := 0 }
      ((d.fset p Reg.FE_RG_FLOOD r.val 1).fbump p Reg.FE_RG_FLOOD_CNT r.val).chipWatch p

/-- FLOOD_EXIT (R145): FLOOD_QUIET slots in a row without a leading edge. -/
def execFloodExit (p : Port) (r : RegionNo) (s : State) : Result :=
  s.on fun d =>
    let g := (d.fe p).region r.val
    if g.flood && decide (max (g.lastEdge + 1) g.floodFrom + d.ap p Reg.FLOOD_QUIET ≤ d.now) && d.inOrder p 4 then
      (d.atStep p 4).floodLeave p r.val
    else d

/-- CHIP_FLOOD_ENTER (R148): more than FLOOD_CHIP_N regions have been in FLOOD since before this slot. -/
def execChipFloodEnter (p : Port) (s : State) : Result :=
  s.on fun d =>
    let f := d.fe p
    if !f.runs || f.chipFlood || !(f.chipBefore d.now).1 || !d.inOrder p 4 then d
    else
      let rec_ := floodRecord f.floodCount (f.timeIn d.now 0) 0 .chipStart
      let d := ((d.setFe p { f with chipFlood := true, chipSuppr := 0 }).atStep p 4).feRecord p rec_ 0 (f.frameStart d.now)
      (d.fset p Reg.FE_CHIP_FLOOD 0 1).fbump p Reg.FE_CHIP_FLOOD_CNT

/-- CHIP_FLOOD_EXIT (R148): FLOOD_QUIET slots in a row with no more than FLOOD_CHIP_N regions in FLOOD. -/
def execChipFloodExit (p : Port) (s : State) : Result :=
  s.on fun d =>
    let f := d.fe p
    let (over_, since) := f.chipBefore d.now
    if f.chipFlood && !over_ && decide (since + d.ap p Reg.FLOOD_QUIET ≤ d.now) && d.inOrder p 4 then
      let rec_ := floodRecord f.floodCount (f.timeIn d.now 0) f.chipSuppr .chipEnd
      let d := ((d.setFe p { f with chipFlood := false, chipSuppr := 0 }).atStep p 4).feRecord p rec_ 0 (f.frameStart d.now)
      d.fset p Reg.FE_CHIP_FLOOD 0 0
    else d

/-! ### Configuration storage -/

/-- The messages that rewrite a region's configuration words from the Keeper's mirror (R151, R427), Region Flood Enable
last. -/
def Dev.regionRewrite (d : Dev) (p : Port) (r : Nat) : List CfgMsg :=
  let one := fun (a e : Nat) => cfgMsg 1 a e (wordBytes a (d.mir p a e)) .rewrite
  (channelsOf r).map (one Reg.FE_CH_ANA)
    ++ [one Reg.FE_RG_ANA r, one Reg.FE_RG_TIME r, one Reg.FE_RG_PHASE_OFS r, one Reg.FE_RG_FLOOD_EN r]

/-- CONFIG_FAULT (R151): an uncorrectable configuration word blocks the region's outputs, is reported, and the
concentrator rewrites the region. -/
def execConfigFault (p : Port) (r : RegionNo) (s : State) : Result :=
  s.on fun d =>
    if !(d.fe p).runs then d
    else
      let d := d.settleAll p (channelsOf r.val) (8 * d.now)
      let d := forEach (channelsOf r.val) (fun c d => d.cutPulse p c) d
      let d := d.updFe p fun f => f.updRegion r.val fun g => { g with cfgFault := true, cfgRewritten := false }
      let d := (d.feStatusRecord p .configFault r.val 0 0).fbump p Reg.FE_RG_CFG_FLT r.val
      (d.log p.val 0x0504 r.val).cfgQueue p (d.regionRewrite p r.val)

/-- CONFIGURATION_CORRECTION (R151, R171): a single-bit error in a configuration or coefficient word is corrected and
counted. -/
def execConfigurationCorrection (p : Port) (r : RegionNo) (s : State) : Result :=
  s.on fun d => if (d.fe p).runs then d.fbump p Reg.FE_RG_CFG_COR r.val else d

end Sys2Proof.Machine
end

