-- ==== Sys2Proof/Machine/Snapshots.lean ====
section
/-! DEFINITION. Snapshot waveform capture in a front end (chapter 6): triggers and freeze events (R156 to R160),
conversion and transfer (R162 to R164), headers and packets (R165 to R167), and calibration (R169 to R171). -/

namespace Sys2Proof.Machine

/-- PULSE_WIDTH_TRIGGER (R156, R157): a pulse of a source region has lasted PW_WIDTH ticks; the freeze instant follows
2 ticks and SNAP_PW_DELAY sample periods after that clock edge. Once per pulse. -/
def execPulseWidthTrigger (p : Port) (c : ChanNo) (s : State) : Result :=
  s.on fun d =>
    let f := d.fe p
    let r := regionOf c.val
    let ch := f.chan c.val
    let w := d.snapWord p r
    let edge := ch.edgeTick + d.ap p Reg.SNAP_PW_WIDTH + 1
    if !f.runs || !ch.high || ch.pwDone || !bit w 30 || d.masked p c.val || !(f.region r).senses
        || decide (8 * d.now + 7 < edge) then d
    else
      let f := f.setChan c.val { ch with pwDone := true }
      let regions := if bit w 29 then 2 ^ 256 - 1 else 2 ^ r
      let d := d.setFe p f
      if !d.snapshotsIn p f.mode then d
      else d.nameFreeze p
        { inst := 5 * (edge + 2) + d.ap p Reg.SNAP_PW_DELAY, source := 1, regions := regions, samplers := 15 }

/-- Whether the region was settling at some sample of the window that ends at sample period `inst` (R165). -/
def Dev.settledWithin (d : Dev) (p : Port) (r inst : Nat) : Bool :=
  let f := d.fe p
  let g := f.region r
  let first := (inst - 127) / 40
  (decide (first < g.settleUntil) && decide (g.settleFrom ≤ inst / 40)) || decide (first < g.cfgUntil)
    || (channelsOf r).any fun c => decide (first < (f.chan c).settleUntil)

/-- Whether a sampler can freeze at sample period `inst` (R153, R155). -/
def FrontEnd.canFreeze (f : FrontEnd) (e inst : Nat) : Bool :=
  let sm := f.sampler e
  sm.st == .armed && decide (sm.armedAt ≤ inst) && (f.region (e / 4)).level != 0

/-- The samplers of one region frozen by the freeze event of the triggers `zs`; one that is not armed misses each trigger that
selects it, also when it is disabled or its region is at OFF (R158, R159, R165, R166, log entry 126). -/
def Dev.freezeRegion (d : Dev) (p : Port) (inst source event : Nat) (r : Nat) (zs : List Freeze) : Dev :=
  let f := d.fe p
  let times := fun (s : Nat) => (zs.filter fun y => (d.selects p y r).contains s).length
  let sel := (List.range 4).filter fun s => times s != 0
  let hit := sel.filter fun s => f.canFreeze (r * 4 + s) inst
  let miss := sel.filter fun s => !f.canFreeze (r * 4 + s) inst
  let settling := d.settledWithin p r inst
  let slot := inst / 40
  let frame := f.frameStart slot
  let valid := fun (s : Nat) => min 128 (inst + 1 - (f.sampler (r * 4 + s)).armedAt)
  let corr := if slot < f.cycleStart then (f.region r).prevCorr else (f.region r).corr
  let freeze := fun (s : Nat) (d : Dev) =>
    let f := d.fe p
    let e := r * 4 + s
    let sm := f.sampler e
    let (stop, d) := d.draw
    let info : SnapInfo :=
      { event := event, source := source, input := snapSel sm.word s, raw := bit sm.word 20, inst := inst
        frame := frame, frameIdx := f.frameIdx frame, cycLo := f.frameCyc frame, phase := corr, settling := settling
        valid := valid s, missed := sm.missed, dead := sm.deadSlots, lostBefore := sm.lostBefore }
    d.setFe p (f.setSampler e
      { sm with st := .frozen, frozenAt := inst, owes := true, missed := 0, lostBefore := false, info := some info
                stopCell := stop % 128 })
  let skip := fun (s : Nat) => (s, times s)
  let d := forEach (miss.map skip) (fun x d => d.missSampler p r x.1 x.2) (forEach hit freeze d)
  if hit.isEmpty then d
  else
    let h := snapHeaderRecord r (maskOf hit) source (slot - frame) (inst % 40 / 5) (inst % 5) event
      (hit.any fun s => decide (valid s < 128)) settling (!miss.isEmpty)
    d.feRecord p h r frame

/-- The next freeze of a calibration phase (R170): every sampler that is armed freezes for it at the start of its slot. It
is no freeze event: it deals no header and takes no event number (log entry 123). A phase goes on when CALIBRATE is left (log
entry 182). -/
def FrontEnd.calFreeze (f : FrontEnd) : FrontEnd :=
  let at_ := 40 * f.calNext
  let one := fun (sm : Sampler) => { sm with st := .frozen, frozenAt := at_, owes := true, forCal := true }
  let es := (f.samplers.map Prod.fst).filter fun e => f.canFreeze e at_
  forEach es (fun e f => f.setSampler e (one (f.sampler e))) { f with calLeft := f.calLeft - 1, calNext := f.calNext + 160 }

/-- FREEZE_EVENT (R158, R170): the triggers that name the earliest freeze instant reached form one event with one event
number and the lowest source code, also when every sampler selected misses it (log entry 183). While a calibration phase runs
its own freezes take place instead, and a trigger whose instant is reached is missed. -/
def execFreezeEvent (p : Port) (s : State) : Result :=
  s.on fun d =>
    let f := d.fe p
    let busy := d.fget p Reg.FE_SNAP_CAL_STAT == 1
    let named := (leastBy Freeze.inst f.freezes).filter fun z => decide (z.inst ≤ 40 * d.now + 39)
    let cal := busy && decide (0 < f.calLeft) && decide (f.calNext ≤ d.now)
      && named.all fun z => decide (40 * f.calNext ≤ z.inst)
    if !f.runs then d
    else if cal then d.setFe p f.calFreeze
    else match named with
    | none => d
    | some z =>
        let zs := f.freezes.filter fun y => y.inst == z.inst
        let d := d.setFe p { f with freezes := f.freezes.filter fun y => y.inst != z.inst }
        if busy then forEach zs (fun y d => d.missTrigger p y) d
        else
          let source := zs.foldl (fun a y => min a y.source) 3
          let event := f.eventNo
          let d := (d.updFe p fun f => { f with eventNo := (event + 1) % 256 }).fbump p Reg.FE_SNAP_EVENTS
          forRange 256 (fun r d =>
            if zs.any fun y => !(d.selects p y r).isEmpty then d.freezeRegion p z.inst source event r zs else d) d

/-- A calibration freeze converted (R170, R173): the raw codes are added to the running phase's sums, and the sampler re-arms as
after a transfer that found its bus free, with the snapshot word `w` then in force. -/
def FrontEnd.calConvert (f : FrontEnd) (e w : Nat) (codes : List (BitVec 12)) : FrontEnd :=
  let add := fun (t : Tbl Nat) => forEach codes.zipIdx (fun x t =>
    let k := e * 128 + x.2
    tblPut t k (tblRead (fun _ => 0) t k + x.1.toNat)) t
  let f := if f.snapCal = 1 then { f with zeroSums := add f.zeroSums } else { f with fullSums := add f.fullSums }
  let sm := f.sampler e
  let free := sm.frozenAt + 40 * 136
  let st := if bit w (21 + e % 4) then SampSt.armed else .idle
  f.setSampler e { sm with st := st, armedAt := free, freeAt := free, forCal := false, word := w, wordWas := sm.word }

/-- SNAPSHOT_CONVERSION_COMPLETE (R162): 112 slots after its freeze a sampler's 128 raw codes, by cell, are latched and
it waits for its column's bus. -/
def execSnapshotConversionComplete (p : Port) (e : Fin 1024) (codes : List (BitVec 12)) (s : State) : Result :=
  s.on fun d =>
    let f := d.fe p
    let sm := f.sampler e.val
    if sm.st = .frozen ∧ sm.frozenAt + 40 * 112 ≤ 40 * d.now + 39 then
      if sm.forCal then d.setFe p (f.calConvert e.val (d.snapWord p (e.val / 4)) codes)
      else d.setFe p (f.setSampler e.val { sm with st := .converted, codes := codes.map BitVec.toNat })
    else d

/-- A raw code corrected by a cell's pair (R169): the code, and whether it was clipped. -/
def correctCode (raw z g : Nat) : Nat × Bool :=
  let v := 256 + roundHalfUp (((raw : Int) * 16 - z) * g) 262144
  ((limit 0 4095 v).toNat, decide (v < 0 ∨ 4095 < v))

/-- A sampler's snapshot as it is copied to the snapshot queue (R161, R166, R169). CAL_FAULT is judged over the valid cells,
also with RAW set (log entry 127). -/
def FrontEnd.snapItem (f : FrontEnd) (e : Nat) (i : SnapInfo) (ready : Nat) : SnapItem :=
  let sm := f.sampler e
  let cell := fun (j : Nat) => (sm.stopCell + 1 + j) % 128
  let coef := fun (j : Nat) => tblRead (fun _ => 0) f.coefs (e * 128 + cell j)
  let one := fun (j : Nat) =>
    let raw := sm.codes.getD (cell j) 0
    let w := coef j
    if j + i.valid < 128 then (0, false)
    else if i.raw ∨ w % 65536 = 0 then (raw, false)
    else correctCode raw (w / 65536) (w % 65536)
  let xs := (List.range 128).map one
  let fault := (List.range 128).any fun j => decide (128 ≤ j + i.valid) && coef j % 65536 == 0
  let slot := i.inst / 40
  { region := e / 4, sampler := e % 4, frame := i.frame, frameIdx := i.frameIdx, cycLo := i.cycLo
    descriptor := snapDescriptor i.event (e / 4) (e % 4) i.input i.raw i.cycLo i.frameIdx (slot - i.frame)
      (i.inst % 40 / 5) (i.inst % 5) sm.stopCell i.valid i.phase i.source i.settling fault i.missed i.dead
      (xs.filter Prod.snd).length i.lostBefore
    samples := xs.map Prod.fst, ready := ready }

/-- SNAPSHOT_BUS_GRANT (R162 to R164, R173): the column's bus takes the sampler waiting with the oldest freeze, then lowest
region and sampler, while the snapshot queue of 64 has room, at the sample period of this slot in which its conversion is
complete and the bus is free; 24 slots later it is copied and re-arms with the configuration then in force. -/
def execSnapshotBusGrant (p : Port) (e : Fin 1024) (s : State) : Result :=
  s.on fun d =>
    let f := d.fe p
    let sm := f.sampler e.val
    let col := (e.val / 4) % 16
    let waiting := f.samplers.filter fun x => x.1 / 4 % 16 == col && x.2.st == .converted
    let next := leastBy (fun x => x.2.frozenAt * 1024 + x.1) waiting
    match sm.info with
    | none => d
    | some i =>
      let free := max (sm.frozenAt + 40 * 112) (f.busFree.toList.getD col 0)
      if !f.runs || (next.map Prod.fst) != some e.val || decide (64 ≤ f.snapQueue.length)
          || decide (40 * d.now + 39 < free) then d
      else
        let done := max free (40 * d.now) + 40 * 24
        let w := d.snapWord p (e.val / 4)
        let item := f.snapItem e.val i (ceilDiv done 40)
        let sm' : Sampler :=
          { st := if bit w (21 + e.val % 4) then .armed else .idle, armedAt := done, freeAt := done, frozenAt := sm.frozenAt
            owes := true, missed := sm.missed, lostBefore := sm.lostBefore, word := w, wordWas := sm.word }
        let f := f.setSampler e.val sm'
        d.setFe p { f with snapQueue := f.snapQueue ++ [item], busFree := f.busFree.set (col % 16) done (Nat.mod_lt _ (by decide)) }

/-- The active lane whose output queue holds the fewest records (R167). -/
def FrontEnd.snapLane (f : FrontEnd) (frame : Nat) : Option Lane :=
  leastBy (fun (l : Lane) => f.lanes[l.val].fill) ((List.finRange 4).filter fun l => f.lanes[l.val].activeFor frame)

/-- SNAPSHOT_PACKET_SEND (R166, R167, R170): the head of the snapshot queue leaves on the emptiest active lane, beside
waiting records at most once in SNAP_SHARE packets; none while a calibration phase runs. -/
def execSnapshotPacketSend (p : Port) (s : State) : Result :=
  s.on fun d =>
    let f := d.fe p
    match f.snapQueue with
    | [] => d
    | i :: rest =>
      match f.snapLane d.now with
      | none => d
      | some l =>
        let ln := f.lanes[l.val]
        let share := ln.queue.isEmpty || decide (d.ap p Reg.SNAP_SHARE ≤ ln.sinceSnap + 1)
        if !f.runs || decide (d.now < i.ready) || !share || !d.laneReady p l.val
            || d.fget p Reg.FE_SNAP_CAL_STAT == 1 then d
        else
          (d.setFe p { f with snapQueue := rest }).sendPacket p l 1 i.frame i.frameIdx i.cycLo
            (.snapshot (BitVec.ofNat 128 i.descriptor) (i.samples.map (BitVec.ofNat 12)))

/-- SNAP_CAL_PHASE_DONE (R170): N × 160 slots after the write, all freezes of the phase done, the sums are held and the
status becomes ZERO_DONE or FULL_DONE. -/
def execSnapCalPhaseDone (p : Port) (s : State) : Result :=
  s.on fun d =>
    let f := d.fe p
    let waits := f.samplers.any fun x => x.2.forCal && x.2.st == .frozen
    if f.runs && d.fget p Reg.FE_SNAP_CAL_STAT == 1 && decide (f.calDoneAt ≤ d.now) && f.calLeft == 0 && !waits then
      (d.setFe p { f with snapCal := 0 }).fset p Reg.FE_SNAP_CAL_STAT 0 (if f.snapCal = 1 then 2 else 3)
    else d

/-- COEFFICIENT_WORD_ERROR (R171): an uncorrectable coefficient word of a sampler's cell has its G set to 0. -/
def execCoefficientWordError (p : Port) (e : Fin 1024) (cell : BitVec 7) (s : State) : Result :=
  s.on fun d =>
    let f := d.fe p
    if !f.runs then d
    else
      let k := e.val * 128 + cell.toNat
      let w := tblRead (fun _ => 0) f.coefs k
      (d.setFe p { f with coefs := tblWrite (fun _ => 0) f.coefs k (w / 65536 * 65536) }).fbump p Reg.FE_RG_CFG_FLT
        (e.val / 4)

end Sys2Proof.Machine
end

