-- ==== Sys2Proof/Machine/Baskets.lean ====
section
/-! DEFINITION. Baskets as the links meet them: which lanes a frame's markers are expected from (R214, R278), when a
port is complete, and what a port that leaves UP does to open baskets (R280). -/

namespace Sys2Proof.Machine

/-- Whether a logical lane of a port is active under the lane map of the frame that starts at a slot (R214): the map
named by the last LANEMAP whose first frame is at or before it. -/
def Dev.laneActive (d : Dev) (p : Port) (l start : Nat) : Bool :=
  match ((d.port p).changes.filter fun x => x.lane == l && decide (x.from_ ≤ start)).getLast? with
  | some x => x.phys != 7
  | none => true

/-- The lanes active for a frame, as a mask. -/
def Dev.activeMask (d : Dev) (p : Port) (start : Nat) : Nat :=
  maskOf ((List.range 4).filter fun l => d.laneActive p l start)

/-- A basket's part of a port is complete when a marker came from every active lane (R278). -/
def PortPart.complete (part : PortPart) (active : Nat) : Bool :=
  (bitsOf active 4).all fun l => (part.marks.toList.getD l none).isSome

/-- The device with the basket of a number changed. -/
def Dev.updBasket (d : Dev) (n : Nat) (g : Basket → Basket) : Dev :=
  { d with merge := { d.merge with baskets := d.merge.baskets.map fun b => if b.num = n then g b else b } }

/-- The basket with one port's part changed. -/
def Basket.updPart (b : Basket) (p : Nat) (g : PortPart → PortPart) : Basket :=
  { b with parts := b.parts.map fun x => if x.port = p then g x else x }

/-- A part marked MISSING, when it was not yet. -/
def PortPart.miss (part : PortPart) : PortPart := { part with missing := true }

/-- An expected port leaves UP and DEGRADED: every open basket in which it is not complete marks it MISSING (R280). -/
def Dev.leaveBaskets (d : Dev) (p : Port) : Dev :=
  let waits := fun (b : Basket) =>
    b.st == .open_ && b.parts.any fun x =>
      x.port == p.val && x.expected && !x.missing && !x.complete (d.activeMask p b.start)
  let n := (d.merge.baskets.filter waits).length
  let mark := fun (b : Basket) => if waits b then b.updPart p.val PortPart.miss else b
  { d with merge := { d.merge with baskets := d.merge.baskets.map mark } }.bump Reg.MG_MISSING p.val n

/-- A port left out of the sweep in progress (R496). -/
def Dev.sweepDrop (d : Dev) (p : Port) : Dev :=
  let d := { d with keeper := { d.keeper with
    sweep := d.keeper.sweep.map fun (w : RateSweep) => { w with ports := w.ports.erase p.val } } }
  d.updPort p fun (c : CPort) => { c with cfgWaiting := c.cfgWaiting.filter fun (m : CfgMsg) => m.why != CfgWhy.rate }

/-- What waits to be sent to a port that is no longer UP: requests are answered PORT_DOWN (R426, R431), but one a part of whose
value is outstanding, a rate sweep goes on without the port. -/
def Dev.dropRequests (d : Dev) (p : Port) : Dev :=
  let begun := fun (w : Writer) => (d.port p).cfg.any fun m => m.why == CfgWhy.chunk w
  let asked := fun (m : CfgMsg) => match m.why with
    | .request w => if begun w then none else some w
    | .chunk _ | .rewrite | .cycleLen | .mirror _ | .askPrev | .readBack | .rate => none
  let part := fun (m : CfgMsg) => match m.why with
    | .chunk w => !begun w
    | .request _ | .rewrite | .cycleLen | .mirror _ | .askPrev | .readBack | .rate => false
  let gone := (d.port p).cfgWaiting.filterMap asked
  let d := d.updPort p fun (c : CPort) => { c with
    cfgWaiting := c.cfgWaiting.filter fun (m : CfgMsg) => (asked m).isNone && !part m }
  (forEach gone (fun w d => d.answer w .portDown) d).sweepDrop p

/-- A port's state written; one that leaves UP and DEGRADED is no longer waited for (R280). -/
def Dev.setPortState (d : Dev) (p : Port) (st : Nat) : Dev :=
  let was := d.get Reg.WP_STATE p.val
  let d := d.set Reg.WP_STATE p.val st
  if (was = 2 ∨ was = 3) ∧ ¬ (st = 2 ∨ st = 3) then (d.leaveBaskets p).dropRequests p else d

end Sys2Proof.Machine
end

