-- ==== Sys2Proof/Machine/Links.lean ====
section
/-! DEFINITION. Wasel links (chapter 7): lock and training (R184, R202 to R207), replay, acknowledgement and credits at
the front end (R188 to R195), delay and grid loading (R208 to R212), spare lanes and downlink swaps (R213 to R218), and
FESTAT at the front end (R201, R350). -/

namespace Sys2Proof.Machine

/-- The free spare lane of a port: unmapped, not failed, and not on its way to carry a logical lane (R213, R215). -/
def Dev.freeSpare (d : Dev) (p : Port) : Option Nat :=
  let c := d.port p
  if c.spareFor.isSome then none
  else (List.range 5).find? fun n => (logicalOn (d.laneMap p) n).isNone && !bit c.failedMask n

/-- Whether a spare lane will carry a logical lane that is inactive (R213, R215). -/
def CPort.spareComing (c : CPort) : Bool := c.spareFor.isSome

/-- The acknowledgements and credits of LINKSTAT and SYNC (R190, R207). -/
def Dev.syncLanes (d : Dev) (p : Port) : List LaneStat :=
  (d.port p).lanes.toList.map fun l =>
    { ackValid := l.ackValid, ackSeq := BitVec.ofNat 12 (l.expected + 4095), credit := BitVec.ofNat 8 l.credit }

/-- A LINKSTAT sent (R190). -/
def Dev.sendStat (d : Dev) (p : Port) : Dev :=
  let c := d.port p
  (d.setPort p { c with linkstatAt := d.now, lanes := c.lanes.map fun l => { l with statOwed := false } }).emit
    (.linkstat p.val (d.syncLanes p))

/-- Whether fast commands are entered for a port: it is UP, or between the loss of a downlink and the end of its failover,
when they wait and those whose targets pass are late (R216). -/
def Dev.takesCmds (d : Dev) (p : Port) : Bool := d.portUp p || (d.port p).dlGapFrom.isSome

/-- Whether an operand is that of a MODE command. -/
def isModeOp : FcmdOp → Bool
  | .mode _ => true
  | .cal _ | .bias _ _ | .cycleEnd | .inject | .tickPhase _ => false

/-- The MODE commands not yet sent withdrawn (R30; those sent stand, log entry 113). -/
def Dev.withdrawMode (d : Dev) : Dev :=
  forEach allPorts (fun p d => d.updPort p fun (c : CPort) =>
    { c with cmds := c.cmds.filter fun (f : Fcmd) => !(isModeOp f.op && f.copies == 0) }) d

/-- The MODE command of a change for one port (R47): slot 0 of its first cycle. -/
def Dev.modeCmd (d : Dev) (p : Port) (m : Mode) (cyc : Nat) : Dev := d.fcmd p (.mode (Fin.ofNat 16 (modeCode m))) cyc 0 1

/-- A mode change announced to every port that takes commands (R47). -/
def Dev.announceMode (d : Dev) (m : Mode) (cyc : Nat) : Dev :=
  forEach allPorts (fun p d => if d.takesCmds p then d.modeCmd p m cyc else d) d.withdrawMode

/-- A port that has come UP is told what is pending: a mode change (R47) and a movement of the grid that ends a cycle early
(R27), unless the command waits for it already. -/
def Dev.joinGrid (d : Dev) (p : Port) : Dev :=
  let waits := fun (d : Dev) (k : FcmdOp → Bool) (t : Nat) => (d.port p).cmds.any fun f => k f.op && f.target == t
  let d := match d.modePend with
    | some m => if waits d isModeOp (d.startOf d.pendingCycle) then d else d.modeCmd p m.target d.pendingCycle
    | none => d
  match d.cutPlace with
  | some (cyc, slot) =>
    if waits d (· == .cycleEnd) (d.startOf cyc + slot) then d else d.fcmd p .cycleEnd cyc slot 1
  | none => d

/-! ### Port states -/

/-- Port Status bits 0 to 8 and the port's state from its links (R215, R224, R225). A port UP clears its failed runs
(R206). -/
def Dev.linkRefresh (d : Dev) (p : Port) : Dev :=
  let c := d.port p
  let m := d.laneMap p
  let w := d.get Reg.WP_STATUS p.val
  let lanes := maskOf ((List.range 5).filter fun n => (c.ul n).up)
  let dls := maskOf ((List.range 2).filter fun n => (c.dl n).up)
  let w := setField (setField w 6 2 lanes) 1 0 dls
  let w := setBit (setBit w 8 (c.activeDl == 1)) 7 ((logicalOn m 4).isSome)
  let d := d.set Reg.WP_STATUS p.val w
  let st := d.get Reg.WP_STATE p.val
  if st = 0 ∨ st = 5 ∨ st = 6 then d
  else
    let carried := (List.range 4).any fun l => (c.ul (mapOf m l)).up
    let lost := (List.range 4).any fun l => mapOf m l == 7
    if (c.dl c.activeDl).up && carried then
      let d := d.setPortState p (if lost && !c.spareComing then 3 else 2)
      if st = 2 ∨ st = 3 then d
      else ((d.set Reg.WP_RUN_FAIL p.val 0).updPort p fun c => { c with everUp := true, upAt := d.now }).joinGrid p
    else if st = 2 ∨ st = 3 then d.setPortState p 1
    else d

/-- A link without lock and without an attempt. -/
def LinkState.down (l : LinkState) : LinkState :=
  { l with lock := false, ready := false, up := false, training := false, attempt := 0, reports := 0 }

/-- An attempt of a link begins (R203): nothing of an earlier attempt survives. -/
def LinkState.begin (l : LinkState) (n now : Nat) : LinkState :=
  { l with training := true, attempt := n, attemptAt := now, ready := false, up := false, reports := 0, absent := false, powered := true }

/-- An attempt of a link ends without UP (R203). -/
def LinkState.stop (l : LinkState) : LinkState := { l with training := false, ready := false, reports := 0 }

/-- The delay measurements of a downlink forgotten: those of the downlink being trained, or of the other one (R203, R217). -/
def CPort.forget (c : CPort) (dl : Nat) : CPort :=
  let probe := c.probe.filter fun k => k.dl != dl
  if dl = c.trainDl then { c with probe := probe, rtts := [], trainMeas := 0 } else { c with probe := probe, otherRtts := [], otherMeas := 0 }

/-- The physical lanes in a port's Lane Map. -/
def Dev.mapped (d : Dev) (p : Port) : List Nat := (List.range 5).filter fun n => (logicalOn (d.laneMap p) n).isSome

/-- A port begins a training run from step 1 of R203. -/
def Dev.startTraining (d : Dev) (p : Port) : Dev :=
  if d.get Reg.WP_EN p.val = 0 then d
  else (d.setPortState p 1).updPort p fun c =>
    { ({ c with trainDl := 0, activeDl := 0 } : CPort).forget 0 with
      dls := #v[{ c.dls[0].down with absent := false, powered := true }, { powered := false }]
      uls := c.uls.map LinkState.down, dlSwapAt := none, dlSwapWanted := false, swapSent := none }

/-- A port's links fall to electrical idle, or run the pattern tests (R222, R486, R492): state 6. -/
def Dev.idlePort (d : Dev) (p : Port) : Dev :=
  if d.get Reg.WP_EN p.val = 0 then d
  else
    let d := d.updPort p fun c => { c with dls := c.dls.map LinkState.down, uls := c.uls.map LinkState.down }
    (d.setPortState p 6).linkRefresh p

/-- The payload with which a test of R222 begins on a lane (log entry 189): a pattern from a generator of all ones, or zeros; none in
the near loop, in which nothing passes the balls. -/
def testPayload (code : Nat) : Option (BitVec 128) :=
  match code with
  | 0 => some (BitVec.ofNat 128 (natOfBits (prbsBits 31 28 128 (2 ^ 31 - 1))))
  | 1 => some (BitVec.ofNat 128 (natOfBits (prbsBits 7 6 128 (2 ^ 7 - 1))))
  | 2 => none
  | _ => some 0

/-- The pattern test of Test Select begins on every enabled port (R222): the concentrator's downlinks carry the pattern, and with
code 3 every lane carries zeros. The checkers seek their place afresh. -/
def Dev.linkTests (d : Dev) : Dev :=
  let code := d.get Reg.WP_TEST
  forEach (allPorts.filter fun p => d.get Reg.WP_EN p.val ≠ 0) (fun p d =>
    let clear := fun (l : LinkState) => { l with prbs := 0 }
    let d := d.updPort p fun c => { c with dls := c.dls.map clear, uls := c.uls.map clear }
    match testPayload code with
    | none => d
    | some x =>
      let lanes := if code = 3 then [5, 6, 0, 1, 2, 3, 4] else [5, 6]
      forEach lanes (fun k d => d.emit (.test p.val (p.val * 8 + k) x)) d) d

/-- The transmit lanes of a back-end port in a mode (R297): four at 25.78125 Gb/s, none when OFF. -/
def backEndLanes (mode : Nat) : Nat := if mode = 0 then 0 else 4

/-- The test of Back-End Test Select begins on the transmit lanes of every back-end port that is not OFF (R223): the first bits of
the pattern (log entry 189); in the near loop nothing passes the balls. The checkers seek their place afresh. -/
def Dev.backEndTests (d : Dev) : Dev :=
  let code := d.get Reg.BE_TEST
  let bits := if code = 1 then prbsBits 9 5 128 (2 ^ 9 - 1) else prbsBits 31 28 128 (2 ^ 31 - 1)
  let d := { d with beTest := [] }
  if code = 2 then d
  else forRange 8 (fun b d =>
    forRange (backEndLanes (d.get Reg.BE_MODE b)) (fun k d => d.emit (.backEndTest b k bits)) d) d

/-- An attempt after the first UP of a port counted in Retrains (R225). -/
def Dev.retrain (d : Dev) (p : Port) : Dev := if (d.port p).everUp then d.bump Reg.WP_RETRAINS p.val else d

/-- A TRAIN on a downlink (R202): the locks of the uplink lanes; LOCKED when every lane of the Lane Map has lock; the number of the
attempt it belongs to, the downlink's or a lane's own. -/
def Dev.sendTrain (d : Dev) (p : Port) (dl attempt : Nat) : Dev :=
  let c := d.port p
  let up := maskOf ((List.range 5).filter fun n => (c.ul n).lock)
  d.emit (.train p.val dl ((d.mapped p).all fun n => (c.ul n).lock) up (max 1 attempt))

/-- An uplink lane begins an attempt of its own (R203, R213). -/
def Dev.beginLane (d : Dev) (p : Port) (phys n : Nat) : Dev :=
  ((d.updPort p fun c => c.updUl phys fun u => u.begin n d.now).retrain p).restartLine (ulKey p.val phys)

/-- An attempt of a port on a downlink begins (R203): with the downlink being trained go the lanes of the Lane Map. -/
def Dev.beginAttempt (d : Dev) (p : Port) (dl n : Nat) : Dev :=
  let lanes := if dl = (d.port p).trainDl then d.mapped p else []
  let d := d.updPort p fun c =>
    forEach lanes (fun k c => c.updUl k fun u => u.begin n d.now) ((c.updDl dl fun l => l.begin n d.now).forget dl)
  let d := forEach (dlKey p.val dl :: lanes.map (ulKey p.val)) (fun k d => d.restartLine k) d
  (d.retrain p).linkRefresh p

/-! ### Delay and grid -/

/-- The residual of R211. -/
def CPort.residual (c : CPort) : Int := c.filtD - c.gridQ

/-- The one-way delay of measurements: the mean of each one's (RTT + A) / 2, rounded to whole fine bins, halves upward
(R210). -/
def meanDelay (ms : List (Nat × Int)) : Int := roundHalfUp (ms.foldl (fun a m => a + m.1 + m.2) 0) (2 * (ms.length : Int))

/-- The round trip shown of measurements: their mean, rounded to whole fine bins, halves upward (R225). -/
def meanRtt (ms : List (Nat × Int)) : Int := roundHalfUp (ms.foldl (fun a m => a + (m.1 : Int)) 0) ms.length

/-- The grid a TIME_SET gives the front end: Q, D rounded to half coarse ticks, and the residual as the port delay correction
(R211). -/
def Dev.setQ (d : Dev) (p : Port) (delay : Int) : Dev :=
  let c := { d.port p with filtD := delay, gridQ := 256 * roundHalfUp delay 256 }
  (d.setPort p c).setI Reg.WP_DCORR p.val c.residual

/-- A TIME_SET on a downlink (R211): the target position is the block's departure plus Q. -/
def Dev.sendTimeSet (d : Dev) (p : Port) (dl : Nat) : Dev :=
  let d := d.setQ p (d.port p).filtD
  let q := (d.port p).gridQ.toNat
  let (cyc, slot) := d.placeAt (d.now + q / 4096)
  d.emit (.timeSet p.val dl (cyc % 256) slot (q / 512 % 8) (q / 256 % 2))

/-- The TIME_SET of R47 for a port, once it is due and the link has an opportunity for it. -/
def Dev.loadGrid (d : Dev) (p : Port) : Dev :=
  let c := d.port p
  if d.timeSetDue p && d.linkFree p .timeSet then (d.setPort p { c with timeSetOwed := false }).sendTimeSet p c.activeDl else d

/-! ### The order of blocks on a downlink (R542) -/

/-- A BEACON with the port's REQUEST and FAILED bits on a downlink (R205). -/
def Dev.beacon (d : Dev) (p : Port) (dl : Nat) (burst : Bool) : Dev :=
  let c := d.port p
  (d.setPort p { c with beaconAt := d.now, beaconOwed := c.beaconOwed && burst }).emit (.beacon p.val dl c.request c.failedMask burst)

/-- The BEACON owed on the active downlink, at the first opportunity (R205). -/
def Dev.sendBeacon (d : Dev) (p : Port) : Dev :=
  if (d.port p).beaconOwed && d.linkFree p .beacon then d.beacon p (d.port p).activeDl false else d

/-- A BEACON is owed on the active downlink: it leaves at the first opportunity (R205). -/
def Dev.oweBeacon (d : Dev) (p : Port) : Dev := (d.updPort p fun c => { c with beaconOwed := true }).sendBeacon p

/-- The NAKs owed leave, for the number each lane then expects (R189, R193). -/
def Dev.sendNaks (d : Dev) (p : Port) : Dev :=
  forEach (List.finRange 4) (fun l d =>
    let c := d.port p
    let ln := c.lanes[l.val]
    if ln.nakOwed && d.linkFree p .nak then
      (d.setPort p { c with lanes := c.lanes.set l.val { ln with nakOwed := false, lastNak := some d.now } }).emit
        (.nak p.val l.val ln.expected)
    else d) d

/-- A NAK is owed to a lane, at most one in 64 slots (R189): it leaves at the first opportunity. -/
def Dev.oweNak (d : Dev) (p : Port) (l : Lane) : Dev :=
  let c := d.port p
  let ln := c.lanes[l.val]
  let spaced := match ln.lastNak with
    | some t => decide (t + 64 ≤ d.now)
    | none => true
  if spaced then (d.setPort p { c with lanes := c.lanes.set l.val { ln with nakOwed := true } }).sendNaks p else d

/-- The blocks that wait behind those that have left take the next opportunities, each when no block of an earlier kind waits
(R542). LINKSTAT, FCMD and DELAY_REQ blocks leave by commands of their own (log entry 128). -/
def Dev.sendOwed (d : Dev) (p : Port) : Dev :=
  if d.portUp p then (((d.sendNaks p).loadGrid p).sendBeacon p).cfgPump p else d

/-- The residual taken at a cycle boundary (R210, R212): the correction applied is limited while it waits for a move,
and a residual that leaves its range calls for a TICK_PHASE command at the first cycle at least CAL_LEAD ahead. -/
def Dev.applyDelay (d : Dev) (p : Port) : Dev :=
  let c := d.port p
  let (d, c) := match c.tickMoveAt with
    | some (t, h) =>
      if t ≤ d.grid.cycleStart then
        let c := { c with gridQ := c.gridQ + 256 * h, tickMoveAt := none }
        let w := d.get Reg.WP_STATUS p.val
        (((d.setPort p c).set Reg.WP_STATUS p.val (setBit w 10 true)).bump Reg.WP_PHASE_STEPS p.val, c)
      else (d, c)
    | none => (d, c)
  let r := c.residual
  let d := d.setI Reg.WP_DCORR p.val (limit (-200) 199 r)
  if (-200 ≤ r ∧ r ≤ 199) ∨ c.tickMoveAt.isSome then d
  else
    let n := d.boundaryAfter (d.now + d.get Reg.CAL_LEAD)
    let cyc := d.cyclePlus n
    let h := roundHalfUp r 256
    let d := d.setPort p { c with tickMoveAt := some (d.startOf cyc, h) }
    d.fcmd p (.tickPhase h) cyc 0 1

/-- A delay stamp on a chip's slot grid (R208, R209): the slot in cycle of the stamping slot, and the calibrated TDC, with the path
delay of the way between TDC and ball taken off; 32 bits, modulo the cycle. -/
def stampAt (len slot : Nat) (x : TdcStamp) (path : Int) : Nat :=
  (((slot : Int) * 4096 + convertStamp x.tick.val x.code.toNat x.c1.toNat x.c2.toNat + path) % ((len * 4096 : Nat) : Int)).toNat

/-- DELAY_PROBE_SEND (R208 to R210, R542): a DELAY_REQ leaves with its stamp, one at a time, on the active downlink when no block goes
ahead of it. REQ_ID counts up and begins with 1 (log entry 190). -/
def execDelayProbeSend (p : Port) (t1 : TdcStamp) (s : State) : Result :=
  s.on fun d =>
    let c := d.port p
    match (d.probeDue p).filter fun dl => dl != c.activeDl || d.linkFree p .delayReq with
    | none => d
    | some dl =>
      let id := (c.reqId + 1) % 256
      let stamp := stampAt d.grid.len d.slot t1 (Config.pathDelay p.val 0)
      let d := d.setPort p { c with reqId := id, probe := some { dl := dl, id := id, at_ := d.now, t1 := stamp }, probeAt := d.now }
      (d.emit (.delayReq p.val dl id stamp)).sendOwed p

/-- DELAY_REQ_RECEIVE (R208, R209): the front end answers with its stamps of arrival and of departure, `wait` slots later. -/
def execDelayReqReceive (p : Port) (id : BitVec 8) (t2 : TdcStamp) (wait : BitVec 10) (t3 : TdcStamp) (s : State) : Result :=
  s.on fun d =>
    let f := d.fe p
    if !f.runs || f.dlLock.toList.all (fun b => !b) then d
    else
      let at_ := d.feSlot p
      d.emit (.delayResp p.val id.toNat (stampAt f.cycleLen at_ t2 (-(Config.pathDelay p.val 3 : Int)))
        (stampAt f.cycleLen (at_ + wait.toNat) t3 (Config.pathDelay p.val 2)))

/-- A standby downlink that has trained is UP, and a wanted swap then waits for its boundary (R217, R218). -/
def Dev.otherUp (d : Dev) (p : Port) (dl : Nat) : Dev :=
  let c := d.port p
  (d.setPort p { c.updDl dl (fun l => { l with up := true, training := false, attempt := 0, absent := false, cleanFrom := d.now })
    with dlSwapAt := if c.dlSwapWanted then some (d.now + 4096) else none }).linkRefresh p

/-- DELAY_RESP_RECEIVE (R208 to R211): a response that matches the outstanding request and came in time gives one round
trip; D is the mean over the filter. After eight measurements of a training attempt the grid is loaded and the
ready lanes exchange SYNC; a standby downlink is then UP. `t4` is the concentrator's stamp of its arrival. -/
def execDelayRespReceive (p : Port) (id : BitVec 8) (t2 t3 : BitVec 32) (t4 : TdcStamp) (s : State) : Result :=
  s.on fun d =>
    let c := d.port p
    match c.probe with
    | none => d
    | some k =>
      if k.id ≠ id.toNat ∨ k.at_ + 1024 < d.now then d
      else
        let len : Int := d.grid.len * 4096
        let arrived := stampAt d.grid.len d.slot t4 (-(Config.pathDelay p.val 1 : Int))
        let rtt := (((arrived : Int) - k.t1) - ((t3.toNat : Int) - t2.toNat)) % len
        let add := fun (ms : List (Nat × Int)) => ((rtt.toNat, d.getI Reg.WP_ASYM p.val) :: ms).take (2 ^ d.get Reg.WL_DLY_FILT)
        let c := { c with probe := none }
        if k.dl ≠ c.trainDl then
          let d := d.setPort p { c with otherRtts := add c.otherRtts, otherMeas := c.otherMeas + 1 }
          if c.otherMeas + 1 = 8 then d.otherUp p k.dl else d
        else
          let ms := add c.rtts
          let delay := meanDelay ms
          let d := d.setPort p { c with rtts := ms, filtD := delay }
          let d := (d.set Reg.WP_RTT p.val (meanRtt ms).toNat).set Reg.WP_DL_DELAY p.val delay.toNat
          if (c.dl c.trainDl).up then d
          else
            let d := d.updPort p fun c => { c with trainMeas := c.trainMeas + 1 }
            if c.trainMeas + 1 = 8 then (d.sendTimeSet p c.trainDl).emit (.sync p.val c.trainDl (d.syncLanes p)) else d

/-- TIME_SET_RECEIVE (R211, R217): the front end sets its slot grid so that the block's arrival, `fine` fine bins after the start
of the slot, lies at the position named, and follows the downlink it came on. -/
def execTimeSetReceive (p : Port) (dl : Fin 2) (cyc : BitVec 8) (slot : BitVec 20) (tick : Fin 8) (half : Bool) (fine : Fin 4096)
    (s : State) : Result :=
  s.on fun d =>
    let f := d.fe p
    if !f.runs || !f.dlLock[dl.val] then d
    else
      let start := d.now - slot.toNat
      let phase := roundHalfUp (((512 * tick.val + 256 * half.toNat : Nat) : Int) - fine.val) 256
      let len := d.fget p Reg.FE_CYCLE_LEN
      let f := { f with activeDl := dl.val, tickPhase := phase, cycleLen := len }
      if f.gridSet && f.cycleStart == start && f.cycLo == cyc.toNat then d.setFe p f
      else
        let d := d.setFe p { f with gridSet := true, cycLo := cyc.toNat, prevStart := f.cycleStart, cycleStart := start }
        let d := match (d.fe p).frames.getLast? with
          | some fr => if fr.ended then d else
              (d.updFe p fun f => f.updFrame fr.start fun x => { x with stop := min x.stop d.now, short := true }).feFrameEnd p
                { fr with stop := min fr.stop d.now }
          | none => d
        let idx := slot.toNat / 256
        d.feFrameOpen p (start + 256 * idx) idx

/-! ### Lock and training -/

/-- Whether a burst of training on the port's ABSENT downlinks is in progress: 2 ms from its start (R204). -/
def Dev.inBurst (d : Dev) (p : Port) : Bool :=
  match (d.port p).burstAt with
  | some t => decide (d.now < t + d.ms 2)
  | none => false

/-- BLOCK_LOCK_ACQUIRE (R184, R203, R204, R206, R483): 64 consecutive blocks with valid headers give a receiver block lock. A front
end in low-power reset leaves it; an ABSENT downlink on whose burst it locks, and an ABSENT lane, start a new run at step 2. A lock
of an uplink lane shows in the UP_LOCK bits. A downlink of a port that is DISABLED, QUARANTINED or IDLE sends nothing to lock on,
and neither does an ABSENT one between its bursts; a lane's lock counts while its port trains or is UP. -/
def execBlockLockAcquire (p : Port) (rx : Rx) (headers : List (BitVec 2)) (s : State) : Result :=
  s.on fun d =>
    let st := d.get Reg.WP_STATE p.val
    if headers.length ≠ 64 ∨ ¬ headers.all headerOk ∨ st = 0 ∨ st = 5 ∨ st = 6 then d
    else
      let got := fun (l : LinkState) => { l with lock := true, lockAt := d.now, reports := 0, cleanFrom := d.now }
      match rx with
      | .up l =>
        if st = 4 then d
        else
          let c := d.port p
          let d := if (c.ul l.val).absent && (c.dl c.activeDl).up then d.beginLane p l.val 1 else d
          let t := c.dl c.trainDl
          (d.updPort p fun c => c.updUl l.val got).sendTrain p c.trainDl (if t.up then ((d.port p).ul l.val).attempt else t.attempt)
      | .down dl =>
        let f := d.fe p
        let absent := ((d.port p).dl dl.val).absent
        if f.power = .powerOn ∨ (absent ∧ ¬ d.inBurst p) then d
        else
          let f := { f with power := .running, dlLock := f.dlLock.set dl.val true
                            activeDl := if f.dlLock.toList.getD f.activeDl false then f.activeDl else dl.val }
          let d := d.setFe p f
          let d := if absent && st == 4 then d.setPortState p 1 else d
          let d := if absent then d.beginAttempt p dl.val 1 else d
          d.updPort p fun c => c.updDl dl.val got

/-- Whether the front end trains a physical lane: within 2 ms of the start of its attempt (R203, R205). -/
def Dev.feTrains (d : Dev) (p : Port) (phys : Nat) : Bool :=
  match (d.fe p).ulTrain.toList.getD phys none with
  | some t => decide (d.now < t + d.ms 2)
  | none => false

/-- The front end sends TRAIN on a physical lane (step 2 of R203), whose attempt begins there unless it is under way; it keeps the
attempt's number (log entry 191). -/
def Dev.feTrain (d : Dev) (p : Port) (locked : Bool) (attempt phys : Nat) : Dev :=
  let f := d.fe p
  let at_ := if d.feTrains p phys then f.ulTrain.toList.getD phys none else some d.now
  let follows := f.dlLock.toList.getD f.activeDl false
  (d.setFe p { f with
    ulTrain := Vector.ofFn fun i => if i.val = phys then at_ else f.ulTrain[i.val]
    ulAttempt := Vector.ofFn fun i => if i.val = phys then attempt else f.ulAttempt[i.val] }).emit
    (.trainUp p.val phys locked follows attempt)

/-- TRAIN_RECEIVE (R202, R203): at the front end the TRAIN answers on every lane that is not UP and is in the Lane Map or in training
at a BEACON's request; at the
concentrator, 64 blocks in a row in which both sides report lock make a lane ready, within 1.5 ms of the start of its attempt and,
in the attempt of a downlink, when the front end gained lock within 1 ms. On a downlink that is UP, or has its delay, a ready lane
goes on to SYNC. -/
def execTrainReceive (p : Port) (rx : Rx) (locked : Bool) (lock : BitVec 5) (attempt : BitVec 8) (s : State) : Result :=
  s.on fun d => match rx with
    | .up l =>
      let c := d.port p
      let u := c.ul l.val
      let t := c.dl c.trainDl
      if !u.lock || !u.training || u.ready then d
      else
        let n := if locked && lock.getLsbD 0 then u.reports + 1 else 0
        let inTime := decide (d.now ≤ u.attemptAt + d.us 1500) && (t.up || (t.lock && decide (t.lockAt ≤ t.attemptAt + d.ms 1)))
        let ready := decide (64 ≤ n) && inTime
        let d := d.setPort p (c.updUl l.val fun u => { u with reports := min n 64, ready := ready })
        if ready && (t.up || decide (8 ≤ c.trainMeas)) then d.emit (.sync p.val c.trainDl (d.syncLanes p)) else d
    | .down dl =>
      let f := d.fe p
      if !f.runs || !f.dlLock[dl.val] then d
      else
        let lanes := (List.range 5).filter fun n =>
          ((logicalOn f.laneMap n).isSome || (f.ulTrain.toList.getD n none).isSome) && !((d.port p).ul n).up
        forEach lanes (fun n d => d.feTrain p true attempt.toNat n) d

/-- TRAINING_ATTEMPT_START (R203): TRAIN on the downlink to be trained, at most eight attempts a run. -/
def execTrainingAttemptStart (p : Port) (dl : Fin 2) (s : State) : Result :=
  s.on fun d =>
    let c := d.port p
    let l := c.dl dl.val
    let wanted := (d.get Reg.WP_STATE p.val == 1 && dl.val == c.trainDl)
      || (d.portUp p && dl.val != c.activeDl && l.powered)
    if !wanted || l.training || l.up || l.absent || decide (8 ≤ l.attempt) || d.get Reg.WP_EN p.val == 0 then d
    else (d.beginAttempt p dl.val (l.attempt + 1)).sendTrain p dl.val (l.attempt + 1)

/-- A data lane declared failed (R213, R215, R218): recorded, named in a BEACON that also asks for the spare when it is
free; with no spare free the port is DEGRADED. A failed lane that is not ABSENT is retried. -/
def Dev.declareFailed (d : Dev) (p : Port) (phys : Nat) (forced : Bool) : Dev :=
  match logicalOn (d.laneMap p) phys with
  | none => d
  | some l =>
    let free := d.freeSpare p
    let d := if ((d.port p).ul phys).absent then d else d.beginLane p phys 1
    let d := d.updPort p fun c =>
      { c.updUl phys (fun u => { u with failed := true }) with
        failedMask := setBit c.failedMask phys true, request := setBit c.request phys true }
    let d := match free with
      | some n => (d.beginLane p n 1).updPort p fun c =>
          { c with spareFor := some l, spareLane := n, request := setBit c.request n true }
      | none => d
    let d := d.log p.val 0x0405 phys l (if forced then 1 else 0)
    let d := if free.isSome then d else d.log p.val 0x0407 ((List.range 4).filter fun k => k != l && mapOf (d.laneMap p) k != 7).length
    (d.oweBeacon p).linkRefresh p

/-- Whether a block counts against block lock: a stuffing error, or an invalid header (R184). -/
def badHeader (h : Option (BitVec 2)) : Bool :=
  match h with
  | some h => !headerOk h
  | none => true

/-- BLOCK_LOCK_LOSS (R184, R213, R216): 16 bad blocks of 64 make a receiver lose lock, its link leaves UP and an attempt starts; a
data lane that has lost lock more than Lane Fail Count times within 1 s is declared failed. -/
def execBlockLockLoss (p : Port) (rx : Rx) (window : List (Option (BitVec 2))) (s : State) : Result :=
  s.on fun d =>
    if window.length ≠ 64 ∨ (window.filter badHeader).length < 16 then d
    else match rx with
    | .up l =>
      let u := (d.port p).ul l.val
      if !u.lock then d
      else
        let recent := d.now :: (u.losses.filter fun t => decide (d.now < t + d.ms 1000))
        let d := d.updPort p fun c =>
          c.updUl l.val fun u => { u with lock := false, ready := false, reports := 0, losses := recent }
        let d := if u.up then (d.beginLane p l.val 1).sendTrain p (d.port p).trainDl 1 else d
        if d.get Reg.WL_LANE_FAIL < recent.length ∧ ¬ u.failed then d.declareFailed p l.val false else d.linkRefresh p
    | .down dl =>
      let f := d.fe p
      if !f.dlLock[dl.val] then d
      else
        let lock := f.dlLock.set dl.val false
        let lost := lock.toList.all fun b => !b
        let d := d.setFe p { f with dlLock := lock, dlLostAt := if lost || f.activeDl == dl.val then some d.now else f.dlLostAt }
        let d := d.updPort p fun c =>
          let l := c.dl dl.val
          let c := c.updDl dl.val fun _ => if l.up then { l.down with cleanFrom := d.now } else { l with lock := false }
          if dl.val = c.activeDl ∧ l.up then
            { c with dlGapFrom := some d.now, trainMeas := 0, uls := c.uls.map fun u => { u with ready := false } }
          else if l.up then { c with dlSwapAt := none, swapSent := none }
          else c
        d.linkRefresh p

/-- The attempt of a downlink that is not the one the port waits for ends without UP (R216 to R218): after eight attempts a forced
swap is recorded as failed and its downlink powered down again, as is a secondary; the primary trained for its return is ABSENT. -/
def Dev.failOther (d : Dev) (p : Port) (dl : Nat) : Dev :=
  let c := (d.port p).forget dl
  let l := c.dl dl
  if l.attempt < 8 then d.setPort p (c.updDl dl LinkState.stop)
  else
    let done := fun (l : LinkState) => if dl = 0 ∧ ¬ c.dlSwapWanted then { l.down with absent := true } else { powered := false }
    let d' := d.setPort p { c.updDl dl done with dlSwapWanted := false, dlSwapAt := none }
    if c.dlSwapWanted then d'.log p.val 0x0408 dl 0 else d'

/-- The attempt of a port's downlink ends without UP (R203, R204, R206, R216): its lanes' attempts end with it. A primary that was
UP gives way to the secondary; after eight attempts the run has failed, and after eight runs the port is QUARANTINED. -/
def Dev.failDownlink (d : Dev) (p : Port) (dl : Nat) : Dev :=
  let c := (d.port p).forget dl
  let l := c.dl dl
  let c := { c.updDl dl LinkState.stop with uls := c.uls.map fun u => if u.training then u.stop else u }
  if dl ≠ c.trainDl then d.failOther p dl
  else if dl = 0 ∧ c.everUp ∧ c.dlGapFrom.isSome then
    d.setPort p (({ c with trainDl := 1, dlSwapWanted := false, dlSwapAt := none, swapSent := none } : CPort).updDl 1 fun _ => {})
  else if l.attempt < 8 then d.setPort p c
  else
    let runs := min 8 (d.get Reg.WP_RUN_FAIL p.val + 1)
    let c := { c with trainDl := 0, dls := #v[{ c.dls[0].down with absent := true }, { powered := false }]
                      uls := c.uls.map fun u => { u with attempt := 0 } }
    let d := (d.setPort p c).set Reg.WP_RUN_FAIL p.val runs
    if runs = 8 then
      (((d.updPort p fun c => { c with dls := c.dls.map LinkState.down, uls := c.uls.map LinkState.down }).setPortState p 5).log
        p.val 0x0404)
    else d.setPortState p 4

/-- An uplink lane's attempt ends without UP while its port is UP (R203, R204, R213): it is tried again, or after eight attempts
ABSENT, and a data lane among them has failed. -/
def Dev.failLane (d : Dev) (p : Port) (phys : Nat) : Dev :=
  let u := (d.port p).ul phys
  if u.attempt < 8 then (d.beginLane p phys (u.attempt + 1)).sendTrain p (d.port p).activeDl (u.attempt + 1)
  else
    let d := d.updPort p fun c =>
      { c.updUl phys (fun u => { u.stop with absent := true, attempt := 0 }) with request := setBit c.request phys true }
    if u.failed || (logicalOn (d.laneMap p) phys).isNone then d.oweBeacon p else d.declareFailed p phys false

/-- TRAINING_ATTEMPT_TIMEOUT (R203, R204, R213): 2 ms after its start every attempt of the port that has not reached UP
ends. -/
def execTrainingAttemptTimeout (p : Port) (s : State) : Result :=
  s.on fun d =>
    let late := fun (l : LinkState) => l.training && !l.up && decide (l.attemptAt + d.ms 2 ≤ d.now)
    let d := forEach ((List.range 2).filter fun n => late ((d.port p).dl n)) (fun n d => d.failDownlink p n) d
    (forEach ((List.range 5).filter fun n => late ((d.port p).ul n)) (fun n d => d.failLane p n) d).linkRefresh p

/-- BEACON_BURST (R204, R205): every 100 ms a training burst of 2 ms on an ABSENT downlink, with a BEACON at its start, and a BEACON
while any lane is requested. -/
def execBeaconBurst (p : Port) (s : State) : Result :=
  s.on fun d =>
    let c := d.port p
    if decide (d.now < c.beaconAt + d.ms 100) || d.get Reg.WP_EN p.val == 0 then d
    else if !(d.portUp p || d.get Reg.WP_STATE p.val == 4 || d.get Reg.WP_STATE p.val == 1) then d
    else
      let gone := (List.range 2).filter fun n => (c.dl n).absent
      let d := if gone.isEmpty then d else d.updPort p fun c => { c with burstAt := some d.now }
      let d := forEach gone (fun n d => (d.beacon p n true).sendTrain p n 1) d
      if d.portUp p && c.request != 0 then d.oweBeacon p else d

/-- The first slot and index of the first front-end frame that begins at least 16 slots after the current slot (R213): in the cycle
in progress, or in those that follow it. -/
def FrontEnd.frameAhead (f : FrontEnd) (now : Nat) : Nat × Nat :=
  let idx := ceilDiv (now + 16 - f.cycleStart) 256
  if f.cycleStart + 256 * idx < f.cycleStop then (f.cycleStart + 256 * idx, idx)
  else
    let rel := now + 16 - f.cycleStop
    let start := f.cycleStop + rel / f.cycleLen * f.cycleLen
    let idx := ceilDiv (rel % f.cycleLen) 256
    if 256 * idx < f.cycleLen then (start + 256 * idx, idx) else (start + f.cycleLen, 0)

/-- The records of a lane's replay buffer with their packets. -/
def FeLane.replayRecs (ln : FeLane) : List (RPacket × Record) :=
  ln.replay.flatMap fun k => match k.payload with
    | .records rs => rs.map fun r => (k, r)
    | .snapshot _ _ | .response _ => []

/-- What a discard of a lane's replay buffer loses (R150, R207). -/
def FeLane.replayLost (ln : FeLane) : List Lost := ln.replayRecs.map fun x => (x.1.frame, x.1.frameIdx, recType x.2 == 0)

/-- The front end changes its Lane Map and sends the LANEMAP on every UP lane, the spare that now carries the lane among them (R213,
R214). A logical lane that no spare will carry discards what it holds. -/
def Dev.feLaneMap (d : Dev) (p : Port) (l phys : Nat) (lost : Bool) : Dev :=
  let f := d.fe p
  let (first, idx) := f.frameAhead d.now
  let set := fun (k : FeLane) =>
    if phys = 7 then { k with inactiveFrom := some first, activeFrom := none } else { k with activeFrom := some first }
  let lanes := Vector.ofFn fun (i : Fin 4) => if i.val = l then set f.lanes[i.val] else f.lanes[i.val]
  let ups := (List.range 5).filter fun n => ((d.port p).ul n).up || n == phys
  let d := forEach ups (fun n d => d.emit (.lanemap p.val n l phys idx)) (d.setFe p { f with laneMap := setMap f.laneMap l phys, lanes := lanes })
  match if lost then (List.finRange 4).find? fun (k : Lane) => k.val == l else none with
  | some k =>
    let ln := (d.fe p).lanes[k.val]
    let d := d.updFe p fun f =>
      { f with lanes := f.lanes.set k.val { ln with queue := [], replay := [], since := d.now, due := false } }
    d.resetRecords p 3 l 0 (lostItems ln.queue ++ ln.replayLost)
  | none => d

/-- BEACON_RECEIVE (R205, R213, R215): requested lanes train unless they are UP or training; a FAILED bit that newly
names a lane carrying a logical lane makes that logical lane inactive. -/
def execBeaconReceive (p : Port) (request failed : BitVec 5) (s : State) : Result :=
  s.on fun d =>
    let f := d.fe p
    if !f.runs || f.dlLock.toList.all (fun b => !b) then d
    else
      let train := (bitsOf request.toNat 5).filter fun n => !((d.port p).ul n).up && !d.feTrains p n
      let d := forEach train (fun n d => d.feTrain p true (f.ulAttempt.toList.getD n 0 % 8 + 1) n) d
      let spare := (bitsOf request.toNat 5).find? fun n => (logicalOn f.laneMap n).isNone && !bit failed.toNat n
      let one := fun (n : Nat) (d : Dev) => match logicalOn (d.fe p).laneMap n with
        | some l =>
          let wait := spare.isSome && (d.fe p).spareFor.isNone
          (d.feLaneMap p l 7 (!wait)).updFe p fun f =>
            { f with spareFor := if wait then spare.map fun n => (l, n) else f.spareFor }
        | none => d
      forEach (bitsOf failed.toNat 5) one d

/-- LANEMAP_RECEIVE (R213 to R215): the concentrator takes the new map from its first frame, the next one with that
index. A LANEMAP it has taken already, on another lane, changes nothing. -/
def execLanemapReceive (p : Port) (l : Lane) (phys : BitVec 3) (frame : BitVec 12) (s : State) : Result :=
  s.on fun d =>
    let cur := d.slot / 256
    let idx := frame.toNat
    let first := if cur < idx ∧ 256 * idx < d.grid.len then d.grid.cycleStart + 256 * idx else d.cycleEnd + 256 * idx
    let new : LaneChange := { lane := l.val, phys := phys.toNat, frame := idx, from_ := first }
    if mapOf (d.laneMap p) l.val = phys.toNat then d
    else
      let m := setMap (d.laneMap p) l.val phys.toNat
      let d := d.updPort p fun c =>
        { c with changes := c.changes ++ [new], spareFor := if phys.toNat = 7 then c.spareFor else none }
      let d := (d.set Reg.WP_LANE_MAP p.val m).log p.val 0x0406 m idx
      d.linkRefresh p

/-! ### Replay and acknowledgement at the front end -/

/-- A packet of the replay buffer on the line again. -/
def Dev.resend (d : Dev) (p : Port) (l : Lane) (k : RPacket) : Dev :=
  d.emit (.packet p.val l.val k.seq k.kind k.frameIdx k.cycLo k.payload)

/-- The front end's logical lane changed. -/
def FrontEnd.updLane (f : FrontEnd) (l : Lane) (g : FeLane → FeLane) : FrontEnd :=
  { f with lanes := f.lanes.set l.val (g f.lanes[l.val]) }

/-- Replays of a lane from its `n`-th outstanding packet onward (R193, R194): each counts, and a packet that would need
a sixth transmission makes the physical lane leave UP and retrain. On a lane that cannot send the packets wait (R214). -/
def Dev.replayFrom (d : Dev) (p : Port) (l : Lane) (n : Nat) : Dev :=
  let f := d.fe p
  let ln := f.lanes[l.val]
  let again := ln.replay.drop n
  if !d.laneOpen p l then d
  else if again.any fun k => decide (5 ≤ k.tx) then (d.beginLane p (mapOf f.laneMap l.val) 1).linkRefresh p
  else
    let sent := again.map fun k => { k with tx := k.tx + 1, lastTx := d.now }
    let d := d.setFe p (f.updLane l fun ln => { ln with replay := ln.replay.take n ++ sent })
    (forEach again (fun k d => d.resend p l k) d).bump Reg.WP_REPLAYS p.val again.length

/-- The place of a sequence number in a lane's replay buffer. -/
def FeLane.placeOf (ln : FeLane) (seq : Nat) : Option Nat := ln.replay.findIdx? fun k => k.seq == seq

/-- LINKSTAT_RECEIVE (R191, R192): each lane's packets up to an acknowledged outstanding one are freed, and its credits
taken; an available credit above 128 is a credit error. -/
def execLinkstatReceive (p : Port) (lanes : List LaneStat) (s : State) : Result :=
  s.on fun d =>
    if !(d.fe p).hears then d
    else
      let one := fun (x : LaneStat × Lane) (f : FrontEnd) => f.updLane x.2 fun ln =>
        let replay := match if x.1.ackValid then ln.placeOf x.1.ackSeq.toNat else none with
          | some i => ln.replay.drop (i + 1)
          | none => ln.replay
        let avail := (x.1.credit.toNat + 256 - ln.sent) % 256
        { ln with replay := replay, credit := x.1.credit.toNat, creditErrors := ln.creditErrors + (if 128 < avail then 1 else 0) }
      (d.updFe p fun f => forEach (lanes.zip (List.finRange 4)) one f).nextResponse p

/-- NAK_RECEIVE (R193): every outstanding packet of the lane from the named one is sent again, in order. -/
def execNakReceive (p : Port) (l : Lane) (seq : BitVec 12) (s : State) : Result :=
  s.on fun d =>
    let f := d.fe p
    match if f.hears then f.lanes[l.val].placeOf seq.toNat else none with
    | some i => d.replayFrom p l i
    | none => d

/-- ACK_TIMEOUT (R194): no acknowledgement has covered the oldest outstanding packet within ACK Timeout, as the front end was last
told it, of its last transmission. -/
def execAckTimeout (p : Port) (l : Lane) (s : State) : Result :=
  s.on fun d =>
    match (d.fe p).lanes[l.val].replay with
    | [] => d
    | k :: _ => if k.lastTx + d.toldOf p Reg.WL_ACK_TIMEOUT ≤ d.now then d.replayFrom p l 0 else d

/-- The packets of a replay buffer discarded as a reset of the lane output queue (R207, R150): a QUEUE_RESET record per
frame, and their markers dealt again with what the lane then has sent of the frame (R140). -/
def Dev.discardReplay (d : Dev) (p : Port) (l : Lane) : Dev :=
  let ln := (d.fe p).lanes[l.val]
  let hitsOf := fun (frame : Nat) => (ln.replayLost.filter fun x => x.2.2 && x.1 == frame).length
  let marks := (ln.replayRecs.filter fun x => recType x.2 == 2).map fun x =>
    let v := x.2.toNat
    let m : Marker :=
      { frame := x.1.frame, idx := field v 45 34, cyc := x.1.cycLo, dead := field v 21 6, short := bit v 3, ovf := bit v 2
        floodOpen := bit v 1, dtSat := bit v 0 }
    (m, field v 33 22 - hitsOf x.1.frame)
  if ln.replay.isEmpty then d
  else
    let put := fun (x : Marker × Nat) (ln : FeLane) =>
      { ln with queue := ln.queue ++ [.marker x.1], placed := tblWrite (fun _ => 0) ln.placed x.1.frame x.2 }
    let new := forEach marks put { ln with replay := [], queue := [] }
    let d := d.updFe p fun f => f.updLane l fun _ => { new with queue := new.queue ++ ln.queue }
    d.resetRecords p 3 l.val 0 ln.replayLost

/-- A lane resumed at the front end by a SYNC (R207). -/
def Dev.resume (d : Dev) (p : Port) (l : Lane) (st : LaneStat) : Dev :=
  let ln := (d.fe p).lanes[l.val]
  let ack := st.ackSeq.toNat
  let fresh := fun (ks : List RPacket) => ks.map fun k => { k with tx := 1, lastTx := d.now }
  let d := d.updFe p fun f => f.updLane l fun ln => { ln with credit := st.credit.toNat }
  let keep := fun (ks : List RPacket) (d : Dev) =>
    forEach ks (fun k d => d.resend p l k) (d.updFe p fun f => f.updLane l fun ln => { ln with replay := fresh ks })
  let d := if !st.ackValid then keep ln.replay d
    else match ln.placeOf ack with
      | some i => keep (ln.replay.drop (i + 1)) d
      | none =>
        match ln.replay with
        | k :: _ =>
          if k.seq = (ack + 1) % 4096 then keep ln.replay d
          else (d.discardReplay p l).updFe p fun f => f.updLane l fun ln => { ln with nextSeq := (ack + 1) % 4096 }
        | [] => d.updFe p fun f => f.updLane l fun ln => { ln with nextSeq := (ack + 1) % 4096 }
  d.updFe p fun f => f.updLane l fun ln => { ln with resetSeen := false }

/-- A front end that has been reset is rewritten from the Keeper's mirror, with CYCLE_LEN, what steers it and the calendar in
force (R427, R484), and told the mode in force. -/
def Dev.restoreFe (d : Dev) (p : Port) : Dev :=
  let n := d.boundaryAfter (d.now + modeLead)
  let cyc := d.cyclePlus n
  let d := (d.log p.val 0x0409).updPort p fun c =>
    { c.awaitMirror cyc (d.startOf cyc) with feReset := true, cycLenAcked := false, feExec := 0, feLate := 0, feDisc := 0, counted := 0 }
  let d := d.cfgQueue p
    (d.cycleLenMsg :: d.toldMsgs p ++ d.rewriteMsgs p (fun _ _ => true) ++ mirrorMsgs (d.port p).mirrorNo d.activeBank (cyc % 256))
  let pending := d.modePend.isSome && decide (d.startOf d.pendingCycle ≤ d.startOf cyc)
  if pending then d else d.modeCmd p d.mode cyc

/-- SYNC_RECEIVE (R207, R213, R215, R217): at the front end each logical lane of the physical lane is resumed and
answered, and a spare that is UP is mapped to the inactive lane; at the concentrator the ready lane and the downlink become
UP, once the downlink has its delay; a lane that shows a front-end reset starts its credits afresh, and a repaired lane becomes
the spare. -/
def execSyncReceive (p : Port) (msg : SyncMsg) (s : State) : Result :=
  s.on fun d => match msg with
    | .down dl phys lanes =>
      let f := d.fe p
      if !f.runs || !f.dlLock[dl.val] then d
      else
        let part := fun (ln : FeLane) => ({ reset := ln.resetSeen, sent := BitVec.ofNat 8 ln.sent } : LaneSync)
        let d := d.emit (.syncUp p.val phys.val (f.lanes.toList.map part))
        let d := match f.spareFor with
          | some (l, n) => if n = phys.val then (d.feLaneMap p l n false).updFe p fun f => { f with spareFor := none } else d
          | none => d
        let m := (d.fe p).laneMap
        let here := (lanes.zip (List.finRange 4)).filter fun x => mapOf m x.2.val == phys.val
        (forEach here (fun x d => d.resume p x.2 x.1) d).updFe p fun f =>
          { f with dlLostAt := none, activeDl := dl.val, ulTrain := f.ulTrain.set phys.val none, ulAttempt := f.ulAttempt.set phys.val 0 }
    | .up phys lanes =>
      let c := d.port p
      let wasUp := (c.dl c.trainDl).up
      if !(c.ul phys.val).ready || !(wasUp || decide (8 ≤ c.trainMeas)) then d
      else
        let m := d.laneMap p
        let here := (lanes.zip (List.finRange 4)).filter fun x => mapOf m x.2.val == phys.val && x.1.reset
        let fresh := fun (x : LaneSync × Lane) (c : CPort) =>
          let old := c.lanes[x.2.val]
          let seq := if old.ackValid then old.expected else 0
          { c with lanes := c.lanes.set x.2.val { expected := seq, credit := x.1.sent.toNat, received := x.1.sent.toNat } }
        let c' := forEach here fresh c
        let carries := (logicalOn m phys.val).isSome || c.spareFor.isSome && phys.val == c.spareLane
        let c' := c'.updUl phys.val fun u =>
          { u with up := carries, training := false, attempt := 0, absent := false, failed := false
                   powered := carries, ready := carries, lock := carries && u.lock }
        let c' := { c' with failedMask := setBit c'.failedMask phys.val false, request := setBit c'.request phys.val false }
        let c' := if wasUp then c' else c'.updDl c.trainDl fun l =>
          { l with up := true, training := false, attempt := 0, absent := false, cleanFrom := d.now }
        let failover := !wasUp && c.trainDl != c.activeDl
        let d := d.setPort p { c' with activeDl := c.trainDl, dlGapFrom := none }
        let d := if failover then d.log p.val 0x0408 c.trainDl 0 else d
        let changed := c'.failedMask != c.failedMask || c'.request != c.request
        let d := (if changed then d.oweBeacon p else d).linkRefresh p
        let d := if !here.isEmpty && !wasUp then d.restoreFe p else d
        (d.sendOwed p).nextResponse p

/-! ### FESTAT at the front end -/

/-- FESTAT_PERIODIC_SEND (R201, R349): once every 1,024 slots, with the counts of fast commands and the mean power in mW
and temperature in 0.125 °C of the monitors. -/
def execFestatPeriodicSend (p : Port) (power : BitVec 16) (temp : BitVec 12) (s : State) : Result :=
  s.on fun d =>
    let f := d.fe p
    if !f.runs || decide (d.now < f.festatAt + 1024) then d
    else
      let d := d.setFe p { f with festatAt := d.now, lastPower := power.toNat, lastTemp := temp.toInt
                                  lastFence := f.fenceActed, lastTrip := f.tripped, fenceActed := false }
      d.emit (.festatPeriodic p.val (f.executed % 65536) (f.late % 256) (f.discarded % 256) temp.toNat power.toNat f.tripped f.fenceActed)

/-- WAKE_FESTAT_SEND (R350): the pending requests leave in one WAKE FESTAT, at most one in any 8 slots. -/
def execWakeFestatSend (p : Port) (s : State) : Result :=
  s.on fun d =>
    let f := d.fe p
    let spaced := match f.wakeSentAt with
      | some t => decide (t + 8 ≤ d.now)
      | none => true
    if !f.runs || f.wakePending == 0 || !spaced then d
    else
      (d.setFe p { f with wakePending := 0, wakeSentAt := some d.now }).emit
        (.festatWake p.val f.wakePending (f.executed % 65536) (f.late % 256) (f.discarded % 256) (unsgn 12 f.lastTemp)
          f.lastPower f.lastTrip f.lastFence)

/-- WAKE_REQUEST_EXPIRE (R361): a request lapses 256 slots after it was set. -/
def execWakeRequestExpire (p : Port) (group : Fin 16) (s : State) : Result :=
  s.on fun d =>
    let f := d.fe p
    let t := tblRead (fun _ => 0) f.wakeSetAt group.val
    if t ≠ 0 ∧ t + 255 ≤ d.now then d.setFe p { f with wakeSetAt := tblDrop f.wakeSetAt group.val } else d

/-! ### The concentrator's link blocks -/

/-- LINKSTAT_SEND (R190, R191, R542): acknowledgements and credits of all logical lanes of a port that is UP, once 19 slots have
passed since the last, or when one is owed and no FCMD copy or NAK goes ahead of it. -/
def execLinkstatSend (p : Port) (s : State) : Result :=
  s.on fun d =>
    if d.statOverdue p || (d.portUp p && d.waits p .stat && d.linkFree p .stat) then (d.sendStat p).sendOwed p else d

/-- What a pattern test counts of a block, and the checker after it (R222): stuffing errors with code 3, else the bits of its payload
that leave the pattern, PRBS7 with code 1 and PRBS31 with the others. A block that is discarded passes the checker uncounted. -/
def testCheck (code : Nat) (b : Block) (stuffing : Bool) (prbs : Nat) : Nat × Nat :=
  if code = 3 then (stuffing.toNat, 0)
  else
    let x := prbsCheck (if code = 1 then 7 else 31) (if code = 1 then 6 else 28) (bitsMsb 128 b.payload.toNat) prbs
    if !stuffing && headerOk b.header then x else (0, if prbs = 0 then 0 else x.2)

/-- A block of a pattern test received (R222): errors are counted, and in the far tests the front end sends what it receives on a
downlink on all five uplinks. -/
def Dev.testBlock (d : Dev) (p : Port) (rx : Rx) (b : Block) (stuffing : Bool) : Dev :=
  let code := d.get Reg.WP_TEST
  let c := d.port p
  let l := match rx with
    | .up n => c.ul n.val
    | .down n => c.dl n.val
  let (errors, prbs) := testCheck code b stuffing l.prbs
  let place := fun (l : LinkState) => { l with prbs := prbs }
  let d := d.setPort p (match rx with
    | .up n => c.updUl n.val place
    | .down n => c.updDl n.val place)
  let d := d.bump Reg.WP_TEST_ERR p.val errors
  match rx with
  | .up _ => d
  | .down n =>
    if code < 2 && n.val == (d.fe p).activeDl && !stuffing && headerOk b.header then
      forRange 5 (fun k d => d.emit (.test p.val (ulKey p.val k) b.payload)) d
    else d

/-- INVALID_BLOCK (R178 to R183, R187, R222): a received block outside a packet, or one with a stuffing error, as it came off the
line. One that is not used is discarded and counted; a control block ignored under R179 counts in Control Block Errors and ends the
clean time of R217. In the pattern tests of LOOPBACK payloads are unscrambled, and errors count in Test Errors. A block that R179
lets through changes nothing here. -/
def execInvalidBlock (p : Port) (rx : Rx) (at_ : LinePlace) (line : List Bool) (s : State) : Result :=
  s.on fun d =>
    let test := d.mode == .loopback && d.get Reg.WP_STATE p.val == 6
    match readBlock (rxKey p.val rx) test at_ line with
    | none => d
    | some (b, stuffing) =>
      let bad := if test && !stuffing && headerOk b.header then none else badBlock b stuffing
      let d := if test then d.testBlock p rx b stuffing else d
      match bad with
      | none => d
      | some why => d.countBad p rx why

/-! ### Downlink swaps, release and lane commands -/

/-- DOWNLINK_LOSS_TIMEOUT (R216, R483): neither downlink has had lock for 20 ms; the front end enters low-power reset. -/
def execDownlinkLossTimeout (p : Port) (s : State) : Result :=
  s.on fun d =>
    let f := d.fe p
    match f.dlLostAt with
    | some t =>
      if f.runs && f.dlLock.toList.all (fun b => !b) && decide (t + d.ms 20 ≤ d.now) then d.feReset p .lowPower else d
    | none => d

/-- The port goes over to its other downlink, whose measurements are now the port's (R217, R218). The secondary is powered down;
the primary is trained again. -/
def Dev.swapDownlink (d : Dev) (p : Port) (cause : Nat) : Dev :=
  let c := d.port p
  let old := c.activeDl
  let dl := 1 - old
  let c := { c.updDl old (fun _ => { powered := old == 0 }) with
             activeDl := dl, trainDl := dl, dlSwapAt := none, dlSwapWanted := false, swapSent := none
             probe := none, rtts := c.otherRtts, otherRtts := [], otherMeas := 0 }
  let d := (d.setPort p c).updFe p fun f => { f with dlLock := Vector.ofFn fun i => i.val != old && f.dlLock[i.val] }
  let delay := meanDelay c.rtts
  let d := (d.set Reg.WP_RTT p.val (meanRtt c.rtts).toNat).set Reg.WP_DL_DELAY p.val delay.toNat
  ((d.setQ p delay).log p.val 0x0408 dl cause).linkRefresh p

/-- A swap to the other downlink, which is UP (R217, R218): the TIME_SET that targets the first boundary at or after slot
`notBefore` leaves on it when its departure plus Q is that boundary, and at that boundary the port goes over. A boundary passed
without that needs a TIME_SET for another. -/
def Dev.swapStep (d : Dev) (p : Port) (notBefore cause : Nat) : Dev :=
  let c := d.port p
  match c.swapSent.filter fun t => decide (d.now ≤ t) with
  | some t => if t = d.now && t == d.grid.cycleStart then d.swapDownlink p cause else d
  | none =>
    let lead := ceilDiv (256 * roundHalfUp (meanDelay c.otherRtts) 256).toNat 4096
    let n := d.boundaryAfter (max notBefore (d.now + lead))
    let t := d.startOf (d.cyclePlus n)
    if d.now + lead < t then d
    else (d.updPort p fun c => { c with swapSent := some t }).emit
      (.timeSet p.val (1 - c.activeDl) (d.cyclePlus n % 256) 0 0 0)

/-- PRIMARY_RETURN (R217): the primary has run 10 s with lock and without a control-block error; the port returns to it
at a cycle boundary, after the TIME_SET that targets it. -/
def execPrimaryReturn (p : Port) (s : State) : Result :=
  s.on fun d =>
    let c := d.port p
    let t := (c.dl 0).cleanFrom + d.ms 10000
    if c.activeDl == 1 && (c.dl 0).up && decide (t ≤ d.now) then d.swapStep p t 2 else d

/-- DOWNLINK_SWAP_APPLY (R218): a forced swap takes effect at the first cycle boundary at least 4,096 slots after the
other downlink came UP, after the TIME_SET that targets it. -/
def execDownlinkSwapApply (p : Port) (s : State) : Result :=
  s.on fun d =>
    let c := d.port p
    match c.dlSwapAt with
    | some t => if (c.dl (1 - c.activeDl)).up then d.swapStep p t 1 else d
    | none => d

/-- PORT_RELEASE (R206): a QUARANTINED port starts a new run and its count of failed runs clears. -/
def execPortRelease (w : Writer) (e : BitVec 16) (val : Bytes) (s : State) : Result :=
  s.on fun d => d.writeEach w Reg.WP_RELEASE e.toNat val fun k d _ =>
    let p : Port := Fin.ofNat 32 k
    if d.get Reg.WP_STATE p.val ≠ 5 then refuse .wrongMode d
    else (.accepted, (d.set Reg.WP_RUN_FAIL p.val 0).startTraining p)

/-- FORCE_LANE_SWAP (R218, R225): a named logical lane moves to the spare as if its lane had failed. -/
def execForceLaneSwap (w : Writer) (e : BitVec 16) (val : Bytes) (s : State) : Result :=
  s.on fun d => d.writeEach w Reg.WP_LANE_SWAP e.toNat val fun k d l =>
    let p : Port := Fin.ofNat 32 k
    let m := d.laneMap p
    if (d.freeSpare p).isNone ∨ mapOf m l = 7 then refuse .range d
    else (.accepted, d.declareFailed p (mapOf m l) true)

/-- FORCE_DOWNLINK_SWAP (R218): the other downlink is powered up and trained while the active one serves the port. -/
def execForceDownlinkSwap (w : Writer) (e : BitVec 16) (val : Bytes) (s : State) : Result :=
  s.on fun d => d.writeEach w Reg.WP_DL_SWAP e.toNat val fun k d _ =>
    let p : Port := Fin.ofNat 32 k
    let c := d.port p
    let o := 1 - c.activeDl
    (.accepted, d.setPort p
      { c.updDl o (fun l => if l.up || l.training then l else { l with powered := true, attempt := 0, absent := false }) with
        dlSwapWanted := true, dlSwapAt := if (c.dl o).up then some (d.now + 4096) else none })

/-- The time between an edge and its reflection in fine bins, by two stamps of the delay TDC (R208, R210). -/
def reflectTime (x : Reflection) : Int :=
  4096 * (x.slots.toNat : Int) + convertStamp x.back.tick.val x.back.code.toNat x.back.c1.toNat x.back.c2.toNat
    - convertStamp x.sent.tick.val x.sent.code.toNat x.sent.c1.toNat x.sent.c2.toNat

/-- LINK_DELAY_CALIBRATION (R210): in CALIBRATE, Cable Asymmetry becomes the downlink pair's delay minus that of uplink
lane 0, each half its reflection time (rounding and a result out of range: log entry 129). `pairs` are the downlink's and uplink
lane 0's reflections of each port written. -/
def execLinkDelayCalibration (w : Writer) (e : BitVec 16) (val : Bytes) (pairs : List (Reflection × Reflection)) (s : State) : Result :=
  s.on fun d => d.writeEach w Reg.WP_DLY_CAL e.toNat val fun p d _ =>
    if d.mode ≠ .calibrate then refuse .wrongMode d
    else match pairs[if e.toNat = 0xFFFF then p else 0]? with
      | some (down, up) => (.accepted, d.setI Reg.WP_ASYM p (limit (-5120) 5120 (roundHalfUp (reflectTime down - reflectTime up) 2)))
      | none => (.accepted, d)

end Sys2Proof.Machine
end

