-- ==== Sys2Proof/Machine/ConfigProxy.lean ====
section
/-! DEFINITION. The Keeper's side of the configuration channel (R221, R426 to R432): responses, resends, timeouts, the
resolving of an unknown outcome, and the mirror. -/

namespace Sys2Proof.Machine

/-- The address of the object a message names. -/
def CfgMsg.addr (m : CfgMsg) : Nat := m.index * 256 + m.sub

/-- The Keeper's mirror of a staging buffer with bytes at an offset. -/
def Dev.mirrorStage (d : Dev) (p : Port) (o : Nat) (val : Bytes) : Dev :=
  let key := regKey p.val Reg.FE_STAGE 0
  let was := tblRead (fun _ => List.replicate 1024 0) d.mirrorDom key
  { d with mirrorDom := tblPut d.mirrorDom key ((was.take o ++ val ++ was.drop (o + val.length)).take 1024) }

/-- The Keeper's mirror after a value of a front-end object became known (R427): word objects, coefficient sets and staging
buffers; every element when the write named them all. -/
def Dev.setMirror (d : Dev) (p : Port) (a e : Nat) (val : Bytes) : Dev :=
  match objRow a with
  | none => d
  | some r =>
    if r.access ≠ .rw then d
    else
      let es := elemsOf r e
      if r.ty = .domain then
        if a = Reg.FE_STAGE then d.mirrorStage p e val
        else if val.length = 512 ∧ a = Reg.FE_SNAP_COEF then
          { d with mirrorDom := forEach es (fun e t => tblPut t (regKey p.val a e) val) d.mirrorDom }
        else d
      else { d with mirror := forEach es (fun e t => storeSet t p.val a e (beNat val)) d.mirror }

/-- The response of an unresolved transaction with its resolved status and the flag RESOLVED (R410, R432). -/
def resolvedBytes (resp : Bytes) (st : Status) : Bytes :=
  let body := resp.take (resp.length - 4)
  let flags := (body.getD 3 0).toNat ||| 2
  let body := body.take 3 ++ [BitVec.ofNat 8 flags] ++ (body.drop 4).take 5 ++ [BitVec.ofNat 8 (statusCode st)] ++ body.drop 10
  body ++ beBytes 4 (crc32c body)

/-- UNRESOLVED clears (step 5 of R432): the table entry takes the resolved response, and the ledger the object, ALIVE
and outcome. -/
def Dev.resolveDone (d : Dev) (p : Port) : Dev :=
  let c := d.port p
  match c.unresolved, c.resolved with
  | some m, some st =>
    let d := (d.setPort p { c with unresolved := none, resolved := none }).set Reg.COM_UNRES p.val 0
    let d := (d.bump Reg.COM_RESOLVED).log p.val 0x0A01 ((m.index * 2 ^ 32 + m.sub * 2 ^ 24 + m.elem : Nat)) m.alive (statusCode st)
    let d := match m.why with
      | .request (.client cl tid) | .chunk (.client cl tid) => d.updClient cl fun (k : Client) =>
          { k with txns := k.txns.map fun (t : Txn) =>
              if t.tid = tid ∧ t.unknown then
                { t with response := t.response.map fun r => resolvedBytes r st, status := st, unknown := false, sentAt := d.now }
              else t }
      | .request .core | .request .keeper | .chunk .core | .chunk .keeper | .rewrite | .cycleLen | .mirror _ | .askPrev | .readBack | .rate => d
    d.cfgPump p
  | _, _ => d

/-- The outcome of an unresolved write known (R432): an RW target is read back first, element by element, a CMD target is done. A
write that ended with a part of its value has not been applied, whatever became of the part (R428). -/
def Dev.resolveWith (d : Dev) (p : Port) (st : Status) : Dev :=
  let c := d.port p
  match c.unresolved with
  | none => d
  | some m =>
    let part := match m.why with
      | .chunk _ => true
      | .request _ | .rewrite | .cycleLen | .mirror _ | .askPrev | .readBack | .rate => false
    let d := d.setPort p { c with resolved := some (if part then .notApplied else st) }
    match objRow m.addr with
    | some r =>
      if r.access = .rw then
        d.cfgQueue p ((elemsOf r m.elem).map fun e => cfgMsg 2 m.addr e [] .readBack)
      else d.resolveDone p
    | none => d.resolveDone p

/-- One region rate of a sweep (R496, R497): counted when it is at least Promotion Rate; the last region of a port ends
the port's part. -/
def Dev.sweepValue (d : Dev) (p : Port) (elem v : Nat) : Dev :=
  match d.keeper.sweep with
  | none => d
  | some w =>
    let n := if d.get Reg.MD_SEN_RATE ≤ v then 1 else 0
    let ports := if elem = 255 then w.ports.erase p.val else w.ports
    { d with keeper := { d.keeper with sweep := some { w with counts := w.counts + n, ports := ports } } }

/-- A port joins the rate sweep of a RATE_LATCH (R496): the first port of a new latch abandons the previous sweep; every
region's latched rate is read. `at_` names the latch. -/
def Dev.sweepStart (d : Dev) (p : Port) (at_ : Nat) : Dev :=
  let same := match d.keeper.sweep with | some w => w.at_ == at_ | none => false
  let d := if same then d else forEach allPorts (fun q d => d.sweepDrop q) d
  let w := match d.keeper.sweep with
    | some w => if same then { w with ports := w.ports ++ [p.val] } else { ports := [p.val], counts := 0, at_ := at_ }
    | none => { ports := [p.val], counts := 0, at_ := at_ }
  let d := { d with keeper := { d.keeper with sweep := some w } }
  d.cfgQueue p ((List.range 256).map fun r => cfgMsg 2 Reg.FE_RG_RATE r [] .rate)

/-- RATE_LATCH (R35, R496): the rate counters of the selected groups are latched and cleared; in SENTINEL the Keeper then
reads them from an UP port. -/
def execRateLatch (p : Port) (s : State) : Result :=
  s.on fun d => d.runDue p (isAction 2) fun i d =>
    let d := forEach (d.regionsIn p (d.itemEntry p i).groups) (fun r d =>
      let g := (d.fe p).region r
      (d.fset p Reg.FE_RG_RATE r (min g.rate (2 ^ 32 - 1))).updFe p fun f => f.setRegion r { g with rate := 0 }) d
    if d.mode = .sentinel ∧ d.portUp p then d.sweepStart p (i.cmd.cyc * 2 ^ 20 + i.cmd.slot) else d

/-- The length of a DOMAIN that a READ of the object returns, 0 for every other object. -/
def domainLen (a : Nat) : Nat := if a = Reg.FE_SNAP_COEF then 512 else 0

/-- The rest of a DOMAIN is read from the staging buffer (R428). -/
def Dev.readOn (d : Dev) (p : Port) (m : CfgMsg) (value : Bytes) : Dev :=
  d.updPort p fun (c : CPort) => { c with cfgWaiting := { m with chunks := m.chunks ++ [value] } :: c.cfgWaiting }

/-- What an answered message was for (R47, R200, R426, R428, R432, R496). -/
def Dev.cfgAnswered (d : Dev) (p : Port) (m : CfgMsg) (st : Status) (value : Bytes) : Dev :=
  let got := m.chunks.flatten ++ value
  let got := if 0 < domainLen m.addr then got.take (domainLen m.addr) else got
  let more := decide (st = .accepted ∧ got.length < domainLen m.addr)
  match m.why with
  | .request w =>
    if m.type = 2 then (if more then d.readOn p m value else d.answer w st got)
    else
      let d := if st = .accepted then d.setMirror p m.addr m.elem (if m.value.isEmpty then m.chunks.flatten else m.value) else d
      d.answer w st
  | .chunk w =>
    if st = .accepted then d.setMirror p m.addr m.elem m.value
    else
      let d := d.updPort p fun (c : CPort) => { c with
        cfgWaiting := c.cfgWaiting.filter fun k => k.why != CfgWhy.chunk w && k.why != CfgWhy.request w }
      d.answer w st
  | .rewrite => d
  | .cycleLen =>
    -- the acknowledgement of an older value counts for nothing; the TIME_SET waits until the new length governs
    if st = .accepted ∧ beNat m.value = d.cycleLen then
      (d.updPort p fun (c : CPort) => { c with cycLenAcked := true, timeSetOwed := true }).loadGrid p
    else d
  | .mirror n =>
    -- the port has acknowledged the mirror once every message of it has been accepted
    let c := d.port p
    if n ≠ c.mirrorNo ∨ st ≠ .accepted then d
    else
      let left := c.mirrorLeft - 1
      let d := d.setPort p { c with mirrorLeft := left, mirrorAcked := left == 0 }
      if left = 0 then d.set Reg.WP_STATUS p.val (setBit (d.get Reg.WP_STATUS p.val) 11 false) else d
  | .askPrev =>
    match (d.port p).unresolved with
    | some u =>
      let same := (value.getD 0 0).toNat / 16 == u.alive
      d.resolveWith p (if same then statusOf (value.getD 7 0).toNat else .notApplied)
    | none => d
  | .readBack =>
    if more then d.readOn p m value
    else
      let d := if st = .accepted then d.setMirror p m.addr m.elem got else d
      let lastElem := match (d.port p).unresolved, objRow m.addr with
        | some u, some r => (elemsOf r u.elem).getLast? == some m.elem
        | _, _ => true
      if lastElem then d.resolveDone p else d
  | .rate => d.sweepValue p m.elem (beNat value)

/-- The floored channels a front end reports with an acknowledgement, entered in the ledger one entry per region (R62, R365). -/
def Dev.takeFloors (d : Dev) (p : Port) : Dev :=
  let f := d.fe p
  let d := if f.floorSent.isEmpty then d else d.updPort p fun (c : CPort) => { c with floorTold := true }
  forEach f.floorSent (fun x d => (d.log p.val 0x0502 x.1 x.2).fence p.val 2 x.1) (d.setFe p { f with floorSent := [] })

/-- CONFIG_RESPONSE_RECEIVE (R219, R426, R427, R432): the response to the outstanding message completes what the message
was for; a REPEAT carries the stored outcome. A response with the ALIVE of an unresolved message gives its outcome. -/
def execConfigResponseReceive (p : Port) (alive : BitVec 4) (status : BitVec 8) (value : Bytes) (s : State) : Result :=
  s.on fun d =>
    let c := d.port p
    let rep := status.toNat == 1
    let st := if rep then statusOf (value.getD 0 0).toNat else statusOf status.toNat
    let value := if rep then value.drop 1 else value
    match c.cfg, c.unresolved with
    | some m, _ =>
      if m.alive = alive.toNat then
        (((d.setPort p { c with cfg := none }).takeFloors p).cfgAnswered p m st value).cfgPump p
      else d
    | none, some u => if u.alive = alive.toNat ∧ c.resolved.isNone then d.resolveWith p st else d
    | none, none => d

/-- CONFIG_RESEND (R221, R542): no response 1 ms after sending; the message goes again with unchanged content and ALIVE, when no block
of another kind waits. -/
def execConfigResend (p : Port) (s : State) : Result :=
  s.on fun d =>
    let c := d.port p
    match c.cfg with
    | none => d
    | some m =>
      if m.lastTx + d.ms 1 ≤ d.now ∧ d.now < m.firstTx + d.ms 20 ∧ d.linkFree p .config then
        (d.setPort p { c with cfg := some { m with lastTx := d.now, sends := m.sends + 1 } }).emit
          (.config p.val m.bytes)
      else d

/-- CONFIG_TIMEOUT (R221, R431): no response 20 ms after the first transmission. A request's write, or a part of its value, is
answered OUTCOME_UNKNOWN and leaves the port UNRESOLVED, a request's read PORT_DOWN, a rate read leaves the sweep, and a message
of the Keeper's own waits to be sent again. -/
def execConfigTimeout (p : Port) (s : State) : Result :=
  s.on fun d =>
    let c := d.port p
    match c.cfg with
    | none => d
    | some m =>
      if d.now < m.firstTx + d.ms 20 then d
      else
        let d := d.setPort p { c with cfg := none }
        match m.why with
        | .request w =>
          if m.type = 2 then (d.answer w .portDown).cfgPump p
          else
            let d := d.updPort p fun (c : CPort) => { c with unresolved := some m, resolved := none, feReset := false }
            ((d.set Reg.COM_UNRES p.val 1).bump Reg.COM_UNKNOWN).answer w .outcomeUnknown
        | .chunk w =>
          let d := d.updPort p fun (c : CPort) => { c with
            unresolved := some m, resolved := none, feReset := false
            cfgWaiting := c.cfgWaiting.filter fun k => k.why != CfgWhy.chunk w && k.why != CfgWhy.request w }
          ((d.set Reg.COM_UNRES p.val 1).bump Reg.COM_UNKNOWN).answer w .outcomeUnknown
        | .rate => (d.sweepDrop p).cfgPump p
        | .mirror n => d.updPort p fun (c : CPort) =>
          { c with cfgWaiting := if n = c.mirrorNo then m :: c.cfgWaiting else c.cfgWaiting }
        | .rewrite | .cycleLen | .askPrev | .readBack =>
          d.updPort p fun (c : CPort) => { c with cfgWaiting := m :: c.cfgWaiting }

/-- UNRESOLVED_RESOLVE (R432): 1 ms after the port is next UP its Previous Message is read, or, when the front end has
been reset since the message, the outcome is NOT_APPLIED once it has been rewritten. -/
def execUnresolvedResolve (p : Port) (s : State) : Result :=
  s.on fun d =>
    let c := d.port p
    match c.unresolved with
    | none => d
    | some u =>
      if !d.portUp p || c.resolved.isSome || c.cfg.isSome || decide (d.now < max c.upAt u.firstTx + d.ms 1)
          || c.cfgWaiting.any (fun m => m.why == .askPrev) then d
      else if c.feReset then d.resolveWith p .notApplied
      else d.cfgQueue p [cfgMsg 2 Reg.FE_PREV_MSG 0 [] .askPrev]

end Sys2Proof.Machine
end

