-- ==== Sys2Proof/Machine/Levels.lean ====
section
/-! DEFINITION. The levels of the region groups of a port over time (R38, R65, R66, R359), the BIAS commands that carry
them (R197, R363, R541), and what a movement of the grid does to the commands and raises ahead (R26, R27, R37). -/

namespace Sys2Proof.Machine

/-! ### Levels (R38, R65, R66, R359) -/

/-- Typical power per channel of a bias level, in µW (R65). -/
def levelPower (l : Nat) : Nat := match l with | 0 => 0 | 1 => 35 | 2 => 180 | _ => 420

/-- The slot at which a pending mode change takes effect, on the grid as it stands. -/
def Dev.modeBoundary (d : Dev) : Option Nat :=
  d.modePend.map fun m => match m.cycle with
    | some c => d.startOf c
    | none => d.startOf (d.cyclePlus (d.boundaryAfter m.notBefore))

/-- The mode in force at a slot, now or ahead. -/
def Dev.modeAt (d : Dev) (t : Nat) : Mode :=
  match d.modeBoundary, d.modePend with
  | some b, some m => if b ≤ t then m.target else d.mode
  | _, _ => d.mode

/-- The resting level of a group in a mode (R359). -/
def Dev.restIn (d : Dev) (p : Port) (g : Nat) (m : Mode) : Nat :=
  match m with
  | .stream | .gated | .calibrate | .snapshot => d.get Reg.GV_REST (p.val * 16 + g)
  | .boot | .safe | .configure | .sentinel | .loopback => 1

/-- The resting level of a group at a slot. -/
def Dev.restAt (d : Dev) (p : Port) (g t : Nat) : Nat := d.restIn p g (d.modeAt t)

/-- The end of a raise: a pending mode change ends it at its boundary (R32, R359), but for one a window of the new mode has
from that boundary on (R37). -/
def Dev.stopOf (d : Dev) (r : Raise) : Nat :=
  match d.modeBoundary with
  | some b => if r.window ∧ b ≤ r.start then r.stop else min r.stop b
  | none => r.stop

/-- The raises of a group. -/
def Dev.raisesOf (d : Dev) (p : Port) (g : Nat) : List Raise := d.gov.raises.filter fun r => r.port == p.val && r.group == g

/-- A time over which a group is raised: from slot `start`, its first window's own slot `open_`, until slot `stop`. -/
structure Span where
  start : Nat
  open_ : Nat
  stop : Nat
  level : Nat
deriving DecidableEq, Repr

/-- One more window joined to spans sorted by their windows' slots, the latest first (R38). -/
def joinSpan (spans : List Span) (x : Span) : List Span :=
  match spans with
  | y :: rest =>
    if x.open_ < y.stop then
      { start := min y.start x.start, open_ := y.open_, stop := max y.stop x.stop, level := max y.level x.level } :: rest
    else x :: spans
  | [] => [x]

/-- The spans over which a group is raised: overlapping windows hold the highest of their levels from the earliest start to
the latest end (R38); other raises stand alone. -/
def Dev.spans (d : Dev) (p : Port) (g : Nat) : List Span :=
  let span := fun (r : Raise) => ({ start := r.start, open_ := r.open_, stop := d.stopOf r, level := r.level } : Span)
  let all := d.raisesOf p g
  let wins := ((all.filter Raise.window).map span).insertionSort fun x y => x.open_ ≤ y.open_
  wins.foldl joinSpan [] ++ (all.filter fun r => !r.window).map span

/-- The level a group is to have at a slot: that of its raises, never below its resting level. -/
def Dev.want (d : Dev) (p : Port) (g t : Nat) : Nat :=
  (d.spans p g).foldl (fun l s => if s.start ≤ t ∧ t < s.stop then max l s.level else l) (d.restAt p g t)

/-- The state the governor takes a front end's die to be in: CRITICAL while its trip is in force (R367) or it has been
STALE for long (R351). -/
def Dev.dieState (d : Dev) (p : Port) : Nat :=
  let x := d.gov.dies.toList.getD p.val {}
  if x.trip || d.gov.staleCritical[p.val] then 3 else x.state

/-- The highest level a thermal state allows (R354). -/
def stateCap (s : Nat) : Nat := if 3 ≤ s then 1 else if s = 2 then 2 else 3

/-- The level commanded for a group at a slot. -/
def Dev.levelAt (d : Dev) (p : Port) (g t : Nat) : Nat := min (d.want p g t) (stateCap (d.dieState p))

/-- The target of a command decided now: the port's one-way downlink delay in slots, rounded up, plus 16 (R354). -/
def Dev.target (d : Dev) (p : Port) : Nat := d.now + ceilDiv (d.get Reg.WP_DL_DELAY p.val) 4096 + 16

/-! ### BIAS commands (R197, R363, R541) -/

/-- A BIAS command of the governor for groups of a port at a target (R197, R363): it joins an unsent block of the same
target and level, and the groups leave the other unsent blocks of that target. A window's goes in the place of its calendar
entry's action, another's after the calendar's (R46). A block takes a token for each request in it, never more than the
limiter holds (log entry 171). -/
def Dev.biasCmd (d : Dev) (p : Port) (groups level cyc slot : Nat) (window : Bool) : Dev :=
  let c := d.port p
  let target := d.startOf cyc + slot
  let rank := if window then 1 else 3
  let same := fun (f : Fcmd) => f.copies == 0 && f.target == target
  let strip := fun (f : Fcmd) =>
    if same f then
      match f.op with
      | .bias g l => if l.val = level then f else { f with op := .bias (g &&& ~~~ (BitVec.ofNat 16 groups)) l }
      | .cal _ | .mode _ | .cycleEnd | .inject | .tickPhase _ => f
    else f
  let dead := fun (f : Fcmd) => f.copies == 0 && match f.op with
    | .bias g _ => g == 0
    | .cal _ | .mode _ | .cycleEnd | .inject | .tickPhase _ => false
  let cmds := (c.cmds.map strip).filter fun f => !dead f
  let joins := fun (f : Fcmd) => same f && match f.op with
    | .bias _ l => l.val == level
    | .cal _ | .mode _ | .cycleEnd | .inject | .tickPhase _ => false
  if cmds.any joins then
    let join := fun (f : Fcmd) =>
      if joins f then
        match f.op with
        | .bias g l => { f with op := .bias (g ||| BitVec.ofNat 16 groups) l, rank := min f.rank rank, tokens := min 64 (f.tokens + 1) }
        | .cal _ | .mode _ | .cycleEnd | .inject | .tickPhase _ => f
      else f
    d.setPort p { c with cmds := cmds.map join }
  else
    d.setPort p { c with cmds := cmds ++ [{ op := .bias (BitVec.ofNat 16 groups) (Fin.ofNat 4 level), cycle := cyc, slot := slot
                                            target := target, rank := rank, tokens := 1 }] }

/-- A BIAS command at an absolute slot. -/
def Dev.biasAt (d : Dev) (p : Port) (groups level target : Nat) (window : Bool) : Dev :=
  let (cyc, slot) := d.placeAt target
  d.biasCmd p groups level cyc slot window

/-- BIAS commands for groups of a port, given as group, level and target: those of one level and target in one. -/
def Dev.biasAll (d : Dev) (p : Port) (window : Bool) (cs : List (Nat × Nat × Nat)) : Dev :=
  let kinds := (cs.map fun c => c.2).dedup
  forEach kinds (fun k d => d.biasAt p (maskOf ((cs.filter fun c => c.2 == k).map Prod.fst)) k.1 k.2 window) d

/-- The groups and level of a BIAS command. -/
def Fcmd.bias (f : Fcmd) : Option (Nat × Nat) :=
  match f.op with
  | .bias g l => some (g.toNat, l.val)
  | .cal _ | .mode _ | .cycleEnd | .inject | .tickPhase _ => none

/-- The level a port's commands on their way bring a group to at a slot: of several, that of the last to be sent first
(R541). -/
def CPort.biasAt (c : CPort) (g t : Nat) : Option Nat :=
  let fs := c.cmds.filter fun f => f.target == t && (f.bias.any fun b => bit b.1 g)
  let last := fun (fs : List Fcmd) => fs.getLast?.bind fun f => f.bias.map Prod.snd
  (last (fs.filter fun f => f.copies == 0)).or (last (fs.filter fun f => f.copies != 0))

/-- The commands on their way to slots after `from_` brought in line with the levels now due there: at the slot of every
such command, and at the start and the commanded end of every raise, each group of the port is commanded to its level unless
a command of that level is on its way or the level does not change. A command already sent is overruled by one sent later
(R541). -/
def Dev.rebias (d : Dev) (p : Port) (from_ : Nat) (window : Bool) : Dev :=
  let own := d.gov.raises.filter fun r => r.port == p.val
  let points := own.map Raise.start ++ (own.filter Raise.ended).map d.stopOf
    ++ ((d.port p).cmds.filter fun f => f.bias.isSome).map Fcmd.target
  let change := fun (t g : Nat) =>
    let l := d.levelAt p g t
    if ((d.port p).biasAt g t).getD (d.levelAt p g (t - 1)) = l then none else some (g, l, t)
  let cs := (points.filter fun t => decide (from_ < t)).dedup.flatMap fun t => (List.range 16).filterMap (change t)
  if d.takesCmds p then d.biasAll p window cs else d

/-! ### Movements of the grid (R26, R27, R34, R37) -/

/-- Where a slot comes to lie when the end of a cycle moves from slot `old` to slot `new`: the cycles after it move as a whole,
and what is cut off lies at the new end. -/
def shiftTo (old new x : Nat) : Nat :=
  if x ≤ min old new then x else if old ≤ new then x + (new - old) else if x < old then new else x - (old - new)

/-- A command on its way when cycle `k` ahead, of the grid `old`, comes to end elsewhere on the grid `d`. One in a later cycle keeps its
place there; one in what is cut off is dropped when no copy has been sent, as is every unsent BIAS command from there on, whose
slot is taken again from the raises. -/
def Dev.moveCmd (d old : Dev) (k : Nat) (f : Fcmd) : Option Fcmd :=
  let n := old.cyclesAhead f.cycle
  let cut := n == k && decide (d.endOf k ≤ f.target)
  let fresh := f.copies == 0
  if f.target ≤ d.now ∨ 2 ^ 39 ≤ n then some f
  else if fresh && f.bias.isSome && decide (d.endOf k ≤ f.target) then none
  else if cut then if fresh then none else some { f with target := d.endOf k }
  else if k < n then
    some { f with cycle := if fresh then d.cyclePlus n else f.cycle, target := d.startAhead n + f.slot }
  else some f

/-- A raise when the end of a cycle moves from slot `e` to slot `new` (R27, R37): a window of a later cycle moves with it; one
whose entry is cut off is gone, but for the time a command already sent raises the group before the new end. -/
def moveRaise (e new : Nat) (r : Raise) : Option Raise :=
  if !r.window || decide (r.open_ < min e new) then some r
  else if e ≤ r.open_ then
    let by_ := fun (x : Nat) => x + (new - e) - (e - new)
    some { r with start := by_ r.start, open_ := by_ r.open_, stop := by_ r.stop }
  else if r.start < new then some { r with stop := new, ended := false } else none

/-- What the ports hold when cycle `k` ahead, of the grid `old`, comes to end elsewhere: the commands, the places the calendar and the
injections have reached, moves of the tick phase, the boundary of a waiting mirror, and the raises with their BIAS commands. -/
def Dev.regrid (d old : Dev) (k : Nat) : Dev :=
  let e := old.endOf k
  let new := d.endOf k
  let d := { d with gov := { d.gov with raises := d.gov.raises.filterMap (moveRaise e new) } }
  forEach allPorts (fun p d =>
    let inject := fun (c : CPort) =>
      let n := old.cyclesAhead c.injectNext
      if k < n ∧ n < 2 ^ 39 then d.cyclePlus n else c.injectNext
    let d := d.updPort p fun c => { c with
      cmds := c.cmds.filterMap (d.moveCmd old k)
      calTo := shiftTo e new c.calTo, winTo := shiftTo (e * 64) (new * 64) c.winTo
      tickMoveAt := c.tickMoveAt.map fun x => (shiftTo e new x.1, x.2)
      mirrorBoundary := shiftTo e new c.mirrorBoundary, injectNext := inject c }
    d.rebias p d.now true) d

/-- A movement of the grid that waits is given up, and its cycle-end commands with it; a port that has been sent one is given
the grid again by TIME_SET (log entry 172). -/
def Dev.dropMove (d : Dev) : Dev :=
  match d.cut with
  | none => { d with grid := { d.grid with move := none } }
  | some (k, _) =>
    let sent := fun (c : CPort) => c.cmds.any fun f => f.op == .cycleEnd && f.copies != 0
    let after := { d with grid := { d.grid with move := none } }
    let after := forEach allPorts (fun p d => d.updPort p fun c => { c with
      timeSetOwed := c.timeSetOwed || sent c, cmds := c.cmds.filter fun f => !(f.op == .cycleEnd && f.copies == 0) }) after
    after.regrid d k

/-- A movement of the cycle grid to take effect at its slot (R26, R27): what is on its way follows the moved grid, and every
port that takes commands is sent a cycle-end command for a cycle that ends early. It replaces a movement that still waits. -/
def Dev.moveGrid (d : Dev) (m : GridMove) : Dev :=
  let old := d.dropMove
  let d := { old with grid := { old.grid with move := some m } }
  match d.cut with
  | none => d
  | some (k, _) =>
    let d := d.regrid old k
    match d.cutPlace with
    | none => d
    | some (cyc, slot) => forEach allPorts (fun p d => if d.takesCmds p then d.fcmd p .cycleEnd cyc slot 1 else d) d

end Sys2Proof.Machine
end

