-- ==== Sys2Proof/Machine/TimeBase.lean ====
section
/-! DEFINITION. The time base (chapter 8): PTP and SYNCE sources (R232 to R237), the servo and the states (R238 to
R247), references (R248, R249), the flywheel and the synthesiser (R251 to R257), time pulses (R258, R259), the swap of
time bases (R260, R261), the status (R262) and the interval monitor (R263 to R268). -/

namespace Sys2Proof.Machine

/-! ### Units and status -/

/-- One nanosecond in the units of a reading, 2⁻¹⁶ ns. -/
def oneNs : Int := 65536

/-- Slots in one second. -/
def Dev.second (d : Dev) : Nat := d.ms 1000

/-- Failed Start Count (R489): the failed starts within the last 600 s of always-on time. -/
def Dev.failedStarts (d : Dev) : Nat := (d.aon.failedTimes.filter fun t => decide (d.aonMs / 1000 ≤ t + 600)).length

/-- A start that fails (R489): its time is kept among the last three, and recorded. -/
def Dev.failStart (d : Dev) (reason : Nat) : Dev :=
  let d := { d with aon := { d.aon with failedTimes := (d.aonMs / 1000 :: d.aon.failedTimes).take 3 }
                    boot := { d.boot with startOpen := false } }
  d.log 0xFF 0x0103 reason d.failedStarts

/-- A restart of the concentrator (R407, R433, R486): every object at its default, transactions and baskets lost, the ledger
records still in the buffer counted as lost, the downlinks idle so that every front end is reset; what VDD_AON and the flash
devices hold stays. The boot runs once the reset is released. -/
def Dev.restart (d : Dev) (reason : Nat) : Dev :=
  let fails := d.boot.startOpen && decide (4 ≤ reason) && decide (reason ≤ 6)
  let fes := d.fes.map fun (f : FrontEnd) => ({ power := if f.power = .powerOn then .powerOn else .lowPower } : FrontEnd)
  let aon := { d.aon with
    reason := reason, msBase := d.aonMs, lost := min (d.aon.lost + d.ledger.buffer.length) (2 ^ 32 - 1) }
  let fresh : Dev :=
    { free := d.free, inReset := true, fes := fes, aon := aon, out := d.out
      flash := d.flash.map fun (f : Flash) => { f with accepted := false, busy := none }
      ledger := { copies := d.ledger.copies, seq := d.ledger.seq, readPos := d.ledger.readPos } }
  if fails then fresh.failStart reason else fresh

/-- SAFE is due at the first cycle boundary after an event (R493), announced to the front ends when the lead allows it. -/
def Dev.safeSoon (d : Dev) (reason : Nat) : Dev :=
  let cyc := d.cyclePlus (d.boundaryAfter (d.now + 1))
  let d := { d with modePend := some { target := .safe, cycle := none, notBefore := d.now + 1 }, safeReason := some reason }
  if d.now + d.get Reg.CAL_LEAD ≤ d.startOf cyc then d.announceMode .safe cyc else d.withdrawMode

/-- A fatal fault (R488, R493, R495): in BOOT a restart of reason FATAL_FAULT, in any other mode SAFE of that reason at the
first cycle boundary. -/
def Dev.fallSafe (d : Dev) (reason : Nat) : Dev :=
  if d.mode = .boot then d.restart 0x05
  else if d.mode = .safe then { d with safeReason := some reason }
  else d.safeSoon reason

/-- Whether a source is enabled (R270): 0 PTP_A, 1 PTP_B, 2 SYNCE_A, 3 SYNCE_B. -/
def Dev.srcOn (d : Dev) (s : Nat) : Bool := bit (d.get Reg.TB_SRC_EN) s

/-- Whether any PTP source is enabled (R241). -/
def Dev.anyPtp (d : Dev) : Bool := d.srcOn 0 || d.srcOn 1

/-- Step Threshold in 2⁻¹⁶ ns. -/
def Dev.stepThresh (d : Dev) : Int := d.get Reg.TB_STEP_THRESH * oneNs

/-- REF_FALLBACK: the clock comes from OSC_LOCAL (R249). -/
def Dev.fallback (d : Dev) : Bool := d.get Reg.TB_REF_USE == 2

/-- The code of a time-base state (R270). -/
def tbStateCode : TbState → Nat
  | .free => 0 | .acquiring => 1 | .locked => 2 | .holdover => 3 | .disputed => 4

/-- The slot at which every marker within CM_WINDOW of the boundary at slot `b` has passed the filter (R251, R252). -/
def Dev.markerClose (d : Dev) (b : Nat) : Int := (b : Int) - d.getI Reg.CM_OFFSET + d.get Reg.CM_WINDOW + d.get Reg.TB_CM_FILTER

/-- The expected boundaries in a row that have passed without a marker by now (R254): a boundary is missed once its window has
passed. -/
def Dev.missedMarkers (d : Dev) : Nat :=
  d.tb.cmMissed + (d.tb.cmAwait.filter fun b => decide (d.markerClose b < d.now)).length

/-- CM_LOST (R254, R255): markers are lost from the third boundary missed on. -/
def Dev.cmLost (d : Dev) : Bool :=
  d.tb.cmLost || (d.get Reg.TB_CYC_SRC != 0 && !d.tb.aligning && decide (3 ≤ d.missedMarkers))

/-- The Time Status word (R262). -/
def Dev.timeStatus (d : Dev) : Nat :=
  let tb := d.tb
  let src := match tb.phaseSrc with
    | none => 0
    | some p => p.val + 1
  let pend := match tb.step with
    | some (.accepted, _) => true
    | some (.first, _) | some (.preset _, _) | none => false
  flag 12 ((tb.ptp.toList.getD (d.get Reg.TB_HOME) {}).disagree) + src * 2 ^ 10 + flag 9 (d.tu.active == 1)
    + flag 8 tb.freqSrc.isSome + flag 7 pend + flag 6 d.cmLost + flag 5 (tb.state == .free) + flag 4 tb.slewing
    + flag 3 (tb.state == .acquiring) + flag 2 d.fallback + flag 1 (tb.state == .disputed) + flag 0 (tb.state == .holdover)

/-- Holdover Elapsed (R242): whole seconds since the time base last left LOCKED, in HOLDOVER and DISPUTED; it saturates (R270). -/
def Dev.holdoverSecs (d : Dev) : Nat :=
  match d.tb.state, d.tb.leftLocked with
  | .holdover, some t | .disputed, some t => min ((d.now - t) / d.second) 0xFFFFFFFF
  | .free, _ | .acquiring, _ | .locked, _ | .holdover, none | .disputed, none => 0

/-- Whole seconds spent in fallback since the time base left LOCKED (R242). -/
def Dev.fallbackSecs (d : Dev) : Nat :=
  match d.tb.leftLocked with
  | none => 0
  | some t =>
    let cur := match d.tb.fallbackFrom with
      | some f => d.now - max f t
      | none => 0
    (d.tb.fallbackAcc + cur) / d.second

/-- The reported uncertainty in ns (R242, R243). -/
def Dev.uncertainty (d : Dev) : Nat :=
  match d.tb.state with
  | .free | .acquiring => 0xFFFFFFFF
  | .locked => ceilDiv (d.tb.accepted.foldl (fun a t => max a t.natAbs) 0) 65536
  | .holdover | .disputed =>
    let fb := d.fallbackSecs
    let el := d.holdoverSecs
    min 0xFFFFFFFF (d.get Reg.TB_HO_BASE
      + (d.get Reg.TB_HO_GROWTH * (el - fb) + d.get Reg.TB_FB_GROWTH * fb) / 1000)

/-- The median of the last 8 values of θ (R244): with 8 values, the mean of the middle two, rounded. -/
def median8 (l : List Int) : Int :=
  let s := (l.take 8).insertionSort (· ≤ ·)
  roundHalfUp (s.getD (s.length / 2) 0 + s.getD ((s.length - 1) / 2) 0) 2

/-- Largest minus smallest of a list. -/
def spread (l : List Int) : Int :=
  match l with
  | [] => 0
  | a :: rest => rest.foldl max a - rest.foldl min a

/-! ### The grid: moves -/

/-- The first boundary at slot `want` or later of the grid in progress moved by `delta` slots. -/
def Dev.movedBoundary (d : Dev) (delta want : Int) : Nat :=
  let now_ : Int := d.grid.cycleStart + delta
  let next : Int := now_ + d.grid.len
  (if want ≤ now_ then now_ else if want ≤ next then next
    else next + ceilDiv (want - next).toNat d.cycleLen * d.cycleLen).toNat

/-- A re-phase by `delta` slots (R253, R256): at the first boundary of the moved grid at least 4,096 slots after slot `from_`. -/
def Dev.rephase (d : Dev) (delta from_ : Int) (synth : Bool) : Dev :=
  d.moveGrid { at_ := d.movedBoundary delta (from_ + 4096), cycle := none, delta := delta, synth := synth, record := true }

/-- The instants of R256 in 2⁻⁴⁸ ns: the cycle length and a reading measured from Cycle Epoch. -/
def Dev.synthPeriod (d : Dev) : Int := d.cycleLen * 8 * nominalTick (d.get Reg.TB_FNOM)

/-- A reading in 2⁻¹⁶ ns as 2⁻⁴⁸ ns after Cycle Epoch. -/
def Dev.sinceEpoch (d : Dev) (t : Int) : Int := (t - ofTime96 (d.get Reg.TB_CYC_EPOCH)) * 2 ^ 32

/-- Whether time is set (R256): not in ACQUIRING, and in FREE only once a Time Preset has been applied. -/
def Dev.timeKnown (d : Dev) : Bool :=
  match d.tb.state with
  | .acquiring => false
  | .free => d.tb.freeSet
  | .locked | .holdover | .disputed => true

/-- How many fine bins the counter takes for a reading to advance by `x` / `unit` nominal ticks at the rate in force (R229),
rounded. -/
def Dev.binsFor (d : Dev) (x unit : Int) : Int := roundHalfUp (x * 512 * 2 ^ 48) (unit * (2 ^ 48 + d.tbNow.rate))

/-- The deviation of a named boundary from the nearest boundary of the grid in progress (R252): the two ends of the cycle in
progress and, beyond it, cycles of the length last written. -/
def Dev.markerDev (d : Dev) (named : Int) : Int :=
  let next : Int := d.grid.cycleStart + d.grid.len
  let near := fun (base len : Int) => (named - base + len / 2) % len - len / 2
  if named < next then near d.grid.cycleStart d.grid.len else near next d.cycleLen

/-- The synthesiser's alignment (R257): the grid moves to the first R256 boundary at least 4,096 slots ahead and takes its number;
outside CONFIGURE a GRID_MOVE record marks it (R294, R295). -/
def Dev.alignSynth (d : Dev) : Dev :=
  if d.get Reg.TB_CYC_SRC ≠ 0 ∨ ¬ d.timeKnown then d
  else
    let tick : Int := nominalTick (d.get Reg.TB_FNOM)
    let r := d.sinceEpoch d.reading
    let per := d.synthPeriod
    let n := -((-(r * 2 ^ 48 + 4096 * 8 * tick * (2 ^ 48 + d.tbNow.rate))) / (per * 2 ^ 48))
    let at_ : Int := d.now + roundHalfUp (d.binsFor (n * per - r) tick) 4096
    d.moveGrid { at_ := at_.toNat, cycle := some (n % 2 ^ 40).toNat, delta := d.markerDev at_, synth := true, record := false
                 mark := d.mode != .configure }

/-- SYNTH_GRID_CHECK (R256): the grid error at a cycle boundary, and a re-phase after three excesses in a row, once no movement
is on its way (log entry 130). The slip counts modulo 2⁴⁰ as cycle numbers do (R24). -/
def Dev.synthCheck (d : Dev) : Dev :=
  if d.get Reg.TB_CYC_SRC ≠ 0 then d
  else if ¬ d.timeKnown then d.setI Reg.TB_GRID_ERR 0 0
  else
    let slot : Int := 8 * nominalTick (d.get Reg.TB_FNOM)
    let r := d.sinceEpoch (d.readingAt d.grid.cycleStart 0)
    let per := d.synthPeriod
    let n := -((per - 2 * r) / (2 * per))
    let e := r - n * per
    let d := (d.setI Reg.TB_GRID_ERR 0 (e / 2 ^ 32)).setI Reg.TB_CYC_SLIP 0 (((d.grid.cycle : Int) - n + 2 ^ 39) % 2 ^ 40 - 2 ^ 39)
    if (d.get Reg.TB_GRID_TOL : Int) * slot < (e.natAbs : Int) then
      if 2 ≤ d.tb.errRun ∧ d.grid.move.isNone then
        { d with tb := { d.tb with errRun := 0 } }.rephase (-(roundHalfUp e slot)) d.grid.cycleStart true
      else { d with tb := { d.tb with errRun := d.tb.errRun + 1 } }
    else { d with tb := { d.tb with errRun := 0 } }

/-- The flywheel begins to align (R255): the grid runs free, and a movement that waits is given up. -/
def Dev.startAligning (d : Dev) : Dev :=
  let s := d.get Reg.TB_CYC_SRC
  if s = 0 then d
  else
    let d := d.dropMove
    { d with tb := { d.tb with
    aligning := true, cmLost := true, cmInput := s - 1, cmRun := [], cmOther := 0, cmMissed := 0, cmAwait := [], cmAhead := none } }

/-- The flywheel judged (R254): three expected boundaries in a row without a marker lose the markers, and the other input takes over
when it has delivered three on time. -/
def Dev.flywheelCheck (d : Dev) : Dev :=
  if d.get Reg.TB_CYC_SRC = 0 ∨ d.tb.aligning then d
  else
    let past := fun (b : Nat) => decide (d.markerClose b < d.now)
    let missed := d.missedMarkers
    let tb : TimeBase := { d.tb with cmMissed := missed, cmAwait := d.tb.cmAwait.filter fun b => !past b }
    if missed < 3 then { d with tb := tb }
    else if 3 ≤ tb.cmOther then
      { d with tb := { tb with cmLost := true, cmInput := 1 - tb.cmInput, cmMissed := 0, cmOther := 0, cmRun := [], cmAwait := [] } }
    else { d with tb := { tb with cmLost := true } }

/-- The flywheel at a cycle boundary (R254): a marker is expected for it unless it has come already. -/
def Dev.expectMarker (d : Dev) : Dev :=
  if d.get Reg.TB_CYC_SRC = 0 ∨ d.tb.aligning then d
  else
    let await := if d.tb.cmAhead = some d.grid.cycleStart then d.tb.cmAwait else d.tb.cmAwait ++ [d.grid.cycleStart]
    { d with tb := { d.tb with cmAwait := await, cmAhead := none } }.flywheelCheck

/-! ### Interval monitor -/

/-- The device with an interval-monitor channel replaced. -/
def Dev.setTim (d : Dev) (i : Fin 8) (c : TimChan) : Dev := { d with tu := { d.tu with tim := d.tu.tim.set i.val c } }

/-- The published statistics of a block (R268). -/
def statsBytes (seq : Nat) (endTime : Int) (b : TimBlock) : Bytes :=
  let n := b.n
  let var := (n : Int) * b.sumSq - b.sum * b.sum
  beBytes 4 seq ++ beBytes 4 n ++ beBytes 12 (time96 endTime) ++ beBytes 8 (unsgn 64 (roundHalfUp b.sum n))
    ++ beBytes 8 (Nat.sqrt var.toNat / n) ++ beBytes 8 (unsgn 64 b.min) ++ beBytes 8 (unsgn 64 b.max)
    ++ beBytes 2 (min b.excluded 65535) ++ beBytes 2 b.flags

/-- A measurement added to a block. -/
def TimBlock.add (b : TimBlock) (x : Int) : TimBlock :=
  { b with n := b.n + 1, sum := b.sum + x, sumSq := b.sumSq + x.natAbs * x.natAbs
           min := if b.n = 0 then x else Min.min b.min x, max := if b.n = 0 then x else Max.max b.max x }

/-- A measurement between two stamps (R267): excluded across a step or with a stale pair, else added. -/
def TimBlock.measure (b : TimBlock) (a z : TimEdge) : TimBlock :=
  if a.steps ≠ z.steps ∨ a.stale ∨ z.stale then { b with excluded := b.excluded + 1 } else b.add (z.time - a.time)

/-- A block that begins: it notes the HOLDOVER or DISPUTED in progress (R268). -/
def Dev.freshBlock (d : Dev) : TimBlock := { flags := flag 0 (d.tb.state == .holdover) + flag 1 (d.tb.state == .disputed) }

/-- A channel's measurement from stamp `from_`, if there is one, to stamp `edge`, whose flags its block notes; a block of N is
published and the next begins (R268). -/
def Dev.measureTim (d : Dev) (i : Fin 8) (from_ : Option TimEdge) (edge : TimEdge) : Dev :=
  let c := d.tu.tim[i.val]
  let b : TimBlock := { c.block with flags := c.block.flags ||| edge.flags }
  let b : TimBlock := match from_ with
    | some a => b.measure a edge
    | none => b
  if 2 ^ d.get Reg.TIM_NEXP i.val ≤ b.n then
    d.setTim i { c with block := d.freshBlock, blockNo := (c.blockNo + 1) % 2 ^ 32, stats := statsBytes c.blockNo edge.time b }
  else d.setTim i { c with block := b }

/-- The latest stamp of the reference input set at a stamp that precedes it (R267). -/
def Dev.referenceOf (d : Dev) (edge : TimEdge) : Option TimEdge :=
  (d.tu.tim.toList.getD edge.ref {}).recent.find? fun e => decide (e.at_ < edge.at_)

/-- The INTERVAL measurements of a channel whose earlier edges at the reference input have all passed its glitch filter: an edge is
stamped at most one slot before the slot its TDC stops in (R92). -/
def Dev.settleTim (d : Dev) (i : Fin 8) : Dev :=
  let ripe := fun (e : TimEdge) => decide (e.at_ / 4096 + 1 + d.get Reg.TIM_FILTER e.ref < (d.now : Int))
  let c := d.tu.tim[i.val]
  forEach (c.waiting.filter ripe) (fun e d => d.measureTim i (d.referenceOf e) e)
    (d.setTim i { c with waiting := c.waiting.filter fun e => !ripe e })

/-- The INTERVAL measurements of every channel that can be made. -/
def Dev.settleTims (d : Dev) : Dev := forEach (List.finRange 8) (fun i d => d.settleTim i) d

/-- What occurred noted in the FLAGS of every channel's block in progress (R268). -/
def Dev.markTim (d : Dev) (flags : Nat) : Dev :=
  if flags = 0 then d
  else
    let d := d.settleTims
    { d with tu := { d.tu with tim := d.tu.tim.map fun c => { c with block := { c.block with flags := c.block.flags ||| flags } } } }

/-! ### Sources and states -/

/-- The integrator under the servo's present frequency source: of a qualified SYNCE source, its mean (R235, R238). -/
def Dev.integNow (d : Dev) : Rat :=
  match d.tb.freqSrc with
  | some p =>
    let ws := d.tb.synce[p.val].windows
    if ws.isEmpty then d.tb.integ else ((ws.foldl (· + ·) 0 : Int) : Rat) / (ws.length * 2 ^ 48 : Nat)
  | none => d.tb.integ

/-- A fractional frequency as a rate in 2⁻⁴⁸ (R229). -/
def rateOf (x : Rat) : Int := roundHalfUp (x.num * 2 ^ 48) x.den

/-- The rate with the phase term zero (R241, R242): the integrator's, but in FREE and ACQUIRING 0 without a SYNCE source. -/
def Dev.coastRate (d : Dev) : Int :=
  match d.tb.state with
  | .free | .acquiring => if d.tb.freqSrc.isSome then rateOf d.integNow else 0
  | .locked | .holdover | .disputed => rateOf d.integNow

/-- The rate taken with the phase term zero: outside LOCKED only the integrator steers (R241, R242). -/
def Dev.coast (d : Dev) : Dev :=
  let i := d.integNow
  { d with tb := { d.tb with integ := i } }.setRate d.coastRate

/-- The timing port of the home reference (R237). -/
def Dev.home (d : Dev) : Fin 2 := if d.get Reg.TB_HOME = 1 then 1 else 0

/-- The frequency source (R236): the qualified SYNCE source of the phase source's port, else the other. -/
def Dev.pickFreq (d : Dev) : Dev :=
  let ok := fun (p : Fin 2) => d.tb.synce[p.val].qualified && d.srcOn (2 + p.val)
  let first : Fin 2 := d.tb.phaseSrc.getD d.home
  let other : Fin 2 := 1 - first
  let f := if ok first then some first else if ok other then some other else none
  { d with tb := { d.tb with freqSrc := f } }

/-- The device with the time base in another state (R241); the blocks of the interval monitor note HOLDOVER and DISPUTED (R268). -/
def Dev.goState (d : Dev) (st : TbState) : Dev :=
  ({ d with tb := { d.tb with state := st, stateWas := d.tb.state, stateFrom := d.now } }).markTim
    (flag 0 (st == TbState.holdover) + flag 1 (st == TbState.disputed))

/-- The time base enters LOCKED (R238, R244): τ restarts, the offset is slewed out. -/
def Dev.lock (d : Dev) (slewing : Bool) : Dev :=
  let d := if d.tb.state = TbState.holdover then d.log 0xFF 0x0302 d.holdoverSecs d.uncertainty 2 else d
  let d := d.goState .locked
  { d with tb := { d.tb with tauFrom := none, leftLocked := none, fallbackAcc := 0
                             outliers := [], slewing := slewing, slewRun := 0 } }

/-- The time base enters DISPUTED with a source whose median θ lies outside Step Threshold (R239, R245). -/
def Dev.dispute (d : Dev) (p : Fin 2) (m : Int) : Dev :=
  let was := d.tb.state
  let d := if was = TbState.holdover then d.log 0xFF 0x0302 d.holdoverSecs d.uncertainty 4 else d
  let left := if was = TbState.locked then some d.now else d.tb.leftLocked
  let d := d.goState .disputed
  let d := { d with tb := { d.tb with leftLocked := left, outliers := [], slewing := false
                                      fallbackAcc := if was = TbState.locked then 0 else d.tb.fallbackAcc } }
  (((d.setI Reg.TB_STEP_PEND 0 m).bump Reg.TB_STEP_REFUSED).log 0xFF 0x0303 p.val m).coast

/-- HOLDOVER_ENTER (R242): no enabled PTP source remains qualified. -/
def Dev.enterHoldover (d : Dev) (last : Nat) : Dev :=
  let was := d.tb.state
  let left := if was = TbState.locked then some d.now else d.tb.leftLocked.or (some d.now)
  let d := (d.log 0xFF 0x0301 last).goState .holdover
  { d with tb := { d.tb with leftLocked := left, slewing := false, outliers := []
                             fallbackAcc := if was = TbState.locked then 0 else d.tb.fallbackAcc } }.coast

/-- The device with a PTP source changed. -/
def Dev.updPtp (d : Dev) (p : Fin 2) (g : PtpSource → PtpSource) : Dev :=
  { d with tb := { d.tb with ptp := d.tb.ptp.set p.val (g d.tb.ptp[p.val]) } }

/-- A source taken as phase source under the rules of return (R236, R244, R245, R247). -/
def Dev.takeSource (d : Dev) (p : Fin 2) : Dev :=
  let d := { d with tb := { d.tb with phaseSrc := some p, homeDue := false, outliers := [] } }.pickFreq
  let d := d.updPtp p fun x => { x with disagree := false }
  let m := median8 (d.tb.ptp[p.val].thetas.map Prod.fst)
  match d.tb.state with
  | .free => d
  | .acquiring => { d with tb := { d.tb with step := some (.first, d.now + 4096) } }
  | .locked | .holdover | .disputed =>
    if m.natAbs ≤ d.stepThresh then if d.tb.state = .locked then { d with tb := { d.tb with slewing := true, slewRun := 0 } }
      else d.lock true
    else d.dispute p m

/-- A pending step or first setting cancelled with its source (R246, R247). -/
def Dev.cancelStep (d : Dev) (p : Fin 2) : Dev :=
  match d.tb.step with
  | some (.accepted, _) => { d with tb := { d.tb with step := none } }.log 0xFF 0x0305 p.val
  | some (.first, _) => { d with tb := { d.tb with step := none } }
  | some (.preset _, _) | none => d

/-- A PTP source that is no longer qualified (R234). -/
def PtpSource.drop (s : PtpSource) : PtpSource := { s with qualified := false, disagree := false }

/-- A PTP source disqualifies (R234, R236, R242). -/
def Dev.disqualify (d : Dev) (p : Fin 2) : Dev :=
  let was := d.tb.ptp[p.val].qualified
  let d := d.updPtp p PtpSource.drop
  let d := if d.home = p then { d with tb := { d.tb with homeDue := false } } else d
  if !was || d.tb.phaseSrc != some p then d
  else
    let d := d.cancelStep p
    let o : Fin 2 := 1 - p
    if d.tb.ptp[o.val].qualified && d.srcOn o.val then d.takeSource o
    else
      let d := { d with tb := { d.tb with phaseSrc := none } }.pickFreq
      match d.tb.state with
      | .free | .acquiring => d.coast
      | .locked | .holdover | .disputed => d.enterHoldover p.val

/-- Source Enable as written (R241): sources switched off disqualify, and with no PTP source enabled the time base is
FREE. -/
def Dev.sourcesChanged (d : Dev) : Dev :=
  let off := fun (p : Fin 2) (d : Dev) =>
    if d.srcOn p.val then d else if d.anyPtp then d.disqualify p else d.updPtp p PtpSource.drop
  let d := (forEach (List.finRange 2) off d).pickFreq
  if !d.anyPtp then
    let locked := d.tb.state == .locked
    let d := match d.tb.phaseSrc with
      | some p => d.cancelStep p
      | none => d
    let d := if d.tb.state = TbState.holdover then d.log 0xFF 0x0302 d.holdoverSecs d.uncertainty 0 else d
    let d := if d.tb.state = TbState.free then d else d.goState .free
    { d with tb := { d.tb with phaseSrc := none, slewing := false, outliers := [], homeDue := false
                               leftLocked := if locked then some d.now else d.tb.leftLocked
                               fallbackAcc := if locked then 0 else d.tb.fallbackAcc } }.coast
  else if d.tb.state = .free then
    if d.tb.timeSet then d.enterHoldover 0 else d.goState .acquiring
  else d

/-- An accepted θ given to the servo (R238, R243, R244). -/
def Dev.servo (d : Dev) (theta : Int) : Dev :=
  let tb := d.tb
  let ns : Rat := (theta : Rat) / 65536 / 1000000000
  let tp : Rat := d.get Reg.TB_TP
  let ti : Rat := d.get Reg.TB_TI
  let slew : Rat := (d.get Reg.TB_MAX_SLEW : Rat) / 1000000000
  let tol : Rat := (d.get Reg.TB_REF_TOL : Rat) / 1000000
  let clip := fun (m x : Rat) => max (-m) (min m x)
  let p := clip slew (ns / tp)
  let tau : Rat := match tb.tauFrom with
    | some t => ((d.now - t : Nat) : Rat) / d.second
    | none => 0
  let i := if tb.freqSrc.isSome then d.integNow else clip tol (tb.integ + ns * tau / (tp * ti))
  let calm := if theta.natAbs ≤ 65536 then tb.slewRun + 1 else 0
  let tb := { tb with integ := i, tauFrom := some d.now, outliers := [], accepted := (theta :: tb.accepted).take 16
                      slewRun := calm, slewing := tb.slewing && decide (calm < 16) }
  { d with tb := tb }.setRate (rateOf (i + p))

/-- Whether a reference change is due at the boundary reached; it goes before the other items of R250 and R15. -/
def Dev.refDue (d : Dev) : Bool :=
  match d.tu.refPend with
  | some (_, t) => decide (t ≤ d.grid.cycleStart)
  | none => false

/-- Whether by a slot the home source has been qualified for Return Time beside another active source (R237). -/
def Dev.returnTimeBy (d : Dev) (t : Nat) : Bool :=
  let h := d.home
  let x := d.tb.ptp[h.val]
  x.qualified && d.srcOn h.val && d.tb.phaseSrc == some (1 - h) && decide (x.qualAt + d.get Reg.TB_RETURN_TIME * d.second ≤ t)

/-- Whether a return to the home reference is due at the boundary reached (R237, R250). -/
def Dev.homeReturnDue (d : Dev) : Bool :=
  d.returnTimeBy d.grid.cycleStart && !d.tb.homeDue
    && (d.tb.ptp[d.home.val].thetas.head?.any fun x => decide (x.1.natAbs ≤ d.stepThresh))

/-- Whether something is due at the boundary reached that goes before the items of R15 (R250): a reference change, or a return to the
home reference. -/
def Dev.firstDue (d : Dev) : Bool := d.refDue || d.homeReturnDue

/-- The home source disagrees by more than Step Threshold (R237): recorded once per attempt to return. -/
def Dev.homeDisagrees (d : Dev) (h : Fin 2) : Dev :=
  let x := d.tb.ptp[h.val]
  let d := { d with tb := { d.tb with homeDue := false } }
  if x.disagree then d
  else (d.updPtp h fun x => { x with disagree := true }).log 0xFF 0x0306 h.val (median8 (x.thetas.map Prod.fst))

/-- A θ of a source that is not the phase source (R237): of the home source it completes a return that waits for it, when it
lies within Step Threshold, and the offset is slewed out; a home source that agrees again is no longer in DISAGREE. -/
def Dev.besideTheta (d : Dev) (p : Fin 2) (theta : Int) : Dev :=
  let near := decide (theta.natAbs ≤ d.stepThresh)
  if d.home ≠ p then d
  else
    let d := if near then d.updPtp p fun x => { x with disagree := false } else d
    if !d.tb.homeDue || d.refDue then d
    else if !near then d.homeDisagrees p
    else
      let d := d.cancelStep (1 - p)
      let d := { d with tb := { d.tb with phaseSrc := some p, homeDue := false, outliers := [] } }.pickFreq
      let d := if d.tb.state = TbState.locked then { d with tb := { d.tb with slewing := true, slewRun := 0 } } else d.lock true
      d.servo theta

/-- A new θ of a source (R236, R237, R239, R244, R245). -/
def Dev.newTheta (d : Dev) (p : Fin 2) (theta : Int) : Dev :=
  if d.tb.phaseSrc ≠ some p then d.besideTheta p theta
  else
    let m := median8 (d.tb.ptp[p.val].thetas.map Prod.fst)
    match d.tb.state with
    | .free | .acquiring | .holdover => d
    | .locked =>
      if d.stepThresh < theta.natAbs then
        let outs := theta :: d.tb.outliers
        let d := { d with tb := { d.tb with outliers := outs.take 8, slewRun := 0 } }.bump Reg.TB_OUTLIERS
        if 8 ≤ outs.length ∧ spread (outs.take 8) ≤ d.get Reg.TB_QSPREAD * oneNs then d.dispute p (median8 outs) else d
      else d.servo theta
    | .disputed =>
      let d := d.setI Reg.TB_STEP_PEND 0 m
      if m.natAbs ≤ d.stepThresh then d.lock true else d

/-- Slots in 2^`log` seconds, rounded up. -/
def Dev.logSeconds (d : Dev) (log : Int) : Nat :=
  if 0 ≤ log then d.second * 2 ^ log.toNat else ceilDiv d.second (2 ^ (-log).toNat)

/-- Whether a PTP source meets the conditions of qualification (R234). -/
def Dev.meets (d : Dev) (p : Fin 2) : Bool :=
  let s := d.tb.ptp[p.val]
  let lim := 4 * d.logSeconds s.logSync
  let times := s.thetas.map Prod.snd
  let close := ((d.now :: times).zip times).all fun x => decide (x.1 ≤ x.2 + lim)
  d.tu.links[p.val] && s.master.isSome && decide (s.clockClass ≤ d.get Reg.TB_PTP_MAXCLASS) && d.srcOn p.val
    && s.thetas.length == 16 && close && decide (spread (s.thetas.map Prod.fst) ≤ d.get Reg.TB_QSPREAD * oneNs)

/-- A PTP source that meets the conditions qualifies, and is taken when there is no phase source (R234, R236). -/
def Dev.judgePtp (d : Dev) (p : Fin 2) : Dev :=
  if d.tb.ptp[p.val].qualified || !d.meets p then d
  else
    let d := d.updPtp p fun x => { x with qualified := true, qualAt := d.now }
    if d.tb.phaseSrc.isNone then d.takeSource p else d

/-! ### PTP commands -/

/-- A PTP timestamp of 48-bit seconds and 32-bit nanoseconds, in 2⁻¹⁶ ns. -/
def ofPtpTime (v : BitVec 80) : Int := ofTime96 (v.toNat * 2 ^ 16)

/-- A PTP event stamp at the balls in fine bins after the release of reset (R233): the calibrated TDC in the present slot, the PHY
path delay between TDC and ball taken off, `path` 0 on the way out and 1 on the way in. -/
def Dev.ptpStamp (d : Dev) (p : Fin 2) (path : Nat) (x : TdcStamp) : Int :=
  let delay : Int := Config.phyDelay p.val path
  (d.now : Int) * 4096 + convertStamp x.tick.val x.code.toNat x.c1.toNat x.c2.toNat + if path = 0 then delay else -delay

/-- Whether a timing port takes a PTP message (R232): the port has link, and the mapping and the domain are those set. -/
def Dev.ptpHears (d : Dev) (p : Fin 2) (h : PtpHead) : Bool :=
  d.tu.links[p.val] && (h.udp == (d.get Reg.TB_PTP_TRANSPORT == 1)) && h.domain.toNat == d.get Reg.TB_PTP_DOMAIN

/-- Whether a message comes from the port's selected master. -/
def Dev.fromMaster (d : Dev) (p : Fin 2) (h : PtpHead) : Bool := d.tb.ptp[p.val].master == some h.src.toNat

/-- A message at an interval outside the accepted ones: counted and ignored (R232). -/
def Dev.badInterval (d : Dev) (p : Fin 2) : Dev := d.updPtp p fun x => { x with badInterval := x.badInterval + 1 }

/-- PTP_SYNC_RECEIVE (R232, R233): a two-step Sync of the selected master is stamped and waits for its Follow_Up; a one-step
Sync is counted and ignored, and so is one at an interval outside −7 to 0. -/
def execPtpSyncReceive (p : Fin 2) (head : PtpHead) (twoStep : Bool) (stamp : TdcStamp) (s : State) : Result :=
  s.on fun d =>
    let l := head.interval.toInt
    if !d.ptpHears p head then d
    else if !twoStep then d.bump Reg.TB_PTP_1STEP p.val
    else if l < -7 ∨ 0 < l then d.badInterval p
    else if !d.fromMaster p head then d
    else
      let sync : PtpSync :=
        { seq := head.seq.toNat, slot := d.now, t2 := d.readingBins (d.ptpStamp p 1 stamp), corr := head.corr.toInt }
      d.updPtp p fun x => { x with logSync := l, syncs := sync :: x.syncs }

/-- PTP_FOLLOW_UP_RECEIVE (R233): the precise origin time of the Sync with the same number, and the rest of the Sync path's
correction. -/
def execPtpFollowUpReceive (p : Fin 2) (head : PtpHead) (origin : BitVec 80) (s : State) : Result :=
  s.on fun d =>
    if !d.ptpHears p head || !d.fromMaster p head then d
    else
      let fill := fun (y : PtpSync) =>
        if y.seq = head.seq.toNat ∧ y.t1.isNone then { y with t1 := some (ofPtpTime origin), corr := y.corr + head.corr.toInt } else y
      d.updPtp p fun x => { x with syncs := x.syncs.map fill }

/-- PTP_DELAY_REQ_SEND (R233): a Delay_Req leaves and is stamped; it waits for its Delay_Resp. -/
def execPtpDelayReqSend (p : Fin 2) (seq : BitVec 16) (stamp : TdcStamp) (s : State) : Result :=
  s.on fun d =>
    if d.tu.links[p.val] && d.tb.ptp[p.val].master.isSome && d.srcOn p.val then
      (d.updPtp p fun x => { x with requests := (seq.toNat, d.readingBins (d.ptpStamp p 0 stamp), d.now) :: x.requests }).emit
        (.delayReqPtp p.val seq.toNat)
    else d

/-- One Sync whose exchange is complete (R233, R234, R238): the mean path delay is filtered over 16 values, and θ computed,
qualified and given to the servo. `back` is t4 − t3 − c_d. -/
def Dev.syncDone (d : Dev) (p : Fin 2) (back : Int) (t1 : Int) (y : PtpSync) : Dev :=
  let x := d.tb.ptp[p.val]
  let paths := ((y.t2 - t1 - y.corr + back) :: x.paths).take 16
  let path := roundHalfUp (paths.foldl (· + ·) 0) (2 * paths.length)
  let asym := roundHalfUp (d.getI Reg.TB_PTP_ASYM p.val * 65536) 1000
  let theta := t1 + y.corr + path + asym - y.t2
  let d := d.updPtp p fun x => { x with paths := paths, thetaAt := d.now, thetas := ((theta, d.now) :: x.thetas).take 16 }
  let d := d.setI Reg.TB_SRC_OFS p.val theta
  if x.qualified then d.newTheta p theta else d.judgePtp p

/-- PTP_DELAY_RESP_RECEIVE (R232, R233): the exchange is complete, and each Sync that came before its Delay_Req and has its
Follow_Up gives a θ, the oldest first. Delay_Reqs before this one have no Sync left to serve. -/
def execPtpDelayRespReceive (p : Fin 2) (head : PtpHead) (receipt : BitVec 80) (s : State) : Result :=
  s.on fun d =>
    let l := head.interval.toInt
    if !d.ptpHears p head || !d.fromMaster p head then d
    else if l < -7 ∨ 0 < l then d.badInterval p
    else match d.tb.ptp[p.val].requests.find? fun r => r.1 == head.seq.toNat with
      | none => d
      | some (_, t3, slot) =>
        let back := ofPtpTime receipt - t3 - head.corr.toInt
        let ready := fun (y : PtpSync) => y.t1.isSome && decide (y.slot ≤ slot)
        let done := (d.tb.ptp[p.val].syncs.filter ready).reverse
        let d := d.updPtp p fun x =>
          { x with requests := x.requests.filter fun r => decide (slot < r.2.2), syncs := x.syncs.filter fun y => !ready y }
        forEach done (fun y d => d.syncDone p back (y.t1.getD 0) y) d

/-- The first of two masters is the better by the dataset comparison of IEEE 1588 (R232, log entry 132): of two grandmasters by
priority, class, accuracy, variance, second priority and identity; of one by the steps removed and the sender. -/
def Foreign.beats (a b : Foreign) : Bool :=
  let less := fun (x y : List Nat) => decide (x < y)
  if a.data.identity = b.data.identity then less [a.data.steps.toNat, a.src] [b.data.steps.toNat, b.src]
  else
    let key := fun (f : Foreign) => [f.data.prio1.toNat, f.data.clockClass.toNat, f.data.accuracy.toNat, f.data.variance.toNat,
      f.data.prio2.toNat, f.data.identity.toNat]
    less (key a) (key b)

/-- The master the algorithm selects (R232): the best of those heard twice within four Announce intervals and less than 255
steps away. -/
def Dev.bestMaster (d : Dev) (fs : List Foreign) : Option Foreign :=
  let good := fs.filter fun f =>
    decide (f.data.steps.toNat < 255) && match f.times with
      | _ :: t :: _ => decide (d.now ≤ t + 4 * d.logSeconds f.log)
      | _ => false
  good.foldl (fun best f => match best with
    | none => some f
    | some b => some (if f.beats b then f else b)) none

/-- The port with its master selected among those heard: the best, else the one it has. -/
def Dev.selectMaster (d : Dev) (p : Fin 2) : Dev :=
  d.updPtp p fun x => match d.bestMaster x.foreign with
    | none => x
    | some f =>
      let x := if x.master = some f.src then x else { x with syncs := [], requests := [] }
      { x with master := some f.src, clockClass := f.data.clockClass.toNat, announceAt := f.times.headD 0, logAnnounce := f.log }

/-- PTP_ANNOUNCE_RECEIVE (R232, R234): an Announce of the domain enters the port's best master clock algorithm; a clock class of
the selected master above Max Clock Class disqualifies a source, and one within it may qualify it. -/
def execPtpAnnounceReceive (p : Fin 2) (head : PtpHead) (data : Announced) (s : State) : Result :=
  s.on fun d =>
    let l := head.interval.toInt
    if !d.ptpHears p head then d
    else if l < -3 ∨ 3 < l then d.badInterval p
    else
      let src := head.src.toNat
      let fs := d.tb.ptp[p.val].foreign
      let times := d.now :: (match fs.find? fun f => f.src == src with
        | some f => f.times.take 1
        | none => [])
      let alive := fun (f : Foreign) => f.src != src && decide (d.now ≤ f.times.headD 0 + 4 * d.logSeconds f.log)
      let d := d.updPtp p fun x => { x with foreign := { src := src, data := data, times := times, log := l } :: fs.filter alive }
      let d := d.selectMaster p
      let x := d.tb.ptp[p.val]
      if x.qualified && x.master.isSome && decide (d.get Reg.TB_PTP_MAXCLASS < x.clockClass) then d.disqualify p else d.judgePtp p

/-- ANNOUNCE_RECEIPT_TIMEOUT (R232, R234): three Announce intervals without an Announce of the selected master. -/
def execAnnounceReceiptTimeout (p : Fin 2) (s : State) : Result :=
  s.on fun d =>
    let x := d.tb.ptp[p.val]
    if x.master.isSome && decide (x.announceAt + 3 * d.logSeconds x.logAnnounce ≤ d.now) then
      let d := (d.updPtp p fun x => { x with master := none, foreign := x.foreign.filter fun f => x.master != some f.src }).disqualify p
      d.selectMaster p
    else d

/-- SYNC_INTERVAL_TIMEOUT (R234): no θ for four Sync intervals. -/
def execSyncIntervalTimeout (p : Fin 2) (s : State) : Result :=
  s.on fun d =>
    let x := d.tb.ptp[p.val]
    if x.qualified && decide (x.thetaAt + 4 * d.logSeconds x.logSync ≤ d.now) then d.disqualify p else d

/-- The SYNCE source of a port judged anew (R235): qualified with link, its last window within ±4.6 ppm, and a quality level other
than QL-DNU in the last 5 s. The frequency source follows, and outside LOCKED the integrator. -/
def Dev.judgeSynce (d : Dev) (p : Fin 2) : Dev :=
  let x := d.tb.synce[p.val]
  let heard := match x.esmcAt with
    | some t => decide (d.now ≤ t + 5 * d.second)
    | none => false
  let near := match x.windows with
    | f :: _ => decide (10 * (f.natAbs : Int) * 1000000 ≤ 46 * 2 ^ 48)
    | [] => false
  let ok := d.tu.links[p.val] && heard && near
  let x := { x with qualified := ok, qualAt := if ok && !x.qualified then d.now else x.qualAt }
  let d : Dev := { d with tb := { d.tb with synce := d.tb.synce.set p.val x } }.pickFreq
  if d.tb.state = TbState.locked then d else d.coast

/-- TIMING_LINK_CHANGE (R234, R235): a timing port gains link, or loses it and with it both its sources. -/
def execTimingLinkChange (p : Fin 2) (up : Bool) (s : State) : Result :=
  s.on fun d =>
    let d := { d with tu := { d.tu with links := d.tu.links.set p.val up } }
    if up then d
    else ((d.updPtp p fun x => { x with master := none, foreign := [] }).disqualify p).judgeSynce p

/-- ESMC_RECEIVE (R235): a quality level is received; QL-DNU is not usable. -/
def execEsmcReceive (p : Fin 2) (dnu : Bool) (s : State) : Result :=
  s.on fun d =>
    if !d.tu.links[p.val] || dnu then d
    else
      let x := { d.tb.synce[p.val] with esmcAt := some d.now }
      { d with tb := { d.tb with synce := d.tb.synce.set p.val x } }.judgeSynce p

/-- SYNCE_WINDOW_END (R232, R235, R236, R238): a 1 s window of the recovered clock against the selected REFCLK, in 2⁻⁴⁸, one of
the last 16; the port tells in its L1_SYNC whether it is syntonized (log entry 133). -/
def execSynceWindowEnd (p : Fin 2) (freq : BitVec 64) (s : State) : Result :=
  s.on fun d =>
    if !d.tu.links[p.val] then d
    else
      let f := freq.toInt
      let x := d.tb.synce[p.val]
      let d := { d with tb := { d.tb with synce := d.tb.synce.set p.val { x with windows := (f :: x.windows).take 16 } } }
      let d := (d.setI Reg.TB_SRC_OFS (2 + p.val) f).judgeSynce p
      d.emit (.l1Sync p.val d.tb.synce[p.val].qualified)

/-- HOME_RETURN (R237): the home source has been qualified for Return Time beside another active source; when its θ agrees, the
time base changes to it at its next θ, else it is in DISAGREE. -/
def execHomeReturn (s : State) : Result :=
  s.on fun d =>
    let h := d.home
    let x := d.tb.ptp[h.val]
    match x.thetas with
    | [] => d
    | (theta, _) :: _ =>
      if !d.returnTimeBy d.now || d.refDue then d
      else if theta.natAbs ≤ d.stepThresh then
        let d := d.updPtp h fun x => { x with disagree := false }
        { d with tb := { d.tb with homeDue := true } }
      else d.homeDisagrees h

/-! ### Steps -/

/-- Whether a time step is due at the boundary reached (item 1 of R15). -/
def Dev.stepDue (d : Dev) : Bool :=
  match d.tb.step with
  | some (_, t) => decide (t ≤ d.grid.cycleStart)
  | none => false

/-- Whether something is due at the boundary reached that goes before a route commit there (R15, R250): a reference change, a return
to the home reference, a time step, a mode change. -/
def Dev.beforeCommits (d : Dev) : Bool := d.firstDue || d.stepDue || d.modeDue

/-- Whether a route commit is due at the boundary reached (item 3 of R15). -/
def Dev.routeDue (d : Dev) : Bool :=
  match d.merge.commitAt with
  | some t => decide (t ≤ d.grid.cycleStart)
  | none => false

/-- Whether a calendar commit is due at the boundary reached (R40). -/
def Dev.bankDue (d : Dev) : Bool :=
  match d.grid.bankPend with
  | some (t, _) => decide (t ≤ d.grid.cycleStart)
  | none => false

/-- Whether something is due at the boundary reached that goes before the calendar actions of its slot 0 (R15, R40,
R250). -/
def Dev.boundaryDue (d : Dev) : Bool := d.beforeCommits || d.routeDue || d.bankDue

/-- ACCEPT_STEP (R246): a guarded write of 1, accepted only in DISPUTED; the step waits for the first boundary at least
4,096 slots ahead. -/
def execAcceptStep (w : Writer) (val : Bytes) (s : State) : Result :=
  s.on fun d => d.write w Reg.TB_ACCEPT_STEP 0 val fun d _ =>
    if d.tb.state ≠ .disputed ∨ d.tb.phaseSrc.isNone then refuse .wrongMode d
    else (.accepted, { d with tb := { d.tb with step := some (.accepted, d.now + 4096) } })

/-- TIME_PRESET (R247): a guarded write, accepted only in FREE. -/
def execTimePreset (w : Writer) (val : Bytes) (s : State) : Result :=
  s.on fun d => d.write w Reg.TB_PRESET 0 val fun d v =>
    if d.tb.state ≠ .free then refuse .wrongMode d
    else (.accepted, { d with tb := { d.tb with step := some (.preset (ofTime96 v), d.now + 4096) } })

/-- The record of a step among those that wait for the next basket: it precedes that of a grid move at the boundary `start` (R295). -/
def noteStep (l : List (Nat × Int × Int)) (start : Nat) (x : Nat × Int × Int) : List (Nat × Int × Int) :=
  match l.getLast? with
  | some (2, size, at_) => if at_ = start then l.dropLast ++ [x, (2, size, at_)] else l ++ [x]
  | _ => l ++ [x]

/-- The multiples of `per` from `a` on and below `b`. -/
def multiplesIn (per a b : Int) : Nat := (-((-b) / per) - -((-a) / per)).toNat

/-- The seconds that a step of the readings from `r0` to `r1` skips at an output (R259): the multiples of its period that have not
pulsed. -/
def Dev.skipSeconds (d : Dev) (r0 r1 : Int) (o : Fin 2) : Dev :=
  let mode := d.get Reg.TPO_MODE o.val
  let per : Int := if mode = 4 then d.get Reg.TPO_N o.val else 1
  let sec : Int := 1000000000 * 65536
  let a := -((-r0) / sec)
  let b := -((-r1) / sec)
  let done := sumBy (fun x => if (x.2.2 : Int) = per then multiplesIn per (max a x.1) (min b (x.2.1 + 1)) else 0) d.tu.pulsed[o.val]
  let n := multiplesIn per a b - done
  if (mode = 1 ∨ mode = 4) ∧ n ≠ 0 then d.bump Reg.TPO_SKIP o.val n else d

/-- A step of the readings by S, recorded and marked in the data (R230, R246, R247). -/
def Dev.stepTime (d : Dev) (size : Int) (first : Bool) : Dev :=
  let r0 := d.reading
  let d := { d with tb := { d.tb with step := none } }.setTime size d.coastRate
  let d := forEach (List.finRange 2) (fun o d => d.skipSeconds r0 d.reading o) d
  let d := (d.bump Reg.TB_STEPS).log 0xFF 0x0304 (if first then 1 else 0) size d.grid.cycle
  let d := (d.setI Reg.TB_STEP_PEND 0 0).markTim 4
  { d with tu := { d.tu with
    stepRecord := noteStep d.tu.stepRecord d.grid.cycleStart (if first then 1 else 0, size, 0), steppedAt := some d.now } }

/-- The standby's copy made again after a change at the boundary itself, so that a swap keeps it (R240, R260, log entry 134). -/
def Dev.copyAgain (d : Dev) : Dev := { d with tu := { d.tu with copy := d.tb } }

/-- TIME_STEP_APPLY (R246, R257): the accepted step is applied at its boundary with the median of the last 8 θ; the time
base enters LOCKED, and a synthesised grid moves by the step in slots. -/
def execTimeStepApply (s : State) : Result :=
  s.on fun d =>
    match d.tb.step, d.tb.phaseSrc with
    | some (.accepted, _), some p =>
      if !d.stepDue || d.firstDue then d
      else
        let size := median8 (d.tb.ptp[p.val].thetas.map Prod.fst)
        let d := (d.lock false).stepTime size false
        let d := d.updPtp p fun x => { x with thetas := x.thetas.map fun t => (t.1 - size, t.2) }
        let slots := roundHalfUp (size * 2 ^ 32) (8 * nominalTick (d.get Reg.TB_FNOM))
        let d := if d.get Reg.TB_CYC_SRC ≠ 0 ∨ slots = 0 then d
          else match d.grid.move with
            | some m => if m.cycle.isSome then d.alignSynth else d.rephase (m.delta - slots) d.now true
            | none => d.rephase (-slots) d.now true
        d.copyAgain
    | _, _ => d

/-- FIRST_TIME_SET_APPLY (R247, R257): the first setting of time from a source or a preset; a synthesised grid is aligned. A preset
sets time also when a PTP source has been enabled since (R241). -/
def execFirstTimeSetApply (s : State) : Result :=
  s.on fun d =>
    if !d.stepDue || d.firstDue then d
    else
      match d.tb.step, d.tb.phaseSrc with
      | some (.first, _), some p =>
        let size := median8 (d.tb.ptp[p.val].thetas.map Prod.fst)
        let d := (d.lock false).stepTime size true
        let d := d.updPtp p fun x => { x with thetas := x.thetas.map fun t => (t.1 - size, t.2) }
        let d := { d with tb := { d.tb with timeSet := true } }
        d.alignSynth.copyAgain
      | some (.preset t, _), _ =>
        let d := d.stepTime (t - d.reading) true
        let d := { d with tb := { d.tb with timeSet := true, freeSet := true } }
        (if d.tb.state = TbState.acquiring then d.enterHoldover 0 else d).alignSynth.copyAgain
      | _, _ => d

/-! ### References -/

/-- The selector changes input (R249): the integrator takes the frequency difference, and so do the windows measured against the old
input (R235), so that readings go on at the same rate. -/
def Dev.changeRef (d : Dev) (new : Nat) (byFault : Bool) : Dev :=
  let old := d.get Reg.TB_REF_USE
  if old = new then d
  else
    -- frequency of the new input against the old, in ppb
    let vsOsc := fun (n : Nat) => if n = 2 then 0 else (d.tu.refs.toList.getD n {}).ppb
    let diff := vsOsc new - vsOsc old
    let i := d.tb.integ - (diff : Rat) / 1000000000
    let moved := rateOf ((diff : Rat) / 1000000000)
    let tb := { d.tb with synce := d.tb.synce.map fun (x : SynceSource) => { x with windows := x.windows.map (· - moved) } }
    let acc := match tb.fallbackFrom, tb.leftLocked with
      | some f, some l => tb.fallbackAcc + (d.now - max f l)
      | _, _ => tb.fallbackAcc
    let pend := d.tbNow.next.map fun x => (x.1, rateLimit (x.2 - moved))
    let tb := { tb with integ := i, fallbackFrom := if new = 2 then some d.now else none, fallbackAcc := if old = 2 then acc else tb.fallbackAcc }
    let d := { d with tb := tb }.setTime 0 (d.tbNow.rate - moved)
    let d := { d with tb := { d.tb with next := pend } }
    ((d.set Reg.TB_REF_USE 0 new).bump Reg.TB_REF_SW).log 0xFF 0x0307 old new (if byFault then 1 else 0)

/-- A REFCLK input disqualifies (R248, R249). -/
def Dev.loseRef (d : Dev) (q : Fin 2) : Dev :=
  let r := d.tu.refs[q.val]
  let d := { d with tu := { d.tu with refs := d.tu.refs.set q.val { r with windows := 0, qualified := false } } }
  if r.qualified ∧ d.get Reg.TB_REF_USE = q.val then
    let o : Fin 2 := 1 - q
    d.changeRef (if d.tu.refs[o.val].qualified then o.val else 2) true
  else d

/-- REFCLK_MEASURE_WINDOW (R248): a 1 ms window of an input against OSC_LOCAL in ppb, and against the input in use;
100 windows in a row within Reference Tolerance qualify it, one outside disqualifies it. -/
def execRefclkMeasureWindow (q : Fin 2) (ppb : BitVec 32) (vsUse : BitVec 32) (s : State) : Result :=
  s.on fun d =>
    let r := d.tu.refs[q.val]
    let v := ppb.toInt
    if decide (v.natAbs ≤ d.get Reg.TB_REF_TOL * 1000) then
      let n := min 100 (r.windows + 1)
      let ok := decide (100 ≤ n)
      let r := { r with windows := n, qualified := ok, ppb := v }
      let d := { d with tu := { d.tu with refs := d.tu.refs.set q.val r } }
      let d := d.set Reg.TB_REF_STATE q.val (if ok then 2 else 1)
      if ok then d.set Reg.TB_REF_FOFS q.val vsUse.toNat else d
    else (d.loseRef q).set Reg.TB_REF_STATE q.val 1

/-- REFCLK_EDGE_LOSS (R248, R249): an input shows no edge for 4 periods of OSC_LOCAL and disqualifies at once. -/
def execRefclkEdgeLoss (q : Fin 2) (s : State) : Result :=
  s.on fun d =>
    (d.loseRef q).set Reg.TB_REF_STATE q.val 0

/-- REFERENCE_SELECT (R249): a write schedules the change for the next cycle boundary. -/
def execReferenceSelect (w : Writer) (val : Bytes) (s : State) : Result :=
  s.on fun d => d.write w Reg.TB_REF_SEL 0 val fun d v =>
    (.accepted, { d.set Reg.TB_REF_SEL 0 v with tu := { d.tu with refPend := some (v, d.now + 1) } })

/-- REFERENCE_CHANGE_APPLY (R249, R250): at the boundary the selector moves to the selected input when it is qualified;
a time-base swap due there goes first. -/
def execReferenceChangeApply (s : State) : Result :=
  s.on fun d =>
    match d.tu.refPend with
    | none => d
    | some (n, _) =>
      if !d.refDue then d
      else
        let d := { d with tu := { d.tu with refPend := none } }
        if (d.tu.refs.toList.getD n {}).qualified then (d.changeRef n false).copyAgain else d

/-! ### Markers and pulses -/

/-- CYCLE_MARKER (R251 to R255): a marker that passed the filter names a boundary; it ends ALIGNING, or is classified by
its deviation, and three equal deviations re-phase the grid, once no movement is on its way (log entry 130). -/
def execCycleMarker (input : Fin 2) (s : State) : Result :=
  s.on fun d =>
    let src := d.get Reg.TB_CYC_SRC
    let d := d.flywheelCheck
    let tb := d.tb
    let pos : Int := (d.now : Int) - d.get Reg.TB_CM_FILTER
    let named : Int := pos + d.getI Reg.CM_OFFSET
    let dev := d.markerDev named
    let near := decide (dev.natAbs ≤ d.get Reg.CM_WINDOW)
    if src = 0 then d
    else if input.val ≠ tb.cmInput then { d with tb := { tb with cmOther := if near then min 3 (tb.cmOther + 1) else 0 } }
    else if tb.aligning then
      let at_ := d.movedBoundary dev (pos + 4096)
      let preset := d.get Reg.TB_CYC_PRESET
      let d := { d with tb := { tb with aligning := false, cmLost := false, cmRun := [], cmMissed := 0 } }.setI Reg.CM_DEV 0 dev
      if d.mode = .configure then d.moveGrid { at_ := at_, cycle := some preset, delta := dev, synth := false, record := false }
      else d.moveGrid { at_ := at_, cycle := none, delta := dev, synth := false, record := true }
    else
      let d := d.setI Reg.CM_DEV 0 dev
      let d := if near then if dev = 0 then d else d.bump Reg.CM_JIT else d.bump Reg.CM_ANOM
      let run := (dev :: tb.cmRun).take 3
      let bound := (named - dev).toNat
      let tb := { d.tb with cmRun := run }
      let tb := if near then
          { tb with cmLost := false, cmMissed := 0, cmAwait := tb.cmAwait.filter fun b => decide (bound < b)
                    cmAhead := if d.grid.cycleStart < bound then some bound else tb.cmAhead }
        else tb
      if dev ≠ 0 ∧ run = [dev, dev, dev] ∧ d.grid.move.isNone then { d with tb := { tb with cmRun := [] } }.rephase dev pos false
      else { d with tb := tb }

/-- Whether a time-pulse output's width fits its mode (R258). -/
def Dev.pulseFits (d : Dev) (o : Nat) : Bool :=
  let w := d.get Reg.TPO_WIDTH o
  match d.get Reg.TPO_MODE o with
  | 0 => true
  | 1 => decide (2 * w < d.second)
  | 2 => decide (2 * w < d.cycleLen)
  | 3 => decide (2 * w < min 256 d.cycleLen)
  | _ => decide (2 * w < d.get Reg.TPO_N o * d.second)

/-- Whether both outputs' widths fit their modes. -/
def Dev.pulsesFit (d : Dev) : Bool := d.pulseFits 0 && d.pulseFits 1

/-- A pulse of an output (R258) for an instant `ahead` 2⁻¹⁶ ns after the start of the present slot: its edge, TPO Delay (in ps)
after the instant, to one fine bin on the counter; it lasts TPO Width slots and is active low with TPO Polarity set. -/
def Dev.pulseOut (d : Dev) (o : Fin 2) (ahead : Int) : Dev :=
  let after := (ahead * 1000 + d.getI Reg.TPO_DELAY o.val * 65536) * 2 ^ 32
  let edge := (d.now : Int) * 4096 + d.binsFor after (1000 * nominalTick (d.get Reg.TB_FNOM))
  { d with tu := { d.tu with pulseAt := d.tu.pulseAt.set o.val (some d.now) } }.emit
    (.pulse o.val edge (d.get Reg.TPO_WIDTH o.val) (d.get Reg.TPO_POL o.val == 1))

/-- The runs of seconds that have pulsed with one more, `per` seconds after the last of its run. -/
def pulseRun (l : List (Nat × Nat × Nat)) (n per : Nat) : List (Nat × Nat × Nat) :=
  match l with
  | (a, b, p) :: rest => if p = per ∧ n = b + per then (a, n, p) :: rest else (n, n, per) :: l
  | [] => [(n, n, per)]

/-- Whether a second has pulsed (R259). -/
def hasPulsed (l : List (Nat × Nat × Nat)) (n : Nat) : Bool :=
  l.any fun x => decide (x.1 ≤ n) && decide (n ≤ x.2.1) && (n - x.1) % x.2.2 == 0

/-- TIME_PULSE (R258, R259): an output emits its edge: in modes 1 and 4 when a TAI second begins in this slot, each second at most
once; in modes 2 and 3 at a cycle or frame start. -/
def execTimePulse (o : Fin 2) (s : State) : Result :=
  s.on fun d =>
    let mode := d.get Reg.TPO_MODE o.val
    let sec : Int := 1000000000 * 65536
    let r0 := d.reading
    let r1 := d.readingAt (d.now + 1) 0
    let n := if r0 % sec = 0 then r0 / sec else r0 / sec + 1
    let here := decide (n * sec < r1)
    let per : Int := if mode = 4 then d.get Reg.TPO_N o.val else 1
    let again := d.tu.pulseAt[o.val] == some d.now
    match mode with
    | 1 | 4 =>
      let was := d.tu.pulsed[o.val]
      if !here || n % per ≠ 0 || hasPulsed was n.toNat then d
      else { d with tu := { d.tu with pulsed := d.tu.pulsed.set o.val (pulseRun was n.toNat per.toNat) } }.pulseOut o (n * sec - r0)
    | 2 => if d.now = d.grid.cycleStart ∧ !again then d.pulseOut o 0 else d
    | 3 => if d.slot % 256 = 0 ∧ d.now < d.cycleEnd ∧ !again then d.pulseOut o 0 else d
    | _ => d

/-! ### Swaps of the time bases -/

/-- The standby takes over from the boundary copy; a failed unit begins its self-test (R260, R261). -/
def Dev.swapTb (d : Dev) (forced : Bool) : Dev :=
  let old := d.tu.active
  let new : Fin 2 := 1 - old
  let health := (d.tu.health.set new.val 0).set old.val (if forced then 1 else 3)
  let d := { d with tb := if forced then d.tb else d.tu.copy, tu := 
    { d.tu with active := new, health := health, swapFrom := none, testFrom := d.tu.testFrom.set old.val d.now } }
  let d := (d.bump Reg.TB_SWAP_CNT).log 0xFF 0x0203 new.val (if forced then 0 else 1)
  if forced then d else d.log 0xFF 0x0204 old.val 3

/-- A forced swap at its boundary (R261): only a unit in standby takes over (log entry 136). -/
def Dev.forcedSwap (d : Dev) : Dev :=
  let o : Fin 2 := 1 - d.tu.active
  if d.tu.health[o.val] = 1 then d.swapTb true else { d with tu := { d.tu with swapFrom := none } }

/-- FORCE_TIME_BASE_SWAP (R261): the standby takes over at the next cycle boundary. -/
def execForceTimeBaseSwap (w : Writer) (val : Bytes) (s : State) : Result :=
  s.on fun d => d.write w Reg.TB_SWAP 0 val fun d _ =>
    (.accepted, { d with tu := { d.tu with swapFrom := some (d.now + 1) } })

/-- TIME_BASE_CHECK_FAIL (R261, R495): the active time base fails a check; the standby takes over, and with the standby
failed the device has a fatal fault. -/
def execTimeBaseCheckFail (s : State) : Result :=
  s.on fun d =>
    let o : Fin 2 := 1 - d.tu.active
    if d.tu.health[o.val] = 1 then d.swapTb false
    else
      let d := { d with tu := { d.tu with health := d.tu.health.set d.tu.active.val 2 } }
      d.fallSafe 0x13

/-- TIME_BASE_SELF_TEST_DONE (R261): a failed unit's self-test passes within 1 s and it is standby by copy, or it stays
FAILED. -/
def execTimeBaseSelfTestDone (u : Fin 2) (pass : Bool) (s : State) : Result :=
  s.on fun d =>
    if d.tu.health[u.val] ≠ 3 then d
    else
      let h := if pass && decide (d.now ≤ d.tu.testFrom[u.val] + d.second) then 1 else 2
      { d with tu := { d.tu with health := d.tu.health.set u.val h } }.log 0xFF 0x0204 u.val h

/-! ### Interval monitor: commands -/

/-- The greatest age of an interval-monitor cell's pair, in slots: the default of Pair Age Limit (log entry 135). -/
def timPairAge : Nat := 2000000

/-- Whether a signal is the one a channel takes, and the direction of its edge (R263): a pin's through the comparator. -/
def Dev.timDirection (d : Dev) (i : Fin 8) (signal : TimSignal) : Option Bool :=
  let sel := d.get Reg.TIM_SEL i.val
  match signal with
  | .pin before after =>
    let thr := d.get Reg.TIM_THR i.val * 10
    if sel ≠ 0 ∨ decide (thr ≤ before.toNat) = decide (thr ≤ after.toNat) then none else some (decide (thr ≤ after.toNat))
  | .line code rising => if sel = code.val then some rising else none
  | .tap code rising halves => if sel = code.val ∧ halves.toNat = 2 ^ d.get Reg.TIM_DIV then some rising else none

/-- TIM_EDGE (R263 to R268): a selected edge that held for the glitch filter is stamped under R92 with the cell's pair,
queued and measured; one less than 8 coarse ticks after the last is missed. The re-arm after a stamp measures the pair again. -/
def execTimEdge (i : Fin 8) (signal : TimSignal) (tick : Fin 8) (code : BitVec 12) (pair : BitVec 12 × BitVec 12) (s : State) :
    Result :=
  s.on fun d =>
    let d := d.settleTims
    let mode := d.get Reg.TIM_MODE i.val
    let slope := d.get Reg.TIM_SLOPE i.val
    let c := d.tu.tim[i.val]
    let slot := d.now - d.get Reg.TIM_FILTER i.val
    match d.timDirection i signal with
    | none => d
    | some rising =>
      let (c1, c2, aged) := match c.pair with
        | some (c1, c2, t) => (c1, c2, decide (t + timPairAge < slot))
        | none => (Config.nominalC1 0xFF, Config.nominalC2 0xFF, true)
      let at_ : Int := (slot : Int) * 4096 + convertStamp tick.val code.toNat c1 c2
      let early := match c.lastAt with
        | some t => decide (at_ < t + 8 * 512)
        | none => false
      if mode = 0 ∨ ¬ (slope == 2 || (slope == 0) == rising) then d
      else if early then (d.setTim i { c with missed := true }).bump Reg.TIM_MISSED i.val
      else
        let stale := aged || outsidePair code.toNat c1 c2
        let time := d.readingBins at_
        let state := if (slot : Int) < d.tb.stateFrom then d.tb.stateWas else d.tb.state
        let steps := match d.tu.steppedAt with
          | some t => if at_ < t * 4096 then d.get Reg.TB_STEPS - 1 else d.get Reg.TB_STEPS
          | none => d.get Reg.TB_STEPS
        let stepped := match c.recent.head? with
          | some l => l.steps != steps
          | none => false
        let hold := state == .holdover
        let disp := state == .disputed
        let full := decide (4096 ≤ c.queue.length)
        let stamp := time96 time * 2 ^ 32 + i.val * 2 ^ 29 + flag 28 (!rising) + flag 27 stale + flag 26 hold + flag 25 disp
          + flag 24 c.overflow + flag 23 c.missed + flag 22 stepped + c.seq % 65536
        let flags := flag 0 hold + flag 1 disp + flag 2 stepped + flag 3 full
        let edge : TimEdge :=
          { at_ := at_, time := time, stale := stale, steps := steps, ref := d.get Reg.TIM_REF i.val, flags := flags }
        let noted := { c.block with flags := c.block.flags ||| flags }
        let c' := { c with
          queue := if full then c.queue else c.queue ++ [BitVec.ofNat 128 stamp]
          gained := if full then c.gained else c.gained + 1, seq := (c.seq + 1) % 65536
          lastAt := some at_, missed := false, overflow := full, recent := (edge :: c.recent).take 64
          lastRise := if rising then some edge else none
          pair := if pairValid pair.1.toNat pair.2.toNat then some (pair.1.toNat, pair.2.toNat, slot) else c.pair
          waiting := if mode = 3 then c.waiting ++ [edge] else c.waiting, block := if mode = 3 then c.block else noted }
        let d := (d.setTim i c').set Reg.TIM_QFILL i.val c'.queue.length
        let d := if full then d.bump Reg.TIM_QOVF i.val else d
        match mode with
        | 2 => d.measureTim i c.recent.head? edge
        | 3 => d.settleTim i
        | 4 => if rising then d else d.measureTim i c.lastRise edge
        | _ => d

/-- STATISTICS_RESTART (R268): the block in progress is discarded. -/
def execStatisticsRestart (w : Writer) (e : BitVec 16) (val : Bytes) (s : State) : Result :=
  s.on fun d => d.writeEach w Reg.TIM_RESTART e.toNat val fun k d _ =>
    let i : Fin 8 := Fin.ofNat 8 k
    let d := d.settleTims
    (.accepted, d.setTim i { d.tu.tim[i.val] with block := d.freshBlock, waiting := [] })

/-- STAMP_QUEUE_READ (R266): a read removes and returns up to 64 of the oldest stamps. -/
def execStampQueueRead (w : Writer) (i : Fin 8) (s : State) : Result :=
  s.on fun d =>
    let c := d.tu.tim[i.val]
    let out := c.queue.take 64
    let d := (d.setTim i { c with queue := c.queue.drop 64 }).set Reg.TIM_QFILL i.val (c.queue.length - out.length)
    d.answer w .accepted (out.flatMap fun x => beBytes 16 x.toNat)

end Sys2Proof.Machine
end

