-- ==== Sys2Proof/Machine/Stalls.lean ====
section
/-! DEFINITION. Stalls and pitches (R308 to R324): capacity and bandwidth available, what a stall holds, scaling, and the
blocks of external memory. -/

namespace Sys2Proof.Machine

/-! ### The memory code (R334, R335) -/

/-- The columns of the data bits (R334). -/
def secdedColumns : List Nat :=
  ((List.range 256).filter fun v => popCount v 8 == 3) ++ ((List.range 256).filter fun v => popCount v 8 == 5).take 8

/-- The CHECK byte of a data word (R334). -/
def secdedCheck (data : Nat) : Nat :=
  (secdedColumns.zipIdx.foldl (fun acc c => if bit data c.2 then acc ^^^ c.1 else acc) 0)

/-- What the checker makes of a syndrome (R334): nothing wrong, a CHECK bit, a data bit, uncorrectable. -/
inductive Syndrome where
  | correct | checkBit | dataBit (i : Nat) | uncorrectable
deriving DecidableEq, Repr

/-- The reading of a syndrome (R334). -/
def readSyndrome (s : Nat) : Syndrome :=
  if s = 0 then .correct
  else if popCount s 8 = 1 then .checkBit
  else match secdedColumns.findIdx? fun c => c == s with
    | some i => .dataBit i
    | none => .uncorrectable

/-- Address parity (R335): bit 1 over the odd-numbered bits of the word's address, bit 0 over the even-numbered. -/
def addrParity (a : Nat) : Nat :=
  let par := fun (r : Nat) => ((List.range 32).filter fun i => i % 2 == r && bit a i).length % 2
  par 1 * 2 + par 0

/-- What the checker finds of a memory word (R334, R335). -/
inductive WordFault where
  | corrected | uncorrectable | tagError
deriving DecidableEq, Repr

/-- The word that two beats carry (R310): the data lanes hold DATA, high half first, the check lanes CHECK and then the tag. -/
def wordOfBeats (beats : BitVec 40 × BitVec 40) : RawWord :=
  let a := beats.1.toNat
  let z := beats.2.toNat
  { data := a / 2 ^ 8 * 2 ^ 32 + z / 2 ^ 8, check := a % 2 ^ 8, tag := z % 2 ^ 8 }

/-- The fault of a word by its CHECK byte (R334). -/
def codeFault (data check : Nat) : Option WordFault :=
  match readSyndrome (check ^^^ secdedCheck data) with
  | .correct => none
  | .checkBit | .dataBit _ => some .corrected
  | .uncorrectable => some .uncorrectable

/-- Whether a stall holds a block. -/
def Memory.holds (m : Memory) (b : Nat) : Bool := m.stalls.any fun s => s.2.blocks.any fun x => x.1 == b

/-- Whether all a block holds counts as uncorrectable: its channel is not ONLINE (R344), or its block-table entry was lost (R345). -/
def Dev.blockLost (d : Dev) (b : Nat) : Bool := d.get Reg.MEM_CH_STATE (b / 2 ^ 20) != 2 || d.mem.lost.contains b

/-- What a read finds of a word of external memory (R335, R336, R344): a channel not ONLINE gives nothing to correct; the tag's
address parity must be the word's, and in an allotted block its epoch the block's. -/
def Dev.wordFault (d : Dev) (x : BadWord) : Option WordFault :=
  let b := x.chan.val * 2 ^ 20 + x.block.toNat
  if d.blockLost b then some .uncorrectable
  else
    let w := wordOfBeats x.beats
    let allotted := d.mem.holds b
    let epoch := tblRead (fun _ => 0) d.mem.epochs b
    if w.tag % 4 ≠ addrParity (x.block.toNat * 2 ^ 18 + x.word.toNat) ∨ (allotted ∧ w.tag / 4 ≠ epoch) then some .tagError
    else codeFault w.data w.check

/-- Whether a read loses a word: it is uncorrectable, or its tag is wrong. -/
def Dev.losesWord (d : Dev) (x : BadWord) : Bool :=
  match d.wordFault x with
  | some .uncorrectable | some .tagError => true
  | some .corrected | none => false

/-! ### What a stall holds (R315) -/

/-- The stall a port is mapped to (R314). -/
def Dev.stallOf (d : Dev) (p : Nat) : Nat := d.get Reg.ST_PORT p

/-- The port of an item of a basket. -/
def BItem.port : BItem → Nat
  | .hit p _ _ _ _ _ => p
  | .other p _ _ => p

/-- Whether an item is a hit. -/
def BItem.isHit : BItem → Bool
  | .hit .. => true
  | .other .. => false

/-- Whether a basket has been released and not yet freed. -/
def Basket.stored (b : Basket) : Bool := b.st == .sending || b.st == .held || b.st == .selected

/-- The bytes of spilled and staged SERVICE jobs' segments (R383). -/
def Dev.spilledBytes (d : Dev) : Nat := 1024 * d.sched.spilled.length

/-- STORED of a stall in bytes (R315). -/
def Dev.stored (d : Dev) (k : Nat) : Nat :=
  if k = 0 then 256 * d.merge.ring.length
  else if k = 1 then d.spilledBytes
  else if k = 2 then 2048 * (d.merge.baskets.filter fun b => b.st == .held || b.st == .selected).length
  else 8 * sumBy (fun b => if b.stored then (b.items.filter fun i => d.stallOf i.port == k).length else 0) d.merge.baskets

/-! ### Transfers (R315, R324) -/

/-- Bytes that a stall has read or written, counted against it for 4,096 slots (R315). -/
def Dev.charge (d : Dev) (k n : Nat) : Dev :=
  if n = 0 then d
  else
    let s := tblRead (fun _ => {}) d.mem.stalls k
    let recent := s.moved.filter fun x => decide (d.now < x.1 + 4096)
    { d with mem := { d.mem with stalls := tblWrite (fun _ => {}) d.mem.stalls k { s with moved := (d.now, n) :: recent } } }

/-- The bytes a stall has transferred over the last 4,096 slots (R315). -/
def Dev.transferred (d : Dev) (k : Nat) : Nat :=
  sumBy Prod.snd ((tblRead (fun _ => {}) d.mem.stalls k : Stall).moved.filter fun x => decide (d.now < x.1 + 4096))

/-- Whether a stall's requests fall in the first class (R315): its transfers lie below its effective bandwidth. -/
def Dev.belowBandwidth (d : Dev) (k : Nat) : Bool :=
  decide (d.transferred k * d.get Reg.TB_FNOM < d.get Reg.ST_EFF_BW k * 1000 * 4096)

/-- Whether a request of a stall has waited through the last 4,096 slots (R324; log entry 43): a snapshot for the ring, or the portions
of a closed basket of GATED. -/
def Dev.requestWaits (d : Dev) (k : Nat) : Bool :=
  if k = 0 then d.merge.ringIn.any fun x => decide (x.at_ + 4096 ≤ d.now)
  else d.merge.baskets.any fun b =>
    b.st == .closed && b.mode == .gated && decide (b.stop + b.closeDelay + 4095 ≤ d.now) && b.items.any fun i => d.stallOf i.port == k

/-- BW_SHORT of a stall (R324). -/
def Dev.shortNow (d : Dev) (k : Nat) : Bool := d.requestWaits k && d.belowBandwidth k

/-- The first setting of BW_SHORT in each cycle recorded (R324), as the memory manager comes to serve the stall. -/
def Dev.noteShort (d : Dev) (k : Nat) : Dev :=
  let s : Stall := tblRead (fun _ => {}) d.mem.stalls k
  if d.shortNow k ∧ s.shortIn ≠ some d.grid.cycle then
    { d with mem := { d.mem with
      stalls := tblWrite (fun _ => {}) d.mem.stalls k { s with shortIn := some d.grid.cycle } } }.log 0xFF 0x0702 k d.grid.cycle
  else d

/-- Credits outstanding on a lane (R192): granted and not yet used by an accepted packet. -/
def ConcLane.outstanding (l : ConcLane) : Nat := (l.credit + 256 - l.received % 256) % 256

/-- RSV_USED of a stall in bytes (R315). -/
def Dev.rsvUsed (d : Dev) (k : Nat) : Nat :=
  let ports := allPorts.filter fun p => d.stallOf p.val == k
  1024 * sumBy (fun p => sumBy ConcLane.outstanding (d.port p).lanes.toList) ports
    + 8 * sumBy (fun b => if b.stored then 0 else (b.items.filter fun i => d.stallOf i.port == k).length) d.merge.baskets

/-- A stall's effective capacity in bytes. -/
def Dev.effBytes (d : Dev) (k : Nat) : Nat := d.get Reg.ST_EFF_CAP k * 2 ^ 20

/-- The stall `k` of the memory manager. -/
def Memory.stall (m : Memory) (k : Nat) : Stall := tblRead (fun _ => {}) m.stalls k

/-- The memory manager with a stall replaced. -/
def Memory.setStall (m : Memory) (k : Nat) (s : Stall) : Memory :=
  { m with stalls := tblWrite (fun _ => {}) m.stalls k s }

/-- OVER_PITCH (R323): marked when the effective capacity fell below STORED, until STORED is no longer above it. -/
def Dev.overPitch (d : Dev) (k : Nat) : Bool := (d.mem.stall k).overCap && decide (d.effBytes k < d.stored k)

/-- OVER_PITCH marked on each stall whose effective capacity, `was` before, fell below STORED (R323). -/
def Dev.markOver (d : Dev) (was : Nat → Nat) : Dev :=
  forRange 64 (fun k d =>
    if d.effBytes k < was k ∧ d.effBytes k < d.stored k then { d with mem := d.mem.setStall k { d.mem.stall k with overCap := true } } else d) d

/-- OVER_PITCH of a stall cleared once STORED is no longer above the effective capacity (R323). -/
def Dev.clearOver (d : Dev) (k : Nat) : Dev :=
  if (d.mem.stall k).overCap ∧ d.stored k ≤ d.effBytes k then
    { d with mem := d.mem.setStall k { d.mem.stall k with overCap := false } }
  else d

/-! ### Capacity and bandwidth -/

/-- The ONLINE channels (R309). -/
def Dev.onlineChans (d : Dev) : List Nat := (List.range 8).filter fun m => d.get Reg.MEM_CH_STATE m == 2

/-- The channels in training until R341 has told what they are (R346; log entry 187); one that is OFFLINE stays so (R344). -/
def Dev.trainChannels (d : Dev) : Dev :=
  forRange 8 (fun m d => if d.get Reg.MEM_CH_STATE m = 3 then d else d.set Reg.MEM_CH_STATE m 1) d

/-- Usable capacity in MiB (R309): ONLINE channels, less a diagnostic block each, less retired blocks. -/
def Dev.usableMiB (d : Dev) : Nat :=
  let on := d.onlineChans
  let retired := (d.mem.retired.filter fun b => on.contains (b / 2 ^ 20)).length
  sumBy (fun m => d.get Reg.MEM_CH_SIZE m) on - 2 * on.length - 2 * retired

/-- Available bandwidth in MB/s (R321). -/
def Dev.bandwidth (d : Dev) : Nat := 307000 * d.onlineChans.length * d.get Reg.GV_MEM_THROTTLE / 800

/-- The INDEX stall's capacity in MiB (R316): two copies of one 1,024-byte entry per basket that can be held. -/
def indexMiB (hold backlog : Nat) : Nat := 4 * ceilDiv ((hold + backlog) * 1024) 2097152

/-- The INDEX stall's bandwidth in MB/s (R312). -/
def indexBw (fnom : Nat) : Nat := (roundHalfUp (2048 * fnom) 125000).toNat

/-- The device with the computed pitch of the INDEX stall (R312, R316). -/
def Dev.computeIndex (d : Dev) : Dev :=
  (d.set Reg.ST_CAP 2 (indexMiB (d.get Reg.TRG_HOLD) (d.get Reg.TRG_BACKLOG))).set Reg.ST_BW 2
    (indexBw (d.get Reg.TB_FNOM))

/-- The sum of all stalls' values of an object. -/
def Dev.stallSum (d : Dev) (a : Nat) : Nat := sumBy (fun k => d.get a k) (List.range 64)

/-- One priority level of the scaling of R321: the stalls' values as (stall, priority, value). -/
def scaleLevel (prio excess : Nat) (vals : List (Nat × Nat × Nat)) : Nat × List (Nat × Nat × Nat) :=
  let level := sumBy (fun v => if v.2.1 = prio then v.2.2 else 0) vals
  let cut := min excess level
  (excess - cut, vals.map fun v => if v.2.1 = prio ∧ level ≠ 0 then (v.1, v.2.1, v.2.2 - ceilDiv (cut * v.2.2) level) else v)

/-- The scaling of R321 over the priorities 0 to 8. -/
def scaleVals (vals : List (Nat × Nat × Nat)) (available : Nat) : List (Nat × Nat × Nat) :=
  ((List.range 9).foldl (fun (st : Nat × List (Nat × Nat × Nat)) p => scaleLevel p st.1 st.2)
    (sumBy (fun v => v.2.2) vals - available, vals)).2

/-- The stalls' configured values of an object, with their priorities, for the stalls `sel` selects. -/
def Dev.stallVals (d : Dev) (a : Nat) (sel : Nat → Bool) : List (Nat × Nat × Nat) :=
  ((List.range 64).filter sel).map fun k => (k, d.get Reg.ST_PRIO k, d.get a k)

/-- The device with the values of a scaling written. -/
def Dev.putEff (d : Dev) (a : Nat) (vals : List (Nat × Nat × Nat)) : Dev :=
  forEach vals (fun v d => d.set a v.1 v.2.2) d

/-- Effective capacities, bandwidths and hold time computed from what is available (R321, R322): before memory is up
they equal the configured values. -/
def Dev.rescale (d : Dev) : Dev :=
  let was := d.effBytes
  let d := d.set Reg.MEM_USABLE 0 d.usableMiB
  let d := (d.set Reg.MEM_BW_AVAIL 0 d.bandwidth).set Reg.MEM_ONLINE 0 (maskOf d.onlineChans)
  let d := d.putEff Reg.ST_EFF_CAP (scaleVals (d.stallVals Reg.ST_CAP fun _ => true) d.usableMiB)
  let bwIdx := d.get Reg.ST_BW 2
  let d := d.putEff Reg.ST_EFF_BW (scaleVals (d.stallVals Reg.ST_BW fun k => k != 2) (d.bandwidth - bwIdx))
  let d := d.set Reg.ST_EFF_BW 2 (min bwIdx d.bandwidth)
  let entries := d.get Reg.ST_EFF_CAP 2 / 4 * 2048
  let hold := d.get Reg.TRG_HOLD
  forRange 64 (fun k d => d.clearOver k) ((d.set Reg.TRG_HOLD_EFF 0
    (if d.get Reg.ST_EFF_CAP 2 < d.get Reg.ST_CAP 2 then min hold (entries - d.get Reg.TRG_BACKLOG) else hold)).markOver was)

/-- Whether any stall's effective values lie below its configured ones. -/
def Dev.anyScaled (d : Dev) : Bool :=
  (List.range 64).any fun k =>
    decide (d.get Reg.ST_EFF_CAP k < d.get Reg.ST_CAP k) || decide (d.get Reg.ST_EFF_BW k < d.get Reg.ST_BW k)

/-- The Stall Status word (R324). -/
def Dev.stallStatus (d : Dev) (k : Nat) : Nat :=
  let scaled := decide (d.get Reg.ST_EFF_CAP k < d.get Reg.ST_CAP k) || decide (d.get Reg.ST_EFF_BW k < d.get Reg.ST_BW k)
  flag 3 (d.shortNow k) + flag 2 (d.mem.stall k).full + flag 1 scaled + flag 0 (d.overPitch k)

/-! ### Blocks (R309, R335, R343) -/

/-- A block that no stall holds and that may be allotted: the lowest of a channel after its diagnostic block. -/
def Dev.freeBlock (d : Dev) (m : Nat) : Option Nat :=
  let n := d.get Reg.MEM_CH_SIZE m / 2
  ((List.range n).map fun b => m * 2 ^ 20 + b).find? fun b =>
    b % 2 ^ 20 != 0 && !d.mem.holds b && !d.mem.retired.contains b && !d.mem.marked.any fun x => x.1 == b

/-- The write epoch of a block after the next allotment (R335). -/
def nextEpoch (e : Nat) : Nat := if e = 63 then 1 else e + 1

/-- One more block for a stall: of the next ONLINE channel after that of its previous block, and other than `avoid`, that has one
free. -/
def Dev.allotBlock (d : Dev) (k : Nat) (avoid : Option Nat := none) : Dev :=
  let s := d.mem.stall k
  let order := ((List.range 8).map fun i => (s.lastCh + 1 + i) % 8).filter fun m => d.onlineChans.contains m && avoid != some m
  match order.findSome? (fun m => (d.freeBlock m).map fun b => (m, b)) with
  | some (m, b) =>
    let mem := d.mem.setStall k { s with blocks := s.blocks ++ [(b, 0)], lastCh := m, room := 2097152 }
    { d with mem := { mem with epochs := tblWrite (fun _ => 0) mem.epochs b (nextEpoch (tblRead (fun _ => 0) mem.epochs b)) } }
  | none => d

/-- A freed block that was marked leaves the free list (R343). -/
def Dev.retireFreed (d : Dev) (b : Nat) : Dev :=
  match d.mem.marked.find? fun x => x.1 == b with
  | some (_, why) =>
    let mem := { d.mem with
      marked := d.mem.marked.filter (fun x => x.1 != b), retired := d.mem.retired ++ [b], lost := d.mem.lost.filter (· != b) }
    let d := ({ d with mem := { mem with scaleAt := some (d.now + 1, 1) } }.bump Reg.MEM_RETIRED).log 0xFF 0x0705
      (b / 2 ^ 20 : Nat) (b % 2 ^ 20 : Nat) why
    d.set Reg.MEM_USABLE 0 d.usableMiB
  | none => d

/-- A block marked for retirement (R343): 0 for corrections, 1 for an uncorrectable word; one that no stall holds leaves the
free list at once. -/
def Dev.markBlock (d : Dev) (b why : Nat) : Dev :=
  if d.mem.retired.contains b || d.mem.marked.any (fun x => x.1 == b) then d
  else
    let d := { d with mem := { d.mem with marked := d.mem.marked ++ [(b, why)] } }
    if d.mem.holds b then d else d.retireFreed b

/-- A block whose block-table entry is lost (R345): what it holds counts as uncorrectable, and it is marked for retirement. -/
def Dev.loseBlock (d : Dev) (b : Nat) : Dev :=
  (if d.mem.holds b then { d with mem := { d.mem with lost := (d.mem.lost.filter (· != b)) ++ [b] } } else d).markBlock b 1

/-- A fault found in a word of external memory (R335, R336, R343, R344): counted per channel; repeated corrections and an
uncorrectable word mark the block. A channel that is not ONLINE is not accessed. -/
def Dev.memFault (d : Dev) (x : BadWord) : Dev :=
  let m := x.chan.val
  let b := m * 2 ^ 20 + x.block.toNat
  let unc := fun (d : Dev) =>
    let ts := d.now :: (d.mem.uncTimes[x.chan].filter fun t => decide (d.now < t + d.ms 1000))
    { d with mem := { d.mem with uncTimes := d.mem.uncTimes.set x.chan ts } }
  if d.get Reg.MEM_CH_STATE m ≠ 2 then d
  else match d.wordFault x with
    | none => d
    | some .corrected =>
      let old := tblRead (fun _ => []) d.mem.corrections b
      let ts := d.now :: (old.filter fun t => decide (d.now < t + d.ms 86400000))
      let d := { d with mem := { d.mem with corrections := tblWrite (fun _ => []) d.mem.corrections b ts } }.bump Reg.ECC_COR m
      if d.get Reg.MEM_RETIRE_THR ≤ ts.length then d.markBlock b 0 else d
    | some .uncorrectable => ((unc d).bump Reg.ECC_UNC m).markBlock b 1
    | some .tagError => (unc d).bump Reg.ECC_TAG m

/-- Data of a stall freed from one of its blocks; a block that holds nothing more is freed. -/
def Dev.freeRun (d : Dev) (k b n : Nat) : Dev :=
  let s := d.mem.stall k
  let left := s.blocks.filterMap fun x => if x.1 ≠ b then some x else if x.2 ≤ n then none else some (b, x.2 - n)
  let newest := fun (l : List (Nat × Nat)) => l.getLast?.map Prod.fst
  let d := { d with mem := d.mem.setStall k { s with blocks := left, room := if newest left = newest s.blocks then s.room else 0 } }
  if left.length = s.blocks.length then d else d.retireFreed b

/-- Whether a stall writes on into its newest block: there is room, and the block is neither lost nor marked for retirement. -/
def Dev.fillsOn (d : Dev) (k : Nat) : Bool :=
  let s := d.mem.stall k
  s.room != 0 && match s.blocks.getLast? with
    | some x => !d.blockLost x.1 && !d.mem.marked.any fun y => y.1 == x.1
    | none => false

/-- Entries of a port written to a stall, into its newest block and then into further ones (R309), and where they lie; what finds no
free block lies nowhere. -/
def Dev.place (d : Dev) (port k : Nat) : Nat → Nat → List Home × Dev
  | 0, _ => ([], d)
  | fuel + 1, n =>
    if n = 0 then ([], d)
    else
      let d := if d.fillsOn k then d else d.allotBlock k
      let s := d.mem.stall k
      let m := if d.fillsOn k then min n (s.room / 8) else 0
      match s.blocks.getLast? with
      | none => ([], d)
      | some (b, live) =>
        if m = 0 then ([], d)
        else
          let s := { s with blocks := s.blocks.dropLast ++ [(b, live + 8 * m)], room := s.room - 8 * m }
          let r := Dev.place { d with mem := d.mem.setStall k s } port k fuel (n - m)
          ({ port := port, stall := k, count := m, block := b } :: r.1, r.2)

/-- The two copies of an index entry placed, in blocks of different channels (R316): the blocks, or none when no two are free. -/
def Dev.placeIndex (d : Dev) : List Nat × Dev :=
  let d :=
    if d.fillsOn 2 then d
    else
      let n := (d.mem.stall 2).blocks.length
      let one := d.allotBlock 2
      let two := one.allotBlock 2 ((one.mem.stall 2).blocks.getLast?.map fun x => x.1 / 2 ^ 20)
      if (two.mem.stall 2).blocks.length = n + 2 then two else d
  let s := d.mem.stall 2
  let at_ := s.blocks.length - 2
  if !d.fillsOn 2 || decide (s.blocks.length < 2) then ([], d)
  else
    let more := s.blocks.drop at_
    let s := { s with blocks := s.blocks.take at_ ++ more.map (fun x => (x.1, x.2 + 1024)), room := s.room - 1024 }
    (more.map Prod.fst, { d with mem := d.mem.setStall 2 s })

/-- The blocks of the SNAPSHOT and SPILL stalls, whose data leaves from the oldest, brought to what they store. -/
def Dev.syncRing (d : Dev) (k : Nat) : Dev :=
  let s := d.mem.stall k
  let need := ceilDiv (d.stored k) 2097152
  let have_ := s.blocks.length
  if have_ < need then forRange (need - have_) (fun _ d => d.allotBlock k) d
  else
    let d := { d with mem := d.mem.setStall k { s with blocks := s.blocks.drop (have_ - need) } }
    forEach (s.blocks.take (have_ - need)) (fun x d => d.retireFreed x.1) d

/-- A stall after what it stores has changed: OVER_PITCH, and the blocks of stalls 0 and 1. -/
def Dev.syncStall (d : Dev) (k : Nat) : Dev :=
  let d := d.clearOver k
  if k < 2 then d.syncRing k else d

/-- All stalls after what they store has changed. -/
def Dev.syncStalls (d : Dev) : Dev := forRange 64 (fun k d => d.syncStall k) d

end Sys2Proof.Machine
end

