-- ==== Sys2Proof/Machine/Merge.lean ====
section
/-! DEFINITION. The merge slices (chapter 9): opening a basket, packets received, closing, release, the layout of a
basket's body and its datagrams, routing, the snapshot ring and the back-end ports. -/

namespace Sys2Proof.Machine

/-! ### Routes (R285 to R289) -/

/-- The route-table entry of a key in the master table (R306). -/
def Dev.route (d : Dev) (k : Nat) : Route :=
  { egress := d.get Reg.RT_EGRESS k, mac := d.get Reg.RT_MAC k, ip := d.get Reg.RT_IP k, udp := d.get Reg.RT_UDP k
    vlan := d.get Reg.RT_VLAN k, dscp := d.get Reg.RT_DSCP k }

/-- The slice's lookup of a key (R286): from its cache, most recently used first, else fetched from the master table,
the least recently used entry of a full cache evicted. -/
def Dev.lookup (d : Dev) (slice : Fin 8) (k : Nat) : Route × Dev :=
  let c := d.merge.caches[slice.val]
  let put := fun (d : Dev) (c : List (Nat × Route)) =>
    { d with merge := { d.merge with caches := d.merge.caches.set slice.val c } }
  match c.find? fun e => e.1 == k with
  | some e => (e.2, put d (e :: c.erase e))
  | none =>
    let r := d.route k
    let d := d.bump Reg.MG_MISS slice.val
    let d := if c.length < 64 then d else d.bump Reg.MG_EVICT slice.val
    (r, put d ((k, r) :: c.take 63))

/-- The bits of Merge Status (R305). -/
def Dev.setMergeBit (d : Dev) (i : Nat) (b : Bool) : Dev := d.set Reg.MG_STATUS 0 (setBit (d.get Reg.MG_STATUS) i b)

/-- Every slice cache invalidated (R287). -/
def Dev.invalidateCaches (d : Dev) : Dev := { d with merge := { d.merge with caches := Vector.replicate 8 [] } }

/-- The pending commit applied, when it is due at the frame boundary at slot `b` (R287). -/
def Dev.applyCommit (d : Dev) (b : Nat) : Dev :=
  match d.merge.commitAt with
  | none => d
  | some t =>
    if b < t then d
    else
      let d := d.invalidateCaches
      let d := ((d.wrap Reg.ROUTE_GEN).setMergeBit 1 false).setMergeBit 0 d.merge.rewritten
      { d with merge := { d.merge with commitAt := none, rewritten := false } }

/-- The pinned format taken at a cycle boundary (R302). -/
def Dev.applyFormat (d : Dev) : Dev :=
  match d.merge.formatAt with
  | none => d
  | some t =>
    if d.grid.cycleStart < t then d
    else { d with merge := { d.merge with formatAt := none } }.set Reg.BE_FMT 0 (if d.get Reg.BE_FMT_PIN = 2 then 2 else d.currentFormat)

/-- A route entry left as R288 forbids: MAC or IPv4 unset, or its primary port OFF or without Source IPv4. -/
def Dev.routeUnset (d : Dev) (k : Nat) : Bool :=
  let b := field (d.get Reg.RT_EGRESS k) 2 0
  d.get Reg.RT_MAC k == 0 || d.get Reg.RT_IP k == 0 || d.get Reg.BE_MODE b == 0 || d.get Reg.BE_SRC_IP b == 0

/-- Whether a back-end port carries datagrams: it has link, and a Source IPv4, without which it has no IP traffic (R307). -/
def Dev.carriesIp (d : Dev) (n : Nat) : Bool := d.get Reg.BE_LINK n == 1 && d.get Reg.BE_SRC_IP n != 0

/-- The back-end ports that datagrams of a route may leave on (R289). -/
def Route.ports (r : Route) : List Nat := field r.egress 2 0 :: if bit r.egress 7 then [field r.egress 6 4] else []

/-- The back-end port a datagram of a route leaves on (R289, R307): the primary with link, else the enabled alternate. -/
def Dev.egressPort (d : Dev) (r : Route) : Option (Fin 8) :=
  let up := d.carriesIp
  let a := field r.egress 2 0
  let b := field r.egress 6 4
  if up a then some (Fin.ofNat 8 a) else if bit r.egress 7 && up b then some (Fin.ofNat 8 b) else none

/-! ### Opening a basket -/

/-- The pending records of steps and grid moves (R295): step sizes in units of 2⁻⁸ ns, rounded down (log entry 35) and
saturating. -/
def stepRecords (l : List (Nat × Int × Int)) : List Record :=
  l.map fun s =>
    let size := if s.1 = 2 then s.2.1 else limit (1 - 2 ^ 39) (2 ^ 39 - 1) (s.2.1 / 256)
    extRecord 8 (s.1 % 4 * 2 ^ 40 + unsgn 40 size)

/-- A port's part of a basket as it opens (R278). -/
def Dev.openPart (d : Dev) (p : Port) : PortPart :=
  let up := d.portUp p
  { port := p.val, expected := up, missing := !up, notUp := !up, corr := d.getI Reg.WP_DCORR p.val }

/-- The port delay corrections in force, by port (R168, R210). -/
def Dev.corrections (d : Dev) : List Int := allPorts.map fun p => d.getI Reg.WP_DCORR p.val

/-- The frames that have had a basket, with one more (R273): a further frame of the newest run of a cycle, or a new run. -/
def noteFormed (l : List (Nat × Nat × Nat)) (cyc frame : Nat) : List (Nat × Nat × Nat) :=
  match l with
  | (c, a, z) :: rest => if c = cyc ∧ z + 1 = frame then (c, a, frame) :: rest else ((cyc, frame, frame) :: l).take 65536
  | [] => [(cyc, frame, frame)]

/-- The basket of the frame that starts at slot `start` opens (R231, R272, R278, R285, R286): frame-start reading, time
status, route entry, and the records of steps and moves since the last basket (R15). -/
def Dev.openBasket (d : Dev) (frame start : Nat) : Dev :=
  let n := d.merge.next
  let key := d.grid.cycle * 4096 + frame
  let rk := key % d.get Reg.ROUTE_SPAN
  let (route, d) := d.lookup (Fin.ofNat 8 n) rk
  let parts := (allPorts.filter fun p => d.get Reg.WP_EN p.val == 1).map d.openPart
  let d := forEach (parts.filter PortPart.missing) (fun x d => d.bump Reg.MG_MISSING x.port) d
  let reading := d.readingAt start 0
  let b : Basket :=
    { num := n, cycle := d.grid.cycle, frame := frame, start := start, stop := min (start + 256) d.cycleEnd
      mode := d.mode, reading := reading, rate := (d.tb.settled (d.get Reg.TB_FNOM) start).rate, status := d.timeStatus, uncertainty := d.uncertainty
      holdover := d.holdoverSecs, key := rk, route := route, routePending := bit (d.get Reg.MG_STATUS) 0
      routeGen := d.get Reg.ROUTE_GEN, format := d.get Reg.BE_FMT, parts := parts, conc := stepRecords d.tu.stepRecord }
  let info : FrameInfo :=
    { key := key, reading := reading, rate := (d.tb.settled (d.get Reg.TB_FNOM) start).rate, status := d.timeStatus
      corrs := d.corrections, gated := d.mode == .gated }
  let m := d.merge
  let d := { d with
    tu := { d.tu with stepRecord := [] }
    merge := { m with next := (n + 1) % 2 ^ 64, formed := noteFormed m.formed d.grid.cycle frame
                      baskets := m.baskets ++ [b], frames := (info :: m.frames).take 65536 } }
  d.set Reg.MG_BASKET_NUM 0 n

/-- FRAME_BOUNDARY (R22, R272): the next frame of the cycle begins; in the modes that form baskets its basket opens. A
commit or format due at the boundary applies first (R15). -/
def execFrameBoundary (s : State) : Result :=
  s.on fun d =>
    let frame := d.grid.nextFrame
    let start := d.grid.cycleStart + 256 * frame
    if d.inReset || decide (d.now < start) || decide (d.cycleEnd ≤ start) || d.beforeCommits then d
    else
      let d := (d.applyCommit start).applyFormat.flywheelCheck
      let d := { d with grid := { d.grid with nextFrame := frame + 1 } }
      if sendsMarkers d.mode then d.openBasket frame start else d

/-! ### Packets received (R189, R273, R282) -/

/-- The cycle nearest the current one whose low 8 bits are given; of two equally near, the earlier (R273). -/
def Dev.nearCycle (d : Dev) (lo : Nat) : Nat :=
  let delta := (lo + 256 - d.grid.cycle % 256) % 256
  if delta < 128 then (d.grid.cycle + delta) % 2 ^ 40 else (d.grid.cycle + 2 ^ 40 - (256 - delta)) % 2 ^ 40

/-- A hit with its corrected in-frame time (R274, R126). -/
def hitItem (p lane : Nat) (corr : Int) (v : Nat) : BItem :=
  .hit p lane (field v 45 34) ((field v 33 14 : Nat) + corr) (field v 13 3) (field v 2 0)

/-- A marker taken into a port's part (R273, R283, R293). -/
def PortPart.mark (x : PortPart) (l : Lane) (v : Nat) : PortPart :=
  { x with marks := x.marks.set l.val (some (field v 33 22)), dead := x.dead.or (some (field v 21 6))
           flags := x.flags ||| (flag 3 (bit v 0) + flag 4 (bit v 1) + flag 5 (bit v 2)) }

/-- A record of a port taken into its open basket. -/
def Basket.take (b : Basket) (p : Port) (l : Lane) (r : Record) : Basket :=
  let v := r.toNat
  if recType r = 2 then b.updPart p.val fun x => x.mark l v
  else
    let corr := ((b.parts.find? fun x => x.port == p.val).map PortPart.corr).getD 0
    { b with items := b.items ++ [if recType r = 0 then hitItem p.val l.val corr v else .other p.val l.val r] }

/-- Records whose basket has closed (R273, R282): hits are late arrivals, others set LATE_NONHIT, markers nothing. -/
def Dev.lateRecords (d : Dev) (p : Port) (rs : List Record) : Dev :=
  let hits := (rs.filter fun r => recType r == 0).length
  let other := rs.any fun r => recType r == 1 || recType r == 3
  let m := d.merge
  let m := { m with late := m.late.set p.val (m.late[p.val] + hits)
                    lateNonhit := m.lateNonhit.set p.val (m.lateNonhit[p.val] || other) }
  { d with merge := m }.bump Reg.MG_LATE p.val hits

/-- Whether an extended record's subtype is reserved (R129). -/
def reservedRecord (r : Record) : Bool := recType r == 3 && decide (4 ≤ field r.toNat 45 42)

/-- Whether a frame has had a basket since the device left CONFIGURE (R273). -/
def Dev.formed (d : Dev) (cyc frame : Nat) : Bool :=
  d.merge.formed.any fun x => x.1 == cyc && decide (x.2.1 ≤ frame ∧ frame ≤ x.2.2)

/-- The records of an accepted RECORD packet delivered to their frame's basket (R273); the receiver discards extended records of
a reserved subtype (R129). -/
def Dev.deliver (d : Dev) (p : Port) (l : Lane) (frame cycLo : Nat) (rs : List Record) : Dev :=
  let cyc := d.nearCycle cycLo
  let rs := rs.filter fun r => !reservedRecord r
  match d.merge.baskets.find? fun b => b.cycle == cyc && b.frame == frame && b.st == .open_ with
  | some b => d.updBasket b.num fun b => rs.foldl (fun b r => b.take p l r) b
  | none =>
    if d.formed cyc frame then d.lateRecords p rs else (d.bump Reg.MG_NAME_ERR p.val).log p.val 0x0601 d.grid.cycle 1

/-- A packet that passed R186 accepted in order on its lane: its records are delivered, a snapshot joins the ring's input, and a
response needs no credit (R189, R192, R273). -/
def Dev.acceptPacket (d : Dev) (p : Port) (l : Lane) (k : PacketIn) (bytes : Bytes) : Dev :=
  let c := d.port p
  let ln := c.lanes[l.val]
  let ln := { ln with expected := (ln.expected + 1) % 4096, ackValid := true, statOwed := true }
  let put := fun (x : ConcLane) => d.setPort p { c with lanes := c.lanes.set l.val x }
  let used := { ln with received := (ln.received + 1) % 256 }
  match payloadOf k.kind bytes with
  | .records rs => (put used).deliver p l k.frame k.cyc rs
  | .snapshot desc samples =>
    let d := put used
    let x : SnapIn := { port := p.val, frame := k.frame, cycLo := k.cyc, descriptor := desc, samples := samples, at_ := d.now }
    { d with merge := { d.merge with ringIn := d.merge.ringIn ++ [x] } }
  | .response _ => put ln

/-- PACKET_RECEIVE (R185 to R187, R189, R191, R273): blocks of an uplink lane from an SOP on. A failed packet is counted and
answered with a NAK; one that passes R186 is accepted in order, refused with a NAK, or dropped as a duplicate. Bad blocks among them
count (R178, R179). -/
def execPacketReceive (p : Port) (blocks : List Block) (s : State) : Result :=
  s.on fun d =>
    match readPacket blocks with
    | none => d
    | some k =>
      if 4 ≤ k.lane then d
      else
        let l : Lane := Fin.ofNat 4 k.lane
        let phys := mapOf (d.laneMap p) l.val
        if !((d.port p).ul phys).up then d
        else
        let d := d.countBadBlocks p (.up (Fin.ofNat 5 phys)) (badInside blocks.tail)
        match k.bytes with
          | none => (d.bump Reg.WP_CRC_ERR p.val).oweNak p l
          | some bytes =>
            let c := d.port p
            let ln := c.lanes[l.val]
            let delta := (k.seq + 4096 - ln.expected % 4096) % 4096
            if delta = 0 then d.acceptPacket p l k bytes
            else if delta ≤ 2048 then d.oweNak p l
            else d.setPort p { c with lanes := c.lanes.set l.val { ln with statOwed := true } }

/-! ### Closing and release -/

/-- Hits of a port a lane delivered into the basket. -/
def Basket.laneHits (b : Basket) (p l : Nat) : Nat :=
  (b.items.filter fun i => match i with
    | .hit q k _ _ _ _ => q == p && k == l
    | .other .. => false).length

/-- The part of a port as its basket closes (R279, R282, R283). -/
def Dev.closePart (d : Dev) (b : Basket) (x : PortPart) : PortPart :=
  let p : Port := Fin.ofNat 32 x.port
  let active := d.activeMask p b.start
  let done := x.complete active
  let differs := (List.range 4).any fun l =>
    match x.marks.toList.getD l none with
    | some n => n != 4095 && n != b.laneHits x.port l
    | none => false
  { x with missing := x.missing || (x.expected && !done), active := active, degraded := decide (popCount active 4 < 4)
           mismatch := done && differs, late := d.merge.late[p.val]
           lateNonhit := d.merge.lateNonhit[p.val] }

/-- A basket closes (R279): ports that are not complete are MISSING, late arrivals since the last close are reported. -/
def Dev.closeBasket (d : Dev) (b : Basket) (timeout : Bool) : Dev :=
  let parts := b.parts.map (d.closePart b)
  let now := d.now
  let d := d.updBasket b.num fun b =>
    { b with st := .closed, closeDelay := min (now + 1 - b.stop) 65535, timeout := timeout, parts := parts }
  let newly := parts.filter fun x => x.missing && !(b.parts.any fun y => y.port == x.port && y.missing)
  let d := forEach newly (fun x d => d.bump Reg.MG_MISSING x.port) d
  let d := forEach (parts.filter PortPart.mismatch) (fun x d =>
    (d.bump Reg.MG_CNT_MISM x.port).log x.port 0x0602 b.cycle 1) d
  let has := fun (p : Nat) => parts.any fun x => x.port == p
  let m := d.merge
  let m := { m with late := Vector.ofFn fun i => if has i.val then 0 else m.late[i]
                    lateNonhit := Vector.ofFn fun i => !has i.val && m.lateNonhit[i] }
  let d := { d with merge := m }.bump Reg.MG_CLOSED
  if timeout then d.bump Reg.MG_TIMEOUTS else d

/-- Whether every expected port of an open basket is complete or no longer waited for (R279, R280). -/
def Dev.basketDone (d : Dev) (b : Basket) : Bool :=
  b.parts.all fun x => x.missing || x.complete (d.activeMask (Fin.ofNat 32 x.port) b.start)

/-- BASKET_CLOSE (R279): the oldest open basket whose frame has ended and whose expected ports are all complete closes. -/
def execBasketClose (s : State) : Result :=
  s.on fun d =>
    match d.merge.baskets.find? fun b => b.st == .open_ && decide (b.stop ≤ d.now) && d.basketDone b with
    | some b => d.closeBasket b false
    | none => d

/-- BASKET_TIMEOUT (R279): BASKET_TIMEOUT × 256 slots after its frame an open basket closes, with TIMEOUT set when a port
is still waited for. -/
def execBasketTimeout (s : State) : Result :=
  s.on fun d =>
    match d.merge.baskets.find? fun b =>
        b.st == .open_ && decide (b.stop + d.get Reg.BASKET_TIMEOUT * 256 ≤ d.now + 1) with
    | some b => d.closeBasket b (!d.basketDone b)
    | none => d

/-! ### The body of a basket (R275 to R277, R292 to R296, R303) -/

/-- A hit entry (R296). -/
def hitEntry (p chan : Nat) (t : Int) (tot flags len : Nat) : Nat :=
  let before := decide (t < 0)
  let after := decide ((4096 * len : Nat) ≤ t)
  p % 32 * 2 ^ 59 + chan % 4096 * 2 ^ 47 + (t % 1048576).toNat * 2 ^ 27 + tot % 2048 * 2 ^ 16 + flag 15 before
    + flag 14 after + flags % 8 * 2 ^ 8

/-- The place of a hit in its basket (R276). -/
def hitOrder (p chan : Nat) (t : Int) : Nat := ((t + 2 ^ 20).toNat * 32 + p) * 4096 + chan

/-- The hit entries of a basket with their places, in order. -/
def Basket.hitEntries (b : Basket) : List Nat :=
  let len := b.stop - b.start
  let hs := b.items.filterMap fun i => match i with
    | .hit p _ c t tot fl => some (hitOrder p c t, hitEntry p c t tot fl len)
    | .other .. => none
  (hs.insertionSort fun x y => x.1 ≤ y.1).map Prod.snd

/-- The place of a front-end record among those of its port (R277): records with an in-frame time by slot, coarse tick
and finest field, a flood record of time 0xFFFFF after them, then the others; equals by value. -/
def recordOrder (r : Record) : Nat :=
  let v := r.toNat
  let sub := field v 45 42
  let (cls, t) :=
    if recType r = 1 then if field v 37 18 = 0xFFFFF then (1, 0) else (0, field v 37 18)
    else if sub = 2 then (0, field v 25 6)
    else if sub = 3 then (0, field v 27 20 * 4096 + field v 19 17 * 512 + field v 16 14)
    else (2, 0)
  (cls * 2 ^ 20 + t) * 2 ^ 48 + v

/-- The record entries of a basket (R277, R294). -/
def Basket.recordEntries (b : Basket) : List Nat :=
  let conc := b.conc.map fun r => 0xFFFF * 2 ^ 48 + r.toNat
  let fe := b.items.filterMap fun i => match i with
    | .hit .. => none
    | .other p l r => some (p * 2 ^ 90 + recordOrder r, p * 2 ^ 56 + l * 2 ^ 48 + r.toNat)
  conc ++ (fe.insertionSort fun x y => x.1 ≤ y.1).map Prod.snd

/-- Hit entries of a port in the basket. -/
def Basket.hitsOf (b : Basket) (p : Nat) : Nat := (b.items.filter fun i => i.isHit && i.port == p).length

/-- The bytes of a port summary (R293, R303). -/
def Basket.summary (b : Basket) (x : PortPart) : Bytes :=
  let fl := x.flags + flag 0 x.missing + flag 1 x.notUp + flag 2 x.mismatch + flag 6 x.degraded + flag 7 x.lateNonhit
  let head := beBytes 1 x.port ++ beBytes 1 fl ++ beBytes 2 (x.dead.getD 0) ++ beBytes 4 (b.hitsOf x.port)
  let late := beBytes 2 (min x.late 65535)
  if b.format = 2 then head ++ late ++ beBytes 2 0
  else
    let got := maskOf ((List.range 4).filter fun l => (x.marks.toList.getD l none).isSome)
    head ++ beBytes 4 (sumBy (fun (m : Option Nat) => m.getD 0) x.marks.toList) ++ late
      ++ beBytes 1 (x.active * 16 + got) ++ beBytes 1 0

/-- The subtype of a record entry of TYPE 0b11, none for other records. -/
def entrySubtype (e : Nat) : Option Nat := if field e 47 46 = 3 then some (field e 45 42) else none

/-- BFLAGS (R292). -/
def Basket.flags (b : Basket) (records : List Nat) : Nat :=
  let has := fun (f : Nat → Bool) => records.any f
  let sub := fun (l : List Nat) => has fun e => match entrySubtype e with
    | some s => l.contains s
    | none => false
  flag 0 (decide (b.stop - b.start < 256)) + flag 1 b.timeout + flag 2 b.routePending + flag 3 (sub [8])
    + flag 4 (b.parts.any PortPart.mismatch)
    + flag 5 (sub [0, 1, 9, 0xA, 0xB] || b.parts.any fun x => x.late != 0) + flag 6 (has fun e => field e 47 46 == 1)

/-- The basket header (R292, R303). -/
def Basket.header (b : Basket) (fw node : Nat) (records hits : List Nat) : Bytes :=
  let two := b.format == 2
  let mask := fun (f : PortPart → Bool) => maskOf ((b.parts.filter f).map PortPart.port)
  let common := beBytes 2 b.format ++ beBytes 2 (if two then 64 else 80) ++ beBytes 1 (fw / 2 ^ 24) ++ beBytes 1 (fw / 2 ^ 16)
    ++ beBytes 2 fw ++ beBytes 1 node ++ beBytes 1 (modeCode b.mode) ++ beBytes 5 b.cycle ++ beBytes 2 b.frame
    ++ beBytes 2 (b.stop - b.start) ++ beBytes 1 (b.flags records) ++ beBytes 12 (time96 b.reading)
    ++ beBytes 8 (unsgn 64 b.rate) ++ beBytes 2 b.status ++ beBytes 2 b.key ++ beBytes 4 b.uncertainty
    ++ beBytes 4 b.holdover ++ beBytes 4 (mask fun _ => true) ++ beBytes 4 (mask PortPart.missing)
  if two then common ++ beBytes 2 records.length ++ beBytes 2 b.parts.length
  else common ++ beBytes 4 hits.length ++ beBytes 2 records.length ++ beBytes 2 b.parts.length ++ beBytes 4 b.tag
    ++ beBytes 2 b.routeGen ++ beBytes 2 b.closeDelay ++ beBytes 4 0

/-- The bytes of a basket's summary section (R303). -/
def Basket.summaries (b : Basket) : Bytes :=
  let s := b.parts.flatMap b.summary
  s ++ List.replicate (if s.length % 8 = 0 then 0 else 8 - s.length % 8) 0

/-- The body of a basket (R275). -/
def Basket.body (b : Basket) (fw node : Nat) : Bytes :=
  let records := b.recordEntries
  let hits := b.hitEntries
  b.header fw node records hits ++ b.summaries ++ records.flatMap (beBytes 8) ++ hits.flatMap (beBytes 8)

/-! ### Datagrams (R290, R291, R298, R299) -/

/-- P: bytes of body in a fragment (R290). -/
def fragSize (mtu : Nat) : Nat := (mtu - 60) / 8 * 8

/-- The fragment header with its CRC over itself and the data (R291). -/
def fragBytes (format kind node fflags index count slice cycle frame offset len : Nat) (data : Bytes) : Bytes :=
  let h := beBytes 2 0x5642 ++ beBytes 1 format ++ beBytes 1 kind ++ beBytes 1 node ++ beBytes 1 fflags ++ beBytes 2 index
    ++ beBytes 2 count ++ beBytes 1 slice ++ beBytes 1 0 ++ beBytes 5 cycle ++ beBytes 2 frame ++ beBytes 1 0
    ++ beBytes 4 offset ++ beBytes 4 len
  h ++ beBytes 4 (crc32c (h ++ data)) ++ data

/-- The fragments of a basket's body (R290). -/
def Basket.frags (b : Basket) (body : Bytes) (node srcBase mtu : Nat) (gated : Bool) : List Frag :=
  let size := fragSize mtu
  let count := max 1 (ceilDiv body.length size)
  (List.range count).map fun i =>
    let last := decide (i + 1 = count)
    { num := some b.num, last := last, route := b.route, srcUdp := srcBase + b.num % 8
      payload := fragBytes b.format 1 node (flag 0 last + flag 1 gated) i count (b.num % 8) b.cycle b.frame (i * size)
        body.length ((body.drop (i * size)).take size) }

/-- The egress queue of a back-end port. -/
def Dev.egr (d : Dev) (b : Fin 8) : Egress := d.merge.egress[b.val]

/-- The device with an egress queue replaced. -/
def Dev.setEgr (d : Dev) (b : Fin 8) (e : Egress) : Dev :=
  { d with merge := { d.merge with egress := d.merge.egress.set b.val e } }

/-- Bytes an egress queue holds, of 512 KiB (R311). -/
def Egress.fill (e : Egress) : Nat := sumBy (fun f => f.payload.length) e.queue

/-- Fragments entering a queue as far as there is room. -/
def takeFrags : Nat → List Frag → List Frag × List Frag
  | _, [] => ([], [])
  | room, f :: rest =>
    if f.payload.length ≤ room then
      let r := takeFrags (room - f.payload.length) rest
      (f :: r.1, r.2)
    else ([], f :: rest)

/-- The queue filled from the basket it is still taking (R281). -/
def Egress.refill (e : Egress) : Egress :=
  let r := takeFrags (524288 - e.fill) e.feed
  { e with queue := e.queue ++ r.1, feed := r.2 }

/-- Whether a queue accepts a new run of fragments (R281): it takes no earlier basket and has room for the first. -/
def Egress.accepts (e : Egress) (first : Nat) : Bool := e.feed.isEmpty && decide (e.fill + first ≤ 524288)

/-- The memory a basket takes up given back, its index entries with it. -/
def Dev.dropHomes (d : Dev) (b : Basket) : Dev :=
  let d := forEach b.homes (fun h d => d.freeRun h.stall h.block (8 * h.count)) d
  forEach b.index (fun x d => d.freeRun 2 x 1024) d

/-- A basket freed: it leaves the memory, and the stalls their blocks. -/
def Dev.freeBasket (d : Dev) (n : Nat) : Dev :=
  let d := match d.merge.baskets.find? fun b => b.num == n with
    | some b => d.dropHomes b
    | none => d
  { d with merge := { d.merge with baskets := d.merge.baskets.filter fun b => b.num != n } }.syncStalls

/-- The entries of a port in a basket. -/
def Basket.entriesOf (b : Basket) (p : Nat) : Nat := (b.items.filter fun i => i.port == p).length

/-- The transfers of a basket's portions counted against their stalls (R315). -/
def Dev.chargeBasket (d : Dev) (b : Basket) : Dev :=
  forEach b.homes (fun h d => d.charge h.stall (8 * h.count)) d

/-- A basket's portions written to their stalls, and with `held` its index entry, twice (R309, R315, R316, R318). -/
def Dev.storeBasket (d : Dev) (n : Nat) (held : Bool) : Dev :=
  match d.merge.baskets.find? fun b => b.num == n with
  | none => d
  | some b =>
    let put := fun (acc : List Home × Dev) (p : Nat) =>
      let k := b.entriesOf p
      let r := acc.2.place p (acc.2.stallOf p) (2 * (k / 262144 + 2)) k
      (acc.1 ++ r.1, r.2)
    let (homes, d) := ((b.items.map BItem.port).dedup).foldl put ([], d)
    let (index, d) := if held then (d.charge 2 2048).placeIndex else ([], d)
    let b := { b with homes := homes, index := index }
    (d.updBasket n fun _ => b).chargeBasket b

/-- Baskets on their way out none of whose fragments is left in a queue are freed. -/
def Dev.freeSent (d : Dev) : Dev :=
  let left := fun (n : Nat) => d.merge.egress.toList.any fun e => (e.queue ++ e.feed).any fun f => f.num == some n
  let gone := d.merge.baskets.filter fun b => b.st == .sending && !left b.num
  forEach gone (fun b d => d.freeBasket b.num) d

/-- A basket's fragments offered to the egress queue of its port (R281, R289): none when no port has link or the queue
does not accept it. -/
def Dev.offer (d : Dev) (b : Basket) (body : Bytes) (gated : Bool) : Option Dev :=
  match d.egressPort b.route with
  | none => none
  | some o =>
    let fs := b.frags body (d.get Reg.COM_NODE) (d.get Reg.BE_SRC_UDP o.val) (d.get Reg.BE_MTU) gated
    let e := d.egr o
    if e.accepts ((fs.map fun f => f.payload.length).headD 0) then
      let d := (d.setEgr o { e with feed := fs }.refill).updBasket b.num fun b => { b with st := .sending }
      let d := if gated then d else d.storeBasket b.num false
      some (match d.merge.baskets.find? fun x => x.num == b.num with
        | some b => d.chargeBasket b
        | none => d)
    else none

/-- Whether an earlier basket that is held or selected may still leave on a port that this one may leave on (R301): a port sends
baskets in ascending basket number. -/
def Dev.earlierHeld (d : Dev) (b : Basket) : Bool :=
  (d.merge.baskets.takeWhile fun x => x.num != b.num).any fun x =>
    (x.st == .held || x.st == .selected) && x.route.ports.any b.route.ports.contains

/-- One port's portion tested at admission to the latency buffer, after those of the ports before it (R319). -/
def Dev.admitPart (d : Dev) (n : Nat) (x : PortPart) : Dev :=
  match d.merge.baskets.find? fun b => b.num == n with
  | none => d
  | some b =>
    let mine := b.items.filter fun i => i.port == x.port
    let k := d.stallOf x.port
    let over_ := d.overPitch k
    let s := d.mem.stall k
    let before := b.items.filter fun i => decide (i.port < x.port) && d.stallOf i.port == k
    let fits := decide (d.stored k + 8 * before.length + 8 * mine.length ≤ d.effBytes k)
    let d := { d with mem := d.mem.setStall k { s with full := !fits } }
    if !over_ && fits then d
    else
      let hits := (mine.filter BItem.isHit).length
      let rec_ := extRecord 9 (x.port * 2 ^ 37 + k * 2 ^ 29 + flag 28 (!over_) + min hits (2 ^ 28 - 1))
      let d := (d.bump Reg.ST_QLOSS k hits).bump Reg.ST_REFUSED k
      d.updBasket n fun b =>
        { b with conc := b.conc ++ [rec_], items := b.items.filter fun i => !(i.isHit && i.port == x.port) }

/-- A GATED basket released to the latency buffer: each port's portion is admitted or refused in turn (R319). -/
def Dev.hold (d : Dev) (b : Basket) : Dev :=
  let d := forEach b.parts (fun x d => d.admitPart b.num x) d
  ((d.updBasket b.num fun b => { b with st := .held }).storeBasket b.num true).syncStalls

/-- BASKET_RELEASE (R281, R318, R319): the oldest closed basket goes to the egress queue of its port, or in GATED to the
latency buffer; slots it waits are counted, among them those it waits for earlier held baskets of its port (R301). -/
def execBasketRelease (s : State) : Result :=
  s.on fun d =>
    match d.merge.baskets.find? fun b => b.st == .open_ || b.st == .closed with
    | none => d
    | some b =>
      if b.st = .open_ then d
      else
        let done := fun (d : Dev) =>
          let waited := match d.merge.waitFrom with
            | some t => d.now - t
            | none => 0
          ({ d with merge := { d.merge with waitFrom := none } }.bump Reg.MG_EGR_WAIT 0 waited).syncStalls
        let waits := { d with merge := { d.merge with waitFrom := d.merge.waitFrom.or (some d.now) } }
        if b.mode = .gated then done ((forEach ((b.items.map fun i => d.stallOf i.port).dedup) (fun k d => d.noteShort k) d).hold b)
        else if d.earlierHeld b then waits
        else match d.offer b (b.body (d.get Reg.BE_FW_VER) (d.get Reg.COM_NODE)) false with
          | some d => done d
          | none => waits

/-- Ring Entries Held kept with the ring, and the snapshot stall's blocks. -/
def Dev.setRing (d : Dev) (r : List RingEntry) : Dev :=
  ({ d with merge := { d.merge with ring := r } }.set Reg.SNAP_RING_HELD 0 r.length).syncStall 0

/-- EGRESS_FRAGMENT_SEND (R290, R298, R299): the head of a port's queue leaves as a UDP datagram, and the queue takes
further fragments; a basket whose last fragment has left is freed, and the ring entries of a snapshot datagram are consumed (R168). -/
def execEgressFragmentSend (b : Fin 8) (s : State) : Result :=
  s.on fun d =>
    let e := d.egr b
    match e.queue with
    | [] => d
    | f :: rest =>
      if !d.carriesIp b.val || (d.netPort b).pause.isSome then d
      else
        let (ident, d) := d.takeIdent b
        let bytes := udpFrame (d.get Reg.BE_SRC_MAC b.val) (d.get Reg.BE_SRC_IP b.val) f.srcUdp (d.get Reg.BE_TTL) ident
          f.route f.payload
        let d := ((d.setEgr b { e with queue := rest }.refill).sendFrame b bytes).freeSent
        if f.entries.isEmpty then d else d.setRing (d.merge.ring.filter fun r => !f.entries.contains r.seq)

/-! ### Route table and format -/

/-- The address of a column of the route table (R306). -/
def routeAddr (col : Fin 6) : Nat := Reg.RT_EGRESS + col.val

/-- The conditions a route-table write meets beyond its row (R288, R306). -/
def Dev.routeWriteOk (d : Dev) (col : Fin 6) (es : List Nat) (v : Nat) (after : Dev) : Bool :=
  let word := match col with
    | 4 => !bit v 12 || (decide (1 ≤ v % 4096) && decide (v % 4096 ≤ 4094))
    | _ => true
  let used := es.filter fun e => decide (e < d.get Reg.ROUTE_SPAN) || e == d.get Reg.SNAP_ROUTE
  word && (d.mode == .configure || used.all fun e => !after.routeUnset e)

/-- ROUTE_ENTRY_WRITE (R286, R288): a write of one column of the route table, of one key or of all. -/
def execRouteEntryWrite (w : Writer) (col : Fin 6) (key : BitVec 16) (val : Bytes) (s : State) : Result :=
  s.on fun d => d.write w (routeAddr col) key.toNat val fun d v =>
    let a := routeAddr col
    -- bit 3 of Route Egress is reserved and ignored (R4, R306)
    let v := if col = 0 then setBit v 3 false else v
    let es := if key.toNat = 0xFFFF then List.range 4096 else [key.toNat]
    let after := forEach es (fun e d => d.set a e v) d
    if d.mode = .boot then refuse .wrongMode d
    else if !d.routeWriteOk col es v after then refuse .range d
    else
      (.accepted, { after.setMergeBit 0 true with
        merge := { after.merge with rewritten := after.merge.rewritten || after.merge.commitAt.isSome } })

/-- ROUTE_COMMIT (R287): the commit is due at the first frame boundary at least 16 slots after the write; a second
merges with the first. -/
def execRouteCommit (w : Writer) (val : Bytes) (s : State) : Result :=
  s.on fun d => d.write w Reg.ROUTE_COMMIT 0 val fun d _ =>
    (.accepted, { d.setMergeBit 1 true with
      merge := { d.merge with commitAt := d.merge.commitAt.or (some (d.now + 16)), rewritten := false } })

/-- ROUTE_COMMIT_APPLY (R15, R287): at the frame boundary every cache is invalidated, after the items of R15 that go
before it at a cycle boundary: at the end of the cycle it waits for the next one to begin. -/
def execRouteCommitApply (s : State) : Result :=
  s.on fun d =>
    if d.beforeCommits then d
    else d.applyCommit (d.grid.cycleStart + min d.slot (d.cycleEnd - d.grid.cycleStart - 1) / 256 * 256)

/-- FORMAT_PIN (R302): the basket format for frames from the next cycle boundary. -/
def execFormatPin (w : Writer) (val : Bytes) (s : State) : Result :=
  s.on fun d => d.write w Reg.BE_FMT_PIN 0 val fun d v =>
    if v ≠ 0 ∧ v ≠ 2 then refuse .range d
    else (.accepted, { d.set Reg.BE_FMT_PIN 0 v with merge := { d.merge with formatAt := some (d.now + 1) } })

/-- FORMAT_PIN_APPLY (R302), after a step and a mode change due at the boundary. -/
def execFormatPinApply (s : State) : Result := s.on fun d => if d.beforeCommits then d else d.applyFormat

/-! ### Back-end ports (R297 to R300) -/

/-- Whether a received frame is addressed to a port (R298): its MAC address, or broadcast. -/
def Dev.forPort (d : Dev) (b : Fin 8) (dst : BitVec 48) : Bool := dst.toNat == d.get Reg.BE_SRC_MAC b.val || dst == 0xFFFFFFFFFFFF

/-- ARP_REQUEST_RECEIVE (R300): a request for the port's address is answered. -/
def execArpRequestReceive (b : Fin 8) (dst senderMac : BitVec 48) (senderIp targetIp : BitVec 32) (s : State) : Result :=
  s.on fun d =>
    let ip := d.portIp b
    if ip = 0 ∨ targetIp.toNat ≠ ip ∨ d.get Reg.BE_LINK b.val ≠ 1 ∨ !d.forPort b dst then d
    else
      let mac := d.get Reg.BE_SRC_MAC b.val
      let bytes := beBytes 6 senderMac.toNat ++ beBytes 6 mac ++ beBytes 2 0x0806 ++ beBytes 2 1 ++ beBytes 2 0x0800
        ++ beBytes 1 6 ++ beBytes 1 4 ++ beBytes 2 2 ++ beBytes 6 mac ++ beBytes 4 ip ++ beBytes 6 senderMac.toNat
        ++ beBytes 4 senderIp.toNat
      d.sendManaged b bytes

/-- ICMP_ECHO_RECEIVE (R299, R300): an echo request to the port's address is answered with its identifier, sequence
number and data, in a datagram no larger than IP MTU. -/
def execIcmpEchoReceive (b : Fin 8) (dst srcMac : BitVec 48) (srcIp dstIp : BitVec 32) (rest : Bytes) (s : State) : Result :=
  s.on fun d =>
    let ip := d.portIp b
    if ip = 0 ∨ dstIp.toNat ≠ ip ∨ d.get Reg.BE_LINK b.val ≠ 1 ∨ !d.forPort b dst ∨ d.get Reg.BE_MTU < 24 + rest.length then d
    else
      let (ident, d) := d.takeIdent b
      let icmp := fun (sum : Nat) => beBytes 2 0 ++ beBytes 2 sum ++ rest
      let hdr := fun (sum : Nat) => beBytes 2 0x4500 ++ beBytes 2 (24 + rest.length) ++ beBytes 2 ident ++ beBytes 2 0x4000
        ++ beBytes 1 (d.get Reg.BE_TTL) ++ beBytes 1 1 ++ beBytes 2 sum ++ beBytes 4 ip ++ beBytes 4 srcIp.toNat
      let bytes := beBytes 6 srcMac.toNat ++ beBytes 6 (d.get Reg.BE_SRC_MAC b.val) ++ beBytes 2 0x0800
        ++ hdr (inetSum (hdr 0)) ++ icmp (inetSum (icmp 0))
      d.sendManaged b bytes

/-- Slots of a number of pause quanta of 512 bit times at 100 Gb/s, rounded up. -/
def Dev.pauseSlots (d : Dev) (quanta : Nat) : Nat := ceilDiv (quanta * 512 * d.get Reg.TB_FNOM) 100000000

/-- Quanta of a pause honoured up to now. -/
def Dev.pauseDone (d : Dev) (p : Nat × Nat × Nat) : Nat :=
  if p.1 ≤ d.now then p.2.2 else min p.2.2 ((d.now - p.2.1) * 100000000 / (512 * d.get Reg.TB_FNOM))

/-- A port transmits again: the management frames that waited leave. -/
def Dev.endPause (d : Dev) (b : Fin 8) : Dev :=
  let n := d.netPort b
  forEach n.held (fun x d => d.sendManaged b x) (d.setNet b { n with pause := none, held := [] })

/-- The time of a pause that a port's power-down ends, counted (R307). -/
def Dev.dropPause (d : Dev) (b : Fin 8) : Dev :=
  match (d.netPort b).pause with
  | some p => d.bump Reg.BE_PAUSE_TIME b.val (d.pauseDone p)
  | none => d

/-- PAUSE_FRAME_RECEIVE (R298): with Pause Honour set transmission stops for the time requested; a request replaces the
one in force, and one of 0 ends it. With it clear the frame, addressed to neither the port nor broadcast, is discarded and counted. -/
def execPauseFrameReceive (b : Fin 8) (quanta : BitVec 16) (s : State) : Result :=
  s.on fun d =>
    if d.get Reg.BE_PAUSE b.val ≠ 1 then (if d.get Reg.BE_LINK b.val = 1 then d.bump Reg.BE_RX_DISC b.val else d)
    else
      let n := d.netPort b
      let d := d.dropPause b
      let q := quanta.toNat
      if q = 0 then d.endPause b else d.setNet b { n with pause := some (d.now + d.pauseSlots q, d.now, q) }

/-- PAUSE_EXPIRE (R298): the time requested has passed and transmission resumes. -/
def execPauseExpire (b : Fin 8) (s : State) : Result :=
  s.on fun d =>
    match (d.netPort b).pause with
    | some p => if p.1 ≤ d.now then (d.bump Reg.BE_PAUSE_TIME b.val p.2.2).endPause b else d
    | none => d

/-- BACKEND_LINK_CHANGE (R289, R307): a port that is not OFF gains or loses link. -/
def execBackendLinkChange (b : Fin 8) (up : Bool) (s : State) : Result :=
  s.on fun d => d.set Reg.BE_LINK b.val (if up && d.get Reg.BE_MODE b.val != 0 && d.mode != .loopback then 1 else 0)

/-- Whether a frame's contents do not have it discarded (R298, R299): IPv4 without options and unfragmented, or another frame
that is no MAC control frame. -/
def kindAccepted : RxKind → Bool
  | .ipv4 options fragment => !options && !fragment
  | .control _ => false
  | .other => true

/-- The symbols in error that the RS(528,514) code of Clause 91 corrects in a codeword (R297; log entry 96). -/
def fecCorrects : Nat := 7

/-- RECEIVE_DISCARD (R223, R297 to R299): a received frame or datagram that is not accepted is discarded and counted; a PAUSE frame
is not among them (PAUSE_FRAME_RECEIVE). In LOOPBACK a port not OFF checks the bits it receives on a lane against its test pattern,
PRBS9 with code 1 and PRBS31 with the others, and counts the errors (log entry 137). Outside LOOPBACK the RS-FEC corrects a codeword or
finds it uncorrectable, and counts it. -/
def execReceiveDiscard (b : Fin 8) (rx : BackEndRx) (s : State) : Result :=
  s.on fun d =>
    match rx with
    | .bits lane line =>
      if d.mode ≠ .loopback ∨ d.get Reg.BE_MODE b.val = 0 then d
      else
        let key := b.val * 4 + lane.val
        let nine := d.get Reg.BE_TEST == 1
        let (errors, prbs) := prbsCheck (if nine then 9 else 31) (if nine then 5 else 28) line (tblRead (fun _ => 0) d.beTest key)
        { d with beTest := tblWrite (fun _ => 0) d.beTest key prbs }.bump Reg.BE_TEST_ERR b.val errors
    | .codeword errors =>
      if d.mode = .loopback ∨ d.get Reg.BE_LINK b.val ≠ 1 ∨ errors = 0 then d
      else d.bump (if errors.toNat ≤ fecCorrects then Reg.BE_FEC_COR else Reg.BE_FEC_UNC) b.val
    | .frame dst len tagged kind =>
      if d.get Reg.BE_LINK b.val ≠ 1 then d
      else if d.forPort b dst && decide (len.toNat ≤ 9018 + if tagged then 4 else 0) && kindAccepted kind then d
      else if kind = .control 1 then d
      else d.bump Reg.BE_RX_DISC b.val

/-! ### The snapshot ring (R168, R301) -/

/-- FREEZE_TIME of a descriptor (R99, R168, R231): the frame-start reading plus the freeze position with phase and port
correction, in units of 1 / 2,560 coarse tick. -/
def Dev.freezeTime (d : Dev) (info : FrameInfo) (corr : Int) (desc : Nat) : Int :=
  let f : Int := (field desc 83 76 * 8 + field desc 75 73 : Nat) * 2560 + (field desc 72 70 : Nat) * 512
    + (sgn 10 (field desc 54 45) + corr) * 5
  info.reading + f * nominalTick (d.get Reg.TB_FNOM) * (2 ^ 48 + info.rate) / (2560 * 2 ^ 80)

/-- The 256 bytes of a ring entry (R168). -/
def ringBytes (seq port status cycle : Nat) (time : Int) (desc : Nat) (samples : List (BitVec 12)) : Bytes :=
  let data := (samples.take 128).foldl (fun a x => a * 4096 + x.toNat) 0
  beBytes 4 seq ++ beBytes 1 port ++ beBytes 1 status ++ beBytes 5 cycle ++ beBytes 1 0 ++ beBytes 12 (time96 time)
    ++ beBytes 8 0 ++ beBytes 16 desc ++ beBytes 192 data ++ beBytes 16 0

/-- SNAPSHOT_RING_WRITE (R168): the oldest received snapshot packet is written as one entry, under the ring's policy when
it is full of unconsumed entries. -/
def execSnapshotRingWrite (s : State) : Result :=
  s.on fun d =>
    match d.merge.ringIn with
    | [] => d
    | x :: rest =>
      let d := { (d.noteShort 0).charge 0 256 with merge := { d.merge with ringIn := rest } }
      let size := 2 ^ d.get Reg.SNAP_RING_LOG2
      let full := decide (size ≤ d.merge.ring.length)
      if full && d.get Reg.SNAP_RING_POLICY == 0 then d.bump Reg.SNAP_RING_DROP
      else
        let cyc := d.nearCycle x.cycLo
        let key := cyc * 4096 + x.frame
        let basket := d.merge.baskets.find? fun b => b.cycle == cyc && b.frame == x.frame
        let info := (d.merge.frames.find? fun f => f.key == key).getD
          { key := key, reading := d.reading, rate := d.tbNow.rate, status := d.timeStatus, corrs := d.corrections, gated := false }
        let corr := info.corrs.getD x.port 0
        let late := match basket with
          | some b => b.st != .open_
          | none => true
        let seq := d.get Reg.SNAP_RING_WSEQ
        let bytes := ringBytes seq x.port (flag 0 (bit info.status 0) + flag 1 late + flag 2 full) cyc
          (d.freezeTime info corr x.descriptor.toNat) x.descriptor.toNat x.samples
        let expired := info.gated && info.decided == some false
        let entry : RingEntry :=
          { seq := seq, key := key, bytes := bytes, ready := !info.gated || info.decided == some true, at_ := d.now }
        let d := if full then d.bump Reg.SNAP_RING_OVWR else d
        let ring := if full then d.merge.ring.drop 1 else d.merge.ring
        (d.wrap Reg.SNAP_RING_WSEQ).setRing (if expired then ring else ring ++ [entry])

/-- A word of a ring entry read as uncorrectable, sent as zeros (R336). -/
def zeroWord (w : Nat) (bs : Bytes) : Bytes := bs.take (8 * w) ++ List.replicate 8 0 ++ bs.drop (8 * w + 8)

/-- SNAPSHOT_DATAGRAM_SEND (R289, R301, R336): entries that may leave go in one datagram when it is full or the oldest has
waited 1,024 slots, between baskets on the port of the Snapshot Route Key; they stay in the ring until it is sent
(R168). `bad` names the words of the memory read that had a fault: the entry in the datagram, the word in the entry. -/
def execSnapshotDatagramSend (bad : List (Nat × Nat × BadWord)) (s : State) : Result :=
  s.on fun d =>
    let ready := d.merge.ring.filter fun r => r.ready && !r.queued
    let n := fragSize (d.get Reg.BE_MTU) / 256
    let route := d.route (d.get Reg.SNAP_ROUTE)
    match ready, d.egressPort route with
    | first :: _, some o =>
      let out := ready.take n
      let lost := bad.filter fun x => d.losesWord x.2.2 && decide (x.1 < out.length) && decide (x.2.1 < 32)
      let zeroed := fun (e : RingEntry × Nat) =>
        (lost.filter fun x => x.1 == e.2).foldl (fun bs x => zeroWord x.2.1 bs) e.1.bytes
      let body := out.zipIdx.flatMap zeroed
      let f : Frag :=
        { num := none, last := true, route := route, srcUdp := d.get Reg.BE_SRC_UDP o.val
          payload := fragBytes (d.get Reg.BE_FMT) 2 (d.get Reg.COM_NODE) 1 0 1 0 0 0 0 body.length body
          entries := out.map RingEntry.seq }
      let e := d.egr o
      if (out.length < n ∧ d.now < first.at_ + 1024) ∨ ¬ e.accepts f.payload.length then d
      else
        let d := forEach bad (fun x d => d.memFault x.2.2) (d.charge 0 (256 * out.length))
        let drops := ((lost.filter fun x => x.2.1 == 4 || x.2.1 == 5).map Prod.fst).dedup.length
        let mark := fun (r : RingEntry) => if f.entries.contains r.seq then { r with queued := true } else r
        ((d.bump Reg.SNAP_RING_DROP 0 drops).setEgr o { e with queue := e.queue ++ [f] }).setRing (d.merge.ring.map mark)
    | _, _ => d

/-! ### Queue resets (R51, R295, R345) -/

/-- The last `n` items of a basket that `sel` selects, taken out, and these. -/
def dropItems (sel : BItem → Bool) : Nat → List BItem → List BItem × List BItem
  | 0, l => (l, [])
  | _ + 1, [] => ([], [])
  | n + 1, i :: rest =>
    if sel i then
      let r := dropItems sel n rest
      (r.1, i :: r.2)
    else
      let r := dropItems sel (n + 1) rest
      (i :: r.1, r.2)

/-- The newest `n` items of an open basket that `sel` selects, which a queue still held. -/
def Dev.queued (d : Dev) (sel : BItem → Bool) (x : BitVec 64 × Nat) : List BItem :=
  match d.merge.baskets.find? fun b => b.num == x.1.toNat && b.st == .open_ with
  | some b => (dropItems sel x.2 b.items.reverse).2
  | none => []

/-- A receive queue or slice input reset: of each open basket named, the newest `n` entries of the queue are discarded
and a C_QUEUE_RESET record placed (R295), which names the port `port`, or else the one port whose data the queue held, or all. -/
def Dev.resetSlice (d : Dev) (queue : Nat) (port : Option Nat) (sel : BItem → Bool) (lost : List (BitVec 64 × Nat)) : Dev :=
  let held := ((lost.flatMap fun x => (d.queued sel x).map BItem.port)).dedup
  let (all, p) := match port, held with
    | some p, _ => (false, p)
    | none, [p] => (false, p)
    | none, _ => (true, 0)
  forEach lost (fun x d => d.updBasket x.1.toNat fun b =>
    if b.st = .open_ then
      let r := dropItems sel x.2 b.items.reverse
      let hits := (r.2.filter BItem.isHit).length
      { b with items := r.1.reverse
               conc := b.conc ++ [extRecord 0xB (p * 2 ^ 37 + flag 36 all + queue * 2 ^ 33 + min hits (2 ^ 30 - 1))] }
    else b) d

/-- An egress queue reset: the fragments it held are discarded (R295); ring entries among them are not consumed (R168) and wait
for another datagram. -/
def Dev.resetEgress (d : Dev) (b : Fin 8) : Dev :=
  let e := d.egr b
  let n := e.queue.length
  let d := (((d.setEgr b { e with queue := [] }.refill).bump Reg.BE_EGR_RST b.val n).log 0xFF 0x0603 b.val n).freeSent
  let back := fun (r : RingEntry) => if e.queue.any fun f => f.entries.contains r.seq then { r with queued := false } else r
  { d with merge := { d.merge with ring := d.merge.ring.map back } }

end Sys2Proof.Machine
end

