-- ==== Sys2Proof/Machine/Calendar.lean ====
section
/-! DEFINITION. The calendar (R33 to R47): its banks, the occurrences of its entries, the conflict check, commits, and the
fast commands of a port on their way to its downlink (R43 to R46, R73, R196 to R201). -/

namespace Sys2Proof.Machine

/-! ### Banks (R33, R40) -/

/-- The shadow bank (R33). -/
def Dev.shadowBank (d : Dev) : Bank := fun a e => d.get a e

/-- The eight objects of an entry (R33). -/
def calObjects : List Nat :=
  [Reg.CAL_EN, Reg.CAL_SLOT, Reg.CAL_ACTION, Reg.CAL_EVERY, Reg.CAL_PHASE, Reg.CAL_PORTS, Reg.CAL_GROUPS, Reg.CAL_ARG]

/-- The shadow bank as it is stored with a commit. -/
def Dev.saveBank (d : Dev) : Tbl Nat := d.regs.filter fun e => calObjects.contains (e.1 / 2 ^ 16 % 2 ^ 24) && e.1 / 2 ^ 40 == 0xFF

/-- The device with a bank active. -/
def Dev.setBank (d : Dev) (b : Bank) : Dev :=
  forEach calObjects (fun a d => forRange 64 (fun e d => d.set (a + 0x300) e (b a e)) d) d

/-- Whether a CAL_ARG suits an action (R35). -/
def argOk (action arg : Nat) : Bool :=
  match action with
  | 0 => true
  | 1 => decide (arg < 4)
  | 2 | 3 => arg == 0
  | 4 => decide (1 ≤ arg % 2 ^ 16) && decide (arg < 2 ^ 17)
  | 5 => decide (arg < 16)
  | 6 | 7 => decide (1 ≤ arg) && decide (arg < 2 ^ 16)
  | _ => false

/-! ### The check of R41 -/

/-- The ports' fast commands of an entry, as slots in the cycle: a precision window counts at its raise and at its
end. -/
def Bank.positions (b : Bank) (len e : Nat) : List Nat :=
  let s := b Reg.CAL_SLOT e
  match b Reg.CAL_ACTION e with
  | 1 | 2 | 3 | 5 => [s % len]
  | 4 => [(s + 25 * len - 25) % len, (s + b Reg.CAL_ARG e % 2 ^ 16) % len]
  | _ => []

/-- How often a command at slot `y` of every cycle falls into the 64 slots from slot `x`. -/
def hitsIn (len x y : Nat) : Nat := let o := (y + len - x % len) % len; if o < 64 then (63 - o) / len + 1 else 0

/-- Whether the entry has a command on port `p` among more than 16 in some 64 consecutive slots (R41). -/
def Bank.crowded (b : Bank) (len p e : Nat) : Bool :=
  let on := (List.range 64).filter fun k => b.enabled k && bit (b Reg.CAL_PORTS k) p
  let all := on.flatMap fun k => b.positions len k
  let full := all.filter fun x => decide (16 < sumBy (hitsIn len x) all)
  on.contains e && (b.positions len e).any fun y => full.any fun x => hitsIn len x y != 0

/-- The first entry of a bank in conflict with a cycle length (R41). -/
def Bank.conflict (b : Bank) (len : Nat) : Option Nat :=
  (List.range 64).find? fun e => b.enabled e &&
    (decide (len ≤ b Reg.CAL_SLOT e) || decide (2 ^ b Reg.CAL_EVERY e ≤ b Reg.CAL_PHASE e)
      || (List.range 32).any fun p => b.crowded len p e)

/-! ### Windows on the concentrator (R35, R39, R338) -/

/-- The next window of the calendar on the concentrator, SCRUB_WINDOW or TRIGGER_WINDOW, whose slot has been reached. The
modes and banks of its cycle count from the boundary on, so it opens under them although their change is still due. -/
def Dev.nextWindow (d : Dev) : Option CalOcc :=
  leastBy CalOcc.key ((d.occurrences [6, 7] d.now).filter fun o => decide (d.grid.calKey ≤ o.key) && decide (o.at_ ≤ d.now))

/-- That window, when nothing is due before it at the boundary reached (item 5 of R15). -/
def Dev.windowDue (d : Dev) : Option CalOcc := if d.boundaryDue then none else d.nextWindow

/-- The device with a window of the calendar done. -/
def Dev.passWindow (d : Dev) (o : CalOcc) : Dev := { d with grid := { d.grid with calKey := o.key + 1 } }

/-! ### The fast commands of a port (R43 to R46, R196 to R198) -/

/-- A copy of `f` sent, or held by the limiter (R198, R365); `f` is the queue's member when it is one. The commands sent stand in
the order of their first copies. CMD_ID counts from 0 (log entry 173). -/
def Dev.sendCopy (d : Dev) (p : Port) (f : Fcmd) : Dev :=
  let c := d.port p
  let t := c.tokensNow d.now
  if t < f.tokens then
    if c.limited then d else (d.setPort p { c with limited := true }).fence p.val 6 0
  else
    let id := f.id.getD c.nextId
    let f' := { f with id := some id, copies := f.copies + 1 }
    let c := { c with tokens := t - f.tokens, tokensAt := d.now, limited := false
                      nextId := if f.id.isSome then c.nextId else (c.nextId + 1) % 256
                      cmds := if f.copies = 0 then c.cmds.erase f ++ [f'] else c.cmds.map fun x => if x = f then f' else x }
    (d.setPort p c).emit (.fcmd p.val id f.op (f.cycle % 256) f.slot)

/-- FCMD_ISSUE (R43 to R46, R197, R198, R542): the copy at the head of the order is sent on the active downlink, within the
window of R45 and when the limiter has its tokens; a LINKSTAT that is overdue takes the block opportunity instead. What waits behind
the copies follows. -/
def execFcmdIssue (p : Port) (s : State) : Result :=
  s.on fun d =>
    if !d.portUp p || d.statOverdue p then d
    else
      let d := d.feedInjects p
      match d.nextCopy p with
      | none => d
      | some (f, new) =>
        let d := if new then d.updPort p fun c => { c with calTo := f.target + 1, cmds := c.cmds ++ [f] } else d
        (d.sendCopy p f).sendOwed p

/-- Commands of a port of which no copy was sent in time (R198, R200): counted late, with the entry of R44. -/
def Dev.lateCommands (d : Dev) (p : Port) (n : Nat) : Dev :=
  if n = 0 then d else (d.bump Reg.CAL_LATE p.val n).log p.val 0x0401 d.grid.cycle n

/-- The commands of a port whose targets have passed leave its queue: those sent are counted for R201, the others
late (R198). -/
def Dev.passTargets (d : Dev) (p : Port) : Dev :=
  let c := d.port p
  let gone := c.cmds.filter fun f => decide (f.target ≤ d.now)
  let sent := sumBy (fun f => if f.copies = 0 then 0 else feCount f.op) gone
  let late := sumBy (fun f => if f.copies = 0 then f.tokens else 0) gone
  (d.setPort p { c with cmds := c.cmds.filter (fun f => decide (d.now < f.target)), counted := c.counted + sent }).lateCommands p late

/-- FCMD_TARGET_PASSED (R198, R200): commands whose target has passed unsent are late, as are the CAL commands held for
the mirror whose latest issue slot has passed. -/
def execFcmdTargetPassed (p : Port) (s : State) : Result :=
  s.on fun d =>
    let d := (if d.takesCmds p then d.feedInjects p else d).passTargets p
    let c := d.port p
    let d := match d.nextCal p with
      | [] => d
      | f :: rest =>
        let missed := d.takesCmds p && (decide (f.at_ ≤ d.now) || (c.holds f.at_ && decide (f.at_ < d.now + d.get Reg.CAL_LEAD)))
        if missed then (d.setPort p { c with calTo := f.at_ + 1 }).lateCommands p (rest.length + 1) else d
    d.sendOwed p

/-- MIRROR_LAG_DETECT (R200): 256 slots before the commit boundary a port that has not acknowledged the whole mirror is
flagged, once. -/
def execMirrorLagDetect (p : Port) (s : State) : Result :=
  s.on fun d =>
    let c := d.port p
    let w := d.get Reg.WP_STATUS p.val
    if c.mirrorAcked || bit w 11 || decide (d.now + 256 < c.mirrorBoundary) then d
    else (d.set Reg.WP_STATUS p.val (setBit w 11 true)).log p.val 0x0402 c.mirrorCycle

/-! ### Commits (R40, R41, R200) -/

/-- A bank's mirror sent to every enabled port, to take effect at a cycle (R200). -/
def Dev.sendMirror (d : Dev) (b : Bank) (cyc : Nat) : Dev :=
  let at_ := d.startOf cyc
  forEach allPorts (fun p d =>
    if d.get Reg.WP_EN p.val = 0 then d
    else
      d.queueMirror p b cyc at_) d

/-- CALENDAR_COMMIT (R40, R41): the shadow bank is checked; a conflict is refused with CAL_CONFLICT and named, else the
bank waits for the first boundary at least the mode lead ahead and its mirror goes to the ports. -/
def execCalendarCommit (w : Writer) (val : Bytes) (s : State) : Result :=
  s.on fun d => d.write w Reg.CAL_COMMIT 0 val fun d _ =>
    match d.shadowBank.conflict d.cycleLen with
    | some e =>
      let d := d.set Reg.CAL_REFUSED_AT 0 e
      (.calConflict, if d.grid.bankPend.isSome then d else d.set Reg.CAL_STATUS 0 2)
    | none =>
      let t := d.now + modeLead
      let d := { d with grid := { d.grid with bankPend := some (t, d.saveBank) } }.set Reg.CAL_STATUS 0 1
      (.accepted, d.sendMirror d.shadowBank (d.cyclePlus (d.boundaryAfter t)))

/-- CALENDAR_COMMIT_APPLY (R15, R40): at its boundary the pending bank becomes active, after the items of R15 and R250 that
go before it. -/
def execCalendarCommitApply (s : State) : Result :=
  s.on fun d =>
    match d.grid.bankPend with
    | none => d
    | some (t, b) =>
      if d.beforeCommits || d.routeDue || decide (d.grid.cycleStart < t) then d
      else
        let d := { d with grid := { d.grid with bankPend := none } }.setBank (bankOf b)
        (d.set Reg.CAL_STATUS 0 0).set Reg.CAL_COMMIT_CYC 0 d.grid.cycle

/-- CYCLE_LENGTH_WRITE (R45, R47, R258): in CONFIGURE, and RANGE for a length that the time pulses do not fit; the value governs the
grid from the next boundary and goes to every enabled front end. -/
def execCycleLengthWrite (w : Writer) (val : Bytes) (s : State) : Result :=
  s.on fun d => d.write w Reg.CYCLE_LEN 0 val fun d v =>
    if 127 * v < d.get Reg.CAL_LEAD ∨ !(d.set Reg.CYCLE_LEN 0 v).pulsesFit then refuse .range d
    else
      let d := d.set Reg.CYCLE_LEN 0 v
      (.accepted, forEach allPorts (fun p d =>
        if d.get Reg.WP_EN p.val = 0 then d
        else (d.updPort p fun (c : CPort) => { c with cycLenAcked := false }).cfgQueue p [d.cycleLenMsg]) d)

/-! ### Cycle boundaries (R22 to R27, R212, R256, R260) -/

/-- The cycle grid at slot 0 of a new cycle: its length is the value last written (R47), the standby time base takes its
copy (R260), the filtered delays apply (R212), a new length is loaded into the front ends that acknowledged it (R47), and
the synthesiser and the flywheel take stock (R254, R256). A forced
swap of the time bases due at the boundary goes first (R250). -/
def Dev.newCycle (d : Dev) (start cycle : Nat) : Dev :=
  let d := match d.tu.swapFrom with
    | some t => if t ≤ start then d.forcedSwap else d
    | none => d
  let d := { d with
    tu := { d.tu with copy := d.tb }
    grid := { d.grid with cycle := cycle, cycleStart := start, len := d.get Reg.CYCLE_LEN, nextFrame := 0 } }
  let d := forEach allPorts (fun p d => (if d.portUp p then d.applyDelay p else d).loadGrid p) d
  d.synthCheck.expectMarker

/-- Whether everything of the cycle in progress has begun: its frames, and the calendar's windows on the concentrator. -/
def Dev.cycleDone (d : Dev) : Bool :=
  decide (d.cycleEnd ≤ d.grid.cycleStart + 256 * d.grid.nextFrame) && d.nextWindow.isNone

/-- CYCLE_BOUNDARY (R24): the slot counter reaches the end of the cycle, at which no grid movement is due. -/
def execCycleBoundary (s : State) : Result :=
  s.on fun d =>
    let moves := match d.cut with
      | some (0, _) => true
      | _ => false
    if d.inReset || decide (d.now < d.cycleEnd) || !d.cycleDone || moves then d
    else d.newCycle d.cycleEnd (d.cyclePlus 1)

/-- Entries of the cycle in progress whose slot lies in what a movement cuts off (R27). -/
def Dev.cutEntries (d : Dev) (stop : Nat) : Nat :=
  let b := d.activeBank
  let (mode, _) := d.modeIn 0
  ((List.range 64).filter fun e =>
    b.runsIn e d.grid.cycle && actionRuns (b Reg.CAL_ACTION e) mode (d.get Reg.SNAP_IN_ACQ == 1)
      && decide (b Reg.CAL_SLOT e < d.grid.len) && decide (stop ≤ d.grid.cycleStart + b Reg.CAL_SLOT e)).length

/-- GRID_MOVE_APPLY (R26, R27, R253, R256, R257): the cycle in progress ends at the first boundary of the moved grid. Its
entries beyond are counted as skipped; a re-phase is counted, recorded and marked in the data, as is an alignment outside CONFIGURE. -/
def execGridMoveApply (s : State) : Result :=
  s.on fun d =>
    match d.cut with
    | some (0, m) =>
      if d.inReset || decide (d.now < m.at_) || !d.cycleDone then d
      else
        let d := d.bump Reg.CAL_SKIPPED 0 (d.cutEntries m.at_)
        let next := d.cyclePlus 1
        let d := { d with grid := { d.grid with move := none } }.newCycle m.at_ next
        if !m.record && !m.mark then d
        else
          let d := if m.record then (d.bump Reg.TB_REPHASE).log 0xFF 0x0308 m.delta d.grid.cycle (if m.synth then 1 else 0) else d
          { d with tu := { d.tu with stepRecord := d.tu.stepRecord ++ [(2, m.delta, (d.grid.cycleStart : Int))] } }
    | _ => d

end Sys2Proof.Machine
end

