-- ==== Sys2Proof/Machine/Memory.lean ====
section
/-! DEFINITION. The latency buffer (chapter 10): credits, trigger windows and decisions, read-out, pitches and their
scaling, scrubbing, the memory code and diagnostic mode. -/

namespace Sys2Proof.Machine

/-! ### Credits (R192, R317) -/

/-- The conditions of R317 for a credit to a port's lane. -/
def Dev.creditOk (d : Dev) (p : Port) : Bool :=
  let k := d.stallOf p.val
  let rsv := d.get Reg.ST_RSV k * 1024
  let room := decide (d.rsvUsed k + 1024 ≤ rsv)
  match d.mode with
  | .gated => room
  | .stream | .sentinel | .calibrate | .snapshot =>
    room && decide (d.stored k + rsv ≤ min (d.effBytes k) (d.get Reg.MEM_STAGE_LIM * 2 ^ 20)) && !d.overPitch k
  | .boot | .safe | .configure | .loopback => false

/-- CREDIT_GRANT (R192, R317): one credit to a logical lane, when the stall's conditions allow it and the lane holds fewer
than 128. -/
def execCreditGrant (p : Port) (l : Lane) (s : State) : Result :=
  s.on fun d =>
    let c := d.port p
    let ln := c.lanes[l.val]
    if d.portUp p && (c.ul (mapOf (d.laneMap p) l.val)).up && decide (ln.outstanding < 128) && d.creditOk p then
      d.setPort p { c with lanes := c.lanes.set l.val { ln with credit := (ln.credit + 1) % 256, statOwed := true } }
    else d

/-! ### Windows (R326 to R330) -/

/-- A window enters the table (R330): refused when it is full; one whose start lies in a frame already decided is late; one
whose last frame is decided leaves at once. -/
def Dev.openWindow (d : Dev) (start : Int) (width tag : Nat) : Dev :=
  if 1024 ≤ d.mem.windows.length then
    (d.bump Reg.TRG_REFUSED).log 0xFF 0x0703 d.grid.cycle 1
  else
    let late := decide ((d.mem.gatedFrom : Int) ≤ start) && decide (start < d.mem.decidedTo)
    let d := d.bump Reg.TRG_OPENED
    let d := if late then d.bump Reg.TRG_LATE else d
    let ws := if start + width ≤ d.mem.decidedTo then d.mem.windows
      else d.mem.windows ++ [{ start := start, width := width, tag := tag }]
    { d with mem := { d.mem with windows := ws } }.set Reg.TRG_WFILL 0 ws.length

/-- PIN_TRIGGER (R327): an edge that stayed high for Trigger Filter slots up to the current one opens a window at its
position plus Trigger Offset. -/
def execPinTrigger (i : Fin 2) (s : State) : Result :=
  s.on fun d =>
    if d.mode ≠ .gated ∨ d.get Reg.TRG_PIN_EN i.val ≠ 1 then d
    else
      let d := d.wrap Reg.TRG_PIN_CNT i.val
      let edge : Int := (d.now : Int) - d.get Reg.TRG_FILTER i.val
      let tag := 2 * 2 ^ 30 + i.val * 2 ^ 29 + d.get Reg.TRG_PIN_CNT i.val % 2 ^ 24
      d.openWindow (edge + d.getI Reg.TRG_OFFSET i.val) (d.get Reg.TRG_WIDTH i.val) tag

/-- TRIGGER_WINDOW_OPEN (R35, R328): the calendar's window, in its place among the actions of its slot. -/
def execTriggerWindowOpen (s : State) : Result :=
  s.on fun d =>
    match d.windowDue with
    | some o =>
      if o.action = 7 then
        (d.passWindow o).openWindow o.at_ o.arg (3 * 2 ^ 30 + o.entry * 2 ^ 24 + o.cycle % 2 ^ 24)
      else d
    | none => d

/-! ### Decisions (R325, R330 to R333) -/

/-- Whether a window overlaps a basket's frame (R326). -/
def Window.overlaps (w : Window) (b : Basket) : Bool := decide (w.start < b.stop) && decide ((b.start : Int) < w.start + w.width)

/-- The TRIGGER_TAG of a basket (R326): that of the overlapping window of earliest start, then lowest tag. -/
def Dev.tagOf (d : Dev) (b : Basket) : Option Nat :=
  let ws := d.mem.windows.filter fun w => w.overlaps b
  (leastBy (fun (w : Window) => (w.start + 2 ^ 80).toNat * 2 ^ 32 + w.tag) ws).map Window.tag

/-- The frame of a basket decided: its ring entries go with it (R168), and what stays known of it. -/
def Dev.decideFrame (d : Dev) (key : Nat) (sel : Bool) : Dev :=
  let frames := d.merge.frames.map fun (f : FrameInfo) => if f.key = key ∧ f.gated then { f with decided := some sel } else f
  let ring := if sel then
      d.merge.ring.map fun r => if r.key = key ∧ ¬ r.ready then { r with ready := true, at_ := d.now } else r
    else d.merge.ring.filter fun r => r.key != key
  { d with merge := { d.merge with frames := frames } }.setRing ring

/-- A held basket that no window covers is freed and counted (R325). -/
def Dev.expire (d : Dev) (b : Basket) : Dev :=
  ((d.decideFrame (b.cycle * 4096 + b.frame) false).bump Reg.TRG_EXPIRED).freeBasket b.num

/-- The windows whose last frame has been decided leave the table (R330). -/
def Dev.pruneWindows (d : Dev) (stop : Nat) : Dev :=
  let to_ := max d.mem.decidedTo stop
  let ws := d.mem.windows.filter fun w => decide ((to_ : Int) < w.start + w.width)
  { d with mem := { d.mem with decidedTo := to_, windows := ws } }.set Reg.TRG_WFILL 0 ws.length

/-- The baskets of GATED that are not decided. -/
def Dev.undecided (d : Dev) : List Basket :=
  d.merge.baskets.filter fun b => b.mode == .gated && (b.st == .open_ || b.st == .closed || b.st == .held)

/-- Out of GATED, once no basket is left to decide, every window's last frame is past: the table empties (R330, R333). -/
def Dev.dropWindows (d : Dev) : Dev :=
  if d.mode = .gated ∨ ¬ d.undecided.isEmpty then d
  else { d with mem := { d.mem with windows := [] } }.set Reg.TRG_WFILL 0 0

/-- DECISION_POINT (R325, R332, R333): the lowest undecided basket, when the basket a hold time after it has opened and it
has been released; at Read-out Backlog Limit decisions pause. In CONFIGURE and SAFE every held basket expires. -/
def execDecisionPoint (s : State) : Result :=
  s.on fun d =>
    match d.undecided.head? with
    | none => d.dropWindows
    | some b =>
      let frozen := d.mode == .configure || d.mode == .safe
      let due := frozen || decide (2 ^ 64 ≤ b.num) || decide (b.num + d.get Reg.TRG_HOLD_EFF + 1 ≤ d.merge.next)
      if b.st ≠ .held ∨ ¬ due then d
      else if frozen then (d.expire b).dropWindows
      else if d.get Reg.TRG_BACKLOG ≤ d.get Reg.TRG_BACKLOG_NOW then
        { d with mem := { d.mem with pauseFrom := d.mem.pauseFrom.or (some d.now) } }
      else
        let d := match d.tagOf b with
          | some t =>
            let d := d.updBasket b.num fun b => { b with st := .selected, tag := t }
            let n := d.get Reg.TRG_BACKLOG_NOW + 1
            let d := ((d.decideFrame (b.cycle * 4096 + b.frame) true).bump Reg.TRG_SELECTED).set Reg.TRG_BACKLOG_NOW 0 n
            if d.get Reg.TRG_BACKLOG ≤ n then
              { d with mem := { d.mem with pauseFrom := d.mem.pauseFrom.or (some d.now) } }
            else d
          | none => d.expire b
        (d.pruneWindows b.stop).dropWindows

/-! ### Read-out (R331, R336) -/

/-- A byte string with the 8-byte words of a list sent as zeros. -/
def zeroWords (ws : List Nat) (bs : Bytes) : Bytes := ws.foldl (fun bs w => zeroWord w bs) bs

/-- The body of a basket read from the latency buffer (R331, R336): uncorrectable hit entries are dropped and structure
words sent as zeros, and a MEMORY_LOSS record tells of them. -/
def Basket.readBody (b : Basket) (fw node : Nat) (bad : List ReadWord) : Bytes :=
  let hits := b.hitEntries
  let lostHits := (bad.filterMap fun w => match w with
    | .hit i => if i < hits.length then some i else none
    | .index .. | .summary _ | .record _ => none).dedup
  let recs := b.recordEntries
  let lostRecs := bad.filterMap fun w => match w with
    | .record i => if i < recs.length then some i else none
    | .index .. | .summary _ | .hit _ => none
  let words := bad.filterMap fun w => match w with
    | .index i true => some i
    | .index .. | .summary _ | .record _ | .hit _ => none
  let sums := bad.filterMap fun w => match w with
    | .summary i => some i
    | .index .. | .record _ | .hit _ => none
  let struct_ := !(lostRecs.isEmpty && words.isEmpty && sums.isEmpty)
  let recs := recs.zipIdx.map fun x => if lostRecs.contains x.2 then 0 else x.1
  let loss := 0xFFFF * 2 ^ 48 + (extRecord 0xA (flag 41 struct_ + lostHits.length)).toNat
  let recs := if struct_ || !lostHits.isEmpty then recs.take b.conc.length ++ [loss] ++ recs.drop b.conc.length else recs
  let hits := (hits.zipIdx.filter fun x => !lostHits.contains x.2).map Prod.fst
  let head := b.header fw node recs hits
  let n := head.length / 8
  let sumBytes := b.summaries
  let m := sumBytes.length / 8
  zeroWords (words.filter fun w => decide (w < n)) head
    ++ zeroWords (((words.filter fun w => decide (n ≤ w ∧ w < n + m)).map fun w => w - n) ++ sums.filter fun w => decide (w < m)) sumBytes
    ++ recs.flatMap (beBytes 8) ++ hits.flatMap (beBytes 8)

/-- The block that holds the entry `j` of a port, given where the port's entries lie. -/
def blockOf : List Home → Nat → Option Nat
  | [], _ => none
  | h :: rest, j => if j < h.count then some h.block else blockOf rest (j - h.count)

/-- The items of a basket, each with whether its block counts as uncorrectable (R344, R345). -/
def Dev.goneItems (d : Dev) (b : Basket) : List (BItem × Bool) :=
  b.items.zipIdx.map fun x =>
    let mine := fun (i : BItem) => i.port == x.1.port
    let j := ((b.items.take x.2).filter mine).length
    (x.1, match blockOf (b.homes.filter fun h => h.port == x.1.port) j with
      | some k => d.blockLost k
      | none => false)

/-- The words of a basket that are read as uncorrectable without an access (R344, R345): the entries in such blocks, and the index
words when both copies lie in such blocks. -/
def Dev.goneWords (d : Dev) (b : Basket) : List ReadWord :=
  let items := d.goneItems b
  let order := fun (l : List (Nat × Bool)) => (l.insertionSort fun x y => x.1 ≤ y.1).zipIdx.filterMap fun x => if x.1.2 then some x.2 else none
  let hits := order (items.filterMap fun x => match x.1 with
    | .hit p _ c t _ _ => some (hitOrder p c t, x.2)
    | .other .. => none)
  let recs := order (items.filterMap fun x => match x.1 with
    | .hit .. => none
    | .other p _ r => some (p * 2 ^ 90 + recordOrder r, x.2))
  let index := if !b.index.isEmpty && b.index.all d.blockLost then (List.range 128).map fun i => ReadWord.index i true else []
  index ++ hits.map ReadWord.hit ++ recs.map fun i => ReadWord.record (i + b.conc.length)

/-- GATED_READOUT (R331, R332): the first selected basket is read, rebuilt and offered to its egress queue; `bad` names the
faulty words the read found, beside those of blocks that count as uncorrectable (R344). A read-out that brings the backlog below its limit ends a pause of decisions. -/
def execGatedReadout (bad : List (ReadWord × BadWord)) (s : State) : Result :=
  s.on fun d =>
    match d.merge.baskets.find? fun b => b.st == .selected with
    | none => d
    | some b =>
      let lost := (bad.filter fun x => d.losesWord x.2).map Prod.fst ++ d.goneWords b
      match d.offer b (b.readBody (d.get Reg.BE_FW_VER) (d.get Reg.COM_NODE) lost) true with
      | none => d
      | some d =>
        let d := forEach bad (fun x d => d.memFault x.2) d
        let n := d.get Reg.TRG_BACKLOG_NOW - 1
        let d := (d.set Reg.TRG_BACKLOG_NOW 0 n).syncStalls
        match d.mem.pauseFrom with
        | some t =>
          if n < d.get Reg.TRG_BACKLOG then
            { d with mem := { d.mem with pauseFrom := none } }.bump Reg.TRG_PAUSE 0 (d.now - t)
          else d
        | none => d

/-! ### Scrubbing (R336, R338, R339) -/

/-- The scrubber's own cap in MB/s (R338). -/
def Dev.scrubCap (d : Dev) : Nat := if d.mem.scrubUntil.isSome then d.get Reg.SCR_WIN_RATE else d.get Reg.SCR_RATE

/-- The bytes the scrubber may have read by now, in units of 1 / TB_FNOM byte: its rate is the smaller of its cap and the
governor's permit (R13, R338). Every change of the rate is preceded by it. -/
def Dev.payScrub (d : Dev) : Dev :=
  let rate := min d.scrubCap (d.get Reg.GV_SCRUB_PERMIT)
  { d with mem := { d.mem with scrubPaid := d.mem.scrubPaid + rate * 1000 * (d.now - d.mem.scrubAt), scrubAt := d.now } }

/-- SCRUB_WINDOW_OPEN (R35, R338): the calendar's scrub window, in its place among the actions of its slot. -/
def execScrubWindowOpen (s : State) : Result :=
  s.on fun d =>
    match d.windowDue with
    | some o =>
      if o.action = 6 then
        let until_ := max (d.mem.scrubUntil.getD 0) (o.at_ + o.arg)
        let d := (d.passWindow o).payScrub
        { d with mem := { d.mem with scrubUntil := some until_ } }.set Reg.SCR_STATUS 0 (setBit (d.get Reg.SCR_STATUS) 1 true)
      else d
    | none => d

/-- The scrub window in progress ends. -/
def Dev.endScrub (d : Dev) : Dev :=
  let d := d.payScrub
  { d with mem := { d.mem with scrubUntil := none } }.set Reg.SCR_STATUS 0 (setBit (d.get Reg.SCR_STATUS) 1 false)

/-- SCRUB_WINDOW_END (R338): the window's duration has passed. -/
def execScrubWindowEnd (s : State) : Result :=
  s.on fun d =>
    match d.mem.scrubUntil with
    | some t => if t ≤ d.now then d.endScrub else d
    | none => d

/-- The Scrub Status word with GOVERNED (R348, R364): the governor's permit holds the scrubber below its own cap. -/
def Dev.scrubStatus (d : Dev) : Nat :=
  setBit (d.get Reg.SCR_STATUS) 2 (decide (d.get Reg.GV_SCRUB_PERMIT < d.scrubCap))

/-- Words of external memory ahead of a place in the order of a lap (R338): channel by channel, in address order. -/
def Dev.wordsBefore (d : Dev) (chan addr : Nat) : Nat :=
  sumBy (fun m => if m < chan then d.get Reg.MEM_CH_SIZE m * 2 ^ 17 else 0) d.onlineChans + addr

/-- Whether the scrubber may have come `words` words into its lap. -/
def Dev.scrubReached (d : Dev) (words : Nat) : Bool := decide (8 * words * d.get Reg.TB_FNOM ≤ d.mem.scrubPaid)

/-- SCRUB_READ (R13, R336, R338): the scrubber comes to a word of external memory, in the order of its lap and no sooner than its
rate lets it, or to one of the SRAM, and handles a fault that it finds. In SAFE the channels are in self-refresh and are not read
(R492). An uncorrectable SRAM word is SRAM_WORD_UNCORRECTABLE. -/
def execScrubRead (word : ScrubWord) (s : State) : Result :=
  s.on fun d =>
    match word with
    | .external x =>
      let d := d.payScrub
      let m := x.chan.val
      let addr := x.block.toNat * 2 ^ 18 + x.word.toNat
      let place := m * 2 ^ 32 + addr
      if d.mode = .safe ∨ d.get Reg.MEM_CH_STATE m ≠ 2 ∨ d.get Reg.MEM_CH_SIZE m * 2 ^ 17 ≤ addr ∨ place < d.mem.scrubPos
          ∨ ¬ d.scrubReached (d.wordsBefore m addr + 1) then d
      else { d with mem := { d.mem with scrubPos := place + 1 } }.memFault x
    | .sram bits =>
      if codeFault (bits.toNat / 2 ^ 8) (bits.toNat % 2 ^ 8) = some .corrected then d.bump Reg.ECC_SRAM_COR else d

/-- SCRUB_LAP_END (R339): a lap of external memory ends, no sooner than the scrubber's rate lets it, or with `sram` one of the
SRAM; its duration is stored, and one within Lap Limit clears LAP_LATE. -/
def execScrubLapEnd (sram : Bool) (s : State) : Result :=
  s.on fun d =>
    if sram then
      let ms := (d.now - d.mem.sramLapFrom) / d.get Reg.TB_FNOM
      { d with mem := { d.mem with sramLapFrom := d.now } }.set Reg.SCR_SRAM_LAP 0 (min ms (2 ^ 32 - 1))
    else if !d.payScrub.scrubReached (d.wordsBefore 8 0) then d.payScrub
    else
      let d := d.payScrub
      let n := d.now - d.mem.lapFrom
      let d := { d with mem := { d.mem with lapFrom := d.now, scrubPos := 0, scrubPaid := 0 } }.set Reg.SCR_LAP 0 (n / d.second)
      let d := d.bump Reg.SCR_LAPS
      if n ≤ d.get Reg.SCR_LAP_LIMIT * d.second then d.set Reg.SCR_STATUS 0 (setBit (d.get Reg.SCR_STATUS) 0 false) else d

/-- LAP_LIMIT_EXCEEDED (R339): the lap in progress runs past Lap Limit. -/
def execLapLimitExceeded (s : State) : Result :=
  s.on fun d =>
    let n := d.now - d.mem.lapFrom
    if n ≤ d.get Reg.SCR_LAP_LIMIT * d.second || bit (d.get Reg.SCR_STATUS) 0 then d
    else (d.set Reg.SCR_STATUS 0 (setBit (d.get Reg.SCR_STATUS) 0 true)).log 0xFF 0x0704 (n / d.second)

/-! ### Pitches (R320 to R323, R344) -/

/-- STALL_PITCH_WRITE (R320, R323): a write of Stall Capacity, or with `bw` of Stall Bandwidth, of one stall or of all but
the INDEX stall; refused when the configured sums would exceed what R320 allows. -/
def execStallPitchWrite (w : Writer) (bw : Bool) (k : BitVec 16) (val : Bytes) (s : State) : Result :=
  s.on fun d =>
    let a := if bw then Reg.ST_BW else Reg.ST_CAP
    if k.toNat = 2 then d.answer w (if d.mode = .safe then .wrongMode else .access)
    else d.write w a k.toNat val fun d v =>
      let ks := if k.toNat = 0xFFFF then (List.range 64).filter fun k => k != 2 else [k.toNat]
      let after := forEach ks (fun k d => d.set a k v) d
      if !bw && v % 2 == 1 then refuse .range d
      else if (if bw then 307000 else d.get Reg.MEM_USABLE) < after.stallSum a then refuse .pitchOvercommit d
      else (.accepted, after.rescale)

/-- The scaling recomputed and recorded with its cause (R321, R322). -/
def Dev.scaleNow (d : Dev) (cause : Nat) : Dev :=
  let was := d.mem.scaled
  let d := d.rescale
  let d := { d with mem := { d.mem with scaled := d.anyScaled } }
  if d.mem.scaled || was then d.log 0xFF 0x0701 cause (d.get Reg.MEM_BW_AVAIL) (d.get Reg.MEM_USABLE) else d

/-- PITCH_SCALING (R321): at the slot after memory became scarce the stalls are scaled. -/
def execPitchScaling (s : State) : Result :=
  s.on fun d =>
    match d.mem.scaleAt with
    | some (t, cause) => if t ≤ d.now then { d with mem := { d.mem with scaleAt := none } }.scaleNow cause else d
    | none => d

/-- PITCH_RESTORE (R322): at the cycle boundary after memory rose again the scaling is recomputed. -/
def execPitchRestore (s : State) : Result :=
  s.on fun d =>
    match d.mem.restoreAt with
    | some t => if t ≤ d.grid.cycleStart then { d with mem := { d.mem with restoreAt := none } }.scaleNow 3 else d
    | none => d

/-- MEMORY_CHANNEL_OFFLINE (R344): an ONLINE channel fails retraining (0), has given more than 16 uncorrectable words
within 1 s (1), or shows a fault in its PHY (2); scaling follows at the next slot. -/
def execMemoryChannelOffline (m : Fin 8) (cause : Fin 3) (s : State) : Result :=
  s.on fun d =>
    let recent := (d.mem.uncTimes[m].filter fun t => decide (d.now < t + d.ms 1000)).length
    if d.get Reg.MEM_CH_STATE m.val ≠ 2 || (cause == 1 && decide (recent ≤ 16)) then d
    else
      let d := (d.set Reg.MEM_CH_STATE m.val 3).log 0xFF 0x0706 m.val cause.val
      let d := (d.set Reg.MEM_ONLINE 0 (maskOf d.onlineChans)).set Reg.MEM_USABLE 0 d.usableMiB
      { d with mem := { d.mem with scaleAt := some (d.now + 1, 0) } }

/-! ### Diagnostic mode (R342) -/

/-- The word a diagnostic location holds after the self-test's initialisation (R341): zero data, its CHECK, EPOCH 0 and the
address parity; SRAM has no tag. `k` is target × 2¹⁸ + address. -/
def diagDflt (k : Nat) : RawWord := { tag := if 8 ≤ k / 2 ^ 18 then 0 else addrParity (k % 2 ^ 18) }

/-- The location that the diagnostic objects name. -/
def Dev.diagKey (d : Dev) : Nat := d.get Reg.ECC_DIAG_CH * 2 ^ 18 + d.get Reg.ECC_DIAG_ADDR

/-- The word there. -/
def Dev.diagWord (d : Dev) : RawWord := tblRead diagDflt d.mem.diag d.diagKey

/-- Diagnostic Data, Check and Tag loaded from a word. -/
def Dev.loadDiag (d : Dev) (x : RawWord) : Dev :=
  ((d.set Reg.ECC_DIAG_DATA 0 x.data).set Reg.ECC_DIAG_CHK 0 x.check).set Reg.ECC_DIAG_TAG 0 x.tag

/-- Whether diagnostic mode reaches the target it names: the SRAM area, or the diagnostic block of a channel that is ONLINE; one that
is absent, failed or offline is not accessed (R308, R341, R344). -/
def Dev.diagReaches (d : Dev) : Bool := d.get Reg.ECC_DIAG_CH == 8 || d.get Reg.MEM_CH_STATE (d.get Reg.ECC_DIAG_CH) == 2

/-- The word that a diagnostic read finds: that of the location, or a free one where there is no access. -/
def Dev.diagRead (d : Dev) : RawWord × Dev :=
  if d.diagReaches then (d.diagWord, d)
  else
    let (r, d) := d.draw
    ({ data := r % 2 ^ 64, check := r / 2 ^ 64 % 256, tag := r / 2 ^ 72 % 256 }, d)

/-- A Diagnostic Command: WRONG_MODE unless diagnostic mode is enabled; RANGE when the address lies outside the target. -/
def Dev.diagCommand (d : Dev) (w : Writer) (code : Nat) (f : Dev → Dev) : Dev :=
  d.write w Reg.ECC_DIAG_CMD 0 (beBytes 1 code) fun d _ =>
    if d.get Reg.ECC_DIAG_EN ≠ 1 then refuse .wrongMode d
    else if d.get Reg.ECC_DIAG_CH = 8 ∧ 8191 < d.get Reg.ECC_DIAG_ADDR then refuse .range d
    else (.accepted, f d)

/-- DIAGNOSTIC_ENABLE (R342): a guarded write, accepted only in CONFIGURE and CALIBRATE. -/
def execDiagnosticEnable (w : Writer) (val : Bytes) (s : State) : Result :=
  s.on fun d => d.write w Reg.ECC_DIAG_EN 0 val fun d v =>
    if d.mode = .configure ∨ d.mode = .calibrate then (.accepted, d.set Reg.ECC_DIAG_EN 0 v) else refuse .wrongMode d

/-- DIAGNOSTIC_WRITE_RAW (R342): command 1. -/
def execDiagnosticWriteRaw (w : Writer) (s : State) : Result :=
  s.on fun d => d.diagCommand w 1 fun d =>
    let x : RawWord :=
      { data := d.get Reg.ECC_DIAG_DATA, check := d.get Reg.ECC_DIAG_CHK
        tag := if d.get Reg.ECC_DIAG_CH = 8 then 0 else d.get Reg.ECC_DIAG_TAG }
    if d.diagReaches then { d with mem := { d.mem with diag := tblWrite diagDflt d.mem.diag d.diagKey x } } else d

/-- DIAGNOSTIC_READ_RAW (R342): command 2. -/
def execDiagnosticReadRaw (w : Writer) (s : State) : Result :=
  s.on fun d => d.diagCommand w 2 fun d =>
    let (x, d) := d.diagRead
    d.loadDiag x

/-- DIAGNOSTIC_READ_CHECKED (R342): command 3, through the checker. The corrected bit position is a free value when no data
bit was corrected. -/
def execDiagnosticReadChecked (w : Writer) (s : State) : Result :=
  s.on fun d => d.diagCommand w 3 fun d =>
    let (x, d) := d.diagRead
    let syn := x.check ^^^ secdedCheck x.data
    let sram := d.get Reg.ECC_DIAG_CH == 8
    let tagBad := !sram && x.tag != addrParity (d.get Reg.ECC_DIAG_ADDR)
    let (any, d) := d.draw
    let res := readSyndrome syn
    let (code, at_, data) := match res with
      | .correct => (0, any, x.data)
      | .checkBit => (1, any, x.data)
      | .dataBit i => (1, i, x.data ^^^ 2 ^ i)
      | .uncorrectable => (2, any, x.data)
    let (code, at_, data) := if tagBad then (3, any, x.data) else (code, at_, data)
    (d.loadDiag { x with data := data }).set Reg.ECC_DIAG_RES 0 (syn * 256 + code * 64 + at_ % 64)

end Sys2Proof.Machine
end

