-- ==== Sys2Proof/Machine/Governor.lean ====
section
/-! DEFINITION. The energy and thermal governor (chapter 11): thermal states, caddies, the granting of raises, wakes,
the gates of the concentrator, and the fence's trips and bias limits. -/

namespace Sys2Proof.Machine

/-- Commands that bring every group of a port from the levels of `old` to those now due, at the governor's target, and the
commands on their way to later slots to the levels due there. -/
def Dev.regate (d : Dev) (p : Port) (old : Dev) : Dev :=
  let t := d.target p
  let cs := (List.range 16).filterMap fun g =>
    let l := d.levelAt p g t
    if l = old.levelAt p g t then none else some (g, l, t)
  if d.takesCmds p then (d.biasAll p false cs).rebias p t false else d

/-! ### Costs and commitments (R355, R356) -/

/-- The regions of a group, as the Keeper's mirror has them. -/
def Dev.groupSize (d : Dev) (p : Port) (g : Nat) : Nat :=
  ((List.range 256).filter fun r => field (d.mir p Reg.FE_RG_ANA r) 15 12 == g).length

/-- The predicted cost of a raise in nJ (R356), from the levels it rises from and the slots at each. -/
def Dev.cost (d : Dev) (p : Port) (g level : Nat) (steps : List (Nat × Nat)) : Rat :=
  let n := sumBy (fun x => (levelPower level - levelPower x.1) * x.2) steps
  ((16 * d.groupSize p g * n : Nat) : Rat) / (d.get Reg.TB_FNOM : Nat)

/-- The levels of a group over the slots from `from_` to `stop`, each with its slots, as the raises already granted make them: a
raise costs only the step from the level the group has (R356). -/
def Dev.stepsOf (d : Dev) (p : Port) (g from_ stop : Nat) : List (Nat × Nat) :=
  let ends := (d.raisesOf p g).flatMap fun r => [r.start, d.stopOf r]
  let cuts := ((from_ :: ends.filter fun t => decide (from_ < t ∧ t < stop)).dedup.insertionSort (· ≤ ·)) ++ [stop]
  (cuts.zip cuts.tail).map fun x => (d.levelAt p g x.1, x.2 - x.1)

/-- What remains of a raise's cost: released in proportion to the time run (R356). -/
def Dev.remaining (d : Dev) (p : Port) (r : Raise) : Rat :=
  let left := r.stop - max d.now r.start
  if r.stop ≤ r.start then 0 else d.cost p r.group r.level r.steps * (left : Nat) / ((r.stop - r.start : Nat) : Rat)

/-- The commitment C of a port (R355). -/
def Dev.committed (d : Dev) (p : Port) : Rat :=
  (d.gov.raises.filter fun r => r.port == p.val).foldl (fun a r => a + d.remaining p r) 0

/-- A caddy of the governor: 0 to 31 the front ends', 32 LOGIC, 33 SERDES, 34 MEMORY. -/
def Dev.caddy (d : Dev) (i : Nat) : Caddy := d.gov.caddies.toList.getD i {}

/-- The device with a caddy replaced. -/
def Dev.setCaddy (d : Dev) (i : Nat) (c : Caddy) : Dev :=
  { d with gov := { d.gov with caddies := Vector.ofFn fun k => if k.val = i then c else d.gov.caddies[k] } }

/-- A caddy after 1,024 slots at a power in mW (R355): balance in nJ. -/
def Dev.fillCaddy (d : Dev) (c : Caddy) (budget power depth : Nat) : Caddy :=
  let gain : Rat := (((budget : Int) - power) * 1024000 : Int) / ((d.get Reg.TB_FNOM : Nat) : Rat)
  let lim : Rat := (depth * 1000 : Nat)
  { c with bal := max (-lim) (min lim (c.bal + gain)), at_ := d.now }

/-- Whether a caddy is EMPTY after an update (R357). -/
def Dev.emptyAfter (d : Dev) (c : Caddy) (depth : Nat) : Bool :=
  if c.empty then !decide (((depth * 1000 * d.get Reg.GV_RESUME : Nat) : Rat) ≤ c.bal * 100) else decide (c.bal < 0)

/-- Every raise of a port ended early, its commitment released. -/
def Dev.dropRaises (d : Dev) (p : Port) : Dev :=
  { d with gov := { d.gov with raises := d.gov.raises.filter fun r => r.port != p.val } }

/-- The update of a port's caddy (R355, R357): EMPTY lowers every raised group to rest and counts it. -/
def Dev.updateCaddy (d : Dev) (p : Port) (power : Nat) : Dev :=
  let depth := d.get Reg.GV_FE_DEPTH p.val
  let c := d.fillCaddy (d.caddy p.val) (d.get Reg.GV_FE_BUDGET p.val) power depth
  let now_ := d.emptyAfter c depth
  let d' := (d.setCaddy p.val { c with empty := now_ }).setI Reg.GV_FE_BAL p.val c.bal.floor
  let d' := d'.set Reg.GV_FE_CSTAT p.val (setBit (d'.get Reg.GV_FE_CSTAT p.val) 0 now_)
  if now_ && !c.empty then
    let raised := (List.range 16).filter fun g => decide (d'.restAt p g d'.now < d'.levelAt p g (d'.target p))
    let d := d'.log p.val 0x0803 p.val c.bal.floor
    let d := forEach raised (fun g d => d.bump Reg.GV_REFUSED (p.val * 16 + g)) d
    (d.dropRaises p).regate p d'
  else d'

/-! ### Thermal states (R352 to R354) -/

/-- A threshold of the states in 0.125 °C: 1 WARM, 2 HOT, 3 CRITICAL. -/
def Dev.threshold (d : Dev) (s : Nat) : Int :=
  8 * match s with | 1 => d.getI Reg.GV_T_WARM | 2 => d.getI Reg.GV_T_HOT | _ => d.getI Reg.GV_T_CRIT

/-- Whether a condition has held for Steep Time. -/
def Dev.steepSince (d : Dev) (t : Option Nat) : Bool :=
  match t with
  | some t => decide (t + d.ms (d.get Reg.GV_STEEP) ≤ d.now)
  | none => false

/-- The conditions of R352 after an evaluation at a temperature in 0.125 °C. -/
def Dev.watch (d : Dev) (x : Die) (temp : Int) : Die :=
  let keep := fun (c : Bool) (t : Option Nat) => if c then t.or (some d.now) else none
  { x with rise := Vector.ofFn fun i => keep (decide (d.threshold (i.val + 1) ≤ temp)) x.rise[i]
           fall := keep (decide (0 < x.state) && decide (temp ≤ d.threshold x.state - 8 * d.get Reg.GV_T_HYST)) x.fall
           evalAt := d.now }

/-- The device with a die replaced, and its state shown. -/
def Dev.setDie (d : Dev) (i : Nat) (x : Die) : Dev :=
  let d := { d with gov := { d.gov with dies := Vector.ofFn fun k => if k.val = i then x else d.gov.dies[k] } }
  d.set Reg.GV_TSTATE i (if x.trip then 4 else x.state)

/-- The source of a die's ledger records. -/
def dieSource (i : Nat) : Nat := if i < 32 then i else 0xFF

/-- A change of a die's state (R353): counted, recorded, and with Flap Count changes in Flap Window the start of a hold at
the highest state among them. -/
def Dev.changeState (d : Dev) (i new : Nat) (temp : Int) : Dev :=
  let x := d.gov.dies.toList.getD i {}
  let d := (d.bump Reg.GV_TCHANGES i).log (dieSource i) 0x0801 i x.state new
  let old := x.changes.filter fun c => decide (d.now < c.1 + d.second * d.get Reg.GV_FLAP_WIN)
  let changes := ((d.now, x.state, new) :: old).take 16
  let x := { x with state := new, fall := none, changes := changes }
  let x := d.watch x temp
  if d.get Reg.GV_FLAP_N ≤ changes.length then
    let top : Nat := changes.foldl (fun m c => max m (max c.2.1 c.2.2)) 0
    let d := (d.bump Reg.GV_FLAPS i).log (dieSource i) 0x0802 i top
    let held := { x with state := top, fall := none, hold := some (d.now + d.second * d.get Reg.GV_FLAP_HOLD, top), changes := [] }
    d.setDie i (d.watch held temp)
  else d.setDie i x

/-- The changes R352 and R353 call for after an evaluation. -/
def Dev.settleState (d : Dev) (i : Nat) (temp : Int) : Dev :=
  let x := d.gov.dies.toList.getD i {}
  let up := ([3, 2, 1] : List Nat).find? fun s => decide (x.state < s) && d.steepSince (x.rise.toList.getD (s - 1) none)
  match up with
  | some s => d.changeState i s temp
  | none => if x.hold.isNone && d.steepSince x.fall then d.changeState i (x.state - 1) temp else d

/-- The evaluation of a die (R352). -/
def Dev.evaluate (d : Dev) (i : Nat) (temp : Int) : Dev :=
  let d := d.setI Reg.GV_TEMP i temp
  (d.setDie i (d.watch (d.gov.dies.toList.getD i {}) temp)).settleState i temp

/-- The raises of a port cut to what its die's state allows (R354). -/
def Dev.capRaises (d : Dev) (p : Port) : Dev :=
  let cap := stateCap (d.dieState p)
  let cut := fun (r : Raise) => if r.port = p.val then { r with level := min r.level cap } else r
  let gone := fun (r : Raise) => r.port == p.val && decide (r.level ≤ d.restAt p r.group r.start)
  { d with gov := { d.gov with raises := (d.gov.raises.map cut).filter fun r => !gone r } }

/-- A front end's die after a change of the state the governor acts on: groups above the limit are lowered (R354). -/
def Dev.actOnDie (d : Dev) (p : Port) (old : Dev) : Dev :=
  if d.dieState p = old.dieState p then d else (d.capRaises p).regate p old

/-- FE_TRIP of Fence Status (R368). -/
def Dev.showTrips (d : Dev) : Dev :=
  let any := (d.gov.dies.toList.take 32).any Die.trip
  d.set Reg.GV_FENCE_STAT 0 (setBit (d.get Reg.GV_FENCE_STAT) 1 any)

/-! ### Gates of the concentrator (R354, R358, R364) -/

/-- Cores allowed. -/
def Dev.coresAllowed (d : Dev) : Nat :=
  let s := (d.gov.dies.toList.getD 32 {}).state
  let a := if s = 3 then d.get Reg.GV_MIN_CORES else if s = 2 then 8 else 16
  if (d.caddy 32).empty then min a 8 else a

/-- The memory throttle. -/
def Dev.throttle (d : Dev) : Nat :=
  let s := (d.gov.dies.toList.getD 32 {}).state
  let a := if s = 3 then 50 else if s = 2 then 75 else 100
  if (d.caddy 34).empty then min a 75 else a

/-- The scrub permit in MB/s. -/
def Dev.scrubPermit (d : Dev) : Nat :=
  let s := (d.gov.dies.toList.getD 32 {}).state
  let a := if s = 3 then 100 else if s = 2 then d.get Reg.SCR_RATE / 2 else if s = 1 then d.get Reg.SCR_RATE else 200000
  if (d.caddy 34).empty then min a 100 else a

/-- The gates published (R364); a change of the throttle scales the stalls at the next slot or restores them at the next
boundary (R354). -/
def Dev.publishGates (d : Dev) : Dev :=
  let d := d.payScrub
  let s := (d.gov.dies.toList.getD 32 {}).state
  let hold := s == 3 || (d.caddy 32).empty
  let status := flag 0 hold + flag 1 (d.caddy 33).empty + flag 2 (d.caddy 32).empty + flag 3 (d.caddy 34).empty
  let was := d.get Reg.GV_MEM_THROTTLE
  let gates := (d.get Reg.GV_CORES, bit (d.get Reg.GV_STATUS) 0)
  let held := match d.sched.gate with
    | some g => if g.1 = d.now then some g else some (d.now, gates)
    | none => some (d.now, gates)
  let d := { d with sched := { d.sched with gate := held } }
  let d := ((d.set Reg.GV_CORES 0 d.coresAllowed).set Reg.GV_STATUS 0 status).set Reg.GV_SCRUB_PERMIT 0 d.scrubPermit
  let d := if gates = (d.coresAllowed, hold) then d
    else d.traceEvent 0x9 none none none none (some (d.coresAllowed + flag 5 hold)) (some 0)
  let t := d.throttle
  let d := d.set Reg.GV_MEM_THROTTLE 0 t
  if t < was then { d with mem := { d.mem with scaleAt := some (d.now + 1, 2) } }
  else if was < t then { d with mem := { d.mem with restoreAt := some (d.now + 1) } }
  else d

/-! ### Grants (R16, R359, R360) -/

/-- The level a raise is granted, 0 when it is refused, and the device with the refusal or reduction counted and the raise
committed; `open_` is a window's own first slot. -/
def Dev.grant (d : Dev) (p : Port) (g req start open_ stop : Nat) (window : Bool) : Nat × Dev :=
  let e := p.val * 16 + g
  let rest := d.restAt p g start
  let fence := d.get Reg.GV_FENCE_MAX e
  let d := if fence < req then d.fence p.val 1 g else d
  let s := d.dieState p
  let l := min (min req fence) (stateCap s)
  let l := if (!window && decide (1 ≤ s)) || decide (3 ≤ s) || (d.caddy p.val).empty then 0 else l
  let steps := d.stepsOf p g open_ stop
  let avail := (d.caddy p.val).bal - d.committed p
  let fits := fun (k : Nat) => decide (d.cost p g k steps ≤ avail)
  match (([3, 2, 1] : List Nat).filter fun k => decide (k ≤ l) && decide (rest < k)).find? fits with
  | none => (0, d.bump Reg.GV_REFUSED e)
  | some k =>
    let d := if k < req then d.bump Reg.GV_REDUCED e else d
    let r : Raise :=
      { port := p.val, group := g, level := k, start := start, open_ := open_, stop := stop, steps := steps, window := window }
    (k, { d with gov := { d.gov with raises := d.gov.raises ++ [r] } })

/-- The next calendar precision window of a port that has not been decided, with its raise slot (R36, R37). -/
def Dev.nextPrecision (d : Dev) (p : Port) : Option (CalOcc × Nat) :=
  let c := d.port p
  let lead := d.get Reg.CAL_LEAD
  let os := (d.occurrences [4] (d.now + lead + 25)).filterMap fun o =>
    let raise := max (o.at_ - 25) o.modeFrom
    if bit o.ports p.val ∧ c.winTo ≤ raise * 64 + o.entry ∧ c.upAt ≤ raise ∧ raise ≤ d.now + lead then some (o, raise) else none
  leastBy (fun x => x.2 * 64 + x.1.entry) os

/-- The level a window's CAL_ARG requests (R35). -/
def windowLevel (arg : Nat) : Nat := if bit arg 16 then 2 else 3

/-- The calendar's precision windows of a group of a port that begin before slot `to_`, as first slot, end and level; a
pending mode change ends them at its boundary (R32). -/
def Dev.windowsOf (d : Dev) (p : Port) (g to_ : Nat) : List (Nat × Nat × Nat) :=
  (d.occurrences [4] to_).filterMap fun o =>
    let stop := o.at_ + o.arg % 2 ^ 16
    let stop := match d.modeBoundary with | some b => if o.at_ < b then min stop b else stop | none => stop
    if bit o.ports p.val ∧ bit o.groups g ∧ o.at_ < to_ then some (o.at_, stop, windowLevel o.arg) else none

/-- The highest level requested by the windows that overlap, one after the other, what begins at `from_` and lasts until
`stop` at level `l` (R38); `n` bounds how far it looks ahead (log entry 114). -/
def Dev.chainLevel (d : Dev) (p : Port) (g from_ : Nat) : Nat → Nat → Nat → Nat
  | 0, _, l => l
  | n + 1, stop, l =>
    let ws := (d.windowsOf p g stop).filter fun w => decide (from_ ≤ w.1)
    let stop' := ws.foldl (fun a w => max a w.2.1) stop
    let l' := ws.foldl (fun a w => max a w.2.2) l
    if stop' ≤ stop ∨ l' = 3 then l' else d.chainLevel p g from_ n stop' l'

/-- The level a window asks for a group: the highest among the windows it overlaps (R38), those ahead as the calendar has
them and those already raised as they were granted. -/
def Dev.windowRequest (d : Dev) (p : Port) (g : Nat) (o : CalOcc) : Nat :=
  let held := (d.spans p g).foldl (fun l s => if s.open_ ≤ o.at_ ∧ o.at_ < s.stop then max l s.level else l) (windowLevel o.arg)
  d.chainLevel p g o.at_ 64 (o.at_ + o.arg % 2 ^ 16) held

/-- A port's next precision window decided (R36 to R38, R360), when its latest issue time has come: on a port that is not UP nothing
is granted (R351). -/
def Dev.decideWindow (d : Dev) (p : Port) : Dev :=
    match d.nextPrecision p with
    | none => d
    | some (o, raise) =>
      let d := d.updPort p fun (c : CPort) => { c with winTo := raise * 64 + o.entry + 1 }
      if !d.portUp p then d
      else
        let dur := o.arg % 2 ^ 16
        let order := (bitsOf o.groups 16).insertionSort fun x y =>
          d.get Reg.GV_GPRIO (p.val * 16 + y) ≤ d.get Reg.GV_GPRIO (p.val * 16 + x)
        let old := d
        let step := fun (g : Nat) (x : List Nat × Dev) =>
          match x.2.grant p g (x.2.windowRequest p g o) raise o.at_ (o.at_ + dur) true with
          | (0, d) => (x.1, d)
          | (_, d) => (g :: x.1, d)
        let (granted, d) := forEach order step ([], d)
        let cmd := fun (g : Nat) =>
          let first := ((d.spans p g).filter fun s => decide (s.start ≤ raise) && decide (raise < s.stop)).foldl (fun a s => min a s.start) raise
          let from_ := if d.target p ≤ first then first else raise
          let l := d.levelAt p g raise
          if l = old.levelAt p g from_ then none else some (g, l, from_)
        d.biasAll p true (granted.reverse.filterMap cmd)

/-- Every precision window of a port that is due decided; `n` bounds their number. -/
def Dev.decideWindows (d : Dev) (p : Port) : Nat → Dev
  | 0 => d
  | n + 1 => if (d.nextPrecision p).isNone then d else (d.decideWindow p).decideWindows p n

/-- The most precision windows of a port that can be due: every entry in every cycle that begins within the lead. -/
def Dev.windowBound (d : Dev) : Nat := 64 * d.boundaryAfter (d.now + d.get Reg.CAL_LEAD + 26)

/-- PRECISION_GRANT (R36 to R38, R360): at its latest issue time a port's next precision window is decided group by group,
in descending Group Priority, and the grants go out in one BIAS command per level. -/
def execPrecisionGrant (p : Port) (s : State) : Result := s.on fun d => d.decideWindow p

/-- RAISE_END (R36, R38, R46, R361, R362): the raises of a port whose end lies no more than the command lead ahead: each group
is commanded to the level it is to have from there on, a window's with the calendar's commands. Raises that have ended are
forgotten. -/
def execRaiseEnd (p : Port) (s : State) : Result :=
  s.on fun d =>
    let lead := max (d.get Reg.CAL_LEAD) (d.target p - d.now)
    let due := d.gov.raises.filter fun r => r.port == p.val && !r.ended && decide (d.stopOf r ≤ d.now + lead)
    let cmd := fun (r : Raise) =>
      let t := d.stopOf r
      let l := d.levelAt p r.group t
      if l < d.levelAt p r.group (t - 1) then some (r.group, l, max t (d.target p)) else none
    let send := fun (window : Bool) (d : Dev) =>
      if d.takesCmds p then d.biasAll p window ((due.filter fun r => r.window == window).filterMap cmd).dedup else d
    let d := send true (send false d)
    let mark := fun (r : Raise) => if due.contains r then { r with ended := true } else r
    let left := (d.gov.raises.map mark).filter fun r => !(r.port == p.val && r.ended && decide (d.stopOf r ≤ d.now))
    { d with gov := { d.gov with raises := left } }

/-- BIAS_REPEAT (R363): at slot 64 of every cycle each UP port is sent the level commanded for each group. -/
def execBiasRepeat (s : State) : Result :=
  s.on fun d =>
    if d.slot < 64 ∨ d.gov.repeatCycle = some d.grid.cycle then d
    else
      let d := { d with gov := { d.gov with repeatCycle := some d.grid.cycle } }
      forEach allPorts (fun p d =>
        if d.takesCmds p then
          let t := d.target p
          d.biasAll p false ((List.range 16).map fun g => (g, d.levelAt p g t, t))
        else d) d

/-! ### What the front ends report (R201, R349 to R351, R361, R362) -/

/-- The counts of a FESTAT (R201): the front end's late and discarded commands, and the commands lost. -/
def Dev.festatCounts (d : Dev) (p : Port) (exec late cancelled : Nat) : Dev :=
  let d := d.passTargets p
  let c := d.port p
  let de := (exec + 65536 - c.feExec) % 65536
  let dl := (late + 256 - c.feLate) % 256
  let dc := (cancelled + 256 - c.feDisc) % 256
  let lost := c.counted - (de + dl + dc)
  let d := d.setPort p { c with feExec := exec, feLate := late, feDisc := cancelled, counted := 0 }
  let d := (d.lateCommands p dl).bump Reg.CAL_CANCELLED p.val dc
  if lost = 0 then d else (d.bump Reg.WP_CMD_LOST p.val lost).log p.val 0x0403 d.grid.cycle lost

/-- FESTAT_PERIODIC_RECEIVE (R201, R349, R351, R352, R355, R365, R367): the counts of commands, the caddy at the reported power,
and the die at the reported temperature. FENCE is an action of the front end's fence: of its trip, of the floor when the front
end has reported floored channels, else of its bias limit (log entries 63 and 177). -/
def execFestatPeriodicReceive (p : Port) (exec : BitVec 16) (late : BitVec 8) (power : BitVec 16) (temp : BitVec 12)
    (trip fence : Bool) (cancelled : BitVec 8) (s : State) : Result :=
  s.on fun d =>
    if !d.portUp p then d
    else
      let d := d.festatCounts p exec.toNat late.toNat cancelled.toNat
      let old := d
      let x := d.gov.dies.toList.getD p.val {}
      let d := if trip && !x.trip then d.fence p.val 3 0
        else if fence && !(d.port p).floorTold then d.fenceEvent p.val 1 0xFF else d
      let d := (d.setDie p.val { x with trip := trip }).showTrips
      let d := (d.updPort p fun (c : CPort) => { c with festatAt := d.now, staleFrom := none, floorTold := false }).set Reg.GV_FE_POWER p.val power.toNat
      let d := d.set Reg.GV_FE_CSTAT p.val (setBit (d.get Reg.GV_FE_CSTAT p.val) 1 false)
      let d := { d with gov := { d.gov with staleCritical := d.gov.staleCritical.set p.val false } }
      ((d.updateCaddy p power.toNat).evaluate p.val temp.toInt).actOnDie p old

/-- The slot up to which a group stays raised without a break from the present one on, the present slot when it is not raised
(R362). -/
def Dev.raisedTo (d : Dev) (p : Port) (g : Nat) : Nat :=
  let rs := (d.raisesOf p g).insertionSort fun x y => x.start ≤ y.start
  rs.foldl (fun e r => if r.start ≤ e ∧ e < d.stopOf r then d.stopOf r else e) d.now

/-- The raise of a group extended by a renewal from its end at slot `end_` (R362). -/
def Dev.renew (d : Dev) (p : Port) (g end_ : Nat) : Dev :=
  let t := d.target p
  let stop := t + d.get Reg.GV_WAKE_HOLD
  if stop ≤ end_ then d
  else
    let last := (d.raisesOf p g).filter fun r => d.stopOf r == end_
    let level := last.foldl (fun l r => max l r.level) 0
    let steps := d.stepsOf p g end_ stop
    let more : Raise :=
      { port := p.val, group := g, level := level, start := end_, open_ := end_, stop := stop, steps := steps, window := false }
    let ok := decide (d.dieState p = 0) && !(d.caddy p.val).empty
      && decide (d.cost p g level steps ≤ (d.caddy p.val).bal - d.committed p)
    if !ok then d.bump Reg.GV_REDUCED (p.val * 16 + g)
    else
      let d := { d with gov := { d.gov with raises := d.gov.raises ++ [more] } }
      if last.any Raise.ended then d.biasAt p (2 ^ g) (d.levelAt p g (max t end_)) (max t end_) false else d

/-- One wake or renewal request decided (R361, R362). -/
def Dev.decideWake (d : Dev) (p : Port) (g : Nat) : Dev :=
  let end_ := d.raisedTo p g
  if d.now < end_ then d.renew p g end_
  else if d.mode ≠ .stream ∧ d.mode ≠ .gated then d
  else
    let t := d.target p
    let hold := d.get Reg.GV_WAKE_HOLD
    match d.grant p g 3 t t (t + hold) false with
    | (0, d) => d
    | (_, d) => (d.bump Reg.GV_WAKES (p.val * 16 + g)).biasAt p (2 ^ g) (d.levelAt p g t) t false

/-- FESTAT_WAKE_RECEIVE (R16, R201, R359 to R362): each group's request is decided, after the window grants of the same slot: the
renewal of a raise, or in STREAM and GATED a wake. -/
def execFestatWakeReceive (p : Port) (exec : BitVec 16) (late cancelled : BitVec 8) (groups : BitVec 16) (s : State) : Result :=
  s.on fun d =>
    if !d.portUp p then d
    else
      let d := d.festatCounts p exec.toNat late.toNat cancelled.toNat
      forEach (bitsOf groups.toNat 16) (fun g d => d.decideWake p g) (d.decideWindows p d.windowBound)

/-- FESTAT_STALE (R351): 4,096 slots without a PERIODIC FESTAT from an UP port. -/
def execFestatStale (p : Port) (s : State) : Result :=
  s.on fun d =>
    let c := d.port p
    if !d.portUp p || c.staleFrom.isSome || decide (d.now < max c.festatAt c.upAt + 4096) then d
    else
      (d.setPort p { c with staleFrom := some d.now }).set Reg.GV_FE_CSTAT p.val (setBit (d.get Reg.GV_FE_CSTAT p.val) 1 true)

/-- STALE_CRITICAL (R351): STALE has lasted longer than Steep Time. -/
def execStaleCritical (p : Port) (s : State) : Result :=
  s.on fun d =>
    match (d.port p).staleFrom with
    | none => d
    | some t =>
      if d.now ≤ t + d.ms (d.get Reg.GV_STEEP) || d.gov.staleCritical[p.val] then d
      else
        let old := d
        let d := { d with gov := { d.gov with staleCritical := d.gov.staleCritical.set p.val true } }.log p.val 0x0804
        d.actOnDie p old

/-! ### The concentrator's own evaluations -/

/-- THERMAL_EVALUATION (R350 to R352, R354, R364): every 1,024 slots the concentrator's die is evaluated at the temperature of
its hottest sensor, and the gates follow; `sensors` are the twelve sensors' means over the 1,024 slots in 0.125 °C. A STALE
port's caddy is updated at 2,900 mW. -/
def execThermalEvaluation (sensors : List (BitVec 16)) (s : State) : Result :=
  s.on fun d =>
    if d.inReset || decide (d.now < (d.gov.dies.toList.getD 32 {}).evalAt + 1024) then d
    else
      let d := forEach allPorts (fun p d =>
        if d.portUp p && (d.port p).staleFrom.isSome then d.updateCaddy p 2900 else d) d
      let means : Vector Int 12 := Vector.ofFn fun i => (sensors.getD i.val 0).toInt
      let hottest := means.toList.foldl max means[0]
      ({ d with gov := { d.gov with sensors := means } }.evaluate 32 hottest).publishGates

/-- FLAP_HOLD_END (R351, R353): a die's hold ends; it falls when the fall condition holds, but that a STALE port's die holds its
state. -/
def execFlapHoldEnd (i : Fin 33) (s : State) : Result :=
  s.on fun d =>
    let x := d.gov.dies[i.val]
    match x.hold with
    | none => d
    | some (t, _) =>
      if d.now < t then d
      else
        let old := d
        let d := d.setDie i.val { x with hold := none }
        let stale := match allPorts[i.val]? with | some p => (d.port p).staleFrom.isSome | none => false
        let d := if !stale && d.steepSince x.fall then d.changeState i.val (x.state - 1) (d.getI Reg.GV_TEMP i.val) else d
        if i.val = 32 then d.publishGates else d.actOnDie (Fin.ofNat 32 i.val) old

/-- One domain caddy updated (R358). -/
def Dev.updateDomain (d : Dev) (c power : Nat) : Dev :=
  let depth := d.get Reg.GV_DOM_DEPTH c
  let x := d.fillCaddy (d.caddy (32 + c)) (d.get Reg.GV_DOM_BUDGET c) power depth
  let now_ := d.emptyAfter x depth
  let d := ((d.setCaddy (32 + c) { x with empty := now_ }).setI Reg.GV_DOM_BAL c x.bal.floor).set Reg.GV_DOM_POWER c power
  if now_ && !x.empty then d.log 0xFF 0x0803 (32 + c) x.bal.floor else d

/-- DOMAIN_CADDY_UPDATE (R358): every 1,024 slots, from the measured powers of LOGIC, SERDES and MEMORY in mW. -/
def execDomainCaddyUpdate (logic serdes memory : BitVec 32) (s : State) : Result :=
  s.on fun d =>
    if d.inReset || decide (d.now < (d.caddy 32).at_ + 1024) then d
    else (((d.updateDomain 0 logic.toNat).updateDomain 1 serdes.toNat).updateDomain 2 memory.toNat).publishGates

/-! ### The fence (R365 to R367) -/

/-- The temperature at which a trip acts, 150 °C in 0.125 °C (R367). -/
def tripAt : Int := 1200

/-- The temperature below which a trip is released, 140 °C (R367). -/
def tripClear : Int := 1120

/-- FE_THERMAL_TRIP (R367): the hottest region's sliding mean over 128 slots, in 0.125 °C, reaches 150 °C, and every group is
capped at SENTINEL. The mean is that of the 128 slots that end with the slot before, so the present slot is the next one of
R367 (log entry 175). -/
def execFeThermalTrip (p : Port) (mean : BitVec 16) (s : State) : Result :=
  s.on fun d =>
    let f := d.fe p
    if !f.runs || f.tripped || decide (mean.toInt < tripAt) then d
    else (d.setFe p { f with tripped := true, tripFrom := some d.now, fenceActed := true }).recap p

/-- FE_TRIP_RELEASE (R367): the sliding mean has stayed below 140 °C for 100 ms; `cool` are the slots since it last was not. -/
def execFeTripRelease (p : Port) (mean : BitVec 16) (cool : BitVec 32) (s : State) : Result :=
  s.on fun d =>
    let f := d.fe p
    if !f.tripped || decide (tripClear ≤ mean.toInt) || decide (cool.toNat < d.ms 100)
        || decide (d.now < f.tripFrom.getD 0 + cool.toNat) then d
    else (d.setFe p { f with tripped := false, tripFrom := none }).recap p

/-- FENCE_BIAS_LIMIT_WRITE (R66, R366): lowered in any mode, raised only in CONFIGURE; the limit goes to the front ends
concerned by configuration message (log entry 125), which cap a level above it at once. -/
def execFenceBiasLimitWrite (w : Writer) (e : BitVec 16) (val : Bytes) (s : State) : Result :=
  s.on fun d => d.write w Reg.GV_FENCE_MAX e.toNat val fun d v =>
    let es := if e.toNat = 0xFFFF then List.range 512 else [e.toNat]
    if d.mode ≠ .configure && es.any fun e => decide (d.get Reg.GV_FENCE_MAX e < v) then refuse .wrongMode d
    else
      let d := forEach es (fun e d => d.set Reg.GV_FENCE_MAX e v) d
      (.accepted, forEach es (fun e d => d.tellFes Reg.GV_FENCE_MAX e) d)

end Sys2Proof.Machine
end

