-- ==== Sys2Proof/Machine/Scheduler.lean ====
section
/-! DEFINITION. The task scheduler (R373 to R390): posts, dispatch, the spill queue, completion, aborts and memory faults of
the service cores, and the trace. -/

namespace Sys2Proof.Machine

/-! ### Posts (R375, R381 to R384) -/

/-- Segments the spill queue has room for (R383). -/
def Dev.spillRoom (d : Dev) : Nat := d.get Reg.SC_SPILL_Q * 1024

/-- A full staging buffer is written to the spill queue as one segment (R383). -/
def Dev.writeSegment (d : Dev) : Dev :=
  if 64 ≤ d.sched.staging.length ∧ d.sched.spilled.length < d.spillRoom then
    let d := { d with sched := { d.sched with spilled := d.sched.spilled ++ [d.sched.staging], staging := [] } }
    ((d.traceEvent 0x5 none (some 1) none (some 15) none none).charge 1 1024).syncStall 1
  else d

/-- Jobs in staging move directly to the on-chip list once no segment remains and it has room (R383). -/
def Dev.settleStaging (d : Dev) : Dev :=
  if d.sched.spilled.isEmpty && decide (d.sched.service.length ≤ 1984) then
    { d with sched := { d.sched with service := d.sched.service ++ d.sched.staging, staging := [] } }
  else d

/-- POST_STATUS of a posting core (R371). -/
def Dev.postResult (d : Dev) (poster : Option (Fin 16)) (st : Nat) : Dev :=
  match poster with
  | some c => d.setCore c { d.sched.cores[c.val] with postStatus := st }
  | none => d

/-- POST_ARG of a posting core (R371). -/
def Dev.postArg (d : Dev) (poster : Option (Fin 16)) (arg : Nat) : Dev :=
  match poster with
  | some c => d.setCore c { d.sched.cores[c.val] with postArg := arg }
  | none => d

/-- SERVICE_POST (R371, R375, R383, R384, R386): a core, which writes POST_ARG and then POST_TASK, or the active Keeper when
`poster` is none, posts a SERVICE job. -/
def execServicePost (poster : Option (Fin 16)) (task : Fin 1024) (arg : BitVec 32) (s : State) : Result :=
  s.on fun d =>
    if !d.coresRun then d
    else
    let d := d.postArg poster arg.toNat
    match d.task task.val with
      | none => d.postResult poster 4
      | some x =>
        let refused := fun (d : Dev) => d.traceEvent 0x7 (some task.val) (some 1) (some (d.get Reg.SC_TASK_PRIO task.val))
          (some 15) (some arg.toNat) none
        if x.data then d.postResult poster 4
        else if x.faulted then (refused d).postResult poster 3
        else if d.overPitch 1 || decide (64 ≤ d.sched.staging.length ∧ d.spillRoom ≤ d.sched.spilled.length) then
          (refused ((d.bump Reg.SC_SVC_REFUSED).log 0xFF 0x0901 d.grid.cycle 1)).postResult poster 2
        else
          let (j, d) := d.newJob task.val x arg.toNat none
          let d := d.traceJob 0x1 31 j
          let sc := d.sched
          if sc.spilled.isEmpty && sc.staging.isEmpty && decide (sc.service.length < 2048) then
            ({ d with sched := { sc with service := sc.service ++ [j] } }).postResult poster 0
          else (({ d with sched := { sc with staging := sc.staging ++ [j] } }).writeSegment).postResult poster 1

/-- DATA_JOB_POST (R381, R382, R492): a source posts a job for an item when it is below its limit. A delegated request waits among
up to 64 others, and beyond those is answered BUSY; in SAFE, where the cores are stopped, it is answered WRONG_MODE. -/
def execDataJobPost (item : DataItem) (s : State) : Result :=
  s.on fun d =>
    match item with
      | .cvu e => if !d.coresRun then d else d.postEngine e
      | .env n => if !d.coresRun then d else d.postEnv n
      | .tim i task arg =>
        let c := d.tu.tim[i.val]
        if !d.coresRun || d.srcFull 3 || decide (c.gained < 64) then d
        else (d.setTim i { c with gained := c.gained - 64 }).postData 3 task.val arg.toNat none
      | .keeper c tid task arg =>
        let mine := fun (q : Request) => q.client == c && q.tid == tid
        let listed := match d.task task.val with | some x => x.data && x.source == 0 | none => false
        let known := d.keeper.queue.any fun q => mine q && !q.delegated
        if !listed || !known || d.mode == .boot then d
        else if !d.coresRun then d.answer (.client c tid) .wrongMode
        else
          let room := !d.srcFull 0 && d.sched.delegations.isEmpty
          if !room && decide (64 ≤ d.sched.delegations.length) then (d.bump Reg.COM_BUSY).answer (.client c tid) .busy
          else
            let d := { d with
              keeper := { d.keeper with queue := d.keeper.queue.map fun q => if mine q then { q with delegated := true } else q }
              sched := { d.sched with delegations := d.sched.delegations ++ [((c, tid), task.val, arg.toNat)] } }
            d.postWaiting 0

/-! ### Dispatch (R376 to R380) -/

/-- Whether a core is disabled (R400). -/
def Dev.coreDisabled (d : Dev) (c : Nat) : Bool := bit (d.get Reg.SC_CORE_DIS) c

/-- Cores Allowed and SERVICE_HOLD as the governor had published them at the start of this slot (R376). -/
def Dev.gates (d : Dev) : Nat × Bool :=
  let now_ := (d.get Reg.GV_CORES, bit (d.get Reg.GV_STATUS) 0)
  match d.sched.gate with
  | some g => if g.1 = d.now then g.2 else now_
  | none => now_

/-- The eligible cores (R376). -/
def Dev.eligible (d : Dev) : List (Fin 16) :=
  ((List.finRange 16).filter fun c =>
    let k := d.sched.cores[c.val]
    !k.failed && !k.reload && !d.coreDisabled c.val).take d.gates.1

/-- Whether a core can take a job in this slot (R379). -/
def Dev.coreIdle (d : Dev) (c : Fin 16) : Bool :=
  let k := d.sched.cores[c.val]
  k.job.isNone && decide (k.freeAt ≤ d.now)

/-- Whether a task may have a job dispatched: not RUNNING, its last job ended before this slot. -/
def Dev.taskFree (d : Dev) (t : Nat) : Bool :=
  !d.runningJobs.any (fun j => j.2.task == t) && (match d.task t with | some x => decide (x.freeAt ≤ d.now) | none => false)

/-- The oldest job of each task in a list in post order. -/
def oldestJobs (js : List Job) : List Job :=
  js.foldl (fun acc j => if acc.any fun k => k.task == j.task then acc else acc ++ [j]) []

/-- Whether post slot `a` is older than post slot `b` (R374). -/
def olderPost (a b : Nat) : Bool :=
  let x := (b % 2 ^ 32 + 2 ^ 32 - a % 2 ^ 32) % 2 ^ 32
  decide (1 ≤ x ∧ x ≤ 2 ^ 31)

/-- Whether a candidate comes before another in the order of R377, or neither before the other. -/
def Dev.jobBefore (d : Dev) (a b : Job) : Bool :=
  if d.ePrio a ≠ d.ePrio b then decide (d.ePrio b < d.ePrio a)
  else if olderPost a.slot b.slot then true
  else if olderPost b.slot a.slot then false
  else if a.data != b.data then a.data
  else decide (a.seq ≤ b.seq)

/-- The candidates of this slot, in order (R377). -/
def Dev.candidates (d : Dev) : List Job :=
  let hold := d.gates.2
  let all := oldestJobs d.sched.data ++ if hold then [] else oldestJobs d.sched.service
  (all.filter fun j => decide (j.slot < d.now) && d.taskFree j.task).insertionSort fun a b => d.jobBefore a b

/-- The top of a core's local SRAM, which sp holds when a job starts (R375): the address after its last byte (log entry 185). -/
def sramTop : Nat := 0x20000

/-- A job starts on a core (R375, R378): a0, a1, a2 and sp are in what it sends. -/
def Dev.dispatch (d : Dev) (j : Job) (c : Fin 16) (detail : Nat) : Dev :=
  let others := fun (l : List Job) => l.filter fun k => !(k.seq == j.seq && k.task == j.task)
  let d := { d with sched := { d.sched with
    data := if j.data then others d.sched.data else d.sched.data
    service := if j.data then d.sched.service else others d.sched.service } }
  let d := (d.setCore c { d.sched.cores[c.val] with job := some (j, d.now) }).set Reg.SC_TASK_AFF j.task c.val
  let entry := match d.task j.task with | some x => x.entry | none => 0
  (d.emit (.startJob c.val entry j.arg j.task j.seq sramTop)).traceJob 0x2 c.val j detail

/-- One candidate of the walk of R378, with the number of dispatches still allowed in the slot. -/
def Dev.tryDispatch (elig : List (Fin 16)) (x : Nat × Dev) (j : Job) : Nat × Dev :=
  let (left, d) := x
  let idle := elig.filter d.coreIdle
  let aged := if d.get Reg.SC_AGING ≤ d.waitOf j then 2 else 0
  let aff := d.get Reg.SC_TASK_AFF j.task
  match left, idle with
  | 0, _ => x
  | _, [] => x
  | n + 1, c :: _ =>
    match elig.find? fun k => k.val == aff with
    | some a =>
      if d.coreIdle a then (n, d.dispatch j a (1 + aged))
      else if d.waitOf j < d.get Reg.SC_AFF_WAIT then x
      else (n, d.dispatch j c (4 + aged))
    | none => (n, d.dispatch j c aged)

/-- JOB_DISPATCH (R376 to R380): the walk over the candidates of this slot, once a slot. -/
def execJobDispatch (s : State) : Result :=
  s.on fun d =>
    if !d.coresRun || d.sched.dispatchAt == some d.now then d
    else
      let d := { d with sched := { d.sched with dispatchAt := some d.now } }
      (d.candidates.foldl (Dev.tryDispatch d.eligible) (4, d)).2.settleStaging

/-! ### Accesses of a core (R337, R371) -/

/-- The size of the SPILL window in bytes (R371): the stall's bytes after the spill queue, at most 2 GiB. -/
def Dev.spillWindow (d : Dev) : Nat := min (2 ^ 31) (d.effBytes 1 - d.get Reg.SC_SPILL_Q * 2 ^ 20)

/-- Whether `n` bytes from address `a` lie in `size` bytes from `base`. -/
def withinMap (base size a n : Nat) : Bool := decide (base ≤ a ∧ a + n ≤ base + size)

/-- Whether bytes lie in the SPILL window. -/
def Dev.inSpill (d : Dev) (a n : Nat) : Bool := withinMap 0x80000000 d.spillWindow a n

/-- The registers of R371 and R457 that a store may not reach: by their place in the scheduler interface, and in an engine's part
of the check-value unit's interface. -/
def readOnlyReg (a : Nat) : Bool :=
  (withinMap 0x10000000 0x20 a 1 && [0x00, 0x04, 0x08, 0x18, 0x1C].contains (a % 0x20 / 4 * 4))
    || (withinMap 0x40000000 0x1000 a 1 && decide (0x304 ≤ a % 0x400))

/-- Whether bytes lie in the check-value unit's interface, in a window's part that is not reserved (R458). -/
def inEngine (a n : Nat) : Bool := withinMap 0x40000000 0x1000 a n && decide (a % 0x400 + n ≤ 0x310)

/-- Whether an access lies in the map of R371. -/
def Dev.inMap (d : Dev) (a n : Nat) : Bool :=
  withinMap 0 0x20000 a n || withinMap 0x10000000 0x20 a n || withinMap 0x30000000 0x3F0000 a n || inEngine a n || d.inSpill a n

/-- What a byte of a core's local SRAM holds where nothing has been stored since it was loaded (R387, R393): the SERVICE section, and
zero after it. -/
def Dev.serviceByte (d : Dev) (c : Fin 16) (a : Nat) : Nat :=
  match (d.sched.cores[c.val]).code with
  | some (i, off, n) => if a < n then d.flashAt i (off + a) else 0
  | none => 0

/-- The bytes of a number, least significant first. -/
def leBytes (n v : Nat) : List Nat := (List.range n).map fun i => v / 256 ^ i % 256

/-- The registers of the scheduler interface as a core's loads find them (R371); what a load of a WO register finds is left open, and
so are JOB_TASK, JOB_ARG and JOB_SEQ while no job runs. -/
def Dev.schedRegs (d : Dev) (c : Fin 16) : List Nat × Dev :=
  let k := d.sched.cores[c.val]
  let (r, d) := d.draw
  let job := match k.job with
    | some (j, _) => [j.task, j.arg, j.seq]
    | none => [r, r / 2 ^ 32, r / 2 ^ 64]
  ((job ++ [r / 2 ^ 96, r / 2 ^ 128, r / 2 ^ 160, k.postStatus, d.now]).flatMap (leBytes 4), d)

/-- The bytes of an engine's window that are not reserved (R458): the slots, SUBMIT, QUEUED, DONE and ENGINE_STATE; what a load of
SUBMIT finds is left open. -/
def Dev.engineRegs (d : Dev) (e : Fin 4) : List Nat × Dev :=
  let x := d.cvu[e.val]
  let (r, d) := d.draw
  let slots := (List.range 16).flatMap fun s => (tblRead (fun _ => List.replicate 48 0) x.slots s).map BitVec.toNat
  let busy := (x.running.toList ++ x.queue).map Prod.fst
  (slots ++ ([r, maskOf busy, x.done, x.state].flatMap (leBytes 4)), d)

/-- The bytes a load of `n` bytes at `a` finds (R371). -/
def Dev.coreBytes (d : Dev) (c : Fin 16) (a n : Nat) : List Nat × Dev :=
  let from_ := fun (f : Nat → Nat) => (List.range n).map fun i => f (a + i)
  if a < 0x20000 then (from_ fun x => tblRead (d.serviceByte c) (d.sched.cores[c.val]).sram x, d)
  else if a < 0x30000000 then
    let (l, d) := d.schedRegs c
    (from_ fun x => l.getD (x - 0x10000000) 0, d)
  else if a < 0x40000000 then (from_ fun x => tblRead (fun _ => 0) d.keeper.shared x, d)
  else if a < 0x80000000 then
    let (l, d) := d.engineRegs (Fin.ofNat 4 (a / 0x400))
    (from_ fun x => l.getD (x % 0x400) 0, d)
  else (from_ fun x => tblRead (fun _ => 0) d.mem.spill x, d)

/-- One byte that a core stores (R371): into its SRAM, the Keeper shared area, a descriptor slot, the SPILL window or POST_ARG. A
store to COMPLETE, POST_TASK or SUBMIT is a command of its own. -/
def Dev.putByte (d : Dev) (c : Fin 16) (a v : Nat) : Dev :=
  let k := d.sched.cores[c.val]
  if a < 0x20000 then d.setCore c { k with sram := tblWrite (d.serviceByte c) k.sram a v }
  else if withinMap 0x10000010 4 a 1 then
    let i := a - 0x10000010
    d.setCore c { k with postArg := k.postArg - k.postArg / 256 ^ i % 256 * 256 ^ i + v * 256 ^ i }
  else if withinMap 0x30000000 0x3F0000 a 1 then { d with keeper := { d.keeper with shared := tblWrite (fun _ => 0) d.keeper.shared a v } }
  else if withinMap 0x40000000 0x1000 a 1 then
    let e : Fin 4 := Fin.ofNat 4 (a / 0x400)
    let x := d.cvu[e.val]
    let s := a % 0x400 / 48
    let b := tblRead (fun _ => List.replicate 48 0) x.slots s
    if s < 16 then
      { d with cvu := d.cvu.set e.val { x with
          slots := tblWrite (fun _ => List.replicate 48 0) x.slots s (b.set (a % 0x400 % 48) (BitVec.ofNat 8 v)) } }
    else d
  else if 0x80000000 ≤ a then { d with mem := { d.mem with spill := tblWrite (fun _ => 0) d.mem.spill a v } }
  else d

/-- A store of a core within the map (R371), least significant byte first (log entry 186). -/
def Dev.coreStore (d : Dev) (c : Fin 16) (x : CoreStore) : Dev :=
  let a := x.addr.toNat
  let n := 2 ^ x.len.val
  if !d.inMap a n || (List.range n).any fun i => readOnlyReg (a + i) then d
  else forEach ((leBytes n x.data.toNat).zipIdx) (fun b d => d.putByte c (a + b.2) b.1) d

/-- The bursts of external memory that stores into the SPILL window touch: narrower than a burst, each is read, merged and written
(R337). -/
def Dev.narrowBursts (d : Dev) (stores : List CoreStore) : Nat :=
  sumBy (fun (x : CoreStore) =>
    let a := x.addr.toNat
    let n := 2 ^ x.len.val
    if d.inSpill a n then (a + n - 1) / 64 - a / 64 + 1 else 0) stores

/-- The stores of a core carried out: each read-modify-write counts, and as 128 bytes against the SPILL stall (R315, R337). -/
def Dev.coreStores (d : Dev) (c : Fin 16) (stores : List CoreStore) : Dev :=
  let n := d.narrowBursts stores
  forEach stores (fun x d => d.coreStore c x) ((d.bump Reg.MEM_RMW 0 n).charge 1 (128 * n))

/-! ### The end of a job (R379, R385 to R387) -/

/-- The job of a core ends; the core may take another from slot `free`. -/
def Dev.endJob (d : Dev) (c : Fin 16) (j : Job) (since free : Nat) : Dev :=
  let d := d.setCore c { d.sched.cores[c.val] with job := none, freeAt := free }
  let d := d.updTask j.task fun x => { x with freeAt := d.now + 1 }
  d.bump Reg.SC_CORE_BUSY c.val (d.now - since)

/-- What follows for the source of a job that has ended. -/
def Dev.jobGone (d : Dev) (j : Job) : Dev := if j.data then d.sourceFreed (Fin.ofNat 4 j.source) else d

/-- JOB_COMPLETE (R337, R379, R381, R461): a core writes COMPLETE; what waited at the job's source is posted. `stores` are the
job's stores. -/
def execJobComplete (core : Fin 16) (stores : List CoreStore) (s : State) : Result :=
  s.on fun d =>
    match (d.sched.cores[core.val]).job with
    | none => d
    | some (j, since) =>
      if !d.coresRun then d
      else
        let d := (d.coreStores core stores).endJob core j since (d.now + 1)
        (((d.bump Reg.SC_CORE_JOBS core.val).bump Reg.SC_TASK_JOBS j.task).traceJob 0x3 core.val j).jobGone j

/-- The job of a core aborted (R385): discarded and counted, its core reset; its item is lost. -/
def Dev.abortJob (d : Dev) (c : Fin 16) (j : Job) (since : Nat) : Dev :=
  let d := d.endJob c j since (d.now + 64)
  let d := ((d.bump Reg.SC_ABORTS).bump Reg.SC_TASK_ABORTS j.task).traceJob 0x4 c.val j
  ((d.log 0xFF 0x0902 j.task c.val).failItem j).jobGone j

/-- JOB_ABORT (R337, R385, R386): the job of a core has run longer than Job Run Limit; the third abort within 10 s faults its
task. `stores` are the job's stores. -/
def execJobAbort (core : Fin 16) (stores : List CoreStore) (s : State) : Result :=
  s.on fun d =>
    match (d.sched.cores[core.val]).job with
    | none => d
    | some (j, since) =>
      if !d.coresRun || decide (d.now - since ≤ d.get Reg.SC_RUN_LIMIT) then d
      else
        let d := (d.coreStores core stores).abortJob core j since
        match d.task j.task with
        | none => d
        | some x =>
          let ts := d.now :: (x.aborts.filter fun t => decide (d.now < t + d.ms 10000))
          let d := d.updTask j.task fun x => { x with aborts := ts }
          if 3 ≤ ts.length then d.faultTask j.task else d

/-- TASK_RESTORE (R386): a FAULTED task is IDLE again with its image descriptor. -/
def execTaskRestore (w : Writer) (e : BitVec 16) (val : Bytes) (s : State) : Result :=
  s.on fun d => d.writeEach w Reg.SC_TASK_RESTORE e.toNat val fun t d _ =>
    match d.task t with
    | some x =>
      if x.unused then (.accepted, { d with sched := { d.sched with tasks := d.sched.tasks.filter fun y => y.1 != t } })
      else if x.faulted then
        (.accepted, (d.updTask t fun x => { x with faulted := false, aborts := [] }).set Reg.SC_TASK_PRIO t x.prio)
      else refuse .range d
    | none => refuse .range d

/-- SPILL_SEGMENT_READBACK (R383, R387): the on-chip list has room, and the oldest segment is read back, at most one in 16
slots; `bad` are the jobs in it with an uncorrectable word. -/
def execSpillSegmentReadback (bad : List (Fin 64 × BadWord)) (s : State) : Result :=
  s.on fun d =>
    match d.sched.spilled with
    | [] => d.settleStaging
    | seg :: rest =>
      if !d.coresRun || decide (1984 < d.sched.service.length) || decide (d.now < d.sched.unspillAt) then d
      else
        let d := forEach bad (fun x d => d.memFault x.2) (d.charge 1 1024)
        let lostAt := fun (i : Nat) => bad.any fun x => x.1.val == i && d.losesWord x.2
        let lost := (seg.zipIdx.filter fun x => lostAt x.2).map Prod.fst
        let kept := (seg.zipIdx.filter fun x => !lostAt x.2).map Prod.fst
        let d := { d with sched := { d.sched with
          spilled := rest, service := d.sched.service ++ kept, unspillAt := d.now + 16 } }
        let d := (d.traceEvent 0x6 none (some 1) none (some 15) none none).loseJobs lost
        (d.writeSegment.settleStaging).syncStall 1

/-- An access of a core that raises no exception: a store is carried out, a load finds its value, least significant byte first. -/
def Dev.coreAccess (d : Dev) (core : Fin 16) (x : CoreAccess) : Dev :=
  if x.store then d.coreStores core [{ addr := x.addr, len := x.len, data := x.data }]
  else
    let (bs, d) := d.coreBytes core x.addr.toNat (2 ^ x.len.val)
    d.emit (.coreLoad core.val (bs.foldr (fun b v => b + 256 * v) 0))

/-- CORE_ACCESS_FAULT (R371, R387, R458): an access of a core. One outside its map, a store to a read-only register, and a load of an
uncorrectable word from the SPILL window raise the access-fault exception; any other is carried out. -/
def execCoreAccessFault (core : Fin 16) (access : CoreAccess) (s : State) : Result :=
  s.on fun d =>
    let a := access.addr.toNat
    let n := 2 ^ access.len.val
    if !d.coresRun then d
    else if !d.inMap a n || (access.store && (List.range n).any fun i => readOnlyReg (a + i)) then
      (d.bump Reg.SC_CORE_AFLT core.val).emit (.coreFault core.val)
    else match access.word with
      | some x =>
        if access.store || !d.inSpill a n then d.coreAccess core access
        else if d.losesWord x then ((d.memFault x).bump Reg.SC_SPILL_FLT).emit (.coreFault core.val)
        else (d.memFault x).coreAccess core access
      | none => d.coreAccess core access

/-- CORE_SRAM_ERROR (R387): an uncorrectable word in a core's local SRAM; its job is aborted and it enters RELOAD, or, when it
was reloaded within 1 s, FAILED. -/
def execCoreSramError (core : Fin 16) (s : State) : Result :=
  s.on fun d =>
    let k := d.sched.cores[core.val]
    if k.failed || k.reload then d
    else
      let d := match k.job with
        | some (j, since) => d.abortJob core j since
        | none => d
      let k := d.sched.cores[core.val]
      let again := match k.reloadedAt with | some t => decide (d.now < t + d.ms 1000) | none => false
      if again then (d.setCore core { k with failed := true }).log 0xFF 0x0904 core.val 1
      else d.setCore core { k with reload := true }

/-- CORE_RELOAD_COMPLETE (R387): the SERVICE section is in the core again, and the rest of its SRAM is zero. -/
def execCoreReloadComplete (core : Fin 16) (s : State) : Result :=
  s.on fun d =>
    let k := d.sched.cores[core.val]
    if k.reload then
      (d.setCore core { k with reload := false, reloadedAt := some d.now, sram := [] }).log 0xFF 0x0904 core.val 0
    else d

/-- A list of the scheduler, or an entry of the trace ring, lost (R387). The DATA sources post again every item whose job had not
completed, those of running jobs among them. -/
def Dev.resetList (d : Dev) (q : ConcQueue) : Dev :=
  let sc := d.sched
  match q with
  | .readyData =>
    let d := (({ d with sched := { sc with data := [] } }).bump Reg.SC_LIST_RST).log 0xFF 0x0907 0
    forEach (((d.runningJobs.map Prod.snd).filter Job.data) ++ sc.data) (fun j d => d.postData (Fin.ofNat 4 j.source) j.task j.arg j.request) d
  | .readyService =>
    let d := (({ d with sched := { sc with service := [] } }).bump Reg.SC_LIST_RST).log 0xFF 0x0907 1 sc.service.length
    (d.loseJobs sc.service).settleStaging
  | .staging =>
    let d := (({ d with sched := { sc with staging := [] } }).bump Reg.SC_LIST_RST).log 0xFF 0x0907 2 sc.staging.length
    d.loseJobs sc.staging
  | .trace i =>
    if i.val < sc.trace.length then ({ d with sched := { sc with trace := sc.trace.eraseIdx i.val } }).bump Reg.SC_TRACE_DROP
    else d
  | .receive _ | .slice _ | .egress _ | .engine _ => d

/-- TRACE_READ (R390): up to 64 of the oldest unread entries, marked read. -/
def execTraceRead (w : Writer) (s : State) : Result :=
  s.on fun d =>
    let d := d.settleGap
    let out := d.sched.trace.take 64
    let d := ({ d with sched := { d.sched with trace := d.sched.trace.drop 64 } }).traceGap d.now
    d.answer w .accepted (out.flatMap fun x => beBytes 16 x)

end Sys2Proof.Machine
end

