-- ==== Sys2Proof/Machine/Images.lean ====
section
/-! DEFINITION. Firmware images (R391 to R397): the flash image areas, SHA-256, the check of an image, and the image
commands. -/

namespace Sys2Proof.Machine

/-! ### SHA-256 (R392) -/

/-- The primes below 312: the first 64. -/
def shaPrimes : List Nat := (List.range 312).filter fun n => decide (1 < n) && (List.range n).all fun q => decide (q < 2) || n % q != 0

/-- The whole part of the `k`-th root of `n`, found bit by bit from bit `bits` - 1 down. -/
def rootFrom (k n : Nat) : Nat → Nat → Nat
  | 0, r => r
  | bits + 1, r => rootFrom k n bits (if (r + 2 ^ bits) ^ k ≤ n then r + 2 ^ bits else r)

/-- The first 32 bits of the fraction of the `k`-th root of a prime below 312. -/
def rootFraction (k p : Nat) : BitVec 32 := BitVec.ofNat 32 (rootFrom k (p * 2 ^ (32 * k)) 38 0)

/-- The state of the digest within a block: the sixteen words the schedule still needs, the next first, and the working words a to
h. -/
structure Digest where
  ahead : List (BitVec 32)
  work : Vector (BitVec 32) 8

/-- A word combined with itself turned right by two distances, and with a third form of it. -/
def turned (x : BitVec 32) (i j : Nat) (third : BitVec 32) : BitVec 32 := x.rotateRight i ^^^ x.rotateRight j ^^^ third

/-- One of the 64 rounds, of the constant `k`: the working words move on, and the schedule gains a word. -/
def Digest.round (s : Digest) (k : BitVec 32) : Digest :=
  let at_ := fun i => s.ahead.getD i 0
  let v := s.work
  let gain := at_ 0 + at_ 9 + turned (at_ 1) 7 18 (at_ 1 >>> 3) + turned (at_ 14) 17 19 (at_ 14 >>> 10)
  let choice := v[6] ^^^ (v[4] &&& (v[5] ^^^ v[6]))
  let most := (v[0] &&& (v[1] ||| v[2])) ||| (v[1] &&& v[2])
  let low := v[7] + turned v[4] 6 11 (v[4].rotateRight 25) + choice + k + at_ 0
  { ahead := s.ahead.drop 1 ++ [gain]
    work := #v[low + turned v[0] 2 13 (v[0].rotateRight 22) + most, v[0], v[1], v[2], v[3] + low, v[4], v[5], v[6]] }

/-- The hash words after one more block of 64 bytes. -/
def hashBlock (ks : List (BitVec 32)) (hash : Vector (BitVec 32) 8) (block : Bytes) : Vector (BitVec 32) 8 :=
  let words := (List.range 16).map fun i => BitVec.ofNat 32 (beNat ((block.drop (4 * i)).take 4))
  (ks.foldl Digest.round { ahead := words, work := hash }).work.zipWith (· + ·) hash

/-- SHA-256 of FIPS 180-4, as a number of 256 bits: the constants are the fractions of the cube roots of the first 64 primes, the
hash begins with those of the square roots of the first 8. -/
def sha256 (bs : Bytes) : Nat :=
  let padded := bs ++ [0x80] ++ List.replicate ((119 - bs.length % 64) % 64) 0 ++ beBytes 8 (8 * bs.length)
  let begin_ : Vector (BitVec 32) 8 := Vector.ofFn fun i => rootFraction 2 (shaPrimes.getD i.val 0)
  let ks := shaPrimes.map (rootFraction 3)
  let blocks := (List.range (padded.length / 64)).map fun i => (padded.drop (64 * i)).take 64
  (blocks.foldl (hashBlock ks) begin_).toList.foldl (fun n w => n * 2 ^ 32 + w.toNat) 0

/-! ### The image areas (R391 to R393) -/

/-- A section entry of an image (R393). -/
structure Section_ where
  type : Nat
  offset : Nat
  length : Nat
  crc : Nat
deriving DecidableEq, Repr

/-- The section entry `k` of an image. -/
def Dev.imageSection (d : Dev) (i : Fin 2) (k : Nat) : Section_ :=
  let at_ := 64 + 16 * k
  { type := d.flashNat i at_ 1, offset := d.flashNat i (at_ + 4) 4, length := d.flashNat i (at_ + 8) 4
    crc := d.flashNat i (at_ + 12) 4 }

/-- The sections an image has. -/
def Dev.imageSections (d : Dev) (i : Fin 2) : List Section_ :=
  (List.range (min 8 (d.flashNat i 14 1))).map (d.imageSection i)

/-- The limit of a section's length (R393). -/
def sectionLimit (type : Nat) : Nat := if type = 1 then 4194304 else if type = 2 then 131072 else 8388608

/-- The LAYOUT check (R394). -/
def Dev.layoutOk (d : Dev) (i : Fin 2) : Bool :=
  let len := d.flashNat i 16 4
  let n := d.flashNat i 14 1
  let ss := d.imageSections i
  let fits := fun (x : Section_) =>
    x.offset % 4096 == 0 && decide (4096 ≤ x.offset) && decide (x.offset + x.length ≤ len) && decide (x.length ≤ sectionLimit x.type)
  let apart := fun (x y : Section_) => decide (x.offset + x.length ≤ y.offset) || decide (y.offset + y.length ≤ x.offset)
  decide (3 ≤ n) && decide (n ≤ 8) && decide (len ≤ 8388608) && ss.all fits
    && (List.range n).all (fun a => (List.range n).all fun b => a == b || apart (d.imageSection i a) (d.imageSection i b))
    && ([1, 2, 3] : List Nat).all (fun t => (ss.filter fun x => x.type == t).length == 1)
    && (d.flashBytes i (64 + 16 * n) (16 * (8 - n))).all fun b => b == 0

/-- The status of an image under the checks of R394, the first that fails. -/
def Dev.checkImage (d : Dev) (i : Fin 2) : Nat :=
  let magic := d.flashNat i 0 2
  let bytesOf := fun (x : Section_) => d.flashBytes i x.offset x.length
  if !(d.flashDev i).accepted then 7
  else if magic = 0xFFFF then 1
  else if magic ≠ 0x5646 ∨ d.flashNat i 2 1 ≠ 1 ∨ d.flashNat i 252 4 ≠ crc32c (d.flashBytes i 0 252) then 2
  else if d.get Reg.ID_REV < d.flashNat i 12 1 then 3
  else if !d.layoutOk i then 4
  else if (d.imageSections i).any fun x => crc32c (bytesOf x) != x.crc then 5
  else if sha256 (d.flashBytes i 256 (d.flashNat i 16 4 - 256)) ≠ d.flashNat i 20 32 then 6
  else 0

/-- An image checked: its status, and its version when it is VALID (R401). -/
def Dev.verifyImage (d : Dev) (i : Fin 2) : Dev :=
  let st := d.checkImage i
  (d.set Reg.IMG_STATUS i.val st).set Reg.IMG_VERSION i.val (if st = 0 then d.flashNat i 4 4 else 0)

/-- The tasks that the TASKS section of an image lists (R373, R393). -/
def Dev.imageTasks (d : Dev) (i : Fin 2) : List (Nat × Task) :=
  match (d.imageSections i).find? fun x => x.type == 3 with
  | none => []
  | some x => (List.range (x.length / 16)).map fun k =>
    let at_ := x.offset + 16 * k
    let b := d.flashNat i (at_ + 2) 1
    (d.flashNat i at_ 2 % 1024,
      { data := !bit b 7, prio := field b 6 4, source := field b 3 0, entry := d.flashNat i (at_ + 4) 4 })

/-! ### Image objects (R396, R397, R401) -/

/-- Whether a write may target an image (R396). -/
def Dev.imageTarget (d : Dev) (i : Fin 2) : Option Status :=
  if d.mode = .boot then some .wrongMode
  else if d.get Reg.IMG_IN_USE = i.val then some .range
  else if d.aon.trialState = 2 ∧ d.aon.preferred = i.val then some .range
  else if (d.flashDev i).busy.isSome then some .busy
  else none

/-- An image whose bytes have been written since its last check. -/
def Dev.unverified (d : Dev) (i : Fin 2) : Dev := (d.set Reg.IMG_STATUS i.val 9).set Reg.IMG_VERSION i.val 0

/-- An operation on an image area begins (R394): its status is BUSY, and it has no version until it is VALID again (R401). -/
def Dev.beginOp (d : Dev) (i : Fin 2) (op : ImageOp) : Dev :=
  ((d.setFlash i { d.flashDev i with busy := some op }).set Reg.IMG_STATUS i.val 8).set Reg.IMG_VERSION i.val 0

/-- IMAGE_ERASE (R396): the erase of an image area begins. -/
def execImageErase (w : Writer) (e : BitVec 16) (val : Bytes) (s : State) : Result :=
  s.on fun d => d.writeEach w Reg.IMG_ERASE e.toNat val fun k d _ =>
    let i : Fin 2 := Fin.ofNat 2 k
    match d.imageTarget i with
    | some st => refuse st d
    | none => (.accepted, d.beginOp i .erase)

/-- A byte programmed: over an erased byte it stands as written; what another byte becomes is left open (R396). -/
def Dev.programByte (d : Dev) (i : Fin 2) (off : Nat) (b : Byte) : Dev :=
  let f := d.flashDev i
  let dflt := flashDflt i f.erased
  if d.flashAt i off = 0xFF then d.setFlash i { f with bytes := tblWrite dflt f.bytes off b.toNat }
  else
    let (r, d) := d.draw
    d.setFlash i { f with bytes := tblWrite dflt f.bytes off (r % 256) }

/-- IMAGE_DATA (R394, R396): the programming of bytes at Image Write Offset begins. -/
def execImageData (w : Writer) (e : BitVec 16) (data : Bytes) (s : State) : Result :=
  s.on fun d => d.writeEach w Reg.IMG_DATA e.toNat data fun k d _ =>
    let i : Fin 2 := Fin.ofNat 2 k
    let off := d.get Reg.IMG_WOFS i.val
    if data.length < 4 ∨ data.length % 4 ≠ 0 ∨ 8388608 < off + data.length then refuse .range d
    else match d.imageTarget i with
      | some st => refuse st d
      | none => (.accepted, d.beginOp i (.program off data))

/-- IMAGE_VERIFY (R396): the check of an image begins. -/
def execImageVerify (w : Writer) (e : BitVec 16) (val : Bytes) (s : State) : Result :=
  s.on fun d => d.writeEach w Reg.IMG_VERIFY e.toNat val fun k d _ =>
    let i : Fin 2 := Fin.ofNat 2 k
    match d.imageTarget i with
    | some st => refuse st d
    | none => (.accepted, d.beginOp i .check)

/-- IMAGE_OPERATION_COMPLETE (R394, R396): an erase, a write or a check completes; after a write Image Write Offset has advanced by the
number of bytes. -/
def execImageOperationComplete (i : Fin 2) (s : State) : Result :=
  s.on fun d =>
    let f := d.flashDev i
    match f.busy with
    | none => d
    | some .erase => (d.setFlash i { f with busy := none, bytes := [], erased := true }).unverified i
    | some (.program off data) =>
      let d := forEach data.zipIdx (fun x d => d.programByte i (off + x.2) x.1) (d.setFlash i { f with busy := none })
      (d.unverified i).set Reg.IMG_WOFS i.val (off + data.length)
    | some .check => (d.setFlash i { f with busy := none }).verifyImage i

/-- The image choice changed, the change copied to the ledger (R395). -/
def Dev.setChoice (d : Dev) (preferred trial image : Nat) : Dev :=
  if (d.aon.preferred, d.aon.trialState, d.aon.trialImage) = (preferred, trial, image) then d
  else { d with aon := { d.aon with preferred := preferred, trialState := trial, trialImage := image } }.log 0xFF 0x0908
    preferred trial image

/-- A write of Image Trial (R397): 0xFF cancels, an image that is not in use and VALID is tried at the next restart. -/
def Dev.trialWrite (d : Dev) (w : Writer) (val : Bytes) : Dev :=
  d.write w Reg.IMG_TRIAL 0 val fun d v =>
    let done := fun (d : Dev) => (Status.accepted, d.log 0xFF 0x0906 4 v)
    if v = 0xFF then done (if d.aon.trialState = 1 then d.setChoice d.aon.preferred 0 0xFF else d)
    else if 1 < v then refuse .range d
    else if d.get Reg.IMG_IN_USE = v ∨ d.get Reg.IMG_STATUS v ≠ 0 then refuse .wrongMode d
    else done (d.setChoice d.aon.preferred 1 v)

/-- IMAGE_TRIAL (R397). -/
def execImageTrial (w : Writer) (val : Bytes) (s : State) : Result := s.on fun d => d.trialWrite w val

/-- IMAGE_TRIAL_CANCEL (R397): Image Trial written with 0xFF. -/
def execImageTrialCancel (w : Writer) (s : State) : Result := s.on fun d => d.trialWrite w [0xFF]

/-- IMAGE_CONFIRM (R397): the running trial image becomes the preferred one. -/
def execImageConfirm (w : Writer) (val : Bytes) (s : State) : Result :=
  s.on fun d => d.write w Reg.IMG_CONFIRM 0 val fun d v =>
    if d.aon.trialState ≠ 2 then refuse .wrongMode d
    else (.accepted, (d.setChoice (d.get Reg.IMG_IN_USE) 0 0xFF).log 0xFF 0x0906 5 v)

/-- PREFERRED_IMAGE (R397): a VALID image named while no trial is under way. -/
def execPreferredImage (w : Writer) (val : Bytes) (s : State) : Result :=
  s.on fun d => d.write w Reg.IMG_PREFER 0 val fun d v =>
    if d.aon.trialState ≠ 0 ∨ d.get Reg.IMG_STATUS v ≠ 0 then refuse .wrongMode d
    else (.accepted, (d.setChoice v 0 0xFF).log 0xFF 0x0906 2 v)

end Sys2Proof.Machine
end

