-- ==== Sys2Proof/Machine/CheckUnit.lean ====
section
/-! DEFINITION. The check-value unit (R454 to R463): presets, descriptors, alive checkers and completions. -/

namespace Sys2Proof.Machine

/-- The parameters of an engine: width, polynomial, initial value, final XOR, reflect input, reflect output (R455). -/
abbrev CvParams := List Nat

/-- The fixed presets (R456). -/
def cvPresets : List CvParams :=
  [[32, 0x1EDC6F41, 0xFFFFFFFF, 0xFFFFFFFF, 1, 1],
   [16, 0x1021, 0xFFFF, 0, 0, 0],
   [32, 0x04C11DB7, 0xFFFFFFFF, 0xFFFFFFFF, 1, 1],
   [64, 0x42F0E1EBA9EA3693, 0xFFFFFFFFFFFFFFFF, 0xFFFFFFFFFFFFFFFF, 1, 1],
   [8, 0x2F, 0xFF, 0xFF, 0, 0],
   [15, 0x4599, 0, 0, 0, 0],
   [3, 0x3, 0, 0x7, 0, 0],
   [24, 0x864CFB, 0xB704CE, 0, 0, 0]]

/-- The parameters an engine has now: its preset's, or the custom ones (R447). -/
def Dev.cvParams (d : Dev) (e : Nat) : CvParams :=
  match d.get Reg.CV_PRESET e with
  | 0 => (List.range 6).map fun k => d.get (Reg.CV_WIDTH + k) e
  | n + 1 => cvPresets.getD n []

/-- The result over `data` (R455): from `seed` when there is one, the raw register when `part` is set. -/
def cvResult (ps : CvParams) (seed : Option Nat) (part : Bool) (data : Bytes) : Nat :=
  let w := ps.getD 0 0
  let start := seed.getD (ps.getD 2 0)
  let refin := ps.getD 4 0 == 1
  if part then crc w (ps.getD 1 0) start 0 refin false data
  else crc w (ps.getD 1 0) start (ps.getD 3 0) refin (ps.getD 5 0 == 1) data

/-- The engine `e`. -/
def Dev.eng (d : Dev) (e : Fin 4) : Engine := d.cvu[e.val]

/-- The device with an engine replaced. -/
def Dev.setEng (d : Dev) (e : Fin 4) (x : Engine) : Dev := { d with cvu := d.cvu.set e.val x }

/-- The 48 bytes of a slot (R459). -/
def Engine.slot (x : Engine) (s : Nat) : Bytes := tblRead (fun _ => List.replicate 48 0) x.slots s

/-- A field of `n` bytes of a descriptor. -/
def descField (b : Bytes) (off n : Nat) : Nat := beNat ((b.drop off).take n)

/-- Whether a slot is queued or in progress (R458). -/
def Engine.queued (x : Engine) (s : Nat) : Bool :=
  x.queue.any (fun q => q.1 == s) || (match x.running with | some r => r.1 == s | none => false)

/-- CVU_SUBMIT (R458): a core writes SUBMIT naming a slot that holds `desc`; naming a queued slot raises the access-fault
exception instead. -/
def execCvuSubmit (core : Fin 16) (e : Fin 4) (slot : Fin 16) (desc : Bytes) (s : State) : Result :=
  s.on fun d =>
    let x := d.eng e
    if !d.coresRun then d
    else if x.queued slot.val then (d.bump Reg.SC_CORE_AFLT core.val).emit (.coreFault core.val)
    else
      let bytes := (desc ++ List.replicate 48 0).take 48
      d.setEng e { x with slots := tblWrite (fun _ => List.replicate 48 0) x.slots slot.val bytes
                          queue := x.queue ++ [(slot.val, core.val)], done := setBit x.done slot.val false }

/-- Whether the fields of a descriptor break R459 under an engine's parameters. -/
def Dev.fieldBad (d : Dev) (ps : CvParams) (b : Bytes) : Bool :=
  let w := ps.getD 0 0
  let ctl := descField b 8 1
  let len := descField b 4 4
  let task := descField b 10 2
  let isCvu := match d.task (task % 1024) with | some x => x.data && x.source == 1 | none => false
  decide (64 ≤ ctl) || decide (64 ≤ descField b 9 1) || decide (1024 ≤ task) || decide (descField b 42 2 ≠ 0)
    || field (descField b 41 1) 3 2 != 0 || decide (16777216 < len) || decide (2 ^ w ≤ descField b 16 8) || decide (2 ^ w ≤ descField b 24 8)
    || (bit ctl 4 && decide (len ≤ descField b 12 4)) || (bit ctl 5 && !isCvu)

/-- Whether a descriptor's data lies within the places of R454. -/
def Dev.addressOk (d : Dev) (b : Bytes) : Bool :=
  let a := descField b 0 4
  let len := descField b 4 4
  len == 0 || withinMap 0 0x20000 a len || withinMap 0x30000000 0x3F0000 a len || d.inSpill a len

/-- CVU_DESCRIPTOR_START (R454, R460): an idle engine takes the next slot, with the parameters of now, and checks its fields
before it reads any data. -/
def execCvuDescriptorStart (e : Fin 4) (s : State) : Result :=
  s.on fun d =>
    let x := d.eng e
    match x.queue with
    | [] => d
    | q :: rest =>
      if !d.coresRun || x.running.isSome || x.held.isSome then d
      else
        let ps := d.cvParams e.val
        let b := x.slot q.1
        let v := if d.fieldBad ps b then 4 else if !d.addressOk b then 5 else 0
        d.setEng e { x with queue := rest, running := some q, params := ps, verdict := v }

/-- The end of a descriptor (R461): results into its slot, DONE, counts. -/
def Dev.endDescriptor (d : Dev) (e : Fin 4) (slot result status alive : Nat) : Dev :=
  let x := d.eng e
  let b := x.slot slot
  let b := b.take 32 ++ beBytes 8 result ++ beBytes 1 status ++ beBytes 1 alive ++ (b.drop 42).take 2
    ++ beBytes 4 (d.now % 2 ^ 32)
  let d := d.setEng e { x with slots := tblWrite (fun _ => List.replicate 48 0) x.slots slot b, done := setBit x.done slot true }
  let d := d.bump Reg.CV_DONE e.val
  if 4 ≤ status then d.bump Reg.CV_DERR e.val else d

/-- The alive checker `a` on a counter (R462): the status, the two low bits of ALIVE, and the checker after it. -/
def Dev.checkAlive (d : Dev) (a counter : Nat) : Nat × Nat × Dev :=
  let delta := if bit d.aliveFresh a then 1 else (counter + 16 - d.get Reg.CV_ALIVE_LAST a) % 16
  let taken := fun (d : Dev) => { d.set Reg.CV_ALIVE_LAST a counter with aliveFresh := setBit d.aliveFresh a false }
  if delta = 0 then (2, 3, d.bump Reg.CV_ALIVE_REP a)
  else if delta = 1 then (0, 1, taken d)
  else if delta < 8 then (0, 2, (taken d).bump Reg.CV_ALIVE_SKIP a)
  else (3, 3, d.bump Reg.CV_ALIVE_STALE a)

/-- The outcome of a descriptor whose data `data` was read without a fault: result, status, ALIVE (R455, R459, R462). -/
def Dev.checkData (d : Dev) (ps : CvParams) (b data : Bytes) : Nat × Nat × Nat × Dev :=
  let ctl := descField b 8 1
  let res := cvResult ps (if bit ctl 1 then some (descField b 16 8) else none) (bit ctl 2) data
  let byte := (data.getD (descField b 12 4) 0).toNat
  let counter := if bit ctl 3 then byte % 16 else byte / 16
  let mism := bit ctl 0 && res != descField b 24 8
  if !bit ctl 4 then
    let (r, d) := d.draw
    (res, if mism then 1 else 0, r % 16 * 16, d)
  else if mism then (res, 1, counter * 16, d)
  else
    let (st, low, d) := d.checkAlive (descField b 9 1 % 64) counter
    (res, st, counter * 16 + low, d)

/-- The fault of a data word as the engine's read finds it (R334, R459). -/
def Dev.readFault (d : Dev) (w : ScrubWord) : Option WordFault :=
  match w with
  | .external x => d.wordFault x
  | .sram bits => codeFault (bits.toNat / 2 ^ 8) (bits.toNat % 2 ^ 8)

/-- A fault found in a data word (R336, R345); an uncorrectable SRAM word is SRAM_WORD_UNCORRECTABLE. -/
def Dev.noteFault (d : Dev) (w : ScrubWord) : Dev :=
  match w with
  | .external x => d.memFault x
  | .sram _ => if d.readFault w = some .corrected then d.bump Reg.ECC_SRAM_COR else d

/-- Whether a data word lies where a descriptor's data does (R454): in external memory or in SRAM. -/
def wordFits (b : Bytes) (w : ScrubWord) : Bool :=
  match w with
  | .external _ => decide (0x80000000 ≤ descField b 0 4)
  | .sram _ => decide (descField b 0 4 < 0x80000000)

/-- Whether another engine, of a higher number, has already been applied to checker `a` in this slot (R463). -/
def Dev.afterHigher (d : Dev) (a e : Nat) : Bool :=
  let x := tblRead (fun _ => 0) d.aliveAt a
  x / 4 == d.now && decide (e < x % 4)

/-- CVU_DESCRIPTOR_COMPLETE (R455, R459 to R463): the descriptor in progress ends. `data` are the bytes the engine read,
`bad` a faulty word among them. A completion job waits while its source is at its limit. Of the engines that name one checker in one
slot the lower-numbered go first: one that would come after a higher completes in a later slot. -/
def execCvuDescriptorComplete (e : Fin 4) (data : Bytes) (bad : Option ScrubWord) (s : State) : Result :=
  s.on fun d =>
    let x := d.eng e
    match x.running with
    | none => d
    | some (slot, _) =>
      let b := x.slot slot
      let ctl := descField b 8 1
      let bad := bad.filter (wordFits b)
      let clean := match bad.bind d.readFault with
        | some .uncorrectable | some .tagError => false
        | some .corrected | none => true
      let named := descField b 9 1 % 64
      let asks := bit ctl 4 && x.verdict == 0 && clean
      if !d.coresRun || (x.verdict == 0 && clean && data.length != descField b 4 4) || (asks && d.afterHigher named e.val) then d
      else
        let d := if asks then { d with aliveAt := tblWrite (fun _ => 0) d.aliveAt named (d.now * 4 + e.val) } else d
        let d := d.setEng e { x with running := none }
        let none_ := fun (st : Nat) (d : Dev) =>
          let (r, d) := d.draw
          (0, st, r % 16 * 16, d)
        let (res, st, alive, d) := match x.verdict, bad with
          | 0, none => d.checkData x.params b data
          | 0, some w => if clean then (d.noteFault w).checkData x.params b data else none_ 6 (d.noteFault w)
          | v, _ => none_ v d
        let d := d.endDescriptor e slot res st alive
        if bit ctl 5 && st != 4 then
          let arg := st * 2 ^ 24 + alive * 2 ^ 16 + e.val * 2 ^ 8 + slot
          (d.setEng e { d.eng e with held := some (descField b 10 2 % 1024, arg) }).postEngine e
        else d

/-- A queue reset of an engine (R463): every queued descriptor and the one in progress end with status RESET. -/
def Dev.resetEngine (d : Dev) (e : Fin 4) : Dev :=
  let x := d.eng e
  let slots := x.running.toList ++ x.queue
  let d := d.setEng e { x with running := none, queue := [] }
  forEach slots (fun q d =>
    let (r, d) := d.draw
    d.endDescriptor e q.1 0 7 (r % 16 * 16)) d

/-- ALIVE_RESET (R462): the checker accepts its next message whatever its counter. -/
def execAliveReset (w : Writer) (e : BitVec 16) (val : Bytes) (s : State) : Result :=
  s.on fun d => d.writeEach w Reg.CV_ALIVE_RESET e.toNat val fun a d _ =>
    (.accepted, { d with aliveFresh := setBit d.aliveFresh a true })

/-- A concentrator queue reset (R51, R295, R387, R463). `lost` names, per open basket, how many of the newest entries the
queue still held. -/
def Dev.resetConcQueue (d : Dev) (q : ConcQueue) (lost : List (BitVec 64 × Nat)) : Dev :=
  match q with
  | .receive p => d.resetSlice 0 (some p.val) (fun i => i.port == p.val) lost
  | .slice n => d.resetSlice 1 none (fun _ => true) (lost.filter fun x => x.1.toNat % 8 == n.val)
  | .egress b => d.resetEgress b
  | .engine e => d.resetEngine e
  | .readyData | .readyService | .staging | .trace _ => d.resetList q

/-- CONC_QUEUE_POINTER_MISMATCH (R51, R295): the duplicated pointers of a concentrator queue disagree. -/
def execConcQueuePointerMismatch (q : ConcQueue) (lost : List (BitVec 64 × Nat)) (s : State) : Result :=
  s.on fun d => d.resetConcQueue q lost

end Sys2Proof.Machine
end

