-- ==== Sys2Proof/Machine/EnvMonitor.lean ====
section
/-! DEFINITION. The environment monitor (R464 to R480): conversions, their arithmetic, blanking and the result word. -/

namespace Sys2Proof.Machine

/-! ### Timing (R473, R474) -/

/-- The environment-monitor channel `n`. -/
def Dev.emChan (d : Dev) (n : Fin 16) : EmChan := d.em.chans[n.val]

/-- The Channel Type of a channel. -/
def Dev.emType (d : Dev) (n : Fin 16) : Nat := d.get Reg.EM_TYPE n.val

/-- Drive periods of an integration (R472). -/
def emPeriods (f : Nat) : Nat := max 16 (roundHalfUp f 100).toNat

/-- Slots of `k` drive periods, rounded up. -/
def Dev.emSlots (d : Dev) (f k : Nat) : Nat := ceilDiv (k * d.get Reg.TB_FNOM * 1000) f

/-- The integration intervals of a conversion, from its start (R473). -/
def Dev.emIntegrations (d : Dev) (n : Fin 16) : List (Nat × Nat) :=
  let f := d.get Reg.EM_FDRIVE n.val
  if d.emType n < 4 then
    if (d.emChan n).swap then [(d.ms 2, d.ms 22), (d.ms 24, d.ms 44)] else [(d.ms 2, d.ms 22)]
  else [(d.emSlots f 16, d.emSlots f (16 + emPeriods f))]

/-- The time of a conversion, from its start to its last integration sample (R473). -/
def Dev.emTime (d : Dev) (n : Fin 16) : Nat := (d.emIntegrations n).foldl (fun m x => max m x.2) 0

/-! ### Terminals (R464 to R466, R471) -/

/-- The terminals FP, SP, SN and FN under a Channel Type (R464); an unused one is at high impedance. -/
def emTerms (type : Nat) : List EmTerminal :=
  let t := fun (x : EmDrive) (s : Bool) => ({ drive := x, sense := s } : EmTerminal)
  match type with
  | 1 => [t .current true, t .highZ false, t .highZ false, t .currentReturn true]
  | 2 => [t .current true, t .highZ true, t .highZ false, t .currentReturn true]
  | 3 => [t .current false, t .highZ true, t .highZ true, t .currentReturn false]
  | 4 => [t .sine true, t .virtualGround true, t .highZ false, t .guard false]
  | 5 => [t .sine true, t .virtualGround true, t .highZ false, t .highZ false]
  | 6 => [t .sine true, t .highZ true, t .highZ true, t .antiSine true]
  | _ => [{}, {}, {}, {}]

/-- A channel's excitation or drive as its objects set it, from now on and without a break (R465, R466, R471): Excitation Current in
µA, or Drive Amplitude in mV and Drive Frequency. -/
def Dev.driveEm (d : Dev) (n : Fin 16) : Dev :=
  let type := d.emType n
  let level := if type = 0 then 0 else if type < 4 then d.get Reg.EM_IEXC n.val else d.get Reg.EM_VDRIVE n.val
  (d.setEm n { d.emChan n with terms := emTerms type }).emit
    (.terminals n.val (emTerms type) level (if 4 ≤ type then d.get Reg.EM_FDRIVE n.val else 0))

/-- Whether a blanking input blanks a channel that selects it (R475). -/
def Blank.active (b : Blank) (now : Nat) : Bool :=
  b.high || (match b.holdUntil with | some t => decide (now < t) | none => false)

/-- Whether a channel that selects the inputs `sel` is blanked. -/
def Dev.blanked (d : Dev) (sel : Nat) : Bool := (List.finRange 2).any fun i => bit sel i.val && (d.em.blanks[i.val]).active d.now

/-- A conversion of a channel starts when nothing holds it back (R474): the interval, a conversion in progress, a result
that waits to be posted, or blanking. -/
def Dev.emStart (d : Dev) (n : Fin 16) : Dev :=
  let c := d.emChan n
  let due := match c.startedAt with | some t => decide (t + d.ms c.interval ≤ d.now) | none => true
  let sel := d.get Reg.EM_BLANK_SEL n.val
  if d.mode == .boot || d.inReset || d.emType n == 0 || c.running.isSome || c.waiting.isSome || !due || d.blanked sel then d
  else d.setEm n { c with
    running := some d.now, startedAt := some d.now, swap := d.get Reg.EM_SWAP n.val == 1
    interval := d.get Reg.EM_INTERVAL n.val, blankSel := sel, spoiled := false, clamped := false }

/-- EM_CONVERSION_START (R474). -/
def execEmConversionStart (n : Fin 16) (s : State) : Result := s.on fun d => d.emStart n

/-- EM_CHANNEL_TYPE_WRITE (R464, R465, R480): the terminals take the roles of the new type, the conversion in progress is aborted,
VALID cleared, and one of the new type started. -/
def execEmChannelTypeWrite (w : Writer) (e : BitVec 16) (val : Bytes) (s : State) : Result :=
  s.on fun d => d.writeEach w Reg.EM_TYPE e.toNat val fun k d v =>
    let n : Fin 16 := Fin.ofNat 16 k
    let d := (d.set Reg.EM_TYPE k v).driveEm n
    (.accepted, (d.setEm n { d.emChan n with running := none, startedAt := none, valid := false }).emStart n)

/-! ### Blanking (R475, R476) -/

/-- A channel whose conversion has an integration sample in [a, b] is spoiled. -/
def Dev.spoil (d : Dev) (i : Fin 2) (a b : Nat) (n : Fin 16) : Dev :=
  let c := d.emChan n
  match c.running with
  | some t =>
    let meets := (d.emIntegrations n).any fun x => decide (t + x.1 ≤ b ∧ a ≤ t + x.2)
    if bit c.blankSel i.val && meets then d.setEm n { c with spoiled := true } else d
  | none => d

/-- The device with a blanking input replaced. -/
def Dev.setBlank (d : Dev) (i : Fin 2) (b : Blank) : Dev := { d with em := { d.em with blanks := d.em.blanks.set i.val b } }

/-- The blanking interval of an input ends: what it spoiled is known. -/
def Dev.endBlank (d : Dev) (i : Fin 2) : Dev :=
  let b := d.em.blanks[i.val]
  match b.start, b.holdUntil with
  | some a, some t =>
    if t ≤ d.now then
      forEach (List.finRange 16) (fun (n : Fin 16) (d : Dev) => d.spoil i a t n) (d.setBlank i { b with start := none, holdUntil := none })
    else d
  | _, _ => d

/-- Whether the hold of a blanking input ended no later than slot `t`. -/
def Blank.endedBy (b : Blank) (t : Nat) : Bool := match b.holdUntil with | some h => decide (h ≤ t) | none => false

/-- BLANK_RISE (R475): an input has stayed high for 1 µs after a rising edge. -/
def execBlankRise (i : Fin 2) (s : State) : Result :=
  s.on fun d =>
    if d.mode = .boot ∨ d.inReset ∨ (d.em.blanks[i.val]).high then d
    else
      let edge := d.now - d.us 1
      let d := if (d.em.blanks[i.val]).endedBy edge then d.endBlank i else d
      let b := d.em.blanks[i.val]
      (d.bump Reg.EM_BLANK_CNT i.val).setBlank i { high := true, start := b.start.or (some edge), holdUntil := none }

/-- BLANK_FALL (R475): the input falls and Blank Hold starts. -/
def execBlankFall (i : Fin 2) (s : State) : Result :=
  s.on fun d =>
    let b := d.em.blanks[i.val]
    if b.high then d.setBlank i { b with high := false, holdUntil := some (d.now + d.us (d.get Reg.EM_BLANK_HOLD)) } else d

/-- BLANK_HOLD_END (R475): Blank Hold has passed after the input fell. -/
def execBlankHoldEnd (i : Fin 2) (s : State) : Result := s.on fun d => d.endBlank i

/-! ### Resistance thermometers (R466 to R469) -/

/-- 16 × 10²⁷ times Rs / R₀ at `h` / 2 m°C, by IEC 60751 (R468). -/
def iecScaled (h : Int) : Int :=
  16 * 10 ^ 27 + 312664 * 10 ^ 17 * h - 23100 * 10 ^ 11 * h ^ 2 - (if h < 0 then 4183 * (h - 200000) * h ^ 3 else 0)

/-- The largest temperature t in [lo, lo + 2ⁿ) with `ok` t, `ok` falling; lo where none has it. -/
def searchTemp (ok : Int → Bool) : Nat → Int → Int
  | 0, lo => lo
  | n + 1, lo => if ok (lo + 2 ^ n) then searchTemp ok n (lo + 2 ^ n) else searchTemp ok n lo

/-- The temperature in m°C, to the nearest, of a ratio Rs / R₀, and whether it was limited (R468). -/
def iecTemp (q : Rat) : Int × Bool :=
  let x : Rat := q * ((16 * 10 ^ 27 : Nat) : Rat)
  if x < ((iecScaled (-400000) : Int) : Rat) then (-200000, true)
  else if ((iecScaled 1700000 : Int) : Rat) < x then (850000, true)
  else (min 850000 (searchTemp (fun t => decide (((iecScaled (2 * t - 1) : Int) : Rat) ≤ x)) 21 (-200000)), false)

/-- A rational rounded to the nearest integer. -/
def roundRat (x : Rat) : Int := roundHalfUp x.num x.den

/-- What a conversion gives: VALUE, AUX, AUX2, and the flags OVERRANGE, OPEN, SHORT and IEC_LIMIT of STATUS. -/
structure EmResult where
  value : Int
  aux : Int
  aux2 : Int
  flags : Nat
deriving DecidableEq, Repr

/-- An RTD conversion (R466 to R469): voltages in nV, the current in nA. `short0` stands for SHORT where no current flows and
no resistance comes out. -/
def emRtd (type : Nat) (swap : Bool) (iexc rnom : Nat) (v1p v1n vsp vsn : Int) (current peak : Nat) (short0 : Bool) : EmResult :=
  let v1n := if swap then v1n else -v1p
  let vsn := if swap then vsn else -vsp
  let rx : Int → Int → Rat := fun p n => ((p - n : Int) : Rat) * 1000 / ((2 * current : Nat) : Rat)
  let rs : Rat := match type with
    | 1 => rx v1p v1n
    | 2 => 2 * rx vsp vsn - rx v1p v1n
    | _ => rx vsp vsn
  let e := if type = 1 then v1p + v1n else vsp + vsn
  let open_ := decide (2200000000 ≤ peak) || decide (current * 10 < iexc * 9000)
  let sensed := match type with
    | 1 => [v1p, v1n]
    | 2 => [v1p, v1n, vsp, vsn]
    | _ => [vsp, vsn]
  let over_ := !open_ && sensed.any fun v => decide (2000000000 < v.natAbs)
  let short := if current = 0 then short0 else decide (rs * 100 < (rnom : Nat))
  let bad := open_ || over_ || short
  let t := iecTemp (rs / (rnom : Nat))
  { value := if bad then 0x7FFFFFFF else t.1
    aux := if bad then 0x7FFFFFFF else roundRat rs
    aux2 := limit (-32767) 32767 (roundHalfUp e 2000)
    flags := flag 8 (t.2 && !bad) + flag 2 over_ + flag 1 open_ + flag 0 short }

/-! ### Capacitive, inductive and bridge sensors (R471, R472) -/

/-- π to eighteen decimals. -/
def piNum : Rat := 3141592653589793238 / 1000000000000000000

/-- A quotient reported as a 32-bit value; `open_` stands for it where the spec states none: a divisor of zero, or a value
outside 32 bits. -/
def emQuot (num den : Rat) (open_ : Nat) : Int :=
  let v := roundRat (num / den)
  if den = 0 ∨ v < -2 ^ 31 ∨ 2 ^ 31 ≤ v then sgn 32 open_ else v

/-- A sine conversion (R472): sums of the sense signal in pA (nV for BRIDGE) and of the drive in nV. -/
def emSine (type f : Nat) (sI sQ dI dQ : Int) (peak open_ : Nat) : EmResult :=
  let over_ := decide ((if type = 6 then 1000000000 else 100000000) < peak)
  let re : Rat := ((sI * dI + sQ * dQ : Int) : Rat)
  let im : Rat := ((sQ * dI - sI * dQ : Int) : Rat)
  let dd : Rat := ((dI * dI + dQ * dQ : Int) : Rat)
  let ss : Rat := ((sI * sI + sQ * sQ : Int) : Rat)
  let w : Rat := 2 * piNum * (f : Nat)
  let (v, a) := match type with
    | 4 => (emQuot (im * 10 ^ 14) (dd * w) open_, emQuot (re * 10 ^ 6) dd (open_ / 2 ^ 32))
    | 5 => (emQuot (-im * 10 ^ 12) (ss * w) open_, emQuot (re * 10 ^ 6) ss (open_ / 2 ^ 32))
    | _ => (emQuot (re * 10 ^ 9) dd open_, emQuot (im * 10 ^ 9) dd (open_ / 2 ^ 32))
  { value := if over_ then 0x7FFFFFFF else v, aux := if over_ then 0x7FFFFFFF else a, aux2 := 0, flags := flag 2 over_ }

/-! ### Completion (R476 to R479) -/

/-- Whether a measurement is one of a Channel Type: an RTD's, or a sine's (R466, R471). -/
def measFits (type : Nat) : EmMeas → Bool
  | .rtd .. => decide (1 ≤ type ∧ type ≤ 3)
  | .sine .. => decide (4 ≤ type)

/-- EM_CONVERSION_COMPLETE (R473, R476 to R479): the last integration sample of a conversion has been taken and its result is
published, or withheld when a sample lay in a blanking interval. The measurement is of the kind the Channel Type takes. -/
def execEmConversionComplete (n : Fin 16) (meas : EmMeas) (s : State) : Result :=
  s.on fun d =>
    match (d.emChan n).running with
    | none => d
    | some t =>
      let stop := t + d.emTime n
      if d.mode = .boot ∨ d.inReset ∨ d.now < stop ∨ ¬ measFits (d.emType n) meas then d
      else
        let d := forEach (List.finRange 2) (fun i d =>
          match (d.em.blanks[i.val]).start with
          | some a => d.spoil i a (((d.em.blanks[i.val]).holdUntil).getD d.now) n
          | none => d) d
        let c := d.emChan n
        if c.spoiled then (d.bump Reg.EM_BLANKED n.val).setEm n { c with running := none, withheld := true }
        else
          let (r, d) := d.draw
          let x := match meas with
            | .rtd v1p v1n vsp vsn i peak =>
              emRtd (d.emType n) c.swap (d.get Reg.EM_IEXC n.val) (d.get Reg.EM_RNOM n.val) v1p v1n vsp vsn i peak (bit r 0)
            | .sine sI sQ dI dQ peak => emSine (d.emType n) (d.get Reg.EM_FDRIVE n.val) sI sQ dI dQ peak r
          let flags := x.flags + flag 5 c.withheld + flag 4 c.heldBefore + flag 3 c.clamped
          let d := d.wrap Reg.EM_CONV n.val
          let arg := d.get Reg.EM_CONV n.val % 65536 * 65536 + n.val
          let waits := d.mode != .safe && !d.envTasks.isEmpty
          (d.setEm n { c with
            running := none, value := x.value, aux := x.aux, aux2 := x.aux2, flags := flags, sampleAt := stop, valid := true
            withheld := false, heldBefore := false, waiting := if waits then some arg else none }).postEnv n

/-- EXCITATION_CLAMP (R470): a channel's excitation current, in nA, exceeds 1 mA, and the fence holds it there. -/
def execExcitationClamp (n : Fin 16) (current : BitVec 32) (s : State) : Result :=
  s.on fun d =>
    if d.mode = .boot ∨ d.inReset ∨ d.emType n = 0 ∨ 4 ≤ d.emType n ∨ current.toNat ≤ 1000000 then d
    else
      let d := (d.fence 0xFF 7 n.val).bump Reg.EM_IEXC_CLAMP
      let c := d.emChan n
      d.setEm n { c with clamped := c.clamped || c.running.isSome }

/-- The 16 bytes of Result at this slot (R477, R478). -/
def Dev.emResult (d : Dev) (n : Fin 16) : Bytes :=
  let c := d.emChan n
  let sel := if c.startedAt.isSome then c.blankSel else d.get Reg.EM_BLANK_SEL n.val
  let age := if c.valid then min ((d.now - c.sampleAt) * 1000 / d.get Reg.TB_FNOM) 0xFFFFFFFF else 0xFFFFFFFF
  beBytes 4 (unsgn 32 c.value) ++ beBytes 4 (unsgn 32 c.aux) ++ beBytes 2 (unsgn 16 c.aux2)
    ++ beBytes 2 (c.flags + flag 7 c.valid + flag 6 (d.blanked sel)) ++ beBytes 4 age

end Sys2Proof.Machine
end

