-- ==== Sys2Proof/Machine/Dictionary.lean ====
section
/-! DEFINITION. Reads of the object dictionary (R402 to R405, R438 to R453): the objects that are computed at the read, and
the bytes every read returns. -/

namespace Sys2Proof.Machine

/-! ### The ledger's records (R506, R507, R510) -/

/-- A record as its 64 bytes (R507). -/
def LedgerRec.bytes (r : LedgerRec) : Bytes :=
  let body := beBytes 2 0x4C47 ++ beBytes 1 1 ++ beBytes 1 r.flags ++ beBytes 4 (r.seq % 2 ^ 32) ++ beBytes 12 r.time
    ++ beBytes 4 r.aon ++ beBytes 1 r.source ++ beBytes 1 0 ++ beBytes 2 r.code ++ beBytes 4 r.count ++ beBytes 8 r.v1
    ++ beBytes 8 r.v2 ++ beBytes 8 r.v3 ++ beBytes 4 r.restarts
  body ++ beBytes 4 (crc32c body)

/-- Whether the ledger can be read from a flash device (R508). -/
def Dev.ledgerReadable (d : Dev) (i : Fin 2) : Bool := (d.flashDev i).accepted

/-- The records the flash devices hold, in ascending SEQ, each from whichever copy has it (R508). -/
def Dev.ledgerRecords (d : Dev) : List LedgerRec :=
  let a := if d.ledgerReadable 0 then d.ledger.copies[0] else []
  let b := if d.ledgerReadable 1 then d.ledger.copies[1] else []
  (a ++ b.filter fun r => !a.any fun x => x.seq == r.seq).insertionSort fun x y => x.seq ≤ y.seq

/-- The records not yet read (R510). -/
def Dev.ledgerUnread (d : Dev) : List LedgerRec := d.ledgerRecords.filter fun r => decide (d.ledger.readPos ≤ r.seq)

/-! ### Objects computed at the read -/

/-- Core Health (R400). -/
def Dev.coreHealth (d : Dev) (c : Nat) : Nat :=
  let k := d.sched.cores.toList.getD c {}
  if k.failed then 4 else if k.reload then 3 else if d.coreDisabled c then 5 else if k.job.isSome then 1
  else if d.eligible.any fun e => e.val == c then 0 else 2

/-- Task State (R373, R400). -/
def Dev.taskState (d : Dev) (t : Nat) : Nat :=
  match d.task t with
  | none => 0
  | some x =>
    let waits := (d.sched.data ++ d.sched.service ++ d.sched.spilled.flatten ++ d.sched.staging).any fun j => j.task == t
    if x.faulted then 4 else if d.runningJobs.any fun j => j.2.task == t then 3 else if waits then 2 else 1

/-- Source State (R270); 0 while reset holds, as after a restart (R439). -/
def Dev.sourceState (d : Dev) (s : Nat) : Nat :=
  let up := d.tu.links.toList.getD (s % 2) false
  let p := d.tb.ptp.toList.getD (s % 2) {}
  let y := d.tb.synce.toList.getD (s % 2) {}
  let qual := if s < 2 then p.qualified else y.qualified
  if d.inReset || !d.srcOn s then 0 else if !up then 1 else if !qual then 2 else if s < 2 && p.disagree then 4 else 3

/-- Source Qualified Time (R270), saturating. -/
def Dev.sourceTime (d : Dev) (s : Nat) : Nat :=
  let p := d.tb.ptp.toList.getD (s % 2) {}
  let y := d.tb.synce.toList.getD (s % 2) {}
  let since := fun (t : Nat) => min ((d.now - t) / d.second) 0xFFFFFFFF
  if s < 2 then (if p.qualified then since p.qualAt else 0) else if y.qualified then since y.qualAt else 0

/-- Redundancy Summary (R450). -/
def Dev.redundancy (d : Dev) : Nat :=
  let on := allPorts.filter fun p => d.get Reg.WP_EN p.val == 1
  let failed := d.keeper.health.toList.contains 2 || d.tu.health.toList.contains 2
  let memBad := (List.range 8).any fun m => d.get Reg.MEM_CH_STATE m == 3 || d.get Reg.MEM_CH_STATE m == 4
  flag 9 failed + flag 8 (on.any fun p => d.get Reg.WP_STATE p.val == 5) + flag 7 (on.any fun p => d.get Reg.WP_STATE p.val == 3)
    + flag 6 (d.get Reg.IMG_IN_USE != d.aon.preferred) + flag 5 memBad + flag 4 (d.get Reg.TB_REF_USE != d.get Reg.TB_REF_SEL)
    + flag 3 (allPorts.any fun p => (d.port p).activeDl == 1)
    + flag 2 (allPorts.any fun p => (logicalOn (d.laneMap p) 4).isSome)
    + flag 1 (d.tu.active == 1) + flag 0 (d.keeper.active == 1)

/-- The word of an object that is computed at the read; none for an object that is held. -/
def Dev.liveWord (d : Dev) (a e : Nat) : Option Nat :=
  if a = Reg.ID_DICT_VER then some (d.get Reg.BE_FW_VER / 2 ^ 16 * 2 ^ 16)
  else if a = Reg.ID_UPTIME then some (d.now / d.second)
  else if a = Reg.COM_GUARD_CHAL then some d.keeper.challenge
  else if a = Reg.COM_CLIENTS then some (d.keeper.clients.toList.filter Option.isSome).length
  else if a = Reg.BT_RESTARTS then some d.aon.restarts
  else if a = Reg.BT_FAILED then some d.failedStarts
  else if a = Reg.BT_REASON then some d.aon.reason
  else if a = Reg.LG_UNREAD then some d.ledgerUnread.length
  else if a = Reg.LG_SEQ then some d.ledger.seq
  else if a = Reg.LG_LOST then some d.aon.lost
  else if a = Reg.IMG_PREFER then some d.aon.preferred
  else if a = Reg.IMG_TRIAL_STATE then some d.aon.trialState
  else if a = Reg.MD_MODE then some (modeCode d.mode)
  else if a = Reg.MD_PENDING then some (match d.modePend with | some m => modeCode m.target | none => 0)
  else if a = Reg.MD_PENDING_CYC then some d.pendingCycle
  else if a = Reg.TB_STATUS then some d.timeStatus
  else if a = Reg.TB_STATE then some (tbStateCode d.tb.state)
  else if a = Reg.TB_UNCERT then some d.uncertainty
  else if a = Reg.TB_HO_TIME then some d.holdoverSecs
  else if a = Reg.TB_FRC then some (counterAt d.now)
  else if a = Reg.TB_OFS_INT then some (unsgn 64 (d.tbNow.ofs / 65536))
  else if a = Reg.TB_OFS_FRAC then some (d.tbNow.ofs % 65536).toNat
  else if a = Reg.TB_RATE then some (unsgn 64 d.tbNow.rate)
  else if a = Reg.TB_SRC_STATE then some (d.sourceState e)
  else if a = Reg.TB_SRC_QTIME then some (d.sourceTime e)
  else if a = Reg.TB_HEALTH then some (d.tu.health.toList.getD e 0)
  else if a = Reg.MEM_INSTALLED then some (sumBy (fun m => d.get Reg.MEM_CH_SIZE m) (List.range 8))
  else if a = Reg.ST_STATUS then some (d.stallStatus e)
  else if a = Reg.ST_STORED then some (d.stored e)
  else if a = Reg.SCR_STATUS then some d.scrubStatus
  else if a = Reg.MG_EGR_WAIT then some (d.get a + match d.merge.waitFrom with
    | some t => d.now - t
    | none => 0)
  else if a = Reg.BE_PAUSE_TIME then some (d.get a e + match (d.net.toList.getD e {}).pause with
    | some p => d.pauseDone p
    | none => 0)
  else if a = Reg.TRG_PAUSE then some (d.get a + match d.mem.pauseFrom with
    | some t => d.now - t
    | none => 0)
  else if a = Reg.SC_HEALTH then some (d.coreHealth e)
  else if a = Reg.SC_CORE_BUSY then some (d.get a e + match (d.sched.cores.toList.getD e {}).job with
    | some (_, since) => d.now - since
    | none => 0)
  else if a = Reg.SC_TASK_STATE then some (d.taskState e)
  else if a = Reg.SC_SRC_HELD then some (d.get a e + match d.sched.heldFrom.toList.getD e none with
    | some t => d.now - t
    | none => 0)
  else if a = Reg.SC_SVC_ONCHIP then some d.sched.service.length
  else if a = Reg.SC_SVC_SPILLED then some (d.sched.spilled.flatten.length + d.sched.staging.length)
  else if a = Reg.SC_TRACE_FILL then some d.traceFill
  else if a = Reg.GV_FE_COMMIT then some (d.committed (Fin.ofNat 32 e)).floor.toNat
  else if a = Reg.GV_LEVEL then some (d.levelAt (Fin.ofNat 32 (e / 16)) (e % 16) d.now)
  else if Reg.CV_WIDTH ≤ a ∧ a ≤ Reg.CV_REFOUT then some ((d.cvParams e).getD (a - Reg.CV_WIDTH) 0)
  else if a = Reg.CV_STATE then some (d.cvu.toList.getD e {}).state
  else if a = Reg.RD_KEEPER then some d.keeper.active.val
  else if a = Reg.RD_KP_HEALTH then some (d.keeper.health.toList.getD e 0)
  else if a = Reg.RD_SUMMARY then some d.redundancy
  else if a = Reg.CYCLE_NUM then some d.grid.cycle
  else if a = Reg.CYCLE_SLOT then some d.slot
  else if a = Reg.FRAME_IDX then some (d.slot / 256)
  else if a = Reg.FRAMES_PER_CYC then some (framesOf d.grid.len)
  else none

/-- The bytes a read of a concentrator object returns (R404); reads with an effect of their own have it elsewhere. -/
def Dev.readBytes (d : Dev) (r : ObjRow) (e : Nat) : Bytes :=
  match r.ty with
  | .string => if r.addr = Reg.ID_VENDOR then [0x4F, 0x6C, 0x69, 0x6D, 0x6F, 0x6E, 0x64] else [0x56, 0x43, 0x31, 0x32, 0x38]
  | .time96 => beBytes 12 (if r.addr = Reg.TB_NOW then time96 d.reading else d.get r.addr e)
  | .domain =>
    if r.addr = Reg.EM_RESULT then d.emResult (Fin.ofNat 16 e)
    else if r.addr = Reg.TIM_STATS then (d.settleTims.tu.tim.toList.getD e {}).stats
    else []
  | .bool | .u8 | .u16 | .u32 | .u64 | .i16 | .i32 | .i64 => beBytes r.ty.bytes ((d.liveWord r.addr e).getD (d.get r.addr e))

end Sys2Proof.Machine
end

