-- ==== Sys2Proof/Machine/Ledger.lean ====
section
/-! DEFINITION. The ledger in flash (R506 to R510): writing a waiting record to both copies, reading the oldest unread
records, and marking every record unread. -/

namespace Sys2Proof.Machine

/-- Whether the Keeper writes the ledger to a flash device (R508). -/
def Dev.ledgerUses (d : Dev) (i : Fin 2) : Bool := d.ledger.devices[i.val] && (d.flashDev i).accepted

/-- The sector a record lies in (R506). -/
def sectorOf (seq : Nat) : Nat := seq / 64 % 1024

/-- A device's records once the sector of record `seq` is erased, when that record is its sector's first. -/
def eraseFor (recs : List LedgerRec) (seq : Nat) : List LedgerRec :=
  if seq % 64 = 0 then recs.filter fun x => sectorOf x.seq != sectorOf seq else recs

/-- A device's records after a record is written: its sector is erased first when the record is its sector's first. -/
def ledgerPut (recs : List LedgerRec) (r : LedgerRec) : List LedgerRec := eraseFor recs r.seq ++ [r]

/-- The ledger written to one device, or the device lost to it (R508). -/
def Dev.ledgerTo (d : Dev) (i : Fin 2) (ok : Bool) (r : LedgerRec) : Dev :=
  if !d.ledgerUses i then d
  else if ok then { d with ledger := { d.ledger with copies := d.ledger.copies.set i.val (ledgerPut d.ledger.copies[i.val] r) } }
  else ({ d with ledger := { d.ledger with devices := d.ledger.devices.set i.val false } }).log 0xFF 0x0A03 i.val

/-- A record whose write is cut off leaves a torn copy that is skipped (R502): its SEQ is used up, and its sector was erased before
it; unread records erased with a sector are counted as lost. -/
def Dev.tornWrite (d : Dev) : Dev :=
  let clear := fun (i : Fin 2) (d : Dev) =>
    if d.ledgerUses i then
      { d with ledger := { d.ledger with copies := d.ledger.copies.set i.val (eraseFor d.ledger.copies[i.val] d.ledger.seq) } }
    else d
  let before := d.ledgerUnread.length
  let d := clear 1 (clear 0 d)
  let lost := min (d.aon.lost + (before - d.ledgerUnread.length)) (2 ^ 32 - 1)
  { d with aon := { d.aon with lost := lost }, ledger := { d.ledger with seq := d.ledger.seq + 1 } }

/-- Whether the boot has come past the scan of the ledger (R487, step 3). -/
def Dev.ledgerOpen (d : Dev) : Bool := !d.inReset && match d.boot.step with | some n => decide (3 < n) | none => true

/-- LEDGER_WRITE (R506, R507, R508): the active Keeper writes the oldest waiting record to both copies; `okA` and `okB` say
whether a device's write succeeds. Unread records erased with a sector are counted as lost. -/
def execLedgerWrite (okA okB : Bool) (s : State) : Result :=
  s.on fun d =>
    match d.ledger.buffer with
    | [] => d
    | r :: rest =>
      if !d.ledgerOpen || !(d.ledgerUses 0 || d.ledgerUses 1) then d
      else
        let r := { r with seq := d.ledger.seq, flags := setBit r.flags 2 (d.keeper.active == 1) }
        let written := (d.ledgerUses 0 && okA) || (d.ledgerUses 1 && okB)
        let before := d.ledgerUnread.length
        let d := if written then
            { d with ledger := { d.ledger with buffer := rest, seq := d.ledger.seq + 1 } }
          else d
        let d := (d.ledgerTo 0 okA r).ledgerTo 1 okB r
        let gone := before + (if written then 1 else 0) - d.ledgerUnread.length
        { d with aon := { d.aon with lost := min (d.aon.lost + gone) (2 ^ 32 - 1) } }

/-- LEDGER_READ (R510): a read of Ledger Read returns up to 16 whole records from the oldest unread one and marks them
read. -/
def execLedgerRead (w : Writer) (s : State) : Result :=
  s.on fun d =>
    let rs := d.ledgerUnread.take 16
    let pos := match rs.getLast? with | some r => r.seq + 1 | none => d.ledger.readPos
    ({ d with ledger := { d.ledger with readPos := pos } }).answer w .accepted (rs.flatMap LedgerRec.bytes)

/-- LEDGER_REWIND (R510): every record in flash becomes unread. -/
def execLedgerRewind (w : Writer) (val : Bytes) (s : State) : Result :=
  s.on fun d => d.write w Reg.LG_REWIND 0 val fun d _ => (.accepted, { d with ledger := { d.ledger with readPos := 0 } })

end Sys2Proof.Machine
end

