-- ==== Sys2Proof/Machine/Marori.lean ====
section
/-! DEFINITION. The control path (chapter 13): Marori messages over UDP and CAN FD, clients and transactions, the guard, and
the requests that have no behaviour of their own. -/

namespace Sys2Proof.Machine

/-! ### Arrival (R409 to R421, steps 1 to 6) -/

/-- Whether a Keeper serves requests: it has come past loading the KEEPER section (R487, step 5). -/
def Dev.serves (d : Dev) : Bool := !d.inReset && match d.boot.step with | some n => decide (5 < n) | none => true

/-- A message discarded (R412, R414). -/
def Dev.badMessage (d : Dev) : Dev := d.bump Reg.COM_MSG_ERR

/-- The field of `n` bytes at `off`. -/
def bytesAt (b : Bytes) (off n : Nat) : Nat := beNat ((b.drop off).take n)

/-- Step 1 of R421: MAGIC, length and CRC. -/
def messageValid (b : Bytes) : Bool :=
  let n := bytesAt b 16 2
  decide (22 ≤ b.length) && bytesAt b 0 2 == 0x4D52 && decide (n ≤ 1024) && b.length == 22 + n
    && beNat (b.drop (18 + n)) == crc32c (b.take (18 + n))

/-- The request a message carries (R409). -/
def requestOf (c : Fin 16) (b : Bytes) : Request :=
  { client := c, tid := BitVec.ofNat 16 (bytesAt b 4 2), alive := bytesAt b 3 1 / 16, op := bytesAt b 6 1
    node := bytesAt b 7 1, port := bytesAt b 8 1, index := bytesAt b 10 2, sub := bytesAt b 12 1
    elem := bytesAt b 14 2, value := (b.drop 18).take (bytesAt b 16 2) }

/-- Whether the entry of a silent client may be taken (R415): every outcome of its transactions is known (log entry 79). -/
def Dev.idleClient (d : Dev) (c : Client) : Bool :=
  decide (c.heardAt + d.second * 10 ≤ d.now) && !c.txns.any fun t => t.unknown || t.response.isNone

/-- Whether a transaction's entry has outlived its 10 s (R417). -/
def Dev.expired (d : Dev) (t : Txn) : Bool :=
  t.response.isSome && !t.unknown && decide (t.sentAt + 10 * d.second ≤ d.now)

/-- The entry of a client: its own, a free one, or that of a silent client (R415). -/
def Dev.clientEntry (d : Dev) (id : ClientId) : Option (Fin 16) :=
  let at_ := fun (c : Fin 16) => d.keeper.clients[c.val]
  let pick := fun (f : Option Client → Bool) => (List.finRange 16).find? fun c => f (at_ c)
  match pick fun x => match x with | some k => k.id == id | none => false with
  | some c => some c
  | none =>
    match pick Option.isNone with
    | some c => some c
    | none => pick fun x => match x with | some k => d.idleClient k | none => false

/-- The transactions kept (R417): the last 64 TIDs, those in progress, and those that are or have been unresolved. -/
def keptTxns (l : List Txn) : List Txn :=
  (l.zipIdx.filter fun x => decide (l.length ≤ x.2 + 64) || x.1.wasUnknown || x.1.response.isNone).map Prod.fst

/-- Steps 5 and 6 of R421 for a new transaction of client `c`. -/
def Dev.admitRequest (d : Dev) (c : Fin 16) (cl : Client) (q : Request) : Dev :=
  let delta := match cl.alive with | some a => (q.alive + 16 - a) % 16 | none => 1
  let refuse := fun (d : Dev) (st : Status) => d.reply cl (responseBytes q 0 st [])
  if delta = 0 then refuse (d.bump Reg.COM_ALIVE_REJ) .repeat
  else if 8 ≤ delta then refuse (d.bump Reg.COM_ALIVE_REJ) .stale
  else if 64 ≤ d.keeper.queue.length then refuse (d.bump Reg.COM_BUSY) .busy
  else
    let d := if 2 ≤ delta then d.bump Reg.COM_SKIPS else d
    let txn : Txn := { tid := q.tid, response := none, status := .accepted, sentAt := d.now, unknown := false }
    let d := d.updClient c fun (k : Client) => { k with alive := some q.alive, txns := keptTxns (k.txns ++ [txn]) }
    let d := { d with keeper := { d.keeper with queue := d.keeper.queue ++ [q] } }
    if 1 ≤ q.op ∧ q.op ≤ 4 then d else d.answer (.client c q.tid) .notPresent

/-- Steps 1 to 6 of R421 for a message (R415 to R419). -/
def Dev.receiveMessage (d : Dev) (id : ClientId) (via : Via) (mac prio : Nat) (b : Bytes) : Dev :=
  let fresh : Client := { id := id, via := via, alive := none, heardAt := d.now, mac := mac, prio := prio }
  let q := requestOf 0 b
  if !messageValid b || q.node != d.get Reg.COM_NODE then d.badMessage
  else if bytesAt b 2 1 ≠ 1 then d.reply fresh (responseBytes q 0 .version [])
  else
    match d.clientEntry id with
    | none => (d.bump Reg.COM_NORES).reply fresh (responseBytes q 0 .noResource [])
    | some c =>
      let cl := match d.keeper.clients[c.val] with
        | some k => if k.id = id then { k with heardAt := d.now, via := via, mac := mac, prio := prio } else fresh
        | none => fresh
      let cl := { cl with txns := cl.txns.filter fun t => !d.expired t }
      let d := { d with keeper := { d.keeper with clients := d.keeper.clients.set c.val (some cl) } }
      let q := { q with client := c, arrived := d.now, via := via, mac := mac, prio := prio }
      match cl.txns.find? fun t => t.tid == q.tid with
      | some t =>
        match t.response with
        | some r => (d.bump Reg.COM_REPLAYS).reply cl (withFlags r 1)
        | none => d.bump Reg.COM_INPROG
      | none => d.admitRequest c cl q

/-- MARORI_MESSAGE_RECEIVE (R412, R415 to R421): a datagram to UDP port 40917 on a back-end port with link and an address; in SAFE
the ports other than 0 are powered down once the drain has ended. -/
def execMaroriMessageReceive (be : Fin 8) (ip : BitVec 32) (udp : BitVec 16) (mac : BitVec 48) (bytes : Bytes) (s : State) :
    Result :=
  s.on fun d =>
    if !d.serves || d.portIp be == 0 || d.get Reg.BE_MODE be.val == 0
        || (d.mode == .safe && !d.draining && be.val != 0) || d.get Reg.BE_LINK be.val != 1 then d
    else d.receiveMessage (.udp ip.toNat udp.toNat) (.udp be) mac.toNat 0 bytes

/-! ### CAN FD (R413, R414) -/

/-- The assemblies without that of one client of a bus. -/
def Dev.dropAssembly (d : Dev) (bus client : Nat) : Dev :=
  { d with keeper := { d.keeper with
    assemblies := d.keeper.assemblies.filter fun a => !(a.bus == bus && a.client == client) } }

/-- A whole message from a bus: the message length is LENGTH's (R414). -/
def Dev.receiveCan (d : Dev) (bus : Fin 2) (client prio : Nat) (b : Bytes) : Dev :=
  d.receiveMessage (.can bus.val client) (.can bus) 0 prio (b.take (22 + bytesAt b 16 2))

/-- CAN_FD_FRAME_RECEIVE (R413, R414): a data frame for the node; segments are assembled in order within 10 ms of each
other, and a request out of order or too long is discarded. -/
def execCanFdFrameReceive (bus : Fin 2) (id : BitVec 29) (data : Bytes) (s : State) : Result :=
  s.on fun d =>
    let i := id.toNat
    let client := field i 16 9
    let prio := field i 28 26
    let seg := field i 8 7
    let num := field i 6 1
    if !d.serves || !bit (d.get Reg.COM_CAN_EN) bus.val || bit i 25 || field i 24 17 != d.get Reg.COM_NODE then d
    else
      let old := d.keeper.assemblies.find? fun a => a.bus == bus.val && a.client == client
      let clean := d.dropAssembly bus.val client
      if seg < 2 then
        let d := if old.isSome then clean.badMessage else d
        if num ≠ 0 then d.badMessage
        else if seg = 0 then d.receiveCan bus client prio data
        else if data.length ≠ 64 then d.badMessage
        else
          let a : CanAssembly := { bus := bus.val, client := client, prio := prio, bytes := data, segNum := 0, at_ := d.now }
          { d with keeper := { d.keeper with assemblies := d.keeper.assemblies ++ [a] } }
      else match old with
        | none => d.badMessage
        | some a =>
          let bytes := a.bytes ++ data
          if num ≠ (a.segNum + 1) % 64 ∨ a.at_ + d.ms 10 < d.now ∨ 1048 < bytes.length ∨ (seg = 2 ∧ data.length ≠ 64) then
            clean.badMessage
          else if seg = 3 then clean.receiveCan bus client prio bytes
          else
            let a := { a with bytes := bytes, segNum := num, at_ := d.now }
            { clean with keeper := { clean.keeper with assemblies := clean.keeper.assemblies ++ [a] } }

/-- CAN_SEGMENT_TIMEOUT (R414): more than 10 ms have passed since the last segment. -/
def execCanSegmentTimeout (bus : Fin 2) (client : BitVec 8) (s : State) : Result :=
  s.on fun d =>
    match d.keeper.assemblies.find? fun a => a.bus == bus.val && a.client == client.toNat with
    | some a => if a.at_ + d.ms 10 < d.now then (d.dropAssembly bus.val client.toNat).badMessage else d
    | none => d

/-! ### Addresses (R402, R403, R438) -/

/-- Whether an index lies at a port: front-end indexes at 0x00 to 0x1F, the others at 0xFF. -/
def indexAt (port index : Nat) : Bool :=
  if 0x4000 ≤ index then decide (port < 32) && decide (index ≤ 0x4FFF) else port == 0xFF

/-- The row of an addressed object; subindex 0 of an index that exists is a U8 of its highest subindex (R402). -/
def locate (port index sub : Nat) : Option ObjRow :=
  if !indexAt port index then none
  else if sub = 0 then (topSub index).map fun _ => ⟨index * 256, .u8, .ro, 1, 0, 0, 255⟩
  else objRow (index * 256 + sub)

/-- The commands that a read of an object is, which have their own rows (R266, R390, R510). -/
def ownRead : List Nat := [Reg.TIM_QUEUE, Reg.SC_TRACE_READ, Reg.LG_READ]

/-- The commands that a write of an object is, which have their own rows. -/
def ownWrite : List Nat :=
  [Reg.COM_GUARD_TOKEN, Reg.BT_RESTART, Reg.LG_REWIND, Reg.IMG_PREFER, Reg.IMG_TRIAL, Reg.IMG_CONFIRM, Reg.IMG_ERASE,
   Reg.IMG_DATA, Reg.IMG_VERIFY, Reg.MD_REQUEST, Reg.TB_ACCEPT_STEP, Reg.TB_PRESET, Reg.TB_REF_SEL, Reg.TB_SWAP,
   Reg.TIM_RESTART, Reg.WP_RELEASE, Reg.WP_LANE_SWAP, Reg.WP_DL_SWAP, Reg.WP_DLY_CAL, Reg.ROUTE_COMMIT]
  ++ [Reg.RT_EGRESS, Reg.RT_MAC, Reg.RT_IP, Reg.RT_UDP, Reg.RT_VLAN, Reg.RT_DSCP, Reg.ST_CAP, Reg.ST_BW,
   Reg.SC_TASK_RESTORE, Reg.GV_FENCE_MAX, Reg.CV_ALIVE_RESET, Reg.EM_TYPE, Reg.RD_KP_SWAP, Reg.ECC_DIAG_EN,
   Reg.ECC_DIAG_CMD, Reg.BE_FMT_PIN, Reg.CYCLE_LEN, Reg.CAL_COMMIT, Reg.FE_INJECT]

/-! ### Reads -/

/-- Whether an object holds no value to read (R408, ACCESS): WO, CMD, and GUARDED objects that hold none (R439). -/
def writeOnly (r : ObjRow) : Bool :=
  r.access == .wo || r.access == .cmd || r.addr == Reg.BT_RESTART || r.addr == Reg.IMG_CONFIRM || r.addr == Reg.IMG_ERASE
    || r.addr == Reg.IMG_TRIAL || r.addr == Reg.TB_ACCEPT_STEP || r.addr == Reg.TB_PRESET

/-- A read of Guard Challenge by a client (R424), step 1. -/
def Dev.noteChallenge (d : Dev) (w : Writer) : Dev :=
  match w with
  | .client c _ => d.updClient c fun (k : Client) => { k with challengeRead := some (d.keeper.challenge, d.now) }
  | .core | .keeper => d

/-- MARORI_READ (R402 to R405, R421, R426): a dequeued READ: NOT_PRESENT, RANGE or ACCESS, else the value, or for a front
end a READ message on its port. Reads with an effect of their own are commands of their own. -/
def execMaroriRead (w : Writer) (port : BitVec 8) (index : BitVec 16) (sub : BitVec 8) (elem : BitVec 16) (s : State) :
    Result :=
  s.on fun d =>
    let e := elem.toNat
    match locate port.toNat index.toNat sub.toNat with
    | none => d.answer w .notPresent
    | some r =>
      if r.elems ≤ e then d.answer w .range
      else if writeOnly r then d.answer w .access
      else if ownRead.contains r.addr then d
      else if h : port.toNat < 32 then
        let p : Port := ⟨port.toNat, h⟩
        if d.portUp p then d.cfgQueue p [cfgMsg 2 r.addr e [] (.request w)] else d.answer w .portDown
      else if sub = 0 then d.answer w .accepted (beBytes 1 ((topSub index.toNat).getD 0))
      else
        let val := d.readBytes r e
        let d := if r.addr = Reg.COM_GUARD_CHAL then d.noteChallenge w else d
        d.answer w .accepted val

/-! ### Writes (R403 to R406, R421) -/

/-- An element for which an array object is RO (R403, R346). -/
def roElem (a e : Nat) : Bool := (a == Reg.ST_PRIO || a == Reg.ST_CAP || a == Reg.ST_BW) && e == 2

/-- Whether an engine's parameters fit its width (R447). -/
def Dev.cvFits (d : Dev) (e : Nat) : Bool :=
  let top := 2 ^ d.get Reg.CV_WIDTH e
  decide (d.get Reg.CV_POLY e < top) && bit (d.get Reg.CV_POLY e) 0 && decide (d.get Reg.CV_INIT e < top)
    && decide (d.get Reg.CV_XOROUT e < top)

/-- The object's own conditions of step 10 of R421, in the device `d` as it would be after the write of `v`. -/
def Dev.condition (d : Dev) (a e v : Nat) : Option Status :=
  let range := fun (ok : Bool) => if ok then none else some Status.range
  if a = Reg.COM_CAN_NBR ∨ a = Reg.COM_CAN_DBR then
    range ([125000, 250000, 500000, 1000000].contains (d.get Reg.COM_CAN_NBR)
      && [1000000, 2000000, 4000000, 5000000].contains (d.get Reg.COM_CAN_DBR)
      && decide (d.get Reg.COM_CAN_NBR ≤ d.get Reg.COM_CAN_DBR))
  else if a = Reg.ST_RSV then range (v % 64 == 0 && decide (d.stallSum Reg.ST_RSV ≤ 16384) && (decide (2 < e) || v == 0))
  else if a = Reg.SC_SPILL_Q then range (v % 2 == 0)
  else if a = Reg.SC_TRACE_FILT then range (v % 2 == 0)
  else if a = Reg.ECC_DIAG_ADDR then
    range (d.get Reg.ECC_DIAG_CH != 8 || decide (d.get Reg.ECC_DIAG_ADDR < 8192))
  else if a = Reg.CAL_ARG ∨ a = Reg.CAL_ACTION then range (argOk (d.get Reg.CAL_ACTION e) (d.get Reg.CAL_ARG e))
  else if a = Reg.CAL_PHASE then range (decide (v < 2 ^ d.get Reg.CAL_EVERY e))
  else if a = Reg.CAL_LEAD then range (decide (v ≤ 127 * d.cycleLen))
  else if a = Reg.GV_T_WARM ∨ a = Reg.GV_T_HOT ∨ a = Reg.GV_T_CRIT then
    range (decide (d.getI Reg.GV_T_WARM < d.getI Reg.GV_T_HOT) && decide (d.getI Reg.GV_T_HOT < d.getI Reg.GV_T_CRIT))
  else if a = Reg.TPO_MODE ∨ a = Reg.TPO_N ∨ a = Reg.TPO_WIDTH then range (d.pulseFits e)
  else if a = Reg.TB_FNOM then range d.pulsesFit
  else if a = Reg.TIM_MODE ∨ a = Reg.TIM_SLOPE then range (d.get Reg.TIM_MODE e != 4 || d.get Reg.TIM_SLOPE e == 2)
  else if Reg.CV_WIDTH ≤ a ∧ a ≤ Reg.CV_REFOUT then
    if d.get Reg.CV_PRESET e ≠ 0 then some .wrongMode else range (d.cvFits e)
  else if a = Reg.EM_IEXC ∨ a = Reg.EM_RNOM then range (decide (d.get Reg.EM_IEXC e * d.get Reg.EM_RNOM e ≤ 500000000))
  else if a = Reg.SC_SRC_LIM then range (decide (sumBy (fun k => d.get Reg.SC_SRC_LIM k) (List.range 4) ≤ 1024))
  else if a = Reg.IMG_WOFS then range (v % 4 == 0)
  else if a = Reg.BE_MODE then range (e != 0 || v != 0)
  else if a = Reg.BE_SRC_MAC then range (decide (v < 2 ^ 48) && !bit v 40)
  else if a = Reg.WP_TEST ∨ a = Reg.BE_TEST then (if d.mode = .loopback then none else some .wrongMode)
  else none

/-- The word stored by a write: bits that 1 clears (R224, R368), else the value. -/
def Dev.stored1 (d : Dev) (a e v : Nat) : Nat :=
  let w := d.get a e
  if a = Reg.WP_STATUS then setBit w 10 (bit w 10 && !bit v 10)
  else if a = Reg.GV_FENCE_STAT then [0, 2, 3, 4, 5].foldl (fun w i => setBit w i (bit w i && !bit v i)) w
  else v

/-- A port enabled or disabled (R203): it trains from the start, or its links fall idle. -/
def Dev.enablePort (d : Dev) (p : Port) : Dev :=
  if d.get Reg.WP_EN p.val = 1 then (if d.get Reg.WP_STATE p.val = 0 then d.startTraining p else d)
  else
    let d := d.updPort p fun (c : CPort) => { c with dls := c.dls.map LinkState.down, uls := c.uls.map LinkState.down }
    (d.setPortState p 0).linkRefresh p

/-- What follows from a write of an object that held `old`, element by element. -/
def Dev.written (d : Dev) (a e old : Nat) : Dev :=
  if a = Reg.TRG_HOLD ∨ a = Reg.TRG_BACKLOG ∨ a = Reg.TB_FNOM then d.computeIndex.rescale
  else if a = Reg.ST_PRIO then d.rescale
  else if a = Reg.SCR_RATE ∨ a = Reg.SCR_WIN_RATE then ((d.set a e old).payScrub.set a e (d.get a e)).publishGates
  else if a = Reg.GV_MIN_CORES then d.publishGates
  else if a = Reg.SC_TRACE_MODE then (d.set a e old).settleGap.set a e (d.get a e)
  else if a = Reg.SC_SRC_LIM then d.sourceFreed (Fin.ofNat 4 e)
  else if a = Reg.TB_SRC_EN then d.sourcesChanged
  else if a = Reg.TB_CYC_SRC then (if old = d.get Reg.TB_CYC_SRC then d else d.startAligning)
  else if a = Reg.EM_IEXC ∨ a = Reg.EM_FDRIVE ∨ a = Reg.EM_VDRIVE then (if d.get Reg.EM_TYPE e = 0 then d else d.driveEm (Fin.ofNat 16 e))
  else if a = Reg.WP_TEST then d.linkTests
  else if a = Reg.BE_TEST then d.backEndTests
  else if a = Reg.WP_EN then d.enablePort (Fin.ofNat 32 e)
  else if a = Reg.BE_MODE then (if d.get Reg.BE_MODE e = 0 then d.set Reg.BE_LINK e 0 else d)
  else d.tellFes a e

/-- The first condition of an object that a write breaks for any of the elements it names. -/
def Dev.firstBreach (d : Dev) (a v : Nat) (es : List Nat) : Option Status := es.findSome? fun k => d.condition a k v

/-- Outcome and effect of a write of an object of the concentrator once the dictionary row has let the value through:
refused whole when a condition breaks for any element (R403), RO elements left as they are. -/
def Dev.putObject (d : Dev) (r : ObjRow) (e v : Nat) : Status × Dev :=
  let a := r.addr
  let es := (elemsOf r e).filter fun k => !roElem a k
  let after := forEach es (fun k (d : Dev) => d.set a k (d.stored1 a k v)) d
  match after.firstBreach a v es with
  | some st => (st, d)
  | none => (.accepted, forEach es (fun k x => x.written a k (d.get a k)) after)

/-- The outcome of a DOMAIN's length at the Keeper (R404, R437, R175). -/
def domainCheck (a e n : Nat) : Option Status :=
  if a = Reg.FE_STAGE then (if 1 ≤ n ∧ n ≤ 240 ∧ e + n ≤ 1024 then none else some .range)
  else if a = Reg.FE_SNAP_COEF then (if n = 512 then none else some .range)
  else none

/-- A write of Diagnostic Command with a value that names none of its commands is checked and refused (R9, R348); any other object
with commands of its own is left to them. -/
def Dev.writeDiag (d : Dev) (w : Writer) (r : ObjRow) (val : Bytes) : Dev :=
  if r.addr = Reg.ECC_DIAG_CMD ∧ ¬ [beBytes 1 1, beBytes 1 2, beBytes 1 3].contains val then d.write w r.addr 0 val fun d _ => refuse .range d
  else d

/-- MARORI_WRITE (R403 to R406, R421, R426): a dequeued WRITE of an object with no behaviour of its own, checked and applied,
or for a front end a WRITE message on its port. A nonzero element of an object that is no array is answered RANGE here, for the objects
with commands of their own too (R403). -/
def execMaroriWrite (w : Writer) (port : BitVec 8) (index : BitVec 16) (sub : BitVec 8) (elem : BitVec 16) (val : Bytes)
    (s : State) : Result :=
  s.on fun d =>
    let e := elem.toNat
    match locate port.toNat index.toNat sub.toNat with
    | none => d.answer w .notPresent
    | some r =>
      if sub = 0 then d.answer w (if e = 0 then .access else .range)
      else if ownWrite.contains r.addr then (if r.elems = 1 ∧ e ≠ 0 then d.answer w .range else d.writeDiag w r val)
      else if roElem r.addr e then d.answer w .access
      else if h : port.toNat < 32 then
        let p : Port := ⟨port.toNat, h⟩
        match d.gate w r.addr e val with
        | (some st, d) => d.answer w st
        | (none, d) =>
          match domainCheck r.addr e val.length with
          | some st => d.answer w st
          | none => if d.portUp p then d.cfgQueue p (writeMsgs r.addr e val (.request w)) else d.answer w .portDown
      else d.write w r.addr e val fun d v => d.putObject r e v

/-! ### NOP and TRIGGER (R411, R329) -/

/-- MARORI_NOP (R411). -/
def execMaroriNop (w : Writer) (s : State) : Result := s.on fun d => d.answer w .accepted

/-- Whether a writer's requests come over CAN FD. -/
def Dev.onCan (d : Dev) (w : Writer) : Bool :=
  match w with
  | .client c _ =>
    match d.keeper.clients[c.val] with
    | some k => match k.via with | .can _ => true | .udp _ => false
    | none => false
  | .core | .keeper => false

/-- The slot in which a writer's request arrived. -/
def Dev.arrivalOf (d : Dev) (w : Writer) : Nat :=
  match w with
  | .client c tid =>
    match d.keeper.queue.find? fun q => q.client == c && q.tid == tid with
    | some q => q.arrived
    | none => d.now
  | .core | .keeper => d.now

/-- MARORI_TRIGGER (R329, R330, R411): a dequeued TRIGGER, whose window is converted to grid slots with the cycle length in
force, no cycle shortened. -/
def execMaroriTrigger (w : Writer) (port : BitVec 8) (index : BitVec 16) (sub : BitVec 8) (elem : BitVec 16) (payload : Bytes)
    (s : State) : Result :=
  s.on fun d =>
    let tag := bytesAt payload 0 4
    let ahead := sgn 40 (bytesAt payload 4 5 + 2 ^ 40 - d.grid.cycle)
    let slot : Nat := bytesAt payload 9 3 % 2 ^ 20
    let width := bytesAt payload 12 4
    let start : Int := (d.grid.cycleStart : Int) + ahead * (d.cycleLen : Int) + (slot : Int)
    if d.onCan w then d.answer w .unsupported
    else if port ≠ 0xFF ∨ index ≠ 0 ∨ sub ≠ 0 ∨ elem ≠ 0 then d.answer w .range
    else if payload.length ≠ 16 then d.answer w .type
    else if d.mode ≠ .gated ∨ d.get Reg.TRG_MSG_EN = 0 then d.answer w .wrongMode
    else if 2 ^ 30 ≤ tag ∨ d.cycleLen ≤ slot ∨ width = 0 ∨ 16777215 < width ∨ (d.arrivalOf w : Int) + 65536 * 256 < start then
      d.answer w .range
    else if 1024 ≤ d.mem.windows.length then (d.openWindow start width tag).answer w .noResource
    else (d.openWindow start width tag).answer w .accepted

/-! ### Guard, transactions (R417, R424, R425) -/

/-- Whether a token write gives the value of Guard Challenge within 1 s of the client's read of it. -/
def Dev.challengeMet (d : Dev) (w : Writer) (v : Nat) : Bool :=
  match w with
  | .client c _ =>
    match d.keeper.clients[c.val] with
    | some k =>
      match k.challengeRead with
      | some (x, t) => x == v && v == d.keeper.challenge && decide (d.now ≤ t + d.second)
      | none => false
    | none => false
  | .core | .keeper => false

/-- Guard Challenge takes a new value that nobody can predict. -/
def Dev.newChallenge (d : Dev) : Dev :=
  let (r, d) := d.draw
  { d with keeper := { d.keeper with challenge := r % 2 ^ 32 } }

/-- The token given to a client. -/
def Dev.giveToken (d : Dev) (w : Writer) : Dev :=
  match w with
  | .client c _ => d.updClient c fun (k : Client) => { k with tokenAt := some d.now, challengeRead := none }
  | .core | .keeper => d

/-- GUARD_TOKEN (R424): the value of Guard Challenge read within 1 s gives the client one token and changes the challenge;
any other value is answered GUARD. -/
def execGuardToken (w : Writer) (val : Bytes) (s : State) : Result :=
  s.on fun d =>
    d.write w Reg.COM_GUARD_TOKEN 0 val fun d v =>
      if d.challengeMet w v then (.accepted, (d.giveToken w).newChallenge) else refuse .guard d

/-- GUARD_TOKEN_EXPIRE (R424): a token lapses 1 s after it was given. -/
def execGuardTokenExpire (c : Fin 16) (s : State) : Result :=
  s.on fun d =>
    d.updClient c fun (k : Client) =>
      match k.tokenAt with
      | some t => if t + d.second < d.now then { k with tokenAt := none } else k
      | none => k

/-- TRANSACTION_ENTRY_EXPIRE (R417): an entry goes 10 s after its response was first sent, or after it was resolved. -/
def execTransactionEntryExpire (c : Fin 16) (tid : BitVec 16) (s : State) : Result :=
  s.on fun d =>
    d.updClient c fun (k : Client) =>
      { k with txns := k.txns.filter fun t =>
          !(t.tid == tid && d.expired t) }

/-- RESTART (R443): answered, and then the concentrator restarts with reason COMMANDED. -/
def execRestart (w : Writer) (val : Bytes) (s : State) : Result :=
  s.on fun d =>
    match d.gate w Reg.BT_RESTART 0 val with
    | (some st, d) => d.answer w st
    | (none, d) => (d.answer w .accepted).restart 0x03

/-! ### Uncorrectable words of the on-chip SRAM (R345, R387, R435) -/

/-- A client's transactions dropped; its last accepted ALIVE stays (R435). -/
def Dev.dropTxns (d : Dev) (c : Fin 16) : Dev :=
  match d.keeper.clients[c.val] with
  | some k =>
    let n := k.txns.length
    ((d.updClient c fun (k : Client) => { k with txns := [] }).bump Reg.COM_MSG_ERR 0 n).log 0xFF 0x0A02 n
  | none => d

/-- SRAM_WORD_UNCORRECTABLE (R334, R345, R387, R435): a word of the SRAM, DATA and CHECK, proves uncorrectable; the structure that
holds it is reset. The read-out engine's queue and the index write cache hold nothing between two commands, and of a stall's state
what the manager keeps of its traffic and its last test is lost (log entry 196). -/
def execSramWordUncorrectable (place : SramPlace) (bits : BitVec 72) (s : State) : Result :=
  s.on fun d =>
    if codeFault (bits.toNat / 2 ^ 8) (bits.toNat % 2 ^ 8) ≠ some .uncorrectable then d
    else
    let d := d.bump Reg.ECC_SRAM_UNC
    match place with
    | .queue q lost => d.resetConcQueue q lost
    | .blockTable m block => d.loseBlock (m.val * 2 ^ 20 + block.toNat)
    | .windowTable =>
      let n := d.mem.windows.length
      ({ d with mem := { d.mem with windows := [] } }.set Reg.TRG_WFILL 0 0).log 0xFF 0x0707 d.grid.cycle n
    | .dictionary both => if both then d.fallSafe 0x13 else d
    | .transactions c => d.dropTxns c
    | .keeperOther =>
      let n := d.keeper.assemblies.length
      { d with keeper := { d.keeper with assemblies := [] } }.bump Reg.COM_MSG_ERR 0 n
    | .taskTable t => d.faultTask t.val
    | .readOutQueue | .indexCache => d
    | .stallState k =>
      { d with mem := d.mem.setStall k.val { d.mem.stall k.val with full := false, overCap := false, moved := [], shortIn := none } }

end Sys2Proof.Machine
end

