-- ==== Sys2Proof/Machine/Keeper.lean ====
section
/-! DEFINITION. The two Keepers (R434, R452, R499 to R503): takeovers, self-tests and the warm standby. -/

namespace Sys2Proof.Machine

/-- The device with a Keeper's health changed (R451). -/
def Dev.setHealth (d : Dev) (u : Fin 2) (h : Nat) : Dev :=
  { d with keeper := { d.keeper with health := d.keeper.health.set u.val h } }

/-- The requests a discarded KEEPER job stood for (R434): a read is queued again, a write or command is stored as
OUTCOME_UNKNOWN. -/
def Dev.orphanJob (d : Dev) (j : Job) : Dev :=
  match j.request with
  | none => d
  | some (c, tid) =>
    let mine := fun (q : Request) => q.client == c && q.tid == tid
    match d.keeper.queue.find? mine with
    | none => d
    | some q =>
      if q.op = 1 then
        { d with keeper := { d.keeper with queue := d.keeper.queue.map fun (q : Request) => if mine q then { q with delegated := false } else q } }
      else (d.answer (.client c tid) .outcomeUnknown)

/-- The KEEPER jobs that wait or run discarded (R388). -/
def Dev.dropKeeperJobs (d : Dev) : Dev :=
  let isK := fun (j : Job) => j.data && j.source == 0
  let waits := d.sched.data.filter isK
  let runs := (List.finRange 16).filterMap fun c => (d.sched.cores[c.val]).job.bind fun x => if isK x.1 then some (c, x) else none
  let d := { d with sched := { d.sched with data := d.sched.data.filter fun j => !isK j } }
  let d := forEach runs (fun x d => d.endJob x.1 x.2.1 x.2.2 (d.now + 64)) d
  let js := waits ++ runs.map fun x => x.2.1
  let d := forEach js (fun j d => d.orphanJob j) d
  (d.loseJobs (js.map fun j => { j with request := none })).sourceFreed 0

/-- An image erase, write or check that a takeover cuts off (R501): the image reads UNVERIFIED. -/
def Dev.abandonImages (d : Dev) : Dev :=
  forEach (List.finRange 2) (fun i d =>
    if (d.flashDev i).busy.isSome then (d.setFlash i { d.flashDev i with busy := none }).unverified i else d) d

/-- The standby takes over (R501, steps 1 to 3): guard tokens, KEEPER jobs, a rate sweep and an image operation in progress
go; a ledger record cut off is written again under a new SEQ (R502). `cause` and `us` are those of KEEPER_SWAP. -/
def Dev.takeOver (d : Dev) (cause us : Nat) (torn : Bool) : Dev :=
  let new : Fin 2 := 1 - d.keeper.active
  let drop := fun (c : Option Client) => c.map fun k => { k with tokenAt := none }
  let keeper := { d.keeper with active := new, takeover := some d.now, clients := d.keeper.clients.map drop, warmUntil := none }
  let d := forEach allPorts (fun p d => d.sweepDrop p) { d with keeper := keeper }
  let d := { d with keeper := { d.keeper with sweep := none } }
  let d := (d.setHealth new 0).dropKeeperJobs.abandonImages
  let d := if torn && !d.ledger.buffer.isEmpty then d.tornWrite else d
  (d.bump Reg.RD_KP_SWAPS).log 0xFF 0x0201 new.val cause us

/-- FORCE_KEEPER_SWAP (R452, R501): answered first, then the standby takes over and the previous Keeper stays a warm standby
for 10 s; WRONG_MODE while the standby is not STANDBY. -/
def execForceKeeperSwap (w : Writer) (val : Bytes) (s : State) : Result :=
  s.on fun d =>
    let old := d.keeper.active
    match d.gate w Reg.RD_KP_SWAP 0 val with
    | (some st, d) => d.answer w st
    | (none, d) =>
      if d.keeper.health[(1 - old).val] ≠ 1 then d.answer w .wrongMode
      else
        let d := ((d.answer w .accepted).takeOver 0 0 false).setHealth old 1
        { d with keeper := { d.keeper with warmUntil := some (d.now + 10 * d.second) } }

/-- KEEPER_FAILURE (R500 to R503): the active Keeper fails. `cause` is 0 watchdog, 1 lockstep, 2 memory, 3 supply; `us` the
microseconds from the detection to the takeover; `torn` says that a ledger write was cut off. Within 10 s of its takeover it
is FAILED and only the warm standby of a forced swap takes back; without a standby the device restarts. -/
def execKeeperFailure (cause : Fin 4) (us : Fin 1001) (torn : Bool) (s : State) : Result :=
  s.on fun d =>
    let old := d.keeper.active
    let early := match d.keeper.takeover with | some t => decide (d.now < t + 10 * d.second) | none => false
    let warm := match d.keeper.warmUntil with | some t => decide (d.now < t) | none => false
    let ready := d.keeper.health[(1 - old).val] == 1
    if d.inReset then d
    else if early then
      if warm && ready then ((d.takeOver 5 us.val torn).setHealth old 2).log 0xFF 0x0202 old.val 2
      else d.restart 0x04
    else if ready then
      let d := (d.takeOver (cause.val + 1) us.val torn).setHealth old 3
      { d with keeper := { d.keeper with testFrom := some d.now } }
    else d.restart 0x04

/-- KEEPER_SELF_TEST_DONE (R501, step 4): the previous Keeper's self-test ends; passed within 1 s it is STANDBY, else
FAILED. -/
def execKeeperSelfTestDone (pass : Bool) (s : State) : Result :=
  s.on fun d =>
    let u : Fin 2 := 1 - d.keeper.active
    match d.keeper.testFrom with
    | none => d
    | some t =>
      let h := if pass && decide (d.now ≤ t + d.second) then 1 else 2
      ({ d.setHealth u h with keeper := { (d.setHealth u h).keeper with testFrom := none } }).log 0xFF 0x0202 u.val h

/-- WARM_STANDBY_END (R501, step 5): 10 s after a forced swap the previous Keeper is no longer a warm standby. -/
def execWarmStandbyEnd (s : State) : Result :=
  s.on fun d =>
    match d.keeper.warmUntil with
    | some t => if t ≤ d.now then { d with keeper := { d.keeper with warmUntil := none } } else d
    | none => d

end Sys2Proof.Machine
end

