-- ==== Sys2Proof/Machine/Modes.lean ====
section
/-! DEFINITION. Modes (R29 to R32, R47, R444, R445, R490 to R497): requests, the checks at the boundary, what a change of
mode does, the drain of SAFE, and the SENTINEL promotion. -/

namespace Sys2Proof.Machine

/-! ### Requests -/

/-- The permitted changes of R490, BOOT's own apart. -/
def permitted (old new : Mode) : Bool :=
  match old with
  | .boot => false
  | .safe => new == .configure
  | .configure => new != .boot && new != .configure
  | .loopback => new == .safe || new == .configure
  | .calibrate | .sentinel | .stream | .gated | .snapshot => new == .safe || new == .configure || (acquiring new && new != old)

/-- The boundary that Mode Target Cycle asks for (R29). -/
def Dev.modeTarget (d : Dev) (m : Mode) : Option ModePend :=
  let t := d.get Reg.MD_TARGET_CYC
  if t = 0 then some { target := m, cycle := none, notBefore := d.now + modeLead }
  else
    let n := d.cyclesAhead t
    if 1 ≤ n ∧ n ≤ 1048576 ∧ d.now + modeLead ≤ d.startOf t then some { target := m, cycle := some t, notBefore := d.now + modeLead }
    else none

/-- Whether SAFE is on its way by an event (R493), which no request replaces. -/
def Dev.safeComing (d : Dev) : Bool := d.mode != .safe && d.safeReason.isSome

/-- The pending request cancelled (R30), and an exit from SAFE in progress with it. -/
def Dev.cancelMode (d : Dev) : Dev :=
  if d.safeComing then d
  else
    let d := { d with modePend := none }.withdrawMode
    if d.boot.exitSafe then { d with boot := { d.boot with exitSafe := false, step := none } } else d

/-- A pending change announced to the front ends (R47). -/
def Dev.pendMode (d : Dev) (m : ModePend) : Dev :=
  let d := { d with modePend := some m }
  d.announceMode m.target d.pendingCycle

/-- Why SAFE may not be left (R367, R494): a sensor above 140 °C, the boot ROM in use, a fatal fault. -/
def Dev.exitRefused (d : Dev) : Bool :=
  d.gov.sensors.any (fun t => decide (tripClear < t)) || d.get Reg.IMG_IN_USE == 2 || d.safeReason == some 0x13

/-- The exit from SAFE begins with steps 6 and 7 of R487 (R494). -/
def Dev.beginExit (d : Dev) : Dev :=
  let x := d.gov.dies.toList.getD 32 {}
  let d := (if x.trip then d.setDie 32 { x with trip := false } else d).trainChannels
  { d with boot := { d.boot with step := some 6, stepFrom := d.now, exitSafe := true, memDone := false, clocksDone := false } }

/-- The outcome and effect of a mode request (R30, R445, R494). -/
def Dev.requestMode (d : Dev) (m : Mode) : Status × Dev :=
  let d' := d.set Reg.MD_REQUEST 0 (modeCode m)
  if m = d.mode then (.accepted, d'.cancelMode)
  else if !permitted d.mode m || (d.mode == .safe && d.exitRefused) then (.wrongMode, d)
  else if d.mode = .safe then (if d.get Reg.MD_TARGET_CYC = 0 then (.accepted, d'.beginExit) else (.range, d))
  else match d.modeTarget m with
    | none => (.range, d)
    | some t => (.accepted, if d.safeComing then d' else d'.pendMode t)

/-- A write of Mode Request. -/
def Dev.writeMode (d : Dev) (w : Writer) (val : Bytes) : Dev :=
  d.write w Reg.MD_REQUEST 0 val fun d v =>
    match modeOf v with
    | some m => d.requestMode m
    | none => refuse .range d

/-- MODE_REQUEST (R29, R30, R445): a write of Mode Request. -/
def execModeRequest (w : Writer) (val : Bytes) (s : State) : Result := s.on fun d => d.writeMode w val

/-- MODE_REQUEST_CANCEL (R30): a write of Mode Request with the mode in force. -/
def execModeRequestCancel (w : Writer) (s : State) : Result :=
  s.on fun d => d.writeMode w [BitVec.ofNat 8 (modeCode d.mode)]

/-! ### The checks at the boundary (R491) -/

/-- The entry in conflict in the active bank, or else in that of a commit still pending (R41), with whether the pending bank is in
conflict. With both in conflict the active bank's entry is named (log entry 193). -/
def Dev.bankConflict (d : Dev) : Option (Nat × Bool) :=
  let pending := d.grid.bankPend.bind fun b => (bankOf b.2).conflict d.cycleLen
  match d.activeBank.conflict d.cycleLen with
  | some e => some (e, pending.isSome)
  | none => pending.map fun e => (e, true)

/-- What a refusal with CAL_CONFLICT on leaving CONFIGURE does (R42): the entry is named, and a pending commit in conflict
withdrawn. The front ends are sent the mirror of the active bank again (log entry 115). -/
def Dev.refuseBank (d : Dev) : Dev :=
  match d.bankConflict with
  | none => d
  | some (e, pending) =>
    let d := d.set Reg.CAL_REFUSED_AT 0 e
    if pending then
      let d := { d with grid := { d.grid with bankPend := none } }.set Reg.CAL_STATUS 0 2
      d.sendMirror d.activeBank (d.cyclePlus (d.boundaryAfter (d.now + modeLead)))
    else d

/-- The first check of R491 that refuses a change out of CONFIGURE to a mode that forms baskets. -/
def Dev.exitChecks (d : Dev) : Option Status :=
  let on := allPorts.filter fun p => d.get Reg.WP_EN p.val == 1
  let timeout := d.get Reg.BASKET_TIMEOUT * 256
  let mapped := (allPorts.map fun p => d.stallOf p.val).dedup
  let unfit := decide (d.get Reg.ST_CAP 0 * 2 ^ 20 < 256 * 2 ^ d.get Reg.SNAP_RING_LOG2)
    || mapped.any (fun k => d.get Reg.ST_CAP k == 0 || decide (d.get Reg.ST_RSV k < 64))
    || decide (d.get Reg.ST_CAP 1 < d.get Reg.SC_SPILL_Q)
  let keys := d.get Reg.SNAP_ROUTE :: List.range (d.get Reg.ROUTE_SPAN)
  if d.bankConflict.isSome then some .calConflict
  else if on.any fun p => !(d.port p).cycLenAcked then some .portNotReady
  else if on.any fun p => decide (timeout < d.mir p Reg.FE_FRAME_CLOSE + 256) then some .timeoutShort
  else if d.usableMiB < d.stallSum Reg.ST_CAP ∨ d.bandwidth < d.stallSum Reg.ST_BW then some .pitchOvercommit
  else if unfit then some .stallUnfit
  else if keys.any d.routeUnset then some .routeUnset
  else none

/-- The refusal of a change to `m`, if any. -/
def Dev.modeRefusal (d : Dev) (m : Mode) : Option Status :=
  if d.mode = .configure ∧ acquiring m then d.exitChecks else none

/-! ### What a change does -/

/-- The lead check of R43 for one port. -/
def Dev.leadCheck (d : Dev) (p : Port) : Dev :=
  if d.get Reg.WP_EN p.val = 0 then d
  else
    let short := decide (d.get Reg.CAL_LEAD < ceilDiv (d.get Reg.WP_DL_DELAY p.val) 4096 + 16)
    let d := d.set Reg.WP_STATUS p.val (setBit (d.get Reg.WP_STATUS p.val) 9 short)
    if short then d.bump Reg.CAL_LEAD_SHORT p.val else d

/-- Raises, the scrub window, calendar trigger windows and diagnostic mode end at the boundary `t` (R32, R342, R359); a raise
for a window of the new mode, which begins at the boundary or after, stands (R37). -/
def Dev.endWindows (d : Dev) (t : Nat) : Dev :=
  let cut := fun (w : Window) =>
    if w.tag / 2 ^ 30 = 3 ∧ (t : Int) < w.start + w.width then
      (if w.start < (t : Int) then [{ w with width := ((t : Int) - w.start).toNat }] else [])
    else [w]
  let ws := d.mem.windows.flatMap cut
  let raises := d.gov.raises.filter fun r => r.window && decide (t ≤ r.start)
  let d := { d with mem := { d.mem with windows := ws }, gov := { d.gov with raises := raises } }.set Reg.TRG_WFILL 0 ws.length
  (if d.mem.scrubUntil.isSome then d.endScrub else d).set Reg.ECC_DIAG_EN 0 0

/-- Groups whose resting level differs in the new mode are commanded to it (R359, R541). -/
def Dev.restGroups (d : Dev) (old : Mode) : Dev :=
  forEach allPorts (fun p d => d.regate p { d with mode := old }) d

/-- Baskets and fragments that are left when the device leaves CONFIGURE keep clear of the numbers that start again at 0
(R272). -/
def Dev.renumber (d : Dev) : Dev :=
  let far := fun (n : Nat) => n % 2 ^ 64 + 2 ^ 64
  let fr := fun (f : Frag) => { f with num := f.num.map far }
  let eg := fun (e : Egress) => { e with queue := e.queue.map fr, feed := e.feed.map fr }
  { d with merge := { d.merge with
    next := 0, formed := [], baskets := d.merge.baskets.map fun (b : Basket) => { b with num := far b.num }
    egress := d.merge.egress.map eg } }.invalidateCaches

/-- The caddies at an entry to CONFIGURE: full, nothing committed (R355). -/
def Dev.fillCaddies (d : Dev) : Dev :=
  let d := forEach allPorts (fun p d =>
    let b : Nat := d.get Reg.GV_FE_DEPTH p.val * 1000
    ((d.setCaddy p.val { d.caddy p.val with bal := b, empty := false }).set Reg.GV_FE_BAL p.val b).set Reg.GV_FE_CSTAT p.val
      (setBit (d.get Reg.GV_FE_CSTAT p.val) 0 false)) d
  forRange 3 (fun c d =>
    let b : Nat := d.get Reg.GV_DOM_DEPTH c * 1000
    (d.setCaddy (32 + c) { d.caddy (32 + c) with bal := b, empty := false }).set Reg.GV_DOM_BAL c b) d |>.publishGates

/-- Entry to CONFIGURE (R255, R257, R333, R355, R487, R489): held baskets expire, the grid is aligned; at the end of a boot
the start waits for its confirmation. -/
def Dev.enterConfigure (d : Dev) (old : Mode) : Dev :=
  let held := d.merge.baskets.filter fun b => b.st == .held
  let d := (forEach held (fun b d => d.expire b) d).dropWindows.fillCaddies
  let d := if d.get Reg.TB_CYC_SRC = 0 then d.alignSynth else d.startAligning
  let d : Dev := { d with boot := { d.boot with step := none, exitSafe := false }, safeReason := none, draining := false }
  if old = .boot ∧ d.boot.startOpen then { d with confirmAt := some (d.now + 60 * d.second) } else d

/-- Entry to SAFE (R489, R492, R493): what was held is freed, the external memory's contents are abandoned, the downlinks
fall idle, and a start that a fatal fault ends has failed. -/
def Dev.enterSafe (d : Dev) : Dev :=
  let reason := d.safeReason.getD 0x14
  let d := if d.boot.startOpen && reason == 0x13 then d.failStart reason else d
  let held := d.merge.baskets.filter fun b => b.st == .held || b.st == .selected
  let selected := (held.filter fun b => b.st == .selected).length
  let d := forEach held (fun b d => d.expire b) d
  let d := d.log 0xFF 0x0107 reason held.length selected
  let d := match d.mem.pauseFrom with
    | some t => d.bump Reg.TRG_PAUSE 0 (d.now - t)
    | none => d
  let spilled := d.sched.spilled.flatten
  let noWait := fun (c : EmChan) => { c with waiting := none }
  let d := { d with
    safeReason := some reason, safeFrom := d.now, draining := true, confirmAt := none
    boot := { d.boot with step := none, exitSafe := false, startOpen := false, planSafe := none }
    mem := { d.mem with windows := [], pauseFrom := none }
    merge := { d.merge with ringIn := [] }
    keeper := { d.keeper with sweep := none }
    em := { d.em with chans := d.em.chans.map noWait }
    sched := { d.sched with spilled := [] } }
  let d := ((d.set Reg.TRG_WFILL 0 0).set Reg.TRG_BACKLOG_NOW 0 0).loseJobs spilled
  let d := forEach allPorts (fun p d => (d.sweepDrop p).idlePort p) d
  (d.setRing []).syncStalls

/-- The back-end ports not OFF go down: they begin the tests of LOOPBACK, or retrain after them (R223). -/
def Dev.downBackEnd (d : Dev) : Dev :=
  forRange 8 (fun b d => if d.get Reg.BE_MODE b = 0 then d else d.set Reg.BE_LINK b 0) d

/-- Entry to LOOPBACK (R222, R223): every port's links run the selected test, and so does every back-end port not OFF. -/
def Dev.enterLoopback (d : Dev) : Dev :=
  let d := forEach allPorts (fun p d => d.idlePort p) d
  d.linkTests.downBackEnd.backEndTests

/-- The change of mode at the slot `t` (R29 to R32, R490 to R493). -/
def Dev.changeMode (d : Dev) (m : Mode) (t : Nat) : Dev :=
  let old := d.mode
  let d := (d.bump Reg.MD_CHANGES).log 0xFF 0x0105 (modeCode old) (modeCode m) d.grid.cycle
  let d := { d with mode := m, modeFrom := t, modePend := none }.endWindows t
  let d := if old = .boot then d.set Reg.MD_REQUEST 0 (modeCode m) else d
  let d := d.restGroups old
  let d := if m = .gated then { d with mem := { d.mem with gatedFrom := t } } else d
  let d := if old = .configure then d.renumber else d
  let d := if old = .loopback then d.downBackEnd else d
  let d := if old = .loopback ∧ m ≠ .safe then forEach allPorts (fun p d => d.startTraining p) d else d
  let d := if m = .configure then d.enterConfigure old else d
  let d := if m = .safe then d.enterSafe else d
  let d := if m = .loopback then d.enterLoopback else d
  let d := d.dropWindows
  if m = .boot ∨ m = .safe then d else forEach allPorts (fun p d => d.leadCheck p) d

/-- Whether both time bases have failed, so that there is no boundary to wait for (R493). -/
def Dev.noTime (d : Dev) : Bool := d.tu.health.toList.all fun h => h == 2

/-- MODE_CHANGE (R15, R30, R491): the pending change at its boundary, after an accepted time step; a check that fails
refuses it. -/
def execModeChange (s : State) : Result :=
  s.on fun d =>
    match d.modePend with
    | none => d
    | some m =>
      if d.inReset || !(d.noTime || (d.modeDue && !d.stepDue && !d.firstDue)) then d
      else match d.modeRefusal m.target with
        | some st =>
          let d := if st = .calConflict then d.refuseBank else d
          ({ d with modePend := none }.withdrawMode.set Reg.MD_REFUSAL 0 (statusCode st)).log 0xFF 0x0106
            (modeCode m.target) (statusCode st) d.grid.cycle
        | none => d.changeMode m.target (if d.noTime then d.now else d.grid.cycleStart)

/-- SAFE_DRAIN_END (R493): BASKET_TIMEOUT + 64 frames after the boundary the back-end ports other than 0 power down, and
what is unsent is lost and recorded. -/
def execSafeDrainEnd (s : State) : Result :=
  s.on fun d =>
    if d.mode ≠ .safe ∨ ¬ d.draining ∨ d.now < d.safeFrom + (d.get Reg.BASKET_TIMEOUT + 64) * 256 then d
    else
      let n := d.merge.baskets.length
      let d := if n = 0 then d else d.log 0xFF 0x0107 (d.safeReason.getD 0x14) n
      let waited := match d.merge.waitFrom with
        | some t => d.now - t
        | none => 0
      let d := forEach d.merge.baskets (fun b d => d.dropHomes b) (d.bump Reg.MG_EGR_WAIT 0 waited)
      let empty := fun (e : Egress) => { e with queue := [], feed := [] }
      let d := forEach (List.finRange 8) (fun b d => if b = 0 then d else d.dropPause b) d
      let net := (Vector.replicate 8 ({} : NetPort)).set 0 d.net[0]
      let d := { d with draining := false, net := net, merge := { d.merge with baskets := [], waitFrom := none, egress := d.merge.egress.map empty } }
      (forRange 7 (fun b d => d.set Reg.BE_LINK (b + 1) 0) d).syncStalls

/-- RATE_SWEEP_COMPLETE (R496, R497): every port of the sweep has been read; with Sentinel Promotion set and enough regions
over the rate, the device requests STREAM. -/
def execRateSweepComplete (s : State) : Result :=
  s.on fun d =>
    match d.keeper.sweep with
    | none => d
    | some w =>
      if !w.ports.isEmpty then d
      else
        let d := { d with keeper := { d.keeper with sweep := none } }
        if d.mode = .sentinel ∧ d.get Reg.MD_SEN_PROMOTE = 1 ∧ d.get Reg.MD_SEN_REGIONS ≤ w.counts ∧ d.modePend.isNone then
          let d := (d.set Reg.MD_REQUEST 0 6).pendMode { target := .stream, cycle := none, notBefore := d.now + modeLead }
          d.log 0xFF 0x0108 w.counts d.pendingCycle
        else d

end Sys2Proof.Machine
end

