-- ==== Sys2Proof/Machine/Boot.lean ====
section
/-! DEFINITION. Reset, boot and failed starts (R430, R483 to R489, R494, R495), the concentrator's thermal trip (R367), and
the power of the front ends. -/

namespace Sys2Proof.Machine

/-! ### Reset -/

/-- RESET_ASSERT (R485, R486, R498): RST_N goes low or a supply leaves its range, with `aonLost` VDD_AON too, which loses
what it kept. A reset already asserted stays as it is. -/
def execResetAssert (aonLost : Bool) (s : State) : Result :=
  s.on fun d =>
    if aonLost then
      let d := d.restart 0x01
      { d with aon := {}, ledger := { d.ledger with readPos := 0, buffer := [] } }
    else if d.inReset then d
    else d.restart 0x02

/-- A front end's power as the release of the concentrator's reset finds it, with times counted from there. -/
def FrontEnd.atRelease (f : FrontEnd) (now : Nat) : FrontEnd :=
  { power := if f.power = .powerOn then .powerOn else .lowPower, supplyFrom := f.supplyFrom - now }

/-- RESET_RELEASE (R430, R486, R487): a boot begins at step 1: every object at its default, Node Address sampled from the
balls, the restart counted, Guard Challenge new. -/
def execResetRelease (strap : BitVec 8) (s : State) : Result :=
  s.on fun d =>
    if !d.inReset then d
    else
      let aon := { d.aon with restarts := (d.aon.restarts + 1) % 2 ^ 32, msBase := d.aonMs }
      let fresh : Dev :=
        { inReset := false, free := d.free, fes := d.fes.map fun f => f.atRelease d.now, aon := aon, flash := d.flash
          ledger := { buffer := d.ledger.buffer, copies := d.ledger.copies, seq := d.ledger.seq, readPos := d.ledger.readPos }
          out := d.out }
      let bad := strap == 0 || strap == 0xFF
      let d := (fresh.set Reg.COM_NODE 0 (if bad then 1 else strap.toNat)).newChallenge
      if bad then d.log 0xFF 0x0109 strap.toNat else d

/-! ### Boot steps (R487) -/

/-- The device with its boot changed. -/
def Dev.updBoot (d : Dev) (f : BootState → BootState) : Dev := { d with boot := f d.boot }

/-- The boot at another step. -/
def Dev.toStep (d : Dev) (n : Nat) : Dev := d.updBoot fun b => { b with step := some n, stepFrom := d.now }

/-- Whether the step in progress has reached its timeout of `ms` milliseconds (R487). -/
def Dev.stepTimeout (d : Dev) (ms : Nat) : Bool := decide (d.boot.stepFrom + d.ms ms ≤ d.now)

/-- A boot step's failure that does not end the boot (R488, R509). -/
def Dev.stepFailed (d : Dev) (step what : Nat) : Dev := d.log 0xFF 0x0104 step what

/-- Step 1: the self-tests; Keeper A is active unless it fails. -/
def Dev.bootSelfTest (d : Dev) (a b : Bool) : Dev :=
  if !a && !b then d.restart 0x04
  else
    let health : Vector Nat 2 := #v[if a then 0 else 2, if !b then 2 else if a then 1 else 0]
    let d := { d with keeper := { d.keeper with active := if a then 0 else 1, health := health } }
    (if a && b then d else d.stepFailed 1 0).toStep 2

/-- Step 2: the failed-start check. -/
def Dev.bootFailedStarts (d : Dev) : Dev :=
  (if 3 ≤ d.failedStarts then d.updBoot fun b => { b with planSafe := some 0x10 } else d).toStep 3

/-- What VDD_AON has lost restored from the ledger (R395, R442, R489). -/
def Dev.restoreAon (d : Dev) : Dev :=
  let rs := d.ledgerRecords
  let newest := fun (f : LedgerRec → Bool) => (rs.filter f).getLast?
  let fails := match newest fun r => r.code == 0x0101 || r.code == 0x0102 || r.code == 0x0103 with
    | some r => if r.code = 0x0101 then r.v3 else if r.code = 0x0103 then r.v2 else 0
    | none => 0
  let aon := { d.aon with
    fresh := false
    reason := match newest fun r => r.code == 0x0101 with | some r => r.v1 % 256 | none => d.aon.reason
    restarts := match rs.getLast? with | some r => (r.restarts + 1) % 2 ^ 32 | none => d.aon.restarts
    failedTimes := List.replicate (min fails 3) 0 }
  let aon := match newest fun r => r.code == 0x0908 with
    | some r => { aon with preferred := r.v1 % 2, trialState := r.v2, trialImage := r.v3 }
    | none => { aon with preferred := 0, trialState := 0, trialImage := 0xFF }
  { d with aon := aon, boot := { d.boot with cold := true } }

/-- Whether a flash device's tables let the Keeper accept it (R391). -/
def sfdpOk (t : Option Sfdp) : Bool :=
  match t with
  | some t => decide (128 ≤ t.mbit.toNat) && t.fast114 && t.erase4k
  | none => false

/-- One flash device at step 3 (R391, R508). -/
def Dev.bootDevice (d : Dev) (i : Fin 2) (scan : FlashScan) : Dev :=
  let ok := sfdpOk scan.sfdp
  let keep := (d.ledger.copies[i.val]).filter fun r => !scan.bad.contains (BitVec.ofNat 32 r.seq)
  let d := d.setFlash i { d.flashDev i with accepted := ok }
  let d := { d with ledger := { d.ledger with devices := d.ledger.devices.set i.val ok, copies := d.ledger.copies.set i.val keep } }
  if ok then d else (d.stepFailed 3 i.val).log 0xFF 0x0A03 i.val

/-- A flash device accepted again after the ledger lost it (R508, R509; log entry 84). -/
def Dev.noteRestored (d : Dev) (i : Fin 2) : Dev :=
  match (d.ledgerRecords.filter fun r => r.code == 0x0A03 && r.v1 == i.val).getLast? with
  | some r => if (d.flashDev i).accepted ∧ r.v2 = 0 then d.log 0xFF 0x0A03 i.val 1 else d
  | none => d

/-- Step 3 (R343, R506, R508): the flash devices, the scan of the ledger, retired blocks, and after a loss of VDD_AON what
it kept. -/
def Dev.bootFlash (d : Dev) (a b : FlashScan) : Dev :=
  let d := (((d.bootDevice 0 a).bootDevice 1 b).noteRestored 0).noteRestored 1
  let rs := d.ledgerRecords
  let seq := match rs.getLast? with | some r => (r.seq / 64 + 1) * 64 | none => 0
  let retired := (rs.filterMap fun r => if r.code = 0x0705 then some (r.v1 % 8 * 2 ^ 20 + r.v2 % 2 ^ 20) else none).dedup
  let d := { d with ledger := { d.ledger with seq := seq }, mem := { d.mem with retired := retired } }.set Reg.MEM_RETIRED 0 retired.length
  (if d.aon.fresh then d.restoreAon else d).toStep 4

/-- Step 4 (R395): the image is chosen and checked; with none VALID the Keepers stay in boot ROM and SAFE is planned. -/
def Dev.bootImage (d : Dev) : Dev :=
  let pref : Fin 2 := Fin.ofNat 2 d.aon.preferred
  let trial := d.aon.trialState == 1
  let first : Fin 2 := if trial then Fin.ofNat 2 d.aon.trialImage else pref
  let second : Fin 2 := if trial && pref != first then pref else 1 - first
  let use := fun (d : Dev) (i : Fin 2) => (d.set Reg.IMG_IN_USE 0 i.val).toStep 5
  let d := d.verifyImage first
  if d.get Reg.IMG_STATUS first.val = 0 then
    use (d.setChoice d.aon.preferred (if trial then 2 else 0) (if trial then first.val else 0xFF)) first
  else
    let d := ((d.bump Reg.IMG_FALLBACKS).log 0xFF 0x0905 first.val (d.get Reg.IMG_STATUS first.val)).setChoice d.aon.preferred 0 0xFF
    let d := d.verifyImage second
    if d.get Reg.IMG_STATUS second.val = 0 then use d second
    else ((d.set Reg.IMG_IN_USE 0 2).updBoot fun b => { b with planSafe := some 0x11 }).toStep 5

/-- Step 5: the KEEPER section is loaded and START is written. -/
def Dev.bootLoaded (d : Dev) : Dev :=
  let d := if d.get Reg.IMG_IN_USE = 2 then d
    else d.set Reg.BE_FW_VER 0 (d.get Reg.IMG_VERSION (d.get Reg.IMG_IN_USE))
  let d := d.set Reg.BE_FMT 0 d.currentFormat
  -- after a loss of VDD_AON the reason that is restored is that of an earlier start: START tells of POWER_ON (R442)
  let d := d.log 0xFF 0x0101 (if d.boot.cold then 0x01 else d.aon.reason) d.aon.restarts d.failedStarts
  if d.boot.planSafe.isSome then d.toStep 7 else d.trainChannels.toStep 6

/-- Steps 6 and 7 both done: the enabled ports train (step 8). -/
def Dev.bootJoin (d : Dev) : Dev :=
  if d.boot.memDone && d.boot.clocksDone then (forEach allPorts (fun p d => d.startTraining p) d).toStep 8 else d

/-- One channel after the sequence of R341; one that is OFFLINE stays so until the next BOOT (R344). -/
def Dev.bootChannel (d : Dev) (m : Nat) (x : MemTest) : Dev :=
  if d.get Reg.MEM_CH_STATE m = 3 then d
  else match x with
  | .absent => (d.set Reg.MEM_CH_STATE m 0).set Reg.MEM_CH_SIZE m 0
  | .failed mib => (d.set Reg.MEM_CH_STATE m 4).set Reg.MEM_CH_SIZE m mib.toNat
  | .passed mib => (d.set Reg.MEM_CH_STATE m 2).set Reg.MEM_CH_SIZE m mib.toNat

/-- Step 6 (R341): a failure of its steps 1 or 2 is fatal in BOOT and keeps the device in SAFE (R494); a channel that fails
is left out. -/
def Dev.bootMemory (d : Dev) (sram : Bool) (chans : List MemTest) : Dev :=
  if !sram then
    let d := d.set Reg.ECC_SELFTEST 0 256
    if d.mode = .boot then d.fallSafe 0x13
    else ((d.stepFailed 6 0).set Reg.MD_REFUSAL 0 (statusCode .wrongMode)).updBoot fun b => { b with step := none, exitSafe := false }
  else
    let tests := (chans.zipIdx.take 8).map fun x => (x.2, x.1)
    let failed := maskOf ((tests.filter fun x => match x.2 with | .failed _ => true | .absent | .passed _ => false).map Prod.fst)
    let d := forEach tests (fun x d => d.bootChannel x.1 x.2) d
    let d := (if failed = 0 then d else d.stepFailed 6 failed).set Reg.ECC_SELFTEST 0 failed
    let d := { d with mem := { d.mem with
      stalls := [], epochs := [], marked := [], lost := [], diag := [], spill := [], lapFrom := d.now, sramLapFrom := d.now
      scrubPos := 0, scrubPaid := 0, scrubAt := d.now } }
    (d.computeIndex.rescale.updBoot fun b => { b with memDone := true }).bootJoin

/-- The service cores loaded, and the task table (R373, R393): the priorities are those of the image. -/
def Dev.loadTasks (d : Dev) : Dev :=
  if d.get Reg.IMG_IN_USE = 2 ∨ ¬ d.sched.tasks.isEmpty then d
  else
    let i : Fin 2 := Fin.ofNat 2 (d.get Reg.IMG_IN_USE)
    let ts := d.imageTasks i
    let code := ((d.imageSections i).find? fun x => x.type == 2).map fun x => (i, x.offset, x.length)
    let load := fun (k : Core) => { k with code := code, sram := [] }
    forEach ts (fun t d => d.set Reg.SC_TASK_PRIO t.1 t.2.prio)
      { d with sched := { d.sched with tasks := ts, cores := d.sched.cores.map load } }

/-- The start of the clocks in a boot (R487, step 7): the reference in use and the state of the time base. -/
def Dev.startClocks (d : Dev) : Dev :=
  let ok := fun (n : Nat) => (d.tu.refs.toList.getD n {}).qualified
  let inUse := d.get Reg.TB_REF_USE
  let d := d.changeRef (([inUse, 0, 1].find? ok).getD 2) true
  if d.anyPtp then d else d.goState .free

/-- Step 7 (R487, R494): the references, for at most 200 ms, the time base, and unless SAFE is planned the service cores. An exit
from SAFE loads the cores only. -/
def Dev.bootClocks (d : Dev) : Dev :=
  let wait := d.mode == .boot && !(d.tu.refs.toList.any RefInput.qualified || d.stepTimeout 200)
  let d := if d.mode = .boot ∧ ¬ wait then d.startClocks else d
  if wait then d
  else match d.boot.planSafe with
  | some r => (d.safeSoon r).toStep 9
  | none => (d.loadTasks.updBoot fun b => { b with clocksDone := true }).bootJoin

/-- Step 8: once every enabled port is UP, or 100 ms have passed, CONFIGURE waits for the first boundary at least the mode lead
ahead (step 9). -/
def Dev.bootPorts (d : Dev) : Dev :=
  let up := allPorts.all fun p => d.get Reg.WP_EN p.val == 0 || d.portUp p
  if !up && !d.stepTimeout 100 then d
  else (d.pendMode { target := .configure, cycle := none, notBefore := d.now + modeLead }).toStep 9

/-- BOOT_STEP_COMPLETE (R487, R494): the step in progress completes or reaches its timeout, with what it gave. -/
def execBootStepComplete (r : BootResult) (s : State) : Result :=
  s.on fun d =>
    if d.inReset || !(d.mode == .boot || d.boot.exitSafe) then d
    else match r, d.boot.step with
      | .selfTest a b, some 1 => d.bootSelfTest a b
      | .failedStarts, some 2 => d.bootFailedStarts
      | .flash a b, some 3 => d.bootFlash a b
      | .image, some 4 => d.bootImage
      | .loaded, some 5 => d.bootLoaded
      | .memory sram chans, some 6 => if d.boot.memDone then d else d.bootMemory sram chans
      | .clocks, some 6 => if d.boot.clocksDone then d else d.bootClocks
      | .clocks, some 7 => d.bootClocks
      | .ports, some 8 => d.bootPorts
      | _, _ => d

/-- BOOT_TIMEOUT (R488): CONFIGURE has not taken effect 10 s after the release of reset. -/
def execBootTimeout (s : State) : Result :=
  s.on fun d => if d.mode = .boot ∧ ¬ d.inReset ∧ 10 * d.second ≤ d.now then d.restart 0x06 else d

/-- START_CONFIRM (R489): 60 s after CONFIGURE took effect the start is confirmed and the failed starts are forgotten. -/
def execStartConfirm (s : State) : Result :=
  s.on fun d =>
    match d.confirmAt with
    | some t =>
      if d.now < t then d
      else { d with confirmAt := none, boot := { d.boot with startOpen := false }
                    aon := { d.aon with failedTimes := [] } }.log 0xFF 0x0102
    | none => d

/-! ### Faults -/

/-- FATAL_FAULT (R488, R493, R495): an uncorrectable error in the mode controller's state; the other fatal faults arise in
commands of their own. -/
def execFatalFault (s : State) : Result := s.on fun d => if d.inReset then d else d.fallSafe 0x13

/-- CONC_THERMAL_TRIP (R365, R367, R493): a sensor's sliding mean over 1 ms, in 0.125 °C, reaches 150 °C; the fence enters SAFE at
the next cycle boundary. -/
def execConcThermalTrip (sensor : Fin 12) (mean : BitVec 16) (s : State) : Result :=
  s.on fun d =>
    let x := d.gov.dies.toList.getD 32 {}
    if d.inReset || x.trip || decide (mean.toInt < tripAt) then d
    else
      let d : Dev := { d with gov := { d.gov with sensors := d.gov.sensors.set sensor.val mean.toInt } }
      let d := (d.setDie 32 { x with trip := true }).fence 0xFF 4 0
      if d.mode = .safe then d
      else if d.mode = .boot then ((d.safeSoon 0x12).updBoot fun b => { b with planSafe := some 0x12 }).toStep 9
      else d.safeSoon 0x12

/-! ### Front-end power (R482 to R484) -/

/-- FE_POWER_ON_RESET (R483): the supplies have been within range for 1 ms; the front end enters low-power reset. -/
def execFePowerOnReset (p : Port) (s : State) : Result :=
  s.on fun d =>
    let f := d.fe p
    if f.power = .powerOn ∧ f.supplyFrom + d.ms 1 ≤ d.now then d.feReset p .lowPower else d

/-- FE_SUPPLY_FAULT (R483): a supply leaves its range for more than 10 µs; the front end passes through power-on reset. -/
def execFeSupplyFault (p : Port) (s : State) : Result :=
  s.on fun d => (d.updFe p fun (f : FrontEnd) => { f with supplyFrom := d.now }).feReset p .powerOn

end Sys2Proof.Machine
end

