-- ==== Sys2Proof/Machine/Dispatch.lean ====
section
/-! DEFINITION. What each command does: one arm per constructor of `Instr`, each one call of its meaning. -/

namespace Sys2Proof.Machine

/-- The effect of a command (R24 to R541): everything but the queue of waiting commands. -/
def exec (i : Instr) (s : State) : Host.Outcome State Fault Refusal :=
  match i with
  | .cycleBoundary => Sys2Proof.Machine.execCycleBoundary s
  | .frameBoundary => Sys2Proof.Machine.execFrameBoundary s
  | .feCycleBoundary p meas => Sys2Proof.Machine.execFeCycleBoundary p meas s
  | .feFrameBoundary p => Sys2Proof.Machine.execFeFrameBoundary p s
  | .modeRequest w val => Sys2Proof.Machine.execModeRequest w val s
  | .modeRequestCancel w => Sys2Proof.Machine.execModeRequestCancel w s
  | .modeChange => Sys2Proof.Machine.execModeChange s
  | .calendarCommit w val => Sys2Proof.Machine.execCalendarCommit w val s
  | .calendarCommitApply => Sys2Proof.Machine.execCalendarCommitApply s
  | .cycleLengthWrite w val => Sys2Proof.Machine.execCycleLengthWrite w val s
  | .gridMoveApply => Sys2Proof.Machine.execGridMoveApply s
  | .fcmdIssue p => Sys2Proof.Machine.execFcmdIssue p s
  | .fcmdTargetPassed p => Sys2Proof.Machine.execFcmdTargetPassed p s
  | .mirrorLagDetect p => Sys2Proof.Machine.execMirrorLagDetect p s
  | .fcmdReceive p id op cyc slot => Sys2Proof.Machine.execFcmdReceive p id op cyc slot s
  | .modeCommand p => Sys2Proof.Machine.execModeCommand p s
  | .queueReset p => Sys2Proof.Machine.execQueueReset p s
  | .rateLatch p => Sys2Proof.Machine.execRateLatch p s
  | .pairRefresh p pair meas => Sys2Proof.Machine.execPairRefresh p pair meas s
  | .calendarSnapshotTrigger p => Sys2Proof.Machine.execCalendarSnapshotTrigger p s
  | .biasCommand p => Sys2Proof.Machine.execBiasCommand p s
  | .cycleEndCommand p => Sys2Proof.Machine.execCycleEndCommand p s
  | .injectCommand p => Sys2Proof.Machine.execInjectCommand p s
  | .tickPhaseCommand p => Sys2Proof.Machine.execTickPhaseCommand p s
  | .scrubWindowOpen => Sys2Proof.Machine.execScrubWindowOpen s
  | .scrubWindowEnd => Sys2Proof.Machine.execScrubWindowEnd s
  | .triggerWindowOpen => Sys2Proof.Machine.execTriggerWindowOpen s
  | .precisionGrant p => Sys2Proof.Machine.execPrecisionGrant p s
  | .raiseEnd p => Sys2Proof.Machine.execRaiseEnd p s
  | .biasRepeat => Sys2Proof.Machine.execBiasRepeat s
  | .injectRequest w p val => Sys2Proof.Machine.execInjectRequest w p val s
  | .configApply p => Sys2Proof.Machine.execConfigApply p s
  | .leakageSaturation p c => Sys2Proof.Machine.execLeakageSaturation p c s
  | .settlingEnd p r => Sys2Proof.Machine.execSettlingEnd p r s
  | .leadingEdge p c coarse fine => Sys2Proof.Machine.execLeadingEdge p c coarse fine s
  | .wakeRequestExpire p group => Sys2Proof.Machine.execWakeRequestExpire p group s
  | .trailingEdge p c coarse fine => Sys2Proof.Machine.execTrailingEdge p c coarse fine s
  | .totSaturation p c => Sys2Proof.Machine.execTotSaturation p c s
  | .rearmComplete p c c1 c2 => Sys2Proof.Machine.execRearmComplete p c c1 c2 s
  | .regionReadout p r => Sys2Proof.Machine.execRegionReadout p r s
  | .columnArbiterMove p c => Sys2Proof.Machine.execColumnArbiterMove p c s
  | .dealerDeal p => Sys2Proof.Machine.execDealerDeal p s
  | .frameComplete p => Sys2Proof.Machine.execFrameComplete p s
  | .frameCloseDeadline p => Sys2Proof.Machine.execFrameCloseDeadline p s
  | .packetWaitExpire p l => Sys2Proof.Machine.execPacketWaitExpire p l s
  | .packetSend p l => Sys2Proof.Machine.execPacketSend p l s
  | .snapshotPacketSend p => Sys2Proof.Machine.execSnapshotPacketSend p s
  | .queuePointerMismatch p q => Sys2Proof.Machine.execQueuePointerMismatch p q s
  | .floodEnter p r => Sys2Proof.Machine.execFloodEnter p r s
  | .floodExit p r => Sys2Proof.Machine.execFloodExit p r s
  | .chipFloodEnter p => Sys2Proof.Machine.execChipFloodEnter p s
  | .chipFloodExit p => Sys2Proof.Machine.execChipFloodExit p s
  | .configFault p r => Sys2Proof.Machine.execConfigFault p r s
  | .timingCounterClear p alive val => Sys2Proof.Machine.execTimingCounterClear p alive val s
  | .readoutCounterClear p alive val => Sys2Proof.Machine.execReadoutCounterClear p alive val s
  | .feCounterClearApply p => Sys2Proof.Machine.execFeCounterClearApply p s
  | .pulseWidthTrigger p c => Sys2Proof.Machine.execPulseWidthTrigger p c s
  | .forceSnapshot p alive val => Sys2Proof.Machine.execForceSnapshot p alive val s
  | .freezeEvent p => Sys2Proof.Machine.execFreezeEvent p s
  | .snapshotConversionComplete p e codes => Sys2Proof.Machine.execSnapshotConversionComplete p e codes s
  | .snapshotBusGrant p e => Sys2Proof.Machine.execSnapshotBusGrant p e s
  | .snapCalZero p alive => Sys2Proof.Machine.execSnapCalZero p alive s
  | .snapCalFull p alive => Sys2Proof.Machine.execSnapCalFull p alive s
  | .snapCalCompute p alive => Sys2Proof.Machine.execSnapCalCompute p alive s
  | .snapCalClear p alive => Sys2Proof.Machine.execSnapCalClear p alive s
  | .snapCalPhaseDone p => Sys2Proof.Machine.execSnapCalPhaseDone p s
  | .coefficientWordError p e cell => Sys2Proof.Machine.execCoefficientWordError p e cell s
  | .snapshotRingWrite => Sys2Proof.Machine.execSnapshotRingWrite s
  | .snapshotDatagramSend bad => Sys2Proof.Machine.execSnapshotDatagramSend bad s
  | .blockLockAcquire p rx headers => Sys2Proof.Machine.execBlockLockAcquire p rx headers s
  | .blockLockLoss p rx window => Sys2Proof.Machine.execBlockLockLoss p rx window s
  | .packetReceive p blocks => Sys2Proof.Machine.execPacketReceive p blocks s
  | .linkstatSend p => Sys2Proof.Machine.execLinkstatSend p s
  | .linkstatReceive p lanes => Sys2Proof.Machine.execLinkstatReceive p lanes s
  | .nakReceive p l seq => Sys2Proof.Machine.execNakReceive p l seq s
  | .ackTimeout p l => Sys2Proof.Machine.execAckTimeout p l s
  | .creditGrant p l => Sys2Proof.Machine.execCreditGrant p l s
  | .festatPeriodicSend p power temp => Sys2Proof.Machine.execFestatPeriodicSend p power temp s
  | .wakeFestatSend p => Sys2Proof.Machine.execWakeFestatSend p s
  | .festatPeriodicReceive p exec late power temp trip fence cancelled => Sys2Proof.Machine.execFestatPeriodicReceive p exec late power temp trip fence cancelled s
  | .festatWakeReceive p exec late cancelled groups => Sys2Proof.Machine.execFestatWakeReceive p exec late cancelled groups s
  | .festatStale p => Sys2Proof.Machine.execFestatStale p s
  | .staleCritical p => Sys2Proof.Machine.execStaleCritical p s
  | .trainingAttemptStart p dl => Sys2Proof.Machine.execTrainingAttemptStart p dl s
  | .trainReceive p rx locked lock attempt => Sys2Proof.Machine.execTrainReceive p rx locked lock attempt s
  | .trainingAttemptTimeout p => Sys2Proof.Machine.execTrainingAttemptTimeout p s
  | .beaconBurst p => Sys2Proof.Machine.execBeaconBurst p s
  | .beaconReceive p request failed => Sys2Proof.Machine.execBeaconReceive p request failed s
  | .portRelease w e val => Sys2Proof.Machine.execPortRelease w e val s
  | .syncReceive p msg => Sys2Proof.Machine.execSyncReceive p msg s
  | .lanemapReceive p l phys frame => Sys2Proof.Machine.execLanemapReceive p l phys frame s
  | .delayProbeSend p t1 => Sys2Proof.Machine.execDelayProbeSend p t1 s
  | .delayReqReceive p id t2 wait t3 => Sys2Proof.Machine.execDelayReqReceive p id t2 wait t3 s
  | .delayRespReceive p id t2 t3 t4 => Sys2Proof.Machine.execDelayRespReceive p id t2 t3 t4 s
  | .timeSetReceive p dl cyc slot tick half fine => Sys2Proof.Machine.execTimeSetReceive p dl cyc slot tick half fine s
  | .downlinkLossTimeout p => Sys2Proof.Machine.execDownlinkLossTimeout p s
  | .primaryReturn p => Sys2Proof.Machine.execPrimaryReturn p s
  | .forceLaneSwap w e val => Sys2Proof.Machine.execForceLaneSwap w e val s
  | .forceDownlinkSwap w e val => Sys2Proof.Machine.execForceDownlinkSwap w e val s
  | .downlinkSwapApply p => Sys2Proof.Machine.execDownlinkSwapApply p s
  | .linkDelayCalibration w e val pairs => Sys2Proof.Machine.execLinkDelayCalibration w e val pairs s
  | .configWriteMessage p dl blocks => Sys2Proof.Machine.execConfigWriteMessage p dl blocks s
  | .configReadMessage p dl blocks => Sys2Proof.Machine.execConfigReadMessage p dl blocks s
  | .configMirrorMessage p dl blocks => Sys2Proof.Machine.execConfigMirrorMessage p dl blocks s
  | .configResponseReceive p alive status value => Sys2Proof.Machine.execConfigResponseReceive p alive status value s
  | .configResend p => Sys2Proof.Machine.execConfigResend p s
  | .configTimeout p => Sys2Proof.Machine.execConfigTimeout p s
  | .unresolvedResolve p => Sys2Proof.Machine.execUnresolvedResolve p s
  | .ptpSyncReceive p head twoStep stamp => Sys2Proof.Machine.execPtpSyncReceive p head twoStep stamp s
  | .ptpFollowUpReceive p head origin => Sys2Proof.Machine.execPtpFollowUpReceive p head origin s
  | .ptpDelayReqSend p seq stamp => Sys2Proof.Machine.execPtpDelayReqSend p seq stamp s
  | .ptpDelayRespReceive p head receipt => Sys2Proof.Machine.execPtpDelayRespReceive p head receipt s
  | .ptpAnnounceReceive p head data => Sys2Proof.Machine.execPtpAnnounceReceive p head data s
  | .announceReceiptTimeout p => Sys2Proof.Machine.execAnnounceReceiptTimeout p s
  | .syncIntervalTimeout p => Sys2Proof.Machine.execSyncIntervalTimeout p s
  | .timingLinkChange p up => Sys2Proof.Machine.execTimingLinkChange p up s
  | .esmcReceive p dnu => Sys2Proof.Machine.execEsmcReceive p dnu s
  | .synceWindowEnd p freq => Sys2Proof.Machine.execSynceWindowEnd p freq s
  | .homeReturn => Sys2Proof.Machine.execHomeReturn s
  | .acceptStep w val => Sys2Proof.Machine.execAcceptStep w val s
  | .timeStepApply => Sys2Proof.Machine.execTimeStepApply s
  | .firstTimeSetApply => Sys2Proof.Machine.execFirstTimeSetApply s
  | .timePreset w val => Sys2Proof.Machine.execTimePreset w val s
  | .refclkMeasureWindow q ppb vsUse => Sys2Proof.Machine.execRefclkMeasureWindow q ppb vsUse s
  | .referenceSelect w val => Sys2Proof.Machine.execReferenceSelect w val s
  | .referenceChangeApply => Sys2Proof.Machine.execReferenceChangeApply s
  | .cycleMarker input => Sys2Proof.Machine.execCycleMarker input s
  | .timePulse o => Sys2Proof.Machine.execTimePulse o s
  | .forceTimeBaseSwap w val => Sys2Proof.Machine.execForceTimeBaseSwap w val s
  | .timeBaseCheckFail => Sys2Proof.Machine.execTimeBaseCheckFail s
  | .timeBaseSelfTestDone u pass => Sys2Proof.Machine.execTimeBaseSelfTestDone u pass s
  | .timEdge n signal tick code pair => Sys2Proof.Machine.execTimEdge n signal tick code pair s
  | .statisticsRestart w e val => Sys2Proof.Machine.execStatisticsRestart w e val s
  | .stampQueueRead w n => Sys2Proof.Machine.execStampQueueRead w n s
  | .basketClose => Sys2Proof.Machine.execBasketClose s
  | .basketTimeout => Sys2Proof.Machine.execBasketTimeout s
  | .basketRelease => Sys2Proof.Machine.execBasketRelease s
  | .egressFragmentSend b => Sys2Proof.Machine.execEgressFragmentSend b s
  | .routeEntryWrite w col key val => Sys2Proof.Machine.execRouteEntryWrite w col key val s
  | .routeCommit w val => Sys2Proof.Machine.execRouteCommit w val s
  | .routeCommitApply => Sys2Proof.Machine.execRouteCommitApply s
  | .formatPin w val => Sys2Proof.Machine.execFormatPin w val s
  | .formatPinApply => Sys2Proof.Machine.execFormatPinApply s
  | .arpRequestReceive b dst senderMac senderIp targetIp => Sys2Proof.Machine.execArpRequestReceive b dst senderMac senderIp targetIp s
  | .icmpEchoReceive b dst srcMac srcIp dstIp rest => Sys2Proof.Machine.execIcmpEchoReceive b dst srcMac srcIp dstIp rest s
  | .pauseFrameReceive b quanta => Sys2Proof.Machine.execPauseFrameReceive b quanta s
  | .pauseExpire b => Sys2Proof.Machine.execPauseExpire b s
  | .backendLinkChange b up => Sys2Proof.Machine.execBackendLinkChange b up s
  | .concQueuePointerMismatch q lost => Sys2Proof.Machine.execConcQueuePointerMismatch q lost s
  | .decisionPoint => Sys2Proof.Machine.execDecisionPoint s
  | .pinTrigger n => Sys2Proof.Machine.execPinTrigger n s
  | .gatedReadout bad => Sys2Proof.Machine.execGatedReadout bad s
  | .scrubLapEnd sram => Sys2Proof.Machine.execScrubLapEnd sram s
  | .lapLimitExceeded => Sys2Proof.Machine.execLapLimitExceeded s
  | .stallPitchWrite w bw k val => Sys2Proof.Machine.execStallPitchWrite w bw k val s
  | .pitchScaling => Sys2Proof.Machine.execPitchScaling s
  | .pitchRestore => Sys2Proof.Machine.execPitchRestore s
  | .memoryChannelOffline m cause => Sys2Proof.Machine.execMemoryChannelOffline m cause s
  | .sramWordUncorrectable place bits => Sys2Proof.Machine.execSramWordUncorrectable place bits s
  | .diagnosticEnable w val => Sys2Proof.Machine.execDiagnosticEnable w val s
  | .diagnosticWriteRaw w => Sys2Proof.Machine.execDiagnosticWriteRaw w s
  | .diagnosticReadRaw w => Sys2Proof.Machine.execDiagnosticReadRaw w s
  | .diagnosticReadChecked w => Sys2Proof.Machine.execDiagnosticReadChecked w s
  | .thermalEvaluation sensors => Sys2Proof.Machine.execThermalEvaluation sensors s
  | .flapHoldEnd n => Sys2Proof.Machine.execFlapHoldEnd n s
  | .domainCaddyUpdate logic serdes memory => Sys2Proof.Machine.execDomainCaddyUpdate logic serdes memory s
  | .feThermalTrip p mean => Sys2Proof.Machine.execFeThermalTrip p mean s
  | .feTripRelease p mean cool => Sys2Proof.Machine.execFeTripRelease p mean cool s
  | .concThermalTrip sensor mean => Sys2Proof.Machine.execConcThermalTrip sensor mean s
  | .fenceBiasLimitWrite w e val => Sys2Proof.Machine.execFenceBiasLimitWrite w e val s
  | .servicePost poster task arg => Sys2Proof.Machine.execServicePost poster task arg s
  | .dataJobPost item => Sys2Proof.Machine.execDataJobPost item s
  | .jobDispatch => Sys2Proof.Machine.execJobDispatch s
  | .jobComplete core stores => Sys2Proof.Machine.execJobComplete core stores s
  | .jobAbort core stores => Sys2Proof.Machine.execJobAbort core stores s
  | .taskRestore w e val => Sys2Proof.Machine.execTaskRestore w e val s
  | .spillSegmentReadback bad => Sys2Proof.Machine.execSpillSegmentReadback bad s
  | .coreAccessFault core access => Sys2Proof.Machine.execCoreAccessFault core access s
  | .coreSramError core => Sys2Proof.Machine.execCoreSramError core s
  | .traceRead w => Sys2Proof.Machine.execTraceRead w s
  | .imageErase w e val => Sys2Proof.Machine.execImageErase w e val s
  | .imageData w e data => Sys2Proof.Machine.execImageData w e data s
  | .imageVerify w e val => Sys2Proof.Machine.execImageVerify w e val s
  | .imageOperationComplete n => Sys2Proof.Machine.execImageOperationComplete n s
  | .imageTrial w val => Sys2Proof.Machine.execImageTrial w val s
  | .imageTrialCancel w => Sys2Proof.Machine.execImageTrialCancel w s
  | .imageConfirm w val => Sys2Proof.Machine.execImageConfirm w val s
  | .preferredImage w val => Sys2Proof.Machine.execPreferredImage w val s
  | .maroriMessageReceive be ip udp mac bytes => Sys2Proof.Machine.execMaroriMessageReceive be ip udp mac bytes s
  | .canFdFrameReceive bus id data => Sys2Proof.Machine.execCanFdFrameReceive bus id data s
  | .canSegmentTimeout bus client => Sys2Proof.Machine.execCanSegmentTimeout bus client s
  | .maroriRead w port index sub elem => Sys2Proof.Machine.execMaroriRead w port index sub elem s
  | .maroriWrite w port index sub elem val => Sys2Proof.Machine.execMaroriWrite w port index sub elem val s
  | .maroriNop w => Sys2Proof.Machine.execMaroriNop w s
  | .maroriTrigger w port index sub elem payload => Sys2Proof.Machine.execMaroriTrigger w port index sub elem payload s
  | .guardToken w val => Sys2Proof.Machine.execGuardToken w val s
  | .guardTokenExpire c => Sys2Proof.Machine.execGuardTokenExpire c s
  | .transactionEntryExpire c tid => Sys2Proof.Machine.execTransactionEntryExpire c tid s
  | .restart w val => Sys2Proof.Machine.execRestart w val s
  | .ledgerRead w => Sys2Proof.Machine.execLedgerRead w s
  | .ledgerRewind w val => Sys2Proof.Machine.execLedgerRewind w val s
  | .ledgerWrite okA okB => Sys2Proof.Machine.execLedgerWrite okA okB s
  | .forceKeeperSwap w val => Sys2Proof.Machine.execForceKeeperSwap w val s
  | .aliveReset w e val => Sys2Proof.Machine.execAliveReset w e val s
  | .cvuSubmit core e slot desc => Sys2Proof.Machine.execCvuSubmit core e slot desc s
  | .cvuDescriptorStart e => Sys2Proof.Machine.execCvuDescriptorStart e s
  | .cvuDescriptorComplete e data bad => Sys2Proof.Machine.execCvuDescriptorComplete e data bad s
  | .emChannelTypeWrite w e val => Sys2Proof.Machine.execEmChannelTypeWrite w e val s
  | .emConversionStart n => Sys2Proof.Machine.execEmConversionStart n s
  | .emConversionComplete n meas => Sys2Proof.Machine.execEmConversionComplete n meas s
  | .excitationClamp n current => Sys2Proof.Machine.execExcitationClamp n current s
  | .blankRise n => Sys2Proof.Machine.execBlankRise n s
  | .blankFall n => Sys2Proof.Machine.execBlankFall n s
  | .blankHoldEnd n => Sys2Proof.Machine.execBlankHoldEnd n s
  | .fePowerOnReset p => Sys2Proof.Machine.execFePowerOnReset p s
  | .feSupplyFault p => Sys2Proof.Machine.execFeSupplyFault p s
  | .resetAssert aonLost => Sys2Proof.Machine.execResetAssert aonLost s
  | .resetRelease strap => Sys2Proof.Machine.execResetRelease strap s
  | .bootTimeout => Sys2Proof.Machine.execBootTimeout s
  | .startConfirm => Sys2Proof.Machine.execStartConfirm s
  | .fatalFault => Sys2Proof.Machine.execFatalFault s
  | .safeDrainEnd => Sys2Proof.Machine.execSafeDrainEnd s
  | .rateSweepComplete => Sys2Proof.Machine.execRateSweepComplete s
  | .keeperFailure cause us torn => Sys2Proof.Machine.execKeeperFailure cause us torn s
  | .keeperSelfTestDone pass => Sys2Proof.Machine.execKeeperSelfTestDone pass s
  | .warmStandbyEnd => Sys2Proof.Machine.execWarmStandbyEnd s
  | .refclkEdgeLoss q => Sys2Proof.Machine.execRefclkEdgeLoss q s
  | .invalidBlock p rx at_ line => Sys2Proof.Machine.execInvalidBlock p rx at_ line s
  | .scrubRead word => Sys2Proof.Machine.execScrubRead word s
  | .configurationCorrection p r => Sys2Proof.Machine.execConfigurationCorrection p r s
  | .coreReloadComplete core => Sys2Proof.Machine.execCoreReloadComplete core s
  | .bootStepComplete r => Sys2Proof.Machine.execBootStepComplete r s
  | .receiveDiscard b rx => Sys2Proof.Machine.execReceiveDiscard b rx s

end Sys2Proof.Machine
end

