-- ==== Sys2Proof/Machine/Step.lean ====
section
/-! DEFINITION. One step of the machine. -/

namespace Sys2Proof.Machine

/-- One slot of time passes (R5, R7): what an empty queue's step does (DESIGN CHOICE, log entry 1). -/
def State.tick (s : State) : State := { s with dev := { s.dev with now := s.dev.now + 1 } }

/-- One step: the command at the front of the queue runs with the queue's rest; with none waiting, one slot passes. -/
def step (s : State) : Host.Outcome State Fault Refusal :=
  match s.pending with
  | [] => .next s.tick
  | c :: rest => exec c { s with pending := rest }

/-- The state with the command that a word spells put at the front of its queue; no word spells one. -/
def State.withFetchWord (s : State) (nbits w : Nat) : State :=
  match decodeTableWord nbits w with
  | some c => { s with pending := c :: s.pending }
  | none => s

end Sys2Proof.Machine
end

