-- ==== Sys2Proof/Machine/Frames.lean ====
section
/-! DEFINITION. What each command may change: the parts of the device, the objects of the concentrator and of a front end,
and the port it acts on. The statements about frames are made in these words. -/

namespace Sys2Proof.Machine

/-- A part of the device: a group of fields of `Dev`. -/
inductive Part where
  | now | free | mode | inReset | regs | applied | mirror | grid | tb | tu | fes | ports | boot | aon | merge | net | mem | gov | sched
  | flash | cvu | aliveFresh | em | ledger | keeper | out
deriving DecidableEq, Repr

/-- Every part. -/
def Part.all : List Part :=
  [.now, .free, .mode, .inReset, .regs, .applied, .mirror, .grid, .tb, .tu, .fes, .ports, .boot, .aon, .merge, .net, .mem, .gov,
   .sched, .flash, .cvu, .aliveFresh, .em, .ledger, .keeper, .out]

/-- The part is the same in both devices. -/
def Part.same (k : Part) (d d' : Dev) : Prop :=
  match k with
  | .now => d'.now = d.now
  | .free => d'.free = d.free
  | .mode => d'.mode = d.mode ∧ d'.modePend = d.modePend ∧ d'.modeFrom = d.modeFrom ∧ d'.safeReason = d.safeReason
      ∧ d'.safeFrom = d.safeFrom ∧ d'.draining = d.draining ∧ d'.confirmAt = d.confirmAt
  | .inReset => d'.inReset = d.inReset
  | .regs => d'.regs = d.regs
  | .applied => d'.applied = d.applied
  | .mirror => d'.mirror = d.mirror ∧ d'.mirrorDom = d.mirrorDom
  | .grid => d'.grid = d.grid
  | .tb => d'.tb = d.tb
  | .tu => d'.tu = d.tu
  | .fes => d'.fes = d.fes
  | .ports => d'.ports = d.ports
  | .boot => d'.boot = d.boot
  | .aon => d'.aon = d.aon
  | .merge => d'.merge = d.merge
  | .net => d'.net = d.net ∧ d'.beTest = d.beTest
  | .mem => d'.mem = d.mem
  | .gov => d'.gov = d.gov
  | .sched => d'.sched = d.sched
  | .flash => d'.flash = d.flash
  | .cvu => d'.cvu = d.cvu
  | .aliveFresh => d'.aliveFresh = d.aliveFresh ∧ d'.aliveAt = d.aliveAt
  | .em => d'.em = d.em
  | .ledger => d'.ledger = d.ledger
  | .keeper => d'.keeper = d.keeper
  | .out => d'.out = d.out ∧ d'.lines = d.lines

/-- The parts a command may change. -/
def touches (c : Instr) : List Part :=
  match c with
  | .cycleBoundary => [.regs, .grid, .tb, .tu, .ports, .out, .aon, .gov, .ledger]
  | .frameBoundary => [.regs, .grid, .tb, .tu, .merge]
  | .feCycleBoundary _ _ => [.regs, .applied, .fes, .aon, .ledger]
  | .feFrameBoundary _ => [.regs, .fes]
  | .modeRequest _ _ => [.mode, .regs, .ports, .out, .boot, .net, .gov, .keeper]
  | .modeRequestCancel _ => [.mode, .regs, .ports, .out, .boot, .net, .gov, .keeper]
  | .modeChange => [.free, .mode, .regs, .grid, .tb, .ports, .out, .boot, .aon, .merge, .net, .mem, .gov, .sched, .em, .ledger, .keeper]
  | .calendarCommit _ _ => [.regs, .grid, .ports, .out, .net, .keeper]
  | .calendarCommitApply => [.regs, .grid]
  | .cycleLengthWrite _ _ => [.regs, .ports, .out, .net, .keeper]
  | .gridMoveApply => [.regs, .grid, .tb, .tu, .ports, .out, .aon, .gov, .ledger]
  | .fcmdIssue _ => [.regs, .ports, .out, .aon, .ledger]
  | .fcmdTargetPassed _ => [.regs, .ports, .out, .aon, .ledger]
  | .mirrorLagDetect _ => [.regs, .aon, .ledger]
  | .fcmdReceive _ _ _ _ _ => [.fes]
  | .modeCommand _ => [.regs, .applied, .fes]
  | .queueReset _ => [.regs, .fes]
  | .rateLatch _ => [.regs, .fes, .ports, .out, .keeper]
  | .pairRefresh _ _ _ => [.regs, .fes]
  | .calendarSnapshotTrigger _ => [.regs, .fes]
  | .biasCommand _ => [.regs, .fes]
  | .cycleEndCommand _ => [.fes]
  | .injectCommand _ => [.fes, .out]
  | .tickPhaseCommand _ => [.fes]
  | .scrubWindowOpen => [.regs, .grid, .mem]
  | .scrubWindowEnd => [.regs, .mem]
  | .triggerWindowOpen => [.regs, .grid, .aon, .mem, .ledger]
  | .precisionGrant _ => [.regs, .ports, .aon, .gov, .ledger]
  | .raiseEnd _ => [.ports, .gov]
  | .biasRepeat => [.ports, .gov]
  | .injectRequest _ _ _ => [.regs, .ports, .out, .net, .keeper]
  | .configApply _ => [.regs, .applied, .fes]
  | .leakageSaturation _ _ => [.regs, .aon, .ledger]
  | .settlingEnd _ _ => [.regs, .fes]
  | .leadingEdge _ _ _ _ => [.regs, .fes]
  | .wakeRequestExpire _ _ => [.fes]
  | .trailingEdge _ _ _ _ => [.regs, .fes]
  | .totSaturation _ _ => [.fes]
  | .rearmComplete _ _ _ _ => [.regs, .fes]
  | .regionReadout _ _ => [.regs, .fes]
  | .columnArbiterMove _ _ => [.fes]
  | .dealerDeal _ => [.fes]
  | .frameComplete _ => [.fes]
  | .frameCloseDeadline _ => [.regs, .fes]
  | .packetWaitExpire _ _ => [.fes]
  | .packetSend _ _ => [.fes, .out]
  | .snapshotPacketSend _ => [.fes, .out]
  | .queuePointerMismatch _ _ => [.regs, .fes]
  | .floodEnter _ _ => [.regs, .fes]
  | .floodExit _ _ => [.regs, .fes]
  | .chipFloodEnter _ => [.regs, .fes]
  | .chipFloodExit _ => [.regs, .fes]
  | .configFault _ _ => [.regs, .fes, .ports, .out, .aon, .ledger]
  | .timingCounterClear _ _ _ => [.regs, .fes, .out]
  | .readoutCounterClear _ _ _ => [.regs, .fes, .out]
  | .feCounterClearApply _ => [.regs, .fes]
  | .pulseWidthTrigger _ _ => [.regs, .fes]
  | .forceSnapshot _ _ _ => [.regs, .fes, .out]
  | .freezeEvent _ => [.free, .regs, .fes]
  | .snapshotConversionComplete _ _ _ => [.fes]
  | .snapshotBusGrant _ _ => [.fes]
  | .snapCalZero _ _ => [.regs, .fes, .out]
  | .snapCalFull _ _ => [.regs, .fes, .out]
  | .snapCalCompute _ _ => [.regs, .fes, .out]
  | .snapCalClear _ _ => [.regs, .fes, .out]
  | .snapCalPhaseDone _ => [.regs, .fes]
  | .coefficientWordError _ _ _ => [.regs, .fes]
  | .snapshotRingWrite => [.regs, .aon, .merge, .mem, .ledger]
  | .snapshotDatagramSend _ => [.regs, .aon, .merge, .mem, .ledger]
  | .blockLockAcquire _ _ _ => [.regs, .fes, .ports, .out, .merge, .net, .keeper]
  | .blockLockLoss _ _ _ => [.regs, .fes, .ports, .out, .aon, .merge, .net, .ledger, .keeper]
  | .packetReceive _ _ => [.regs, .ports, .out, .aon, .merge, .ledger]
  | .linkstatSend _ => [.regs, .ports, .out]
  | .linkstatReceive _ _ => [.fes, .out]
  | .nakReceive _ _ _ => [.regs, .fes, .ports, .out, .merge, .net, .keeper]
  | .ackTimeout _ _ => [.regs, .fes, .ports, .out, .merge, .net, .keeper]
  | .creditGrant _ _ => [.ports]
  | .festatPeriodicSend _ _ _ => [.fes, .out]
  | .wakeFestatSend _ => [.fes, .out]
  | .festatPeriodicReceive _ _ _ _ _ _ _ _ => [.regs, .ports, .aon, .gov, .ledger]
  | .festatWakeReceive _ _ _ _ _ => [.regs, .ports, .aon, .gov, .ledger]
  | .festatStale _ => [.regs, .ports]
  | .staleCritical _ => [.ports, .aon, .gov, .ledger]
  | .trainingAttemptStart _ _ => [.regs, .ports, .out, .merge, .net, .keeper]
  | .trainReceive _ _ _ _ _ => [.fes, .ports, .out]
  | .trainingAttemptTimeout _ => [.regs, .ports, .out, .aon, .merge, .net, .ledger, .keeper]
  | .beaconBurst _ => [.ports, .out]
  | .beaconReceive _ _ _ => [.regs, .fes, .out]
  | .portRelease _ _ _ => [.regs, .ports, .out, .merge, .net, .keeper]
  | .syncReceive _ _ => [.regs, .fes, .ports, .out, .aon, .merge, .net, .ledger, .keeper]
  | .lanemapReceive _ _ _ _ => [.regs, .ports, .out, .aon, .merge, .net, .ledger, .keeper]
  | .delayProbeSend _ _ => [.regs, .ports, .out]
  | .delayReqReceive _ _ _ _ _ => [.out]
  | .delayRespReceive _ _ _ _ _ => [.regs, .ports, .out, .merge, .net, .keeper]
  | .timeSetReceive _ _ _ _ _ _ _ => [.regs, .fes]
  | .downlinkLossTimeout _ => [.regs, .applied, .fes]
  | .primaryReturn _ => [.regs, .fes, .ports, .out, .aon, .merge, .net, .ledger, .keeper]
  | .forceLaneSwap _ _ _ => [.regs, .ports, .out, .aon, .merge, .net, .ledger, .keeper]
  | .forceDownlinkSwap _ _ _ => [.regs, .ports, .out, .net, .keeper]
  | .downlinkSwapApply _ => [.regs, .fes, .ports, .out, .aon, .merge, .net, .ledger, .keeper]
  | .linkDelayCalibration _ _ _ _ => [.regs, .out, .net, .keeper]
  | .configWriteMessage _ _ _ => [.regs, .fes, .ports, .out]
  | .configReadMessage _ _ _ => [.regs, .fes, .ports, .out]
  | .configMirrorMessage _ _ _ => [.regs, .fes, .ports, .out]
  | .configResponseReceive _ _ _ _ => [.regs, .mirror, .fes, .ports, .out, .aon, .net, .ledger, .keeper]
  | .configResend _ => [.ports, .out]
  | .configTimeout _ => [.regs, .ports, .out, .net, .keeper]
  | .unresolvedResolve _ => [.regs, .ports, .out, .aon, .ledger, .keeper]
  | .ptpSyncReceive _ _ _ _ => [.regs, .tb]
  | .ptpFollowUpReceive _ _ _ => [.tb]
  | .ptpDelayReqSend _ _ _ => [.tb, .out]
  | .ptpDelayRespReceive _ _ _ => [.regs, .tb, .tu, .aon, .ledger]
  | .ptpAnnounceReceive _ _ _ => [.regs, .tb, .tu, .aon, .ledger]
  | .announceReceiptTimeout _ => [.regs, .tb, .tu, .aon, .ledger]
  | .syncIntervalTimeout _ => [.regs, .tb, .tu, .aon, .ledger]
  | .timingLinkChange _ _ => [.regs, .tb, .tu, .aon, .ledger]
  | .esmcReceive _ _ => [.tb]
  | .synceWindowEnd _ _ => [.regs, .tb, .out]
  | .homeReturn => [.tb, .aon, .ledger]
  | .acceptStep _ _ => [.regs, .tb, .out, .net, .keeper]
  | .timeStepApply => [.regs, .grid, .tb, .tu, .ports, .aon, .gov, .ledger]
  | .firstTimeSetApply => [.regs, .grid, .tb, .tu, .ports, .aon, .gov, .ledger]
  | .timePreset _ _ => [.regs, .tb, .out, .net, .keeper]
  | .refclkMeasureWindow _ _ _ => [.regs, .tb, .tu, .aon, .ledger]
  | .referenceSelect _ _ => [.regs, .tu, .out, .net, .keeper]
  | .referenceChangeApply => [.regs, .tb, .tu, .aon, .ledger]
  | .cycleMarker _ => [.regs, .grid, .tb, .ports, .gov]
  | .timePulse _ => [.tu, .out]
  | .forceTimeBaseSwap _ _ => [.regs, .tu, .out, .net, .keeper]
  | .timeBaseCheckFail => Part.all
  | .timeBaseSelfTestDone _ _ => [.tu, .aon, .ledger]
  | .timEdge _ _ _ _ _ => [.regs, .tu]
  | .statisticsRestart _ _ _ => [.regs, .tu, .out, .net, .keeper]
  | .stampQueueRead _ _ => [.regs, .tu, .out, .net, .keeper]
  | .basketClose => [.regs, .aon, .merge, .ledger]
  | .basketTimeout => [.regs, .aon, .merge, .ledger]
  | .basketRelease => [.regs, .aon, .merge, .mem, .ledger]
  | .egressFragmentSend _ => [.regs, .out, .aon, .merge, .net, .mem, .ledger]
  | .routeEntryWrite _ _ _ _ => [.regs, .out, .merge, .net, .keeper]
  | .routeCommit _ _ => [.regs, .out, .merge, .net, .keeper]
  | .routeCommitApply => [.regs, .merge]
  | .formatPin _ _ => [.regs, .out, .merge, .net, .keeper]
  | .formatPinApply => [.regs, .merge]
  | .arpRequestReceive _ _ _ _ _ => [.regs, .out, .net]
  | .icmpEchoReceive _ _ _ _ _ _ => [.regs, .out, .net]
  | .pauseFrameReceive _ _ => [.regs, .out, .net]
  | .pauseExpire _ => [.regs, .out, .net]
  | .backendLinkChange _ _ => [.regs]
  | .concQueuePointerMismatch _ _ => [.free, .regs, .out, .aon, .merge, .net, .mem, .sched, .cvu, .ledger, .keeper]
  | .decisionPoint => [.regs, .aon, .merge, .mem, .ledger]
  | .pinTrigger _ => [.regs, .aon, .mem, .ledger]
  | .gatedReadout _ => [.regs, .aon, .merge, .mem, .ledger]
  | .scrubLapEnd _ => [.regs, .mem]
  | .lapLimitExceeded => [.regs, .aon, .ledger]
  | .stallPitchWrite _ _ _ _ => [.regs, .out, .net, .mem, .keeper]
  | .pitchScaling => [.regs, .aon, .mem, .ledger]
  | .pitchRestore => [.regs, .aon, .mem, .ledger]
  | .memoryChannelOffline _ _ => [.regs, .aon, .mem, .ledger]
  | .sramWordUncorrectable _ _ => Part.all
  | .diagnosticEnable _ _ => [.regs, .out, .net, .keeper]
  | .diagnosticWriteRaw _ => [.regs, .out, .net, .mem, .keeper]
  | .diagnosticReadRaw _ => [.free, .regs, .out, .net, .keeper]
  | .diagnosticReadChecked _ => [.free, .regs, .out, .net, .keeper]
  | .thermalEvaluation _ => [.free, .regs, .ports, .aon, .mem, .gov, .sched, .ledger]
  | .flapHoldEnd _ => [.free, .regs, .ports, .aon, .mem, .gov, .sched, .ledger]
  | .domainCaddyUpdate _ _ _ => [.free, .regs, .aon, .mem, .gov, .sched, .ledger]
  | .feThermalTrip _ _ => [.regs, .fes]
  | .feTripRelease _ _ _ => [.regs, .fes]
  | .concThermalTrip _ _ => [.mode, .regs, .ports, .boot, .aon, .gov, .ledger]
  | .fenceBiasLimitWrite _ _ _ => [.regs, .ports, .out, .net, .keeper]
  | .servicePost _ _ _ => [.free, .regs, .aon, .mem, .sched, .ledger]
  | .dataJobPost _ => [.free, .regs, .tu, .out, .net, .sched, .cvu, .em, .keeper]
  | .jobDispatch => [.free, .regs, .out, .sched]
  | .jobComplete _ _ => [.free, .regs, .out, .net, .mem, .sched, .cvu, .em, .keeper]
  | .jobAbort _ _ => [.free, .regs, .out, .aon, .net, .mem, .sched, .cvu, .em, .ledger, .keeper]
  | .taskRestore _ _ _ => [.regs, .out, .net, .sched, .keeper]
  | .spillSegmentReadback _ => [.free, .regs, .out, .aon, .net, .mem, .sched, .ledger, .keeper]
  | .coreAccessFault _ _ => [.free, .regs, .out, .aon, .mem, .sched, .cvu, .ledger, .keeper]
  | .coreSramError _ => [.free, .regs, .out, .aon, .net, .sched, .cvu, .em, .ledger, .keeper]
  | .traceRead _ => [.free, .regs, .out, .net, .sched, .keeper]
  | .imageErase _ _ _ => [.regs, .out, .net, .flash, .keeper]
  | .imageData _ _ _ => [.regs, .out, .net, .flash, .keeper]
  | .imageVerify _ _ _ => [.regs, .out, .net, .flash, .keeper]
  | .imageOperationComplete _ => [.free, .regs, .flash]
  | .imageTrial _ _ => [.regs, .out, .aon, .net, .ledger, .keeper]
  | .imageTrialCancel _ => [.regs, .out, .aon, .net, .ledger, .keeper]
  | .imageConfirm _ _ => [.regs, .out, .aon, .net, .ledger, .keeper]
  | .preferredImage _ _ => [.regs, .out, .aon, .net, .ledger, .keeper]
  | .maroriMessageReceive _ _ _ _ _ => [.regs, .out, .net, .keeper]
  | .canFdFrameReceive _ _ _ => [.regs, .out, .net, .keeper]
  | .canSegmentTimeout _ _ => [.regs, .keeper]
  | .maroriRead _ _ _ _ _ => [.regs, .tu, .ports, .out, .net, .keeper]
  | .maroriWrite _ _ _ _ _ _ => [.free, .regs, .grid, .tb, .tu, .ports, .out, .aon, .merge, .net, .mem, .gov, .sched, .cvu, .em, .ledger, .keeper]
  | .maroriNop _ => [.regs, .out, .net, .keeper]
  | .maroriTrigger _ _ _ _ _ _ => [.regs, .out, .aon, .net, .mem, .ledger, .keeper]
  | .guardToken _ _ => [.free, .regs, .out, .net, .keeper]
  | .guardTokenExpire _ => [.keeper]
  | .transactionEntryExpire _ _ => [.keeper]
  | .restart _ _ => Part.all
  | .ledgerRead _ => [.regs, .out, .net, .ledger, .keeper]
  | .ledgerRewind _ _ => [.regs, .out, .net, .ledger, .keeper]
  | .ledgerWrite _ _ => [.aon, .ledger]
  | .forceKeeperSwap _ _ => [.free, .regs, .ports, .out, .aon, .net, .sched, .flash, .cvu, .em, .ledger, .keeper]
  | .aliveReset _ _ _ => [.regs, .out, .net, .aliveFresh, .keeper]
  | .cvuSubmit _ _ _ _ => [.regs, .out, .cvu]
  | .cvuDescriptorStart _ => [.cvu]
  | .cvuDescriptorComplete _ _ _ => [.free, .regs, .out, .aon, .net, .mem, .sched, .cvu, .aliveFresh, .ledger, .keeper]
  | .emChannelTypeWrite _ _ _ => [.regs, .out, .net, .em, .keeper]
  | .emConversionStart _ => [.em]
  | .emConversionComplete _ _ => [.free, .regs, .out, .net, .sched, .em, .keeper]
  | .excitationClamp _ _ => [.regs, .aon, .em, .ledger]
  | .blankRise _ => [.regs, .em]
  | .blankFall _ => [.em]
  | .blankHoldEnd _ => [.em]
  | .fePowerOnReset _ => [.regs, .applied, .fes]
  | .feSupplyFault _ => [.regs, .applied, .fes]
  | .resetAssert _ => Part.all
  | .resetRelease _ => Part.all
  | .bootTimeout => Part.all
  | .startConfirm => [.mode, .boot, .aon, .ledger]
  | .fatalFault => Part.all
  | .safeDrainEnd => [.mode, .regs, .aon, .merge, .net, .mem, .ledger]
  | .rateSweepComplete => [.mode, .regs, .ports, .aon, .ledger, .keeper]
  | .keeperFailure _ _ _ => Part.all
  | .keeperSelfTestDone _ => [.aon, .ledger, .keeper]
  | .warmStandbyEnd => [.keeper]
  | .refclkEdgeLoss _ => [.regs, .tb, .tu, .aon, .ledger]
  | .invalidBlock _ _ _ _ => [.regs, .ports, .out]
  | .scrubRead _ => [.regs, .aon, .mem, .ledger]
  | .configurationCorrection _ _ => [.regs]
  | .coreReloadComplete _ => [.aon, .sched, .ledger]
  | .bootStepComplete _ => Part.all
  | .receiveDiscard _ _ => [.regs, .net]

/-- The commands that may restart the device, and so change everything (R398, R486, R495, R501). -/
def restarts (c : Instr) : Bool :=
  match c with
  | .timeBaseCheckFail => true
  | .sramWordUncorrectable _ _ => true
  | .restart _ _ => true
  | .resetAssert _ => true
  | .resetRelease _ => true
  | .bootTimeout => true
  | .fatalFault => true
  | .keeperFailure _ _ _ => true
  | .bootStepComplete _ => true
  | _ => false

/-- The addresses of the concentrator's objects whose words a command may change; none where it may restart the device. -/
def setsObjects (c : Instr) : Option (List Nat) :=
  match c with
  | .cycleBoundary => some [Reg.TB_CYC_SLIP, Reg.TB_GRID_ERR, Reg.TB_SWAP_CNT, Reg.WP_DCORR, Reg.WP_PHASE_STEPS, Reg.WP_STATUS]
  | .frameBoundary => some [Reg.BE_FMT, Reg.MG_BASKET_NUM, Reg.MG_EVICT, Reg.MG_MISS, Reg.MG_MISSING, Reg.MG_STATUS,
      Reg.ROUTE_GEN]
  | .feCycleBoundary _ _ => some []
  | .feFrameBoundary _ => some []
  | .modeRequest _ _ => some [Reg.BE_TX_BYTES, Reg.BE_TX_FRAMES, Reg.COM_EXEC, Reg.GV_TSTATE, Reg.MD_REQUEST, Reg.MEM_CH_STATE]
  | .modeRequestCancel _ => some [Reg.BE_TX_BYTES, Reg.BE_TX_FRAMES, Reg.COM_EXEC, Reg.GV_TSTATE, Reg.MD_REQUEST,
      Reg.MEM_CH_STATE]
  | .modeChange => some [Reg.BE_LINK, Reg.BE_TX_BYTES, Reg.BE_TX_FRAMES, Reg.CAL_LEAD_SHORT, Reg.CAL_REFUSED_AT,
      Reg.CAL_STATUS, Reg.COM_EXEC, Reg.ECC_DIAG_EN, Reg.GV_CORES, Reg.GV_DOM_BAL, Reg.GV_FE_BAL, Reg.GV_FE_CSTAT,
      Reg.GV_MEM_THROTTLE, Reg.GV_SCRUB_PERMIT, Reg.GV_STATUS, Reg.MD_CHANGES, Reg.MD_REFUSAL, Reg.MD_REQUEST, Reg.MEM_RETIRED,
      Reg.MEM_USABLE, Reg.MG_MISSING, Reg.SCR_STATUS, Reg.SC_LOST, Reg.SC_TRACE_DROP, Reg.SNAP_RING_HELD, Reg.TRG_BACKLOG_NOW,
      Reg.TRG_EXPIRED, Reg.TRG_PAUSE, Reg.TRG_WFILL, Reg.WP_RUN_FAIL, Reg.WP_STATE, Reg.WP_STATUS]
  | .calendarCommit _ _ => some [Reg.BE_TX_BYTES, Reg.BE_TX_FRAMES, Reg.CAL_REFUSED_AT, Reg.CAL_STATUS, Reg.COM_EXEC]
  | .calendarCommitApply => some (calObjects.map (· + 0x300) ++ [Reg.CAL_COMMIT_CYC, Reg.CAL_STATUS])
  | .cycleLengthWrite _ _ => some [Reg.BE_TX_BYTES, Reg.BE_TX_FRAMES, Reg.COM_EXEC, Reg.CYCLE_LEN]
  | .gridMoveApply => some [Reg.CAL_SKIPPED, Reg.TB_CYC_SLIP, Reg.TB_GRID_ERR, Reg.TB_REPHASE, Reg.TB_SWAP_CNT, Reg.WP_DCORR,
      Reg.WP_PHASE_STEPS, Reg.WP_STATUS]
  | .fcmdIssue _ => some [Reg.GV_FENCE_CNT, Reg.GV_FENCE_STAT, Reg.WP_DCORR]
  | .fcmdTargetPassed _ => some [Reg.CAL_LATE, Reg.WP_DCORR]
  | .mirrorLagDetect _ => some [Reg.WP_STATUS]
  | .fcmdReceive _ _ _ _ _ => some []
  | .modeCommand _ => some []
  | .queueReset _ => some []
  | .rateLatch _ => some []
  | .pairRefresh _ _ _ => some []
  | .calendarSnapshotTrigger _ => some []
  | .biasCommand _ => some []
  | .cycleEndCommand _ => some []
  | .injectCommand _ => some []
  | .tickPhaseCommand _ => some []
  | .scrubWindowOpen => some [Reg.SCR_STATUS]
  | .scrubWindowEnd => some [Reg.SCR_STATUS]
  | .triggerWindowOpen => some [Reg.TRG_LATE, Reg.TRG_OPENED, Reg.TRG_REFUSED, Reg.TRG_WFILL]
  | .precisionGrant _ => some [Reg.GV_FENCE_CNT, Reg.GV_FENCE_STAT, Reg.GV_REDUCED, Reg.GV_REFUSED]
  | .raiseEnd _ => some []
  | .biasRepeat => some []
  | .injectRequest _ _ _ => some [Reg.BE_TX_BYTES, Reg.BE_TX_FRAMES, Reg.COM_EXEC]
  | .configApply _ => some []
  | .leakageSaturation _ _ => some []
  | .settlingEnd _ _ => some []
  | .leadingEdge _ _ _ _ => some []
  | .wakeRequestExpire _ _ => some []
  | .trailingEdge _ _ _ _ => some []
  | .totSaturation _ _ => some []
  | .rearmComplete _ _ _ _ => some []
  | .regionReadout _ _ => some []
  | .columnArbiterMove _ _ => some []
  | .dealerDeal _ => some []
  | .frameComplete _ => some []
  | .frameCloseDeadline _ => some []
  | .packetWaitExpire _ _ => some []
  | .packetSend _ _ => some []
  | .snapshotPacketSend _ => some []
  | .queuePointerMismatch _ _ => some []
  | .floodEnter _ _ => some []
  | .floodExit _ _ => some []
  | .chipFloodEnter _ => some []
  | .chipFloodExit _ => some []
  | .configFault _ _ => some []
  | .timingCounterClear _ _ _ => some []
  | .readoutCounterClear _ _ _ => some []
  | .feCounterClearApply _ => some []
  | .pulseWidthTrigger _ _ => some []
  | .forceSnapshot _ _ _ => some []
  | .freezeEvent _ => some []
  | .snapshotConversionComplete _ _ _ => some []
  | .snapshotBusGrant _ _ => some []
  | .snapCalZero _ _ => some []
  | .snapCalFull _ _ => some []
  | .snapCalCompute _ _ => some []
  | .snapCalClear _ _ => some []
  | .snapCalPhaseDone _ => some []
  | .coefficientWordError _ _ _ => some []
  | .snapshotRingWrite => some [Reg.MEM_RETIRED, Reg.MEM_USABLE, Reg.SNAP_RING_DROP, Reg.SNAP_RING_HELD, Reg.SNAP_RING_OVWR,
      Reg.SNAP_RING_WSEQ]
  | .snapshotDatagramSend _ => some [Reg.ECC_COR, Reg.ECC_TAG, Reg.ECC_UNC, Reg.MEM_RETIRED, Reg.MEM_USABLE,
      Reg.SNAP_RING_DROP, Reg.SNAP_RING_HELD]
  | .blockLockAcquire _ _ _ => some [Reg.BE_TX_BYTES, Reg.BE_TX_FRAMES, Reg.COM_EXEC, Reg.MG_MISSING, Reg.WP_RETRAINS,
      Reg.WP_RUN_FAIL, Reg.WP_STATE, Reg.WP_STATUS]
  | .blockLockLoss _ _ _ => some [Reg.BE_TX_BYTES, Reg.BE_TX_FRAMES, Reg.COM_EXEC, Reg.MG_MISSING, Reg.WP_RETRAINS,
      Reg.WP_RUN_FAIL, Reg.WP_STATE, Reg.WP_STATUS]
  | .packetReceive _ _ => some [Reg.MG_LATE, Reg.MG_NAME_ERR, Reg.WP_CRC_ERR, Reg.WP_CTL_ERR]
  | .linkstatSend _ => some [Reg.WP_DCORR]
  | .linkstatReceive _ _ => some []
  | .nakReceive _ _ _ => some [Reg.BE_TX_BYTES, Reg.BE_TX_FRAMES, Reg.COM_EXEC, Reg.MG_MISSING, Reg.WP_REPLAYS,
      Reg.WP_RETRAINS, Reg.WP_RUN_FAIL, Reg.WP_STATE, Reg.WP_STATUS]
  | .ackTimeout _ _ => some [Reg.BE_TX_BYTES, Reg.BE_TX_FRAMES, Reg.COM_EXEC, Reg.MG_MISSING, Reg.WP_REPLAYS, Reg.WP_RETRAINS,
      Reg.WP_RUN_FAIL, Reg.WP_STATE, Reg.WP_STATUS]
  | .creditGrant _ _ => some []
  | .festatPeriodicSend _ _ _ => some []
  | .wakeFestatSend _ => some []
  | .festatPeriodicReceive _ _ _ _ _ _ _ _ => some [Reg.CAL_CANCELLED, Reg.CAL_LATE, Reg.GV_FENCE_CNT, Reg.GV_FENCE_STAT,
      Reg.GV_FE_BAL, Reg.GV_FE_CSTAT, Reg.GV_FE_POWER, Reg.GV_FLAPS, Reg.GV_REFUSED, Reg.GV_TCHANGES, Reg.GV_TEMP,
      Reg.GV_TSTATE, Reg.WP_CMD_LOST]
  | .festatWakeReceive _ _ _ _ _ => some [Reg.CAL_CANCELLED, Reg.CAL_LATE, Reg.GV_FENCE_CNT, Reg.GV_FENCE_STAT, Reg.GV_REDUCED,
      Reg.GV_REFUSED, Reg.GV_WAKES, Reg.WP_CMD_LOST]
  | .festatStale _ => some [Reg.GV_FE_CSTAT]
  | .staleCritical _ => some []
  | .trainingAttemptStart _ _ => some [Reg.BE_TX_BYTES, Reg.BE_TX_FRAMES, Reg.COM_EXEC, Reg.MG_MISSING, Reg.WP_RETRAINS,
      Reg.WP_RUN_FAIL, Reg.WP_STATE, Reg.WP_STATUS]
  | .trainReceive _ _ _ _ _ => some []
  | .trainingAttemptTimeout _ => some [Reg.BE_TX_BYTES, Reg.BE_TX_FRAMES, Reg.COM_EXEC, Reg.MG_MISSING, Reg.WP_RETRAINS,
      Reg.WP_RUN_FAIL, Reg.WP_STATE, Reg.WP_STATUS]
  | .beaconBurst _ => some []
  | .beaconReceive _ _ _ => some []
  | .portRelease _ _ _ => some [Reg.BE_TX_BYTES, Reg.BE_TX_FRAMES, Reg.COM_EXEC, Reg.MG_MISSING, Reg.WP_RUN_FAIL, Reg.WP_STATE]
  | .syncReceive _ _ => some [Reg.BE_TX_BYTES, Reg.BE_TX_FRAMES, Reg.COM_EXEC, Reg.MG_MISSING, Reg.WP_DCORR, Reg.WP_RUN_FAIL,
      Reg.WP_STATE, Reg.WP_STATUS]
  | .lanemapReceive _ _ _ _ => some [Reg.BE_TX_BYTES, Reg.BE_TX_FRAMES, Reg.COM_EXEC, Reg.MG_MISSING, Reg.WP_LANE_MAP,
      Reg.WP_RUN_FAIL, Reg.WP_STATE, Reg.WP_STATUS]
  | .delayProbeSend _ _ => some [Reg.WP_DCORR]
  | .delayReqReceive _ _ _ _ _ => some []
  | .delayRespReceive _ _ _ _ _ => some [Reg.BE_TX_BYTES, Reg.BE_TX_FRAMES, Reg.COM_EXEC, Reg.MG_MISSING, Reg.WP_DCORR,
      Reg.WP_DL_DELAY, Reg.WP_RTT, Reg.WP_RUN_FAIL, Reg.WP_STATE, Reg.WP_STATUS]
  | .timeSetReceive _ _ _ _ _ _ _ => some []
  | .downlinkLossTimeout _ => some []
  | .primaryReturn _ => some [Reg.BE_TX_BYTES, Reg.BE_TX_FRAMES, Reg.COM_EXEC, Reg.MG_MISSING, Reg.WP_DCORR, Reg.WP_DL_DELAY,
      Reg.WP_RTT, Reg.WP_RUN_FAIL, Reg.WP_STATE, Reg.WP_STATUS]
  | .forceLaneSwap _ _ _ => some [Reg.BE_TX_BYTES, Reg.BE_TX_FRAMES, Reg.COM_EXEC, Reg.MG_MISSING, Reg.WP_RETRAINS,
      Reg.WP_RUN_FAIL, Reg.WP_STATE, Reg.WP_STATUS]
  | .forceDownlinkSwap _ _ _ => some [Reg.BE_TX_BYTES, Reg.BE_TX_FRAMES, Reg.COM_EXEC]
  | .downlinkSwapApply _ => some [Reg.BE_TX_BYTES, Reg.BE_TX_FRAMES, Reg.COM_EXEC, Reg.MG_MISSING, Reg.WP_DCORR,
      Reg.WP_DL_DELAY, Reg.WP_RTT, Reg.WP_RUN_FAIL, Reg.WP_STATE, Reg.WP_STATUS]
  | .linkDelayCalibration _ _ _ _ => some [Reg.BE_TX_BYTES, Reg.BE_TX_FRAMES, Reg.COM_EXEC, Reg.WP_ASYM]
  | .configWriteMessage _ _ _ => some [Reg.WP_CTL_ERR]
  | .configReadMessage _ _ _ => some [Reg.WP_CTL_ERR]
  | .configMirrorMessage _ _ _ => some [Reg.WP_CTL_ERR]
  | .configResponseReceive _ _ _ _ => some [Reg.BE_TX_BYTES, Reg.BE_TX_FRAMES, Reg.COM_EXEC, Reg.COM_RESOLVED, Reg.COM_UNRES,
      Reg.GV_FENCE_CNT, Reg.GV_FENCE_STAT, Reg.WP_DCORR, Reg.WP_STATUS]
  | .configResend _ => some []
  | .configTimeout _ => some [Reg.BE_TX_BYTES, Reg.BE_TX_FRAMES, Reg.COM_EXEC, Reg.COM_UNKNOWN, Reg.COM_UNRES]
  | .unresolvedResolve _ => some [Reg.COM_RESOLVED, Reg.COM_UNRES]
  | .ptpSyncReceive _ _ _ _ => some [Reg.TB_PTP_1STEP]
  | .ptpFollowUpReceive _ _ _ => some []
  | .ptpDelayReqSend _ _ _ => some []
  | .ptpDelayRespReceive _ _ _ => some [Reg.TB_OUTLIERS, Reg.TB_SRC_OFS, Reg.TB_STEP_PEND, Reg.TB_STEP_REFUSED]
  | .ptpAnnounceReceive _ _ _ => some [Reg.TB_STEP_PEND, Reg.TB_STEP_REFUSED]
  | .announceReceiptTimeout _ => some [Reg.TB_STEP_PEND, Reg.TB_STEP_REFUSED]
  | .syncIntervalTimeout _ => some [Reg.TB_STEP_PEND, Reg.TB_STEP_REFUSED]
  | .timingLinkChange _ _ => some [Reg.TB_STEP_PEND, Reg.TB_STEP_REFUSED]
  | .esmcReceive _ _ => some []
  | .synceWindowEnd _ _ => some [Reg.TB_SRC_OFS]
  | .homeReturn => some []
  | .acceptStep _ _ => some [Reg.BE_TX_BYTES, Reg.BE_TX_FRAMES, Reg.COM_EXEC]
  | .timeStepApply => some [Reg.TB_STEPS, Reg.TB_STEP_PEND, Reg.TPO_SKIP]
  | .firstTimeSetApply => some [Reg.TB_STEPS, Reg.TB_STEP_PEND, Reg.TPO_SKIP]
  | .timePreset _ _ => some [Reg.BE_TX_BYTES, Reg.BE_TX_FRAMES, Reg.COM_EXEC]
  | .refclkMeasureWindow _ _ _ => some [Reg.TB_REF_FOFS, Reg.TB_REF_STATE, Reg.TB_REF_SW, Reg.TB_REF_USE]
  | .referenceSelect _ _ => some [Reg.BE_TX_BYTES, Reg.BE_TX_FRAMES, Reg.COM_EXEC, Reg.TB_REF_SEL]
  | .referenceChangeApply => some [Reg.TB_REF_SW, Reg.TB_REF_USE]
  | .cycleMarker _ => some [Reg.CM_ANOM, Reg.CM_DEV, Reg.CM_JIT]
  | .timePulse _ => some []
  | .forceTimeBaseSwap _ _ => some [Reg.BE_TX_BYTES, Reg.BE_TX_FRAMES, Reg.COM_EXEC]
  | .timeBaseCheckFail => none
  | .timeBaseSelfTestDone _ _ => some []
  | .timEdge _ _ _ _ _ => some [Reg.TIM_MISSED, Reg.TIM_QFILL, Reg.TIM_QOVF]
  | .statisticsRestart _ _ _ => some [Reg.BE_TX_BYTES, Reg.BE_TX_FRAMES, Reg.COM_EXEC]
  | .stampQueueRead _ _ => some [Reg.BE_TX_BYTES, Reg.BE_TX_FRAMES, Reg.COM_EXEC, Reg.TIM_QFILL]
  | .basketClose => some [Reg.MG_CLOSED, Reg.MG_CNT_MISM, Reg.MG_MISSING, Reg.MG_TIMEOUTS]
  | .basketTimeout => some [Reg.MG_CLOSED, Reg.MG_CNT_MISM, Reg.MG_MISSING, Reg.MG_TIMEOUTS]
  | .basketRelease => some [Reg.MEM_RETIRED, Reg.MEM_USABLE, Reg.MG_EGR_WAIT, Reg.ST_QLOSS, Reg.ST_REFUSED]
  | .egressFragmentSend _ => some [Reg.BE_TX_BYTES, Reg.BE_TX_FRAMES, Reg.MEM_RETIRED, Reg.MEM_USABLE, Reg.SNAP_RING_HELD]
  | .routeEntryWrite _ col _ _ => some ((Reg.RT_EGRESS + col.val) :: [Reg.BE_TX_BYTES, Reg.BE_TX_FRAMES, Reg.COM_EXEC,
      Reg.MG_STATUS])
  | .routeCommit _ _ => some [Reg.BE_TX_BYTES, Reg.BE_TX_FRAMES, Reg.COM_EXEC, Reg.MG_STATUS]
  | .routeCommitApply => some [Reg.MG_STATUS, Reg.ROUTE_GEN]
  | .formatPin _ _ => some [Reg.BE_FMT_PIN, Reg.BE_TX_BYTES, Reg.BE_TX_FRAMES, Reg.COM_EXEC]
  | .formatPinApply => some [Reg.BE_FMT]
  | .arpRequestReceive _ _ _ _ _ => some [Reg.BE_TX_BYTES, Reg.BE_TX_FRAMES]
  | .icmpEchoReceive _ _ _ _ _ _ => some [Reg.BE_TX_BYTES, Reg.BE_TX_FRAMES]
  | .pauseFrameReceive _ _ => some [Reg.BE_PAUSE_TIME, Reg.BE_RX_DISC, Reg.BE_TX_BYTES, Reg.BE_TX_FRAMES]
  | .pauseExpire _ => some [Reg.BE_PAUSE_TIME, Reg.BE_TX_BYTES, Reg.BE_TX_FRAMES]
  | .backendLinkChange _ _ => some [Reg.BE_LINK]
  | .concQueuePointerMismatch _ _ => some [Reg.BE_EGR_RST, Reg.BE_TX_BYTES, Reg.BE_TX_FRAMES, Reg.COM_EXEC, Reg.CV_DERR,
      Reg.CV_DONE, Reg.MEM_RETIRED, Reg.MEM_USABLE, Reg.SC_LIST_RST, Reg.SC_LOST, Reg.SC_SRC_HELD, Reg.SC_SRC_JOBS,
      Reg.SC_TRACE_DROP]
  | .decisionPoint => some [Reg.MEM_RETIRED, Reg.MEM_USABLE, Reg.SNAP_RING_HELD, Reg.TRG_BACKLOG_NOW, Reg.TRG_EXPIRED,
      Reg.TRG_SELECTED, Reg.TRG_WFILL]
  | .pinTrigger _ => some [Reg.TRG_LATE, Reg.TRG_OPENED, Reg.TRG_PIN_CNT, Reg.TRG_REFUSED, Reg.TRG_WFILL]
  | .gatedReadout _ => some [Reg.ECC_COR, Reg.ECC_TAG, Reg.ECC_UNC, Reg.MEM_RETIRED, Reg.MEM_USABLE, Reg.TRG_BACKLOG_NOW,
      Reg.TRG_PAUSE]
  | .scrubLapEnd _ => some [Reg.SCR_LAP, Reg.SCR_LAPS, Reg.SCR_SRAM_LAP, Reg.SCR_STATUS]
  | .lapLimitExceeded => some [Reg.SCR_STATUS]
  | .stallPitchWrite _ _ _ _ => some (Reg.ST_BW :: Reg.ST_CAP :: Reg.ST_EFF_CAP :: [Reg.BE_TX_BYTES, Reg.BE_TX_FRAMES,
      Reg.COM_EXEC, Reg.MEM_BW_AVAIL, Reg.MEM_ONLINE, Reg.MEM_USABLE, Reg.ST_EFF_BW, Reg.TRG_HOLD_EFF])
  | .pitchScaling => some (Reg.ST_EFF_CAP :: [Reg.MEM_BW_AVAIL, Reg.MEM_ONLINE, Reg.MEM_USABLE, Reg.ST_EFF_BW,
      Reg.TRG_HOLD_EFF])
  | .pitchRestore => some (Reg.ST_EFF_CAP :: [Reg.MEM_BW_AVAIL, Reg.MEM_ONLINE, Reg.MEM_USABLE, Reg.ST_EFF_BW,
      Reg.TRG_HOLD_EFF])
  | .memoryChannelOffline _ _ => some [Reg.MEM_CH_STATE, Reg.MEM_ONLINE, Reg.MEM_USABLE]
  | .sramWordUncorrectable _ _ => none
  | .diagnosticEnable _ _ => some [Reg.BE_TX_BYTES, Reg.BE_TX_FRAMES, Reg.COM_EXEC, Reg.ECC_DIAG_EN]
  | .diagnosticWriteRaw _ => some [Reg.BE_TX_BYTES, Reg.BE_TX_FRAMES, Reg.COM_EXEC]
  | .diagnosticReadRaw _ => some [Reg.BE_TX_BYTES, Reg.BE_TX_FRAMES, Reg.COM_EXEC, Reg.ECC_DIAG_CHK, Reg.ECC_DIAG_DATA,
      Reg.ECC_DIAG_TAG]
  | .diagnosticReadChecked _ => some [Reg.BE_TX_BYTES, Reg.BE_TX_FRAMES, Reg.COM_EXEC, Reg.ECC_DIAG_CHK, Reg.ECC_DIAG_DATA,
      Reg.ECC_DIAG_RES, Reg.ECC_DIAG_TAG]
  | .thermalEvaluation _ => some [Reg.GV_CORES, Reg.GV_FE_BAL, Reg.GV_FE_CSTAT, Reg.GV_FLAPS, Reg.GV_MEM_THROTTLE,
      Reg.GV_REFUSED, Reg.GV_SCRUB_PERMIT, Reg.GV_STATUS, Reg.GV_TCHANGES, Reg.GV_TEMP, Reg.GV_TSTATE, Reg.SC_TRACE_DROP]
  | .flapHoldEnd _ => some [Reg.GV_CORES, Reg.GV_FLAPS, Reg.GV_MEM_THROTTLE, Reg.GV_SCRUB_PERMIT, Reg.GV_STATUS,
      Reg.GV_TCHANGES, Reg.GV_TSTATE, Reg.SC_TRACE_DROP]
  | .domainCaddyUpdate _ _ _ => some [Reg.GV_CORES, Reg.GV_DOM_BAL, Reg.GV_DOM_POWER, Reg.GV_MEM_THROTTLE, Reg.GV_SCRUB_PERMIT,
      Reg.GV_STATUS, Reg.SC_TRACE_DROP]
  | .feThermalTrip _ _ => some []
  | .feTripRelease _ _ _ => some []
  | .concThermalTrip _ _ => some [Reg.GV_FENCE_CNT, Reg.GV_FENCE_STAT, Reg.GV_TSTATE]
  | .fenceBiasLimitWrite _ _ _ => some [Reg.BE_TX_BYTES, Reg.BE_TX_FRAMES, Reg.COM_EXEC, Reg.GV_FENCE_MAX]
  | .servicePost _ _ _ => some [Reg.MEM_RETIRED, Reg.MEM_USABLE, Reg.SC_SVC_REFUSED, Reg.SC_TRACE_DROP]
  | .dataJobPost _ => some [Reg.BE_TX_BYTES, Reg.BE_TX_FRAMES, Reg.COM_BUSY, Reg.COM_EXEC, Reg.SC_SRC_HELD, Reg.SC_SRC_JOBS,
      Reg.SC_TRACE_DROP]
  | .jobDispatch => some [Reg.SC_TASK_AFF, Reg.SC_TRACE_DROP]
  | .jobComplete _ _ => some [Reg.BE_TX_BYTES, Reg.BE_TX_FRAMES, Reg.COM_EXEC, Reg.MEM_RMW, Reg.SC_CORE_BUSY, Reg.SC_CORE_JOBS,
      Reg.SC_SRC_HELD, Reg.SC_SRC_JOBS, Reg.SC_TASK_JOBS, Reg.SC_TRACE_DROP]
  | .jobAbort _ _ => some [Reg.BE_TX_BYTES, Reg.BE_TX_FRAMES, Reg.COM_EXEC, Reg.MEM_RMW, Reg.SC_ABORTS, Reg.SC_CORE_BUSY,
      Reg.SC_LOST, Reg.SC_SRC_HELD, Reg.SC_SRC_JOBS, Reg.SC_TASK_ABORTS, Reg.SC_TRACE_DROP]
  | .taskRestore _ _ _ => some [Reg.BE_TX_BYTES, Reg.BE_TX_FRAMES, Reg.COM_EXEC, Reg.SC_TASK_PRIO]
  | .spillSegmentReadback _ => some [Reg.BE_TX_BYTES, Reg.BE_TX_FRAMES, Reg.COM_EXEC, Reg.ECC_COR, Reg.ECC_TAG, Reg.ECC_UNC,
      Reg.MEM_RETIRED, Reg.MEM_USABLE, Reg.SC_LOST, Reg.SC_TRACE_DROP]
  | .coreAccessFault _ _ => some [Reg.ECC_COR, Reg.ECC_TAG, Reg.ECC_UNC, Reg.MEM_RETIRED, Reg.MEM_RMW, Reg.MEM_USABLE,
      Reg.SC_CORE_AFLT, Reg.SC_SPILL_FLT]
  | .coreSramError _ => some [Reg.BE_TX_BYTES, Reg.BE_TX_FRAMES, Reg.COM_EXEC, Reg.SC_ABORTS, Reg.SC_CORE_BUSY,
      Reg.SC_SRC_HELD, Reg.SC_SRC_JOBS, Reg.SC_TASK_ABORTS, Reg.SC_TRACE_DROP]
  | .traceRead _ => some [Reg.BE_TX_BYTES, Reg.BE_TX_FRAMES, Reg.COM_EXEC]
  | .imageErase _ _ _ => some [Reg.BE_TX_BYTES, Reg.BE_TX_FRAMES, Reg.COM_EXEC, Reg.IMG_STATUS, Reg.IMG_VERSION]
  | .imageData _ _ _ => some [Reg.BE_TX_BYTES, Reg.BE_TX_FRAMES, Reg.COM_EXEC, Reg.IMG_STATUS, Reg.IMG_VERSION]
  | .imageVerify _ _ _ => some [Reg.BE_TX_BYTES, Reg.BE_TX_FRAMES, Reg.COM_EXEC, Reg.IMG_STATUS, Reg.IMG_VERSION]
  | .imageOperationComplete _ => some [Reg.IMG_STATUS, Reg.IMG_VERSION, Reg.IMG_WOFS]
  | .imageTrial _ _ => some [Reg.BE_TX_BYTES, Reg.BE_TX_FRAMES, Reg.COM_EXEC]
  | .imageTrialCancel _ => some [Reg.BE_TX_BYTES, Reg.BE_TX_FRAMES, Reg.COM_EXEC]
  | .imageConfirm _ _ => some [Reg.BE_TX_BYTES, Reg.BE_TX_FRAMES, Reg.COM_EXEC]
  | .preferredImage _ _ => some [Reg.BE_TX_BYTES, Reg.BE_TX_FRAMES, Reg.COM_EXEC]
  | .maroriMessageReceive _ _ _ _ _ => some [Reg.BE_TX_BYTES, Reg.BE_TX_FRAMES, Reg.COM_ALIVE_REJ, Reg.COM_BUSY, Reg.COM_EXEC,
      Reg.COM_INPROG, Reg.COM_MSG_ERR, Reg.COM_NORES, Reg.COM_REPLAYS, Reg.COM_SKIPS]
  | .canFdFrameReceive _ _ _ => some [Reg.BE_TX_BYTES, Reg.BE_TX_FRAMES, Reg.COM_ALIVE_REJ, Reg.COM_BUSY, Reg.COM_EXEC,
      Reg.COM_INPROG, Reg.COM_MSG_ERR, Reg.COM_NORES, Reg.COM_REPLAYS, Reg.COM_SKIPS]
  | .canSegmentTimeout _ _ => some [Reg.COM_MSG_ERR]
  | .maroriRead _ _ _ _ _ => some [Reg.BE_TX_BYTES, Reg.BE_TX_FRAMES, Reg.COM_EXEC]
  | .maroriWrite _ _ index sub _ _ => some ((index.toNat * 256 + sub.toNat) :: Reg.ST_EFF_CAP :: [Reg.BE_LINK, Reg.BE_TX_BYTES,
      Reg.BE_TX_FRAMES, Reg.COM_EXEC, Reg.GV_CORES, Reg.GV_MEM_THROTTLE, Reg.GV_SCRUB_PERMIT, Reg.GV_STATUS, Reg.MEM_BW_AVAIL,
      Reg.MEM_ONLINE, Reg.MEM_USABLE, Reg.MG_MISSING, Reg.SC_SRC_HELD, Reg.SC_SRC_JOBS, Reg.SC_TRACE_DROP, Reg.ST_BW,
      Reg.ST_CAP, Reg.ST_EFF_BW, Reg.TB_STEP_PEND, Reg.TB_STEP_REFUSED, Reg.TRG_HOLD_EFF, Reg.WP_RUN_FAIL, Reg.WP_STATE,
      Reg.WP_STATUS])
  | .maroriNop _ => some [Reg.BE_TX_BYTES, Reg.BE_TX_FRAMES, Reg.COM_EXEC]
  | .maroriTrigger _ _ _ _ _ _ => some [Reg.BE_TX_BYTES, Reg.BE_TX_FRAMES, Reg.COM_EXEC, Reg.TRG_LATE, Reg.TRG_OPENED,
      Reg.TRG_REFUSED, Reg.TRG_WFILL]
  | .guardToken _ _ => some [Reg.BE_TX_BYTES, Reg.BE_TX_FRAMES, Reg.COM_EXEC]
  | .guardTokenExpire _ => some []
  | .transactionEntryExpire _ _ => some []
  | .restart _ _ => none
  | .ledgerRead _ => some [Reg.BE_TX_BYTES, Reg.BE_TX_FRAMES, Reg.COM_EXEC]
  | .ledgerRewind _ _ => some [Reg.BE_TX_BYTES, Reg.BE_TX_FRAMES, Reg.COM_EXEC]
  | .ledgerWrite _ _ => some []
  | .forceKeeperSwap _ _ => some [Reg.BE_TX_BYTES, Reg.BE_TX_FRAMES, Reg.COM_EXEC, Reg.IMG_STATUS, Reg.IMG_VERSION,
      Reg.RD_KP_SWAPS, Reg.SC_CORE_BUSY, Reg.SC_LOST, Reg.SC_SRC_HELD, Reg.SC_SRC_JOBS, Reg.SC_TRACE_DROP]
  | .aliveReset _ _ _ => some [Reg.BE_TX_BYTES, Reg.BE_TX_FRAMES, Reg.COM_EXEC]
  | .cvuSubmit _ _ _ _ => some [Reg.SC_CORE_AFLT]
  | .cvuDescriptorStart _ => some []
  | .cvuDescriptorComplete _ _ _ => some [Reg.BE_TX_BYTES, Reg.BE_TX_FRAMES, Reg.COM_EXEC, Reg.CV_ALIVE_LAST, Reg.CV_ALIVE_REP,
      Reg.CV_ALIVE_SKIP, Reg.CV_ALIVE_STALE, Reg.CV_DERR, Reg.CV_DONE, Reg.ECC_COR, Reg.ECC_SRAM_COR, Reg.ECC_TAG, Reg.ECC_UNC,
      Reg.MEM_RETIRED, Reg.MEM_USABLE, Reg.SC_SRC_HELD, Reg.SC_SRC_JOBS, Reg.SC_TRACE_DROP]
  | .emChannelTypeWrite _ _ _ => some [Reg.BE_TX_BYTES, Reg.BE_TX_FRAMES, Reg.COM_EXEC, Reg.EM_TYPE]
  | .emConversionStart _ => some []
  | .emConversionComplete _ _ => some [Reg.BE_TX_BYTES, Reg.BE_TX_FRAMES, Reg.COM_EXEC, Reg.EM_BLANKED, Reg.EM_CONV,
      Reg.SC_SRC_HELD, Reg.SC_SRC_JOBS, Reg.SC_TRACE_DROP]
  | .excitationClamp _ _ => some [Reg.EM_IEXC_CLAMP, Reg.GV_FENCE_CNT, Reg.GV_FENCE_STAT]
  | .blankRise _ => some [Reg.EM_BLANK_CNT]
  | .blankFall _ => some []
  | .blankHoldEnd _ => some []
  | .fePowerOnReset _ => some []
  | .feSupplyFault _ => some []
  | .resetAssert _ => none
  | .resetRelease _ => none
  | .bootTimeout => none
  | .startConfirm => some []
  | .fatalFault => none
  | .safeDrainEnd => some [Reg.BE_LINK, Reg.BE_PAUSE_TIME, Reg.MEM_RETIRED, Reg.MEM_USABLE, Reg.MG_EGR_WAIT]
  | .rateSweepComplete => some [Reg.MD_REQUEST]
  | .keeperFailure _ _ _ => none
  | .keeperSelfTestDone _ => some []
  | .warmStandbyEnd => some []
  | .refclkEdgeLoss _ => some [Reg.TB_REF_STATE, Reg.TB_REF_SW, Reg.TB_REF_USE]
  | .invalidBlock _ _ _ _ => some [Reg.WP_CTL_ERR, Reg.WP_TEST_ERR]
  | .scrubRead _ => some [Reg.ECC_COR, Reg.ECC_SRAM_COR, Reg.ECC_TAG, Reg.ECC_UNC, Reg.MEM_RETIRED, Reg.MEM_USABLE]
  | .configurationCorrection _ _ => some []
  | .coreReloadComplete _ => some []
  | .bootStepComplete _ => none
  | .receiveDiscard _ _ => some [Reg.BE_FEC_COR, Reg.BE_FEC_UNC, Reg.BE_RX_DISC, Reg.BE_TEST_ERR]

/-- The address of the object that a configuration message names, if its packet holds one. -/
def configTarget (blocks : List Block) : List Nat :=
  match (readPacket blocks).bind fun k => k.bytes.bind readConfig with
  | some m => [m.addr]
  | none => []

/-- The addresses of a front end's objects whose words in the shadow copy and status a command may change; none where it may
reset the front end or restart the device. -/
def setsFeObjects (c : Instr) : Option (List Nat) :=
  match c with
  | .feCycleBoundary _ _ => some [Reg.FE_CHIP_DT, Reg.FE_CH_DT_BLK, Reg.FE_CH_DT_BUSY, Reg.FE_CH_PAIR, Reg.FE_CH_STAT,
      Reg.FE_ENV_CNT, Reg.FE_MIRROR_CYC, Reg.FE_REC_OVF, Reg.FE_RG_DT, Reg.FE_RG_FLOOD, Reg.FE_RG_TEMP, Reg.FE_RG_TSTAT,
      Reg.FE_RG_VDDA, Reg.FE_RG_VDDT, Reg.FE_THR_FLOORED_CNT]
  | .feFrameBoundary _ => some [Reg.FE_CHIP_DT, Reg.FE_CH_DT_BLK, Reg.FE_CH_DT_BUSY, Reg.FE_REC_OVF, Reg.FE_RG_DT]
  | .modeCommand _ => none
  | .queueReset _ => some [Reg.FE_QRST_CNT, Reg.FE_QRST_LOSS, Reg.FE_REC_OVF]
  | .rateLatch _ => some [Reg.FE_RG_RATE]
  | .pairRefresh _ _ _ => some [Reg.FE_CHIP_DT, Reg.FE_CH_DT_BLK, Reg.FE_CH_DT_BUSY, Reg.FE_CH_PAIR, Reg.FE_CH_PAIR_FLT,
      Reg.FE_RG_DT, Reg.FE_RG_TSTAT]
  | .calendarSnapshotTrigger _ => some [Reg.FE_RG_SNAP_MISS]
  | .biasCommand _ => some [Reg.FE_CHIP_DT, Reg.FE_CH_DT_BLK, Reg.FE_CH_DT_BUSY, Reg.FE_CH_PAIR, Reg.FE_RG_DT]
  | .configApply _ => some [Reg.FE_CHIP_DT, Reg.FE_CH_DT_BLK, Reg.FE_CH_DT_BUSY, Reg.FE_CH_PAIR, Reg.FE_CH_STAT,
      Reg.FE_REC_OVF, Reg.FE_RG_DT, Reg.FE_RG_FLOOD, Reg.FE_THR_FLOORED_CNT]
  | .leakageSaturation _ _ => some [Reg.FE_CH_STAT]
  | .settlingEnd _ _ => some [Reg.FE_CHIP_DT, Reg.FE_CH_DT_BLK, Reg.FE_CH_DT_BUSY, Reg.FE_RG_DT]
  | .leadingEdge _ _ _ _ => some [Reg.FE_CHIP_DT, Reg.FE_CH_DT_BLK, Reg.FE_CH_DT_BUSY, Reg.FE_REC_OVF, Reg.FE_RG_DT,
      Reg.FE_RG_SUPPR]
  | .trailingEdge _ _ _ _ => some [Reg.FE_CHIP_DT, Reg.FE_CH_DT_BLK, Reg.FE_CH_DT_BUSY, Reg.FE_RG_DT]
  | .rearmComplete _ _ _ _ => some [Reg.FE_CHIP_DT, Reg.FE_CH_DT_BLK, Reg.FE_CH_DT_BUSY, Reg.FE_CH_PAIR, Reg.FE_CH_PAIR_FLT,
      Reg.FE_RG_DT, Reg.FE_RG_TSTAT]
  | .regionReadout _ _ => some [Reg.FE_CHIP_DT, Reg.FE_CH_DT_BLK, Reg.FE_CH_DT_BUSY, Reg.FE_RG_DT]
  | .frameCloseDeadline _ => some [Reg.FE_CHIP_DT, Reg.FE_CH_DT_BLK, Reg.FE_CH_DT_BUSY, Reg.FE_CLOSE_DL, Reg.FE_REC_OVF,
      Reg.FE_RG_CLOSE_LOSS, Reg.FE_RG_DT]
  | .queuePointerMismatch _ _ => some [Reg.FE_CHIP_DT, Reg.FE_CH_DT_BLK, Reg.FE_CH_DT_BUSY, Reg.FE_QRST_CNT, Reg.FE_QRST_LOSS,
      Reg.FE_REC_OVF, Reg.FE_RG_DT, Reg.FE_SNAP_QLOSS]
  | .floodEnter _ _ => some [Reg.FE_CHIP_DT, Reg.FE_CH_DT_BLK, Reg.FE_CH_DT_BUSY, Reg.FE_RG_DT, Reg.FE_RG_FLOOD,
      Reg.FE_RG_FLOOD_CNT]
  | .floodExit _ _ => some [Reg.FE_CHIP_DT, Reg.FE_CH_DT_BLK, Reg.FE_CH_DT_BUSY, Reg.FE_REC_OVF, Reg.FE_RG_DT, Reg.FE_RG_FLOOD]
  | .chipFloodEnter _ => some [Reg.FE_CHIP_FLOOD, Reg.FE_CHIP_FLOOD_CNT, Reg.FE_REC_OVF]
  | .chipFloodExit _ => some [Reg.FE_CHIP_FLOOD, Reg.FE_REC_OVF]
  | .configFault _ _ => some [Reg.FE_CHIP_DT, Reg.FE_CH_DT_BLK, Reg.FE_CH_DT_BUSY, Reg.FE_REC_OVF, Reg.FE_RG_CFG_FLT,
      Reg.FE_RG_DT]
  | .timingCounterClear _ _ _ => some [Reg.FE_TCNT_CLEAR, Reg.FE_CFG_ACC, Reg.FE_CFG_REJ, Reg.FE_CHIP_DT, Reg.FE_CH_DT_BLK,
      Reg.FE_CH_DT_BUSY, Reg.FE_CH_PAIR, Reg.FE_RG_DT, Reg.FE_RG_SNAP_MISS, Reg.FE_SNAP_BADCELLS, Reg.FE_SNAP_CAL_STAT]
  | .readoutCounterClear _ _ _ => some [Reg.FE_RCNT_CLEAR, Reg.FE_CFG_ACC, Reg.FE_CFG_REJ, Reg.FE_CHIP_DT, Reg.FE_CH_DT_BLK,
      Reg.FE_CH_DT_BUSY, Reg.FE_CH_PAIR, Reg.FE_RG_DT, Reg.FE_RG_SNAP_MISS, Reg.FE_SNAP_BADCELLS, Reg.FE_SNAP_CAL_STAT]
  | .feCounterClearApply _ => some (timingCounters ++ readoutCounters)
  | .pulseWidthTrigger _ _ => some [Reg.FE_RG_SNAP_MISS]
  | .forceSnapshot _ _ _ => some [Reg.FE_SNAP_FORCE, Reg.FE_CFG_ACC, Reg.FE_CFG_REJ, Reg.FE_CHIP_DT, Reg.FE_CH_DT_BLK,
      Reg.FE_CH_DT_BUSY, Reg.FE_CH_PAIR, Reg.FE_RG_DT, Reg.FE_RG_SNAP_MISS, Reg.FE_SNAP_BADCELLS, Reg.FE_SNAP_CAL_STAT]
  | .freezeEvent _ => some [Reg.FE_REC_OVF, Reg.FE_RG_SNAP_MISS, Reg.FE_SNAP_EVENTS]
  | .snapCalZero _ _ => some [Reg.FE_SNAP_CAL, Reg.FE_CFG_ACC, Reg.FE_CFG_REJ, Reg.FE_CHIP_DT, Reg.FE_CH_DT_BLK,
      Reg.FE_CH_DT_BUSY, Reg.FE_CH_PAIR, Reg.FE_RG_DT, Reg.FE_RG_SNAP_MISS, Reg.FE_SNAP_BADCELLS, Reg.FE_SNAP_CAL_STAT]
  | .snapCalFull _ _ => some [Reg.FE_SNAP_CAL, Reg.FE_CFG_ACC, Reg.FE_CFG_REJ, Reg.FE_CHIP_DT, Reg.FE_CH_DT_BLK,
      Reg.FE_CH_DT_BUSY, Reg.FE_CH_PAIR, Reg.FE_RG_DT, Reg.FE_RG_SNAP_MISS, Reg.FE_SNAP_BADCELLS, Reg.FE_SNAP_CAL_STAT]
  | .snapCalCompute _ _ => some [Reg.FE_SNAP_CAL, Reg.FE_CFG_ACC, Reg.FE_CFG_REJ, Reg.FE_CHIP_DT, Reg.FE_CH_DT_BLK,
      Reg.FE_CH_DT_BUSY, Reg.FE_CH_PAIR, Reg.FE_RG_DT, Reg.FE_RG_SNAP_MISS, Reg.FE_SNAP_BADCELLS, Reg.FE_SNAP_CAL_STAT]
  | .snapCalClear _ _ => some [Reg.FE_SNAP_CAL, Reg.FE_CFG_ACC, Reg.FE_CFG_REJ, Reg.FE_CHIP_DT, Reg.FE_CH_DT_BLK,
      Reg.FE_CH_DT_BUSY, Reg.FE_CH_PAIR, Reg.FE_RG_DT, Reg.FE_RG_SNAP_MISS, Reg.FE_SNAP_BADCELLS, Reg.FE_SNAP_CAL_STAT]
  | .snapCalPhaseDone _ => some [Reg.FE_SNAP_CAL_STAT]
  | .coefficientWordError _ _ _ => some [Reg.FE_RG_CFG_FLT]
  | .beaconReceive _ _ _ => some [Reg.FE_QRST_CNT, Reg.FE_QRST_LOSS, Reg.FE_REC_OVF]
  | .syncReceive _ _ => some [Reg.FE_QRST_CNT, Reg.FE_QRST_LOSS, Reg.FE_REC_OVF]
  | .timeSetReceive _ _ _ _ _ _ _ => some [Reg.FE_CHIP_DT, Reg.FE_CH_DT_BLK, Reg.FE_CH_DT_BUSY, Reg.FE_REC_OVF, Reg.FE_RG_DT]
  | .downlinkLossTimeout _ => none
  | .configWriteMessage _ _ blocks => some (configTarget blocks ++ [Reg.FE_CFG_ACC, Reg.FE_CFG_REJ, Reg.FE_CHIP_DT,
      Reg.FE_CH_DT_BLK, Reg.FE_CH_DT_BUSY, Reg.FE_CH_PAIR, Reg.FE_RG_DT, Reg.FE_RG_SNAP_MISS, Reg.FE_SNAP_BADCELLS,
      Reg.FE_SNAP_CAL_STAT])
  | .configReadMessage _ _ _ => some [Reg.FE_CFG_ACC, Reg.FE_CFG_REJ, Reg.FE_CHIP_DT, Reg.FE_CH_DT_BLK, Reg.FE_CH_DT_BUSY,
      Reg.FE_RG_DT]
  | .configMirrorMessage _ _ _ => some [Reg.FE_CFG_ACC, Reg.FE_CFG_REJ]
  | .feThermalTrip _ _ => some [Reg.FE_CHIP_DT, Reg.FE_CH_DT_BLK, Reg.FE_CH_DT_BUSY, Reg.FE_CH_PAIR, Reg.FE_RG_DT]
  | .feTripRelease _ _ _ => some [Reg.FE_CHIP_DT, Reg.FE_CH_DT_BLK, Reg.FE_CH_DT_BUSY, Reg.FE_CH_PAIR, Reg.FE_RG_DT]
  | .fePowerOnReset _ => none
  | .feSupplyFault _ => none
  | .configurationCorrection _ _ => some [Reg.FE_RG_CFG_COR]
  | c => if restarts c then none else some []

/-- The port a command acts on, for the commands that act on one port alone. -/
def actsOn (c : Instr) : Option Port :=
  match c with
  | .feCycleBoundary p _ => some p
  | .feFrameBoundary p => some p
  | .fcmdIssue p => some p
  | .fcmdTargetPassed p => some p
  | .mirrorLagDetect p => some p
  | .fcmdReceive p _ _ _ _ => some p
  | .modeCommand p => some p
  | .queueReset p => some p
  | .pairRefresh p _ _ => some p
  | .calendarSnapshotTrigger p => some p
  | .biasCommand p => some p
  | .cycleEndCommand p => some p
  | .injectCommand p => some p
  | .tickPhaseCommand p => some p
  | .precisionGrant p => some p
  | .raiseEnd p => some p
  | .injectRequest _ p _ => some p
  | .configApply p => some p
  | .leakageSaturation p _ => some p
  | .settlingEnd p _ => some p
  | .leadingEdge p _ _ _ => some p
  | .wakeRequestExpire p _ => some p
  | .trailingEdge p _ _ _ => some p
  | .totSaturation p _ => some p
  | .rearmComplete p _ _ _ => some p
  | .regionReadout p _ => some p
  | .columnArbiterMove p _ => some p
  | .dealerDeal p => some p
  | .frameComplete p => some p
  | .frameCloseDeadline p => some p
  | .packetWaitExpire p _ => some p
  | .packetSend p _ => some p
  | .snapshotPacketSend p => some p
  | .queuePointerMismatch p _ => some p
  | .floodEnter p _ => some p
  | .floodExit p _ => some p
  | .chipFloodEnter p => some p
  | .chipFloodExit p => some p
  | .configFault p _ => some p
  | .timingCounterClear p _ _ => some p
  | .readoutCounterClear p _ _ => some p
  | .feCounterClearApply p => some p
  | .pulseWidthTrigger p _ => some p
  | .forceSnapshot p _ _ => some p
  | .freezeEvent p => some p
  | .snapshotConversionComplete p _ _ => some p
  | .snapshotBusGrant p _ => some p
  | .snapCalZero p _ => some p
  | .snapCalFull p _ => some p
  | .snapCalCompute p _ => some p
  | .snapCalClear p _ => some p
  | .snapCalPhaseDone p => some p
  | .coefficientWordError p _ _ => some p
  | .blockLockAcquire p _ _ => some p
  | .blockLockLoss p _ _ => some p
  | .packetReceive p _ => some p
  | .linkstatSend p => some p
  | .linkstatReceive p _ => some p
  | .nakReceive p _ _ => some p
  | .ackTimeout p _ => some p
  | .creditGrant p _ => some p
  | .festatPeriodicSend p _ _ => some p
  | .wakeFestatSend p => some p
  | .festatPeriodicReceive p _ _ _ _ _ _ _ => some p
  | .festatWakeReceive p _ _ _ _ => some p
  | .festatStale p => some p
  | .staleCritical p => some p
  | .trainingAttemptStart p _ => some p
  | .trainReceive p _ _ _ _ => some p
  | .trainingAttemptTimeout p => some p
  | .beaconBurst p => some p
  | .beaconReceive p _ _ => some p
  | .syncReceive p _ => some p
  | .lanemapReceive p _ _ _ => some p
  | .delayProbeSend p _ => some p
  | .delayReqReceive p _ _ _ _ => some p
  | .delayRespReceive p _ _ _ _ => some p
  | .timeSetReceive p _ _ _ _ _ _ => some p
  | .downlinkLossTimeout p => some p
  | .primaryReturn p => some p
  | .downlinkSwapApply p => some p
  | .configWriteMessage p _ _ => some p
  | .configReadMessage p _ _ => some p
  | .configMirrorMessage p _ _ => some p
  | .configResponseReceive p _ _ _ => some p
  | .configResend p => some p
  | .configTimeout p => some p
  | .unresolvedResolve p => some p
  | .feThermalTrip p _ => some p
  | .feTripRelease p _ _ => some p
  | .fePowerOnReset p => some p
  | .feSupplyFault p => some p
  | .invalidBlock p _ _ _ => some p
  | .configurationCorrection p _ => some p
  | _ => none

/-- What a command with a row of its own writes, for the writes that the dictionary checks first: the writer, the address, the
element and the value. -/
def writes (c : Instr) : Option (Writer × Nat × Nat × Bytes) :=
  match c with
  | .modeRequest w val => some (w, Reg.MD_REQUEST, 0, val)
  | .calendarCommit w val => some (w, Reg.CAL_COMMIT, 0, val)
  | .cycleLengthWrite w val => some (w, Reg.CYCLE_LEN, 0, val)
  | .portRelease w e val => some (w, Reg.WP_RELEASE, e.toNat, val)
  | .forceLaneSwap w e val => some (w, Reg.WP_LANE_SWAP, e.toNat, val)
  | .forceDownlinkSwap w e val => some (w, Reg.WP_DL_SWAP, e.toNat, val)
  | .linkDelayCalibration w e val _ => some (w, Reg.WP_DLY_CAL, e.toNat, val)
  | .acceptStep w val => some (w, Reg.TB_ACCEPT_STEP, 0, val)
  | .timePreset w val => some (w, Reg.TB_PRESET, 0, val)
  | .referenceSelect w val => some (w, Reg.TB_REF_SEL, 0, val)
  | .forceTimeBaseSwap w val => some (w, Reg.TB_SWAP, 0, val)
  | .statisticsRestart w e val => some (w, Reg.TIM_RESTART, e.toNat, val)
  | .routeEntryWrite w col key val => some (w, Reg.RT_EGRESS + col.val, key.toNat, val)
  | .routeCommit w val => some (w, Reg.ROUTE_COMMIT, 0, val)
  | .formatPin w val => some (w, Reg.BE_FMT_PIN, 0, val)
  | .stallPitchWrite w bw k val => some (w, if bw then Reg.ST_BW else Reg.ST_CAP, k.toNat, val)
  | .diagnosticEnable w val => some (w, Reg.ECC_DIAG_EN, 0, val)
  | .fenceBiasLimitWrite w e val => some (w, Reg.GV_FENCE_MAX, e.toNat, val)
  | .taskRestore w e val => some (w, Reg.SC_TASK_RESTORE, e.toNat, val)
  | .imageErase w e val => some (w, Reg.IMG_ERASE, e.toNat, val)
  | .imageData w e data => some (w, Reg.IMG_DATA, e.toNat, data)
  | .imageVerify w e val => some (w, Reg.IMG_VERIFY, e.toNat, val)
  | .imageTrial w val => some (w, Reg.IMG_TRIAL, 0, val)
  | .imageTrialCancel w => some (w, Reg.IMG_TRIAL, 0, [0xFF])
  | .imageConfirm w val => some (w, Reg.IMG_CONFIRM, 0, val)
  | .preferredImage w val => some (w, Reg.IMG_PREFER, 0, val)
  | .guardToken w val => some (w, Reg.COM_GUARD_TOKEN, 0, val)
  | .restart w val => some (w, Reg.BT_RESTART, 0, val)
  | .ledgerRewind w val => some (w, Reg.LG_REWIND, 0, val)
  | .forceKeeperSwap w val => some (w, Reg.RD_KP_SWAP, 0, val)
  | .aliveReset w e val => some (w, Reg.CV_ALIVE_RESET, e.toNat, val)
  | .emChannelTypeWrite w e val => some (w, Reg.EM_TYPE, e.toNat, val)
  | .diagnosticWriteRaw w => some (w, Reg.ECC_DIAG_CMD, 0, [1])
  | .diagnosticReadRaw w => some (w, Reg.ECC_DIAG_CMD, 0, [2])
  | .diagnosticReadChecked w => some (w, Reg.ECC_DIAG_CMD, 0, [3])
  | _ => none

end Sys2Proof.Machine
end

