-- ==== Sys2Proof/Safety.lean ====
section
/-! DEFINITION. What a safe run of the machine is. -/

namespace Sys2Proof.Machine

/-- The outcome of `n` steps from a state. -/
def runSteps : Nat → State → Host.Outcome State Fault Refusal
  | 0, s => .next s
  | n + 1, s =>
    match step s with
    | .next t => runSteps n t
    | .fault f => .fault f
    | .refused r => .refused r

/-- A state is safe when no number of steps from it ends in a fault or a refusal. -/
def Safe (s : State) : Prop := ∀ n, ∃ t, runSteps n s = .next t

end Sys2Proof.Machine
end

