-- ==== Sys2Proof/Certificates/Slice0/Obligations.lean ====
section
/-! DEFINITION. The statements about the model, and the few words they are made of. -/

namespace Sys2Proof.Machine

/-- The command `c`, run at `s`, answers a next state; the queue of waiting commands is left as it is, and the device
after it satisfies `P`. -/
def Completes (c : Instr) (s : State) (P : Dev → Prop) : Prop :=
  ∃ t, exec c s = .next t ∧ t.pending = s.pending ∧ P t.dev

/-- The dictionary lets the write of `val` to element `e` of object `a` through (steps 7 to 10 of R421). -/
def Dev.Admits (d : Dev) (w : Writer) (a e : Nat) (val : Bytes) : Prop := (d.gate w a e val).1 = none

/-- The last thing sent is the answer to a request: its status and value (step 12 of R421). -/
def Dev.Answered (d : Dev) (w : Writer) (st : Status) (value : Bytes := []) : Prop :=
  d.out.head? = some (.answer w st value)

/-- The object stores are in canonical form. -/
def Dev.canonical (d : Dev) : Prop :=
  tblWf regDflt d.regs = true ∧ tblWf regDflt d.applied = true ∧ tblWf regDflt d.mirror = true

/-- A ledger record of this source and code is waiting. -/
def Dev.Recorded (d : Dev) (source code : Nat) : Prop := ∃ r ∈ d.ledger.buffer, r.source = source ∧ r.code = code

/-- What arrives at the control path (R412 to R414): the client, the way with its address and priority, the message, and how
many requests in assembly it breaks off. -/
structure Arrival where
  id : ClientId
  via : Via
  mac : Nat := 0
  prio : Nat := 0
  bytes : Bytes
  broken : Nat := 0
deriving DecidableEq, Repr

/-- What a command brings to the control path: a datagram on a port that receives (R412), a CAN FD frame that is a whole
message, or the last segment of one (R413, R414). -/
def Dev.arrival (d : Dev) (i : Instr) : Option Arrival :=
  match i with
  | .maroriMessageReceive be ip udp mac b =>
    if d.serves = true ∧ d.portIp be ≠ 0 ∧ d.get Reg.BE_MODE be.val ≠ 0 ∧ d.get Reg.BE_LINK be.val = 1
        ∧ (d.mode = .safe → d.draining = true ∨ be = 0) then
      some { id := .udp ip.toNat udp.toNat, via := .udp be, mac := mac.toNat, bytes := b }
    else none
  | .canFdFrameReceive bus id data =>
    let who := field id.toNat 16 9
    let from_ := fun (b : Bytes) (broken : Nat) =>
      let msg := b.take (22 + bytesAt b 16 2)
      some { id := .can bus.val who, via := .can bus, prio := field id.toNat 28 26, bytes := msg, broken := broken }
    if d.serves = true ∧ bit (d.get Reg.COM_CAN_EN) bus.val = true ∧ bit id.toNat 25 = false
        ∧ field id.toNat 24 17 = d.get Reg.COM_NODE then
      match field id.toNat 8 7, field id.toNat 6 1, d.keeper.assemblies.find? fun a => a.bus == bus.val && a.client == who with
      | 0, 0, none => from_ data 0
      | 0, 0, some _ => from_ data 1
      | 3, num, some a =>
        if num = (a.segNum + 1) % 64 ∧ d.now ≤ a.at_ + d.ms 10 ∧ (a.bytes ++ data).length ≤ 1048 then from_ (a.bytes ++ data) 0
        else none
      | _, _, _ => none
    else none
  | _ => none

/-- A response is on its way to a client as R412 to R414 have it: one datagram from the port, held while that is paused, or
frames on the bus. -/
def Dev.Told (s d : Dev) (m : Arrival) (resp : Bytes) : Prop :=
  match m.via, m.id with
  | .udp be, .udp ip udp =>
    let n := s.netPort be
    let frame := udpFrame (s.get Reg.BE_SRC_MAC be.val) (s.portIp be) 40917 (s.get Reg.BE_TTL) n.ident
      { egress := be.val, mac := m.mac, ip := ip, udp := udp, vlan := 0, dscp := 0 } resp
    if n.pause.isSome = true then d.out = s.out ∧ (d.netPort be).held = n.held ++ [frame] else d.out = .frame be.val frame :: s.out
  | .can bus, .can _ client =>
    d.out = ((canFrames (canId m.prio 1 (s.get Reg.COM_NODE) client) 17 0 resp).map fun f => Out.can bus.val f.1 f.2).reverse ++ s.out
  | .udp _, .can _ _ | .can _, .udp _ _ => False

end Sys2Proof.Machine

open Sys2Proof Sys2Proof.Machine

/-! ### The machine as a whole -/

/-- A step runs the command at the front of the queue on the device with the queue's rest; with none waiting one slot passes
(the model's choice, log entry 1). -/
def Obligations.StepRunsFrontCommand : Prop :=
  (∀ (d : Dev) (c : Instr) (rest : List Instr),
    step { dev := d, pending := c :: rest } = exec c { dev := d, pending := rest })
  ∧ ∀ d : Dev, step { dev := d, pending := [] } = .next { dev := { d with now := d.now + 1 }, pending := [] }

/-- No run ends in a fault or a refusal, whatever the state and the commands; the commands run first in, first out, each once,
and after the last of them only time passes (the model's choice, log entry 1). -/
def Obligations.RunsTakeCommandsInOrder : Prop :=
  ∀ (s : State) (n : Nat), Safe s ∧ ∃ t, runSteps n s = .next t ∧ t.pending = s.pending.drop n
    ∧ (s.pending.length ≤ n → ∃ u, runSteps s.pending.length s = .next u
        ∧ t = { u with dev := { u.dev with now := u.dev.now + (n - s.pending.length) } })

/-- R407, R438, R439. After reset with VDD_AON just up, reset is held, the mode is BOOT, no command waits, nothing has been sent,
every object of the concentrator and of every front end reads its default, and no front end, port or unit is active. -/
def Obligations.ResetLeavesDefaults : Prop :=
  let d := State.reset.dev
  State.reset.pending = [] ∧ d.inReset = true ∧ d.mode = .boot ∧ d.now = 0 ∧ d.out = [] ∧ d.canonical
    ∧ (∀ a e, a < 2 ^ 24 → e < 2 ^ 16 → d.get a e = regDflt (regKey 0xFF a e))
    ∧ (∀ (p : Port) (a e : Nat), d.fget p a e = regDflt (regKey p.val a e) ∧ d.ap p a e = d.fget p a e)
    ∧ (∀ p : Port, d.fe p = {} ∧ d.port p = {} ∧ (d.fe p).power = .powerOn ∧ (d.fe p).runs = false ∧ d.portUp p = false)
    ∧ d.get Reg.CYCLE_LEN = 1000000 ∧ d.get Reg.BASKET_TIMEOUT = 8 ∧ d.get Reg.BE_MTU = 9000 ∧ d.get Reg.TRG_HOLD = 48828
    ∧ d.get Reg.WL_ACK_TIMEOUT = 256 ∧ (∀ b < 8, d.get Reg.BE_MODE b = 3)
    ∧ d.merge.baskets = [] ∧ d.mem.windows = [] ∧ d.gov.raises = [] ∧ d.sched.data = [] ∧ d.sched.service = []
    ∧ d.keeper.queue = [] ∧ d.ledger.buffer = [] ∧ d.tb.state = .acquiring

/-- In every state, a step keeps the object stores in their one canonical form: addresses strictly rising, and no entry equal to
the default. Equal contents are then equal data. -/
def Obligations.StoresStayCanonical : Prop :=
  ∀ s t : State, s.dev.canonical → step s = .next t → t.dev.canonical

/-- R13, R29, R486. No command but MODE_CHANGE changes the mode, save that a restart leaves BOOT; and MODE_CHANGE takes the target
of the change that was pending. -/
def Obligations.ModeChangesOnlyWhenPending : Prop :=
  ∀ (c : Instr) (s t : State), exec c s = .next t → t.dev.mode ≠ s.dev.mode →
    (c = .modeChange ∧ ∃ m, s.dev.modePend = some m ∧ s.dev.inReset = false ∧ t.dev.mode = m.target)
      ∨ (restarts c = true ∧ t.dev.mode = .boot)

/-- The frame of every command: the parts of the device that its row of `touches` does not list are the same after it, and the
objects of the concentrator that its row of `setsObjects` does not list read the same, at every element. -/
def Obligations.CommandsLeaveTheRestAlone : Prop :=
  ∀ (c : Instr) (s t : State), exec c s = .next t →
    t.pending = s.pending ∧ (∀ k : Part, k ∉ touches c → k.same s.dev t.dev)
      ∧ ∀ l, setsObjects c = some l → ∀ a < 2 ^ 24, a ∉ l → ∀ e, t.dev.get a e = s.dev.get a e

/-- The frame of a command that acts on one port: every other front end, with its objects in the shadow copy, as applied and in
the Keeper's mirror, and every other port of the concentrator are the same after it; and of its own front end's objects only
those that its row of `setsFeObjects` lists may read otherwise. -/
def Obligations.PortCommandsLeaveOtherPortsAlone : Prop :=
  ∀ (c : Instr) (s t : State) (p : Port), actsOn c = some p → exec c s = .next t →
    (∀ q : Port, q ≠ p → t.dev.fe q = s.dev.fe q ∧ t.dev.port q = s.dev.port q ∧ ∀ a e,
      t.dev.fget q a e = s.dev.fget q a e ∧ t.dev.ap q a e = s.dev.ap q a e ∧ t.dev.mir q a e = s.dev.mir q a e)
    ∧ ∀ l, setsFeObjects c = some l → ∀ a < 2 ^ 24, a ∉ l → ∀ e, t.dev.fget p a e = s.dev.fget p a e

/-- R9, R402 to R404, R406, R421, R424, R492. A write that the dictionary refuses, in the order of R421, is answered so and changes
nothing but the Keeper's account of the request: this holds of MARORI_WRITE and of every command that writes an object of its
own. A write of all elements of an array is one write: refused whole, or applied to every element that is not RO. -/
def Obligations.DictionaryChecksWritesWhole : Prop :=
  let unchanged := fun (s d : Dev) => d = { s with keeper := d.keeper, out := d.out }
  (∀ (d : Dev) (w : Writer) (a e : Nat) (val : Bytes) (r : ObjRow), objRow a = some r →
    let number := r.ty ≠ .string ∧ r.ty ≠ .domain ∧ r.ty ≠ .time96
    (d.gate w a e val).1 =
      if r.elems ≤ e ∧ (e ≠ 0xFFFF ∨ r.elems ≤ 1) then some .range
      else if d.mode = .safe ∧ writableInSafe r = false then some (if r.access = .ro then .access else .wrongMode)
      else if r.access = .ro then some .access
      else if r.access = .rwc ∧ (d.mode ≠ .configure ∨ d.modePend.isSome = true) then some .wrongMode
      else if r.access = .guarded ∧ d.hasToken w = false then some .guard
      else if number ∧ val.length ≠ r.ty.bytes then some .type
      else if number ∧ (rowValue r val < r.lo ∨ r.hi < rowValue r val) then some .range
      else if number then none else valueCheck r val)
  ∧ (∀ (c : Instr) (s : State) (w : Writer) (a e : Nat) (val : Bytes) (st : Status),
    writes c = some (w, a, e, val) → (s.dev.gate w a e val).1 = some st →
    Completes c s fun d => d.Answered w st ∧ unchanged s.dev d)
  ∧ (∀ (s : State) (w : Writer) (index : BitVec 16) (sub : BitVec 8) (elem : BitVec 16) (val : Bytes),
    locate 0xFF index.toNat sub.toNat = none →
    Completes (.maroriWrite w 0xFF index sub elem val) s fun d => d.Answered w .notPresent ∧ unchanged s.dev d)
  ∧ (∀ (s : State) (w : Writer) (index : BitVec 16) (sub : BitVec 8) (elem : BitVec 16) (val : Bytes) (r : ObjRow) (st : Status),
    locate 0xFF index.toNat sub.toNat = some r → sub ≠ 0 → r.addr ∉ ownWrite → roElem r.addr elem.toNat = false →
    (s.dev.gate w r.addr elem.toNat val).1 = some st →
    Completes (.maroriWrite w 0xFF index sub elem val) s fun d => d.Answered w st ∧ unchanged s.dev d)
  ∧ ∀ (s : State) (w : Writer) (index : BitVec 16) (sub : BitVec 8) (val : Bytes) (r : ObjRow),
    let a := r.addr
    let named := fun (k : Nat) => k < r.elems ∧ roElem a k = false
    locate 0xFF index.toNat sub.toNat = some r → sub ≠ 0 → a ∉ ownWrite → 1 < r.elems → r.elems ≤ 0xFFFF →
    s.dev.Admits w a 0xFFFF val →
    Completes (.maroriWrite w 0xFF index sub 0xFFFF val) s fun d =>
      (∀ k < r.elems, roElem a k = true → d.get a k = s.dev.get a k)
        ∧ (d.Answered w .accepted → ∀ k, named k → d.get a k = s.dev.stored1 a k (beNat val) % 2 ^ regBits a)
        ∧ (¬ d.Answered w .accepted → ∀ k < r.elems, d.get a k = s.dev.get a k)

/-! ### Cycles and modes (chapter 2) -/

/-- R24. At a boundary the cycle number increments by one modulo 2⁴⁰, the new cycle starts there with frame 0 and the
CYCLE_LEN last written, and neither the mode nor the slot count changes. -/
def Obligations.CycleBoundaryStartsNextCycle : Prop :=
  ∀ s : State, s.dev.inReset = false → s.dev.cycleEnd ≤ s.dev.now → s.dev.cycleDone = true →
    (s.dev.cut.all fun x => x.1 != 0) = true →
    Completes .cycleBoundary s fun d =>
      d.grid.cycle = (s.dev.grid.cycle + 1) % 2 ^ 40 ∧ d.grid.cycleStart = s.dev.cycleEnd ∧ d.grid.nextFrame = 0
        ∧ d.grid.len = s.dev.get Reg.CYCLE_LEN ∧ d.mode = s.dev.mode ∧ d.now = s.dev.now

/-- R26, R27. A movement of the grid ends the cycle in progress at the first boundary of the new grid; the next cycle
starts there under the number that follows (or the one the movement names), and the entries cut off are counted. -/
def Obligations.GridMoveEndsCycleEarly : Prop :=
  ∀ (s : State) (m : GridMove), s.dev.inReset = false → s.dev.cut = some (0, m) → m.at_ ≤ s.dev.now →
    s.dev.cycleDone = true →
    Completes .gridMoveApply s fun d =>
      d.grid.cycleStart = m.at_ ∧ d.grid.cycle = (m.cycle.getD (s.dev.grid.cycle + 1)) % 2 ^ 40 ∧ d.grid.nextFrame = 0
        ∧ d.get Reg.CAL_SKIPPED = min (s.dev.get Reg.CAL_SKIPPED + s.dev.cutEntries m.at_) (2 ^ 32 - 1)

/-- R29, R30, R445. A permitted request waits for the boundary Mode Target Cycle asks for and replaces a pending one; a
target that is too near or too far is refused with RANGE; a request for the mode in force cancels a pending one. -/
def Obligations.ModeRequestsWaitForTheirBoundary : Prop :=
  (∀ (s : State) (w : Writer) (m : Mode), s.dev.Admits w Reg.MD_REQUEST 0 [BitVec.ofNat 8 (modeCode m)] →
    m ≠ s.dev.mode → permitted s.dev.mode m = true → s.dev.mode ≠ .safe → s.dev.safeReason = none →
    s.dev.get Reg.MD_TARGET_CYC = 0 →
    Completes (.modeRequest w [BitVec.ofNat 8 (modeCode m)]) s fun d =>
      d.modePend = some { target := m, cycle := none, notBefore := s.dev.now + 4096 } ∧ d.mode = s.dev.mode
        ∧ d.get Reg.MD_REQUEST = modeCode m ∧ d.Answered w .accepted)
  ∧ (∀ (s : State) (w : Writer) (m : Mode) (k : Nat), s.dev.Admits w Reg.MD_REQUEST 0 [BitVec.ofNat 8 (modeCode m)] →
    m ≠ s.dev.mode → permitted s.dev.mode m = true → s.dev.mode ≠ .safe → s.dev.safeReason = none →
    s.dev.get Reg.MD_TARGET_CYC = k → k ≠ 0 →
    Completes (.modeRequest w [BitVec.ofNat 8 (modeCode m)]) s fun d =>
      d.mode = s.dev.mode ∧
      if 1 ≤ s.dev.cyclesAhead k ∧ s.dev.cyclesAhead k ≤ 2 ^ 20 ∧ s.dev.now + 4096 ≤ s.dev.startOf k then
        (∃ b, d.modePend = some { target := m, cycle := some k, notBefore := b }) ∧ d.Answered w .accepted
      else d.modePend = s.dev.modePend ∧ d.get Reg.MD_REQUEST = s.dev.get Reg.MD_REQUEST ∧ d.Answered w .range)
  ∧ ∀ (s : State) (w : Writer), s.dev.Admits w Reg.MD_REQUEST 0 [BitVec.ofNat 8 (modeCode s.dev.mode)] →
    s.dev.safeReason = none →
    Completes (.modeRequestCancel w) s fun d =>
      d.modePend = none ∧ d.mode = s.dev.mode ∧ d.Answered w .accepted

/-- R40, R41, R200. A commit of a bank without conflict waits for a boundary at least the mode lead ahead; a conflict refuses
it, names the first offending entry and leaves the banks and an earlier commit alone. At its boundary, after a reference
change, a time step, a mode change and a route commit due there, the bank becomes the active one. 256 slots before it a port that has not
acknowledged the mirror is flagged. -/
def Obligations.CalendarCommitsAreCheckedAndApplied : Prop :=
  (∀ (s : State) (w : Writer) (val : Bytes), s.dev.Admits w Reg.CAL_COMMIT 0 val →
    Completes (.calendarCommit w val) s fun d =>
      match s.dev.shadowBank.conflict s.dev.cycleLen with
      | none => d.grid.bankPend = some (s.dev.now + 4096, s.dev.saveBank) ∧ d.get Reg.CAL_STATUS = 1 ∧ d.Answered w .accepted
      | some e => d.grid.bankPend = s.dev.grid.bankPend ∧ d.get Reg.CAL_REFUSED_AT = e ∧ d.Answered w .calConflict
        ∧ (s.dev.grid.bankPend = none → d.get Reg.CAL_STATUS = 2))
  ∧ (∀ (s : State) (p : Port), (s.dev.port p).mirrorAcked = false → bit (s.dev.get Reg.WP_STATUS p.val) 11 = false →
    (s.dev.port p).mirrorBoundary ≤ s.dev.now + 256 → s.dev.ledger.buffer.length < 1024 →
    Completes (.mirrorLagDetect p) s fun d => bit (d.get Reg.WP_STATUS p.val) 11 = true ∧ d.Recorded p.val 0x0402)
  ∧ ∀ (s : State) (t : Nat) (b : Tbl Nat), s.dev.grid.bankPend = some (t, b) → t ≤ s.dev.grid.cycleStart →
    s.dev.beforeCommits = false → s.dev.routeDue = false →
    Completes .calendarCommitApply s fun d =>
      d.grid.bankPend = none ∧ d.get Reg.CAL_STATUS = 0 ∧ d.get Reg.CAL_COMMIT_CYC = s.dev.grid.cycle % 2 ^ 64
        ∧ ∀ a ∈ calObjects, ∀ e < 64, d.activeBank a e = bankOf b a e % 2 ^ regBits (a + 0x300)

/-- R45, R47, R258. In CONFIGURE a CYCLE_LEN that CAL_LEAD and the widths of the time pulses allow is taken; the cycle in
progress keeps its length, and every enabled port's acknowledgement is awaited. Another is refused with RANGE. -/
def Obligations.CycleLengthWriteGovernsNextCycle : Prop :=
  ∀ (s : State) (w : Writer) (val : Bytes), s.dev.Admits w Reg.CYCLE_LEN 0 val →
    Completes (.cycleLengthWrite w val) s fun d =>
      s.dev.mode = .configure ∧ d.grid = s.dev.grid ∧
      if s.dev.get Reg.CAL_LEAD ≤ 127 * beNat val ∧ (s.dev.set Reg.CYCLE_LEN 0 (beNat val)).pulsesFit = true then
        d.get Reg.CYCLE_LEN = beNat val ∧ d.Answered w .accepted
          ∧ ∀ p : Port, s.dev.get Reg.WP_EN p.val ≠ 0 → (d.port p).cycLenAcked = false
      else d.get Reg.CYCLE_LEN = s.dev.get Reg.CYCLE_LEN ∧ d.Answered w .range

/-- R43 to R46, R197, R198, R542. A copy of the first command of the order is sent when the limiter has its tokens and no
LINKSTAT is overdue: of the commands held and the calendar's next block, none goes before it. Commands whose targets have passed
leave the queue; those of which no copy was sent, and a block of the calendar that was never issued, are counted late. -/
def Obligations.FastCommandsIssueInOrder : Prop :=
  (∀ (s : State) (p : Port) (f : Fcmd) (new : Bool), s.dev.portUp p = true → s.dev.statOverdue p = false →
    (s.dev.feedInjects p).nextCopy p = some (f, new) → f.tokens ≤ (s.dev.port p).tokensNow s.dev.now →
    Completes (.fcmdIssue p) s fun d =>
      (.fcmd p.val (f.id.getD (s.dev.port p).nextId) f.op (f.cycle % 256) f.slot :: s.dev.out) <:+ d.out
        ∧ (d.port p).tokens = (s.dev.port p).tokensNow s.dev.now - f.tokens
        ∧ (d.port p).nextId = (if f.id = none then ((s.dev.port p).nextId + 1) % 256 else (s.dev.port p).nextId)
        ∧ { f with id := some (f.id.getD (s.dev.port p).nextId), copies := f.copies + 1 } ∈ (d.port p).cmds)
  ∧ (∀ (d : Dev) (p : Port) (f : Fcmd) (new : Bool), d.nextCopy p = some (f, new) →
    (∀ x ∈ (d.port p).cmds, x.copies < 2 → d.now < x.target → x.target ≤ d.now + d.issueWindow → f.key ≤ x.key)
      ∧ (∀ o ∈ (d.nextCal p).head?, d.now < o.at_ → (d.port p).holds o.at_ = false → f.key ≤ (calCmd (d.nextCal p) o).key))
  ∧ ∀ (s : State) (p : Port) (q : Dev) (late : Nat),
    (if s.dev.takesCmds p then s.dev.feedInjects p else s.dev) = q →
    sumBy (fun f => if f.copies = 0 then f.tokens else 0) ((q.port p).cmds.filter fun f => decide (f.target ≤ s.dev.now)) = late →
    Completes (.fcmdTargetPassed p) s fun d =>
      (d.port p).cmds = (q.port p).cmds.filter (fun f => decide (s.dev.now < f.target))
        ∧ ((q.passTargets p).nextCal p = [] →
            d.get Reg.CAL_LATE p.val = min (s.dev.get Reg.CAL_LATE p.val + late) (2 ^ 32 - 1)
              ∨ late = 0 ∧ d.get Reg.CAL_LATE p.val = s.dev.get Reg.CAL_LATE p.val)
        ∧ (∀ o ∈ ((q.passTargets p).nextCal p).head?, s.dev.takesCmds p = true → o.at_ ≤ s.dev.now →
            d.get Reg.CAL_LATE p.val
                = min (s.dev.get Reg.CAL_LATE p.val + late + ((q.passTargets p).nextCal p).length) (2 ^ 32 - 1)
              ∧ (d.port p).calTo = o.at_ + 1)

/-! ### The front end's channels (chapters 3 and 4) -/

/-- R85 to R88, R144. A leading edge behind the mask merges into a pulse in progress, which lasts at least 500 ps; another is
captured by an ARMED channel with the raw stamp and the pair in force, is suppressed and counted in FLOOD, and is lost in
every other state. -/
def Obligations.LeadingEdgeCapturedSuppressedOrLost : Prop :=
  ∀ (s : State) (p : Port) (c : ChanNo) (k : Fin 8) (fine : BitVec 12),
    let f := s.dev.fe p
    let g := f.region (regionOf c.val)
    let ch := f.chan c.val
    let tick := 8 * s.dev.now + k.val
    let pair := s.dev.pairOf p c.val
    f.runs = true → s.dev.masked p c.val = false → g.senses = true →
    Completes (.leadingEdge p c k fine) s fun d =>
      let ch' := (d.fe p).chan c.val
      let g' := (d.fe p).region (regionOf c.val)
      ch'.high = true ∧
      if ch.high then ch' = { ch with crossings := ch.crossings + 1 } ∧ g' = g
      else if convertStamp (tick + 2) fine.toNat pair.1 pair.2 < ch.stretchTo then
        g' = g ∧ ch'.queue.length = ch.queue.length ∧ ch'.crossings = 1 ∧ (ch.st = .rearm → ch'.st = .pulse)
      else g'.rate = g.rate + 1 ∧
        if g.flood then
          ch'.queue = ch.queue ∧ ch'.st = ch.st
            ∧ d.fget p Reg.FE_RG_SUPPR (regionOf c.val) = min (s.dev.fget p Reg.FE_RG_SUPPR (regionOf c.val) + 1) (2 ^ 64 - 1)
        else if ch.armedAt tick ∧ ch.queue.length < 4 then
          ch'.st = .pulse ∧ ch'.deadFrom = tick ∧ ch'.queue.length = ch.queue.length + 1
            ∧ ∃ e, ch'.queue.getLast? = some e ∧ e.leadTick = tick + 2 ∧ e.leadFine = fine.toNat ∧ e.complete = false
              ∧ e.c1 = pair.1 ∧ e.c2 = pair.2
        else ch'.queue = ch.queue ∧ ch'.st = ch.st

/-- R85 to R87, R89, R108, R109. The trailing edge of a pulse, the last of merged ones and not before 500 ps, completes its entry
with the raw trailing stamp and starts the re-arm sequence, which ends at floor(t) + 6; a pulse of 2,047 ToT LSB is completed with
TOT_SAT and stays in PULSE; at the end of the sequence the channel is ARMED, WAIT_LOW or BLOCKED, a valid pair is taken, and the coarse ticks since the dead time was last
counted are added to the channel's Busy counter, its region's counter and the chip's, unless none accrues. -/
def Obligations.PulseEndsAndChannelRearms : Prop :=
  ((∀ (s : State) (p : Port) (c : ChanNo) (k : Fin 8) (fine : BitVec 12),
     let ch := (s.dev.fe p).chan c.val
     let tick := 8 * s.dev.now + k.val
     let pair := s.dev.pairOf p c.val
     let stamp := s.dev.trailStamp p c.val tick fine.toNat
     (s.dev.fe p).runs = true → ch.high = true → ch.st = .pulse →
     (ch.stretchTo ≤ convertStamp (tick + 2) fine.toNat pair.1 pair.2 → stamp = (tick + 2, fine.toNat)) ∧ tick + 2 ≤ stamp.1
     ∧ Completes (.trailingEdge p c k fine) s fun d =>
       let ch' := (d.fe p).chan c.val
       if 1 < ch.crossings then ch' = { ch with crossings := ch.crossings - 1 }
       else ch'.st = .rearm ∧ ch'.endTick = stamp.1 - 2 + 6 ∧ ch'.high = false
         ∧ ch'.queue = ch.queue.map (completeEntry (some stamp)))
   ∧ (∀ (s : State) (p : Port) (c : ChanNo),
     let ch := (s.dev.fe p).chan c.val
     ch.st = .pulse →
     (∃ e ∈ ch.queue, e.complete = false ∧ 2047 * totLsb e.lsb ≤ (8 * (s.dev.now + 1) - ch.edgeTick) * 512) →
     Completes (.totSaturation p c) s fun d =>
       let ch' := (d.fe p).chan c.val
       ch'.st = .pulse ∧ ch'.high = ch.high ∧ ch'.queue = ch.queue.map (completeEntry none))
   ∧ ∀ (s : State) (p : Port) (c : ChanNo) (c1 c2 : BitVec 12),
     let ch := (s.dev.fe p).chan c.val
     let g : Int := (c2.toNat : Int) - c1.toNat
     let c0 : Int := 2 * (c1.toNat : Int) - c2.toNat
     let valid : Prop := 560 ≤ g ∧ g ≤ 1400 ∧ -512 ≤ c0 ∧ c0 ≤ 512
     ch.st = .rearm → ch.endTick ≤ 8 * s.dev.now + 7 →
     Completes (.rearmComplete p c c1 c2) s fun d =>
       let ch' := (d.fe p).chan c.val
       ch'.st = (if ch.high then .waitLow else if 4 ≤ ch.queue.length then .blocked else .armed) ∧ ch'.queue = ch.queue
         ∧ (valid → ch'.pairC1 = c1.toNat ∧ ch'.pairC2 = c2.toNat ∧ ch'.pairValid = true)
         ∧ (¬ valid → ch'.pairC1 = ch.pairC1 ∧ ch'.pairC2 = ch.pairC2
           ∧ d.fget p Reg.FE_CH_PAIR_FLT c.val = min (s.dev.fget p Reg.FE_CH_PAIR_FLT c.val + 1) (2 ^ 32 - 1)))
  ∧ (∀ (s : State) (p : Port) (c : ChanNo) (c1 c2 : BitVec 12),
     let ch := (s.dev.fe p).chan c.val
     let n := ch.endTick - ch.deadFrom
     let counted := fun (v : Nat) => if s.dev.accrues p c.val then min (v + n) (2 ^ 64 - 1) else v
     ch.st = .rearm → ch.endTick ≤ 8 * s.dev.now + 7 → ch.deadFrom < ch.endTick →
     Completes (.rearmComplete p c c1 c2) s fun d =>
       d.fget p Reg.FE_CH_DT_BUSY c.val = counted (s.dev.fget p Reg.FE_CH_DT_BUSY c.val)
         ∧ d.fget p Reg.FE_CH_DT_BLK c.val = s.dev.fget p Reg.FE_CH_DT_BLK c.val
         ∧ d.fget p Reg.FE_RG_DT (regionOf c.val) = counted (s.dev.fget p Reg.FE_RG_DT (regionOf c.val))
         ∧ d.fget p Reg.FE_CHIP_DT = counted (s.dev.fget p Reg.FE_CHIP_DT))

/-- R92, R103, R105, R115, R116. A raw stamp's interval, rounded to the nearest with halves upward, is limited to 512 to 1,024 fine
bins and taken from the stop edge. At a cycle boundary a region latches its measured phase, the mean of its phase stamps, and as its
correction that phase plus Region Phase Offset, limited to −512 to +511; PHASE_HOLD freezes both. The previous correction is kept,
and the status shows the correction and PHASE_LIMIT. -/
def Obligations.StampsConvertedAndPhaseLatched : Prop :=
  (∀ k c c1 c2 : Nat, c1 < c2 →
     let g : Int := (c2 : Int) - c1
     let c0 : Int := 2 * (c1 : Int) - c2
     ∃ r : Int, (2 * (((c : Int) - c0) * 512) - g < 2 * g * r ∧ 2 * g * r ≤ 2 * (((c : Int) - c0) * 512) + g) ∧
       convertStamp k c c1 c2 = (k : Int) * 512 - (if r < 512 then 512 else if 1024 < r then 1024 else r))
  ∧ (∀ (d : Dev) (p : Port) (r : Nat), r < 256 →
     let g := (d.fe p).region r
     let d' := d.latchPhase p r
     let g' := (d'.fe p).region r
     let sum := g.meanPhase + sgn 16 (d.ap p Reg.FE_RG_PHASE_OFS r)
     g'.prevCorr = g.corr ∧
       if bit (d.ap p Reg.FE_RG_TIME r) 2 then g'.phase = g.phase ∧ g'.corr = g.corr ∧ d'.regs = d.regs
       else g'.phase = g.meanPhase ∧ g'.corr = (if sum < -512 then -512 else if 511 < sum then 511 else sum)
         ∧ field (d'.fget p Reg.FE_RG_TSTAT r) 9 0 = unsgn 10 g'.corr
         ∧ bit (d'.fget p Reg.FE_RG_TSTAT r) 11 = decide (256 < g'.phase.natAbs)
         ∧ bit (d'.fget p Reg.FE_RG_TSTAT r) 12 = bit (d.fget p Reg.FE_RG_TSTAT r) 12)

/-- R22, R24, R118, R152. At the end of a front end's frame that is not its cycle's last the next frame begins where it ended; at
the end of its cycle the low eight bits of the cycle number advance and frame 0 begins; a counter clear that was written takes
effect once the next cycle of the front end has begun. -/
def Obligations.FrontEndFramesAndCyclesFollow : Prop :=
  ((∀ (s : State) (p : Port) (fr : FeFrame),
     let f := s.dev.fe p
     f.runs = true → f.frames.getLast? = some fr → fr.ended = false → fr.stop ≤ s.dev.now → fr.stop < f.cycleStop →
     Completes (.feFrameBoundary p) s fun d =>
       ∃ n, (d.fe p).frames.getLast? = some n ∧ n.start = fr.stop ∧ n.idx = fr.idx + 1 ∧ n.ended = false
         ∧ n.stop = min (fr.stop + 256) f.cycleStop ∧ n.short = decide (f.cycleStop < fr.stop + 256))
   ∧ ∀ (s : State) (p : Port) (meas : List RegionMeas),
     let f := s.dev.fe p
     f.runs = true → f.gridSet = true → f.cycleStop ≤ s.dev.now →
     Completes (.feCycleBoundary p meas) s fun d =>
       (d.fe p).cycLo = (f.cycLo + 1) % 256 ∧ (d.fe p).cycleStart = f.cycleStop ∧ (d.fe p).prevStart = f.cycleStart
         ∧ (d.fe p).endAt = none ∧ (d.fe p).cycleLen = s.dev.fget p Reg.FE_CYCLE_LEN)
  ∧ (∀ (s : State) (p : Port),
     let f := s.dev.fe p
     let due := fun (t : Option Nat) => ∃ n, t = some n ∧ n < f.cycleStart
     f.runs = true →
     Completes (.feCounterClearApply p) s fun d =>
       (due f.clearTiming → (d.fe p).clearTiming = none ∧ ∀ a ∈ timingCounters, ∀ e < 2 ^ 16, d.fget p a e = 0)
         ∧ (due f.clearReadout → (d.fe p).clearReadout = none ∧ ∀ a ∈ readoutCounters, ∀ e < 2 ^ 16, d.fget p a e = 0))

/-- R55, R67, R70, R73, R76. Received settings become the applied ones when they are due; leakage saturation is shown
where leakage compensation is set; a region's outputs are released once it has settled; an injection request is taken in
CALIBRATE for a slot inside the cycle. -/
def Obligations.AnalogueSettingsTakeEffect : Prop :=
  (∀ (s : State) (p : Port) (t : Nat),
    (s.dev.fe p).applyAt = some t → (s.dev.fe p).runs = true →
    (if (s.dev.fe p).applyAtCycle then t < (s.dev.fe p).cycleStart else t ≤ s.dev.now) →
    Completes (.configApply p) s fun d =>
      (d.fe p).applyAt = none ∧ ∀ a ∈ feSettings, ∀ e < 2 ^ 16,
        d.ap p a e % 2 ^ regBits a = s.dev.fget p a e % 2 ^ regBits a)
  ∧ (∀ (s : State) (p : Port) (c : ChanNo), (s.dev.fe p).runs = true → bit (s.dev.ap p Reg.FE_CH_ANA c.val) 8 = true →
    Completes (.leakageSaturation p c) s fun d => bit (d.fget p Reg.FE_CH_STAT c.val) 0 = true)
  ∧ (∀ (s : State) (p : Port) (r : RegionNo), ((s.dev.fe p).region r.val).settleUntil ≤ s.dev.now →
    Completes (.settlingEnd p r) s fun d =>
      ((d.fe p).region r.val).outFrom = none ∧ ((d.fe p).region r.val).settling d.now = false)
  ∧ ∀ (s : State) (w : Writer) (p : Port) (val : Bytes),
    let v := beNat val
    s.dev.get Reg.WP_STATE p.val = 2 ∨ s.dev.get Reg.WP_STATE p.val = 3 → s.dev.Admits w Reg.FE_INJECT 0 val →
    Completes (.injectRequest w p val) s fun d =>
      if s.dev.mode ≠ .calibrate then d.ports = s.dev.ports ∧ d.Answered w .wrongMode
      else if field v 31 20 = 0 ∨ s.dev.cycleLen ≤ field v 19 0 then d.ports = s.dev.ports ∧ d.Answered w .range
      else (d.port p).injectSlot = field v 19 0 ∧ (d.port p).injectLeft = field v 31 20 ∧ d.Answered w .accepted

/-! ### Fast commands at a front end (R44, R199 to R201, R541) -/

/-- R12, R44, R199. A front end hears the downlink it follows while that has block lock. An FCMD whose CMD_ID is in the history of 32 changes nothing; another enters the history, and is held
pending when its target lies ahead, else counted late. -/
def Obligations.FastCommandReceivedOnce : Prop :=
  ∀ (s : State) (p : Port) (id : BitVec 8) (op : FcmdOp) (cyc : BitVec 8) (slot : BitVec 20),
    let f := s.dev.fe p
    let delta := (cyc.toNat + 256 - f.cycLo) % 256
    f.hears = true →
    Completes (.fcmdReceive p id op cyc slot) s fun d =>
      let f' := d.fe p
      if id.toNat ∈ f.history then d = s.dev
      else f'.history = (id.toNat :: f.history).take 32 ∧
        if (1 ≤ delta ∧ delta ≤ 127) ∨ (delta = 0 ∧ s.dev.now - f.cycleStart < slot.toNat) then
          f'.late = f.late ∧ ∃ c, f'.cmds = f.cmds ++ [c] ∧ c.id = id.toNat ∧ c.op = op ∧ c.cyc = cyc.toNat ∧ c.slot = slot.toNat
        else f'.cmds = f.cmds ∧ f'.late = f.late + feCount op

/-- R19, R35, R66, R71, R72, R74, R212, R541. What the fast command that is next in the order of R199 does when it is due: a mode
is taken (BOOT and SAFE put the front end into low-power reset), queues are flushed, a bias level is commanded and taken as far
as its cap allows, in CALIBRATE the test charge goes into every enabled channel, and the grid is moved in half ticks. -/
def Obligations.DueFastCommandExecutes : Prop :=
  (∀ (s : State) (p : Port) (i : DueItem) (m : Mode), s.dev.inOrder p 1 = true → (s.dev.due p).2 = some i → opMode i.cmd.op = some m →
    Completes (.modeCommand p) s fun d =>
      d.fget p Reg.FE_MODE = modeCode m ∧ if m = .boot ∨ m = .safe then (d.fe p).power = .lowPower else (d.fe p).mode = m)
  ∧ (∀ (s : State) (p : Port) (i : DueItem), s.dev.inOrder p 1 = true → (s.dev.due p).2 = some i → isAction 1 i = true →
    let e := (s.dev.due p).1.itemEntry p i
    Completes (.queueReset p) s fun d =>
      (bit e.arg 0 = true → ∀ r ∈ s.dev.regionsIn p e.groups, ((d.fe p).region r).queue = [])
        ∧ (bit e.arg 1 = true → (∀ c : Fin 16, (d.fe p).columns[c.val] = []) ∧ ∀ l : Lane, laneRecords (d.fe p).lanes[l.val].queue = []))
  ∧ (∀ (s : State) (p : Port) (i : DueItem) (r l : Nat), s.dev.inOrder p 1 = true → (s.dev.due p).2 = some i → (opBias i.cmd.op).isSome = true →
    let f := ((s.dev.due p).1.fe p).finish i
    let all := (i.cmd :: f.cmds.filter fun c =>
      (opBias c.op).isSome && f.reached s.dev.now c == f.reached s.dev.now i.cmd).filterMap fun c => opBias c.op
    r < 256 → ((all.filter fun b => bit b.1 (s.dev.groupOf p r)).getLast?).map Prod.snd = some l →
    Completes (.biasCommand p) s fun d =>
      ((d.fe p).region r).commanded = l ∧ ((d.fe p).region r).level = s.dev.regionCap p r l)
  ∧ (∀ (s : State) (p : Port) (i : DueItem), s.dev.inOrder p 1 = true → (s.dev.due p).2 = some i → i.cmd.op = .inject →
    Completes (.injectCommand p) s fun d =>
      if (s.dev.fe p).mode = .calibrate then
        ∃ xs, d.out = .injection p.val (((s.dev.fe p).reached s.dev.now i.cmd).getD s.dev.now) xs :: s.dev.out ∧
        (tblWf regDflt s.dev.applied = true → ∀ c < 4096, ∀ (tick : Nat) (q : Int), (c, tick, q) ∈ xs ↔
          bit (s.dev.ap p Reg.FE_CH_ANA c) 6 = true ∧ ((s.dev.fe p).region (regionOf c)).level ≠ 0 ∧
          let w := s.dev.ap p Reg.FE_RG_ANA (regionOf c)
          let step : Int := if bit w 10 then 200 else 25
          tick = field w 28 26 ∧ q = (if bit w 11 then 1 else -1) * (field w 25 16 * step))
      else d.out = s.dev.out ∧ (d.fe p).late = (s.dev.fe p).late + 1)
  ∧ ∀ (s : State) (p : Port) (i : DueItem) (h : Int), s.dev.inOrder p 1 = true → (s.dev.due p).2 = some i → i.cmd.op = .tickPhase h →
    Completes (.tickPhaseCommand p) s fun d => (d.fe p).tickPhase = (s.dev.fe p).tickPhase + h

/-- R28. A due cycle-end command ends the front end's cycle at the targeted slot. Every pending fast command whose target no
longer lies ahead, which are those of the cycle that ends, is discarded unexecuted and counted in the cancelled-command
counter, a calendar command once for each entry it still holds. -/
def Obligations.CycleEndCommandEndsTheCycle : Prop :=
  ∀ (s : State) (p : Port) (i : DueItem), s.dev.inOrder p 1 = true → (s.dev.due p).2 = some i → i.cmd.op = .cycleEnd →
    let f := ((s.dev.due p).1.fe p).finish i
    let stop := (f.reached s.dev.now i.cmd).getD s.dev.now
    Completes (.cycleEndCommand p) s fun d =>
      let f' := d.fe p
      f'.cycleStop = stop ∧ f'.cmds = f.cmds.filter (fun c => f.cycleDelta c.cyc != 0)
        ∧ f'.discarded = f.discarded
          + sumBy (fun c => if c.left.isEmpty then 1 else c.left.length) (f.cmds.filter fun c => f.cycleDelta c.cyc == 0)
        ∧ f'.executed = f.executed ∧ f'.late = f.late
        ∧ ∀ fr ∈ f'.frames, fr.ended = false → fr.stop ≤ stop

/-- R35, R94, R96, R97, R156, R170, R496. A due RATE_LATCH latches and clears the rate counters of its groups; a due
PAIR_REFRESH puts every selected channel it finds ARMED, in a region not at OFF, that has not re-armed since the last refresh
or whose last pair was invalid, into REFRESH for 4 coarse ticks, and it takes the measured pair when valid; a due SNAPSHOT
entry names one freeze instant, unless a calibration phase runs. -/
def Obligations.LatchRefreshAndSnapshotEntriesExecute : Prop :=
  (∀ (s : State) (p : Port) (i : DueItem), s.dev.inOrder p 1 = true → (s.dev.due p).2 = some i → isAction 2 i = true →
    Completes (.rateLatch p) s fun d =>
      ∀ r < 256, bit ((s.dev.due p).1.itemEntry p i).groups (s.dev.groupOf p r) = true →
        d.fget p Reg.FE_RG_RATE r = min ((s.dev.fe p).region r).rate (2 ^ 32 - 1) ∧ ((d.fe p).region r).rate = 0)
  ∧ (∀ (s : State) (p : Port) (i : DueItem) (pair : BitVec 12 × BitVec 12) (meas : List (ChanNo × BitVec 12 × BitVec 12)),
    s.dev.inOrder p 1 = true → (s.dev.due p).2 = some i → isAction 3 i = true →
    let groups := ((s.dev.due p).1.itemEntry p i).groups
    Completes (.pairRefresh p pair meas) s fun d =>
      ∀ c < 4096, bit groups (s.dev.groupOf p (regionOf c)) = true →
        let ch := (s.dev.fe p).chan c
        let ch' := (d.fe p).chan c
        let m := ((meas.find? fun x => x.1.val == c).map Prod.snd).getD pair
        ch'.rearmed = false ∧
        if (ch.rearmed = false ∨ ch.lastInvalid = true) ∧ ch.armedAt (8 * s.dev.now) = true
            ∧ ((s.dev.fe p).region (regionOf c)).level ≠ 0 then
          ch'.st = .refresh ∧ ch'.endTick = 8 * s.dev.now + 4
            ∧ if pairValid m.1.toNat m.2.toNat then ch'.pairC1 = m.1.toNat ∧ ch'.pairC2 = m.2.toNat else ch'.lastInvalid = true
        else ch'.st = ch.st)
  ∧ ∀ (s : State) (p : Port) (i : DueItem), s.dev.inOrder p 1 = true → (s.dev.due p).2 = some i → isAction 5 i = true →
    let e := (s.dev.due p).1.itemEntry p i
    Completes (.calendarSnapshotTrigger p) s fun d =>
      if s.dev.fget p Reg.FE_SNAP_CAL_STAT = 1 then (d.fe p).freezes = (s.dev.fe p).freezes
      else (d.fe p).freezes = (s.dev.fe p).freezes ++
        [{ inst := 40 * ((s.dev.fe p).reached s.dev.now i.cmd).getD s.dev.now + s.dev.ap p Reg.SNAP_CAL_DELAY, source := 0
           regions := maskOf (s.dev.regionsIn p e.groups), samplers := field e.arg 3 0 }]

/-! ### Readout, queues and the flood guard (chapter 5) -/

/-- R101, R121, R123, R124, R142. Once a slot the region arbiter reads the completed head, its frame begun, with the oldest age
key, the first after the input granted last among equals: it leaves its channel queue and, in a frame with hit records, enters the region queue as a
finished record. A column arbiter does the same with the heads of its region queues. In one slot the dealer deals at most 8
records, at most 4 into any lane output queue, none beyond the usable depth, the record queue's first. -/
def Obligations.ArbitersAndDealerMoveRecords : Prop :=
  ((∀ (s : State) (p : Port) (r : RegionNo) (k : Fin 16) (e : HitEntry),
     let f := s.dev.fe p
     let g := f.region r.val
     let chan := fun (k : Nat) => (channelsOf r.val).getD k 0
     let head := fun (k : Nat) => (f.chan (chan k)).queue.head?
     let keep := f.keeps (chan k.val) e
     f.runs = true → s.dev.inOrder p 5 = true → g.readAt ≠ some s.dev.now → head k.val = some e → f.readable (chan k.val) e = true →
     (∀ j : Fin 16, j ≠ k → ∀ x ∈ head j.val, f.readable (chan j.val) x = true →
       grantRank 16 g.lastChan (e.leadTick / 8) k.val < grantRank 16 g.lastChan (x.leadTick / 8) j.val) →
     Completes (.regionReadout p r) s fun d =>
       if keep = true ∧ 30 ≤ g.queue.length then d = s.dev
       else ((d.fe p).chan (chan k.val)).queue = (f.chan (chan k.val)).queue.drop 1
         ∧ ((d.fe p).region r.val).readAt = some s.dev.now ∧ ((d.fe p).region r.val).lastChan = k.val
         ∧ ((d.fe p).region r.val).queue = if keep then g.queue ++ [s.dev.hitOf p (chan k.val) e] else g.queue)
   ∧ ∀ (s : State) (p : Port) (c : Fin 16) (k : Fin 16) (q : QRec),
     let f := s.dev.fe p
     let head := fun (k : Nat) => (f.region (k * 16 + c.val)).queue.head?
     f.runs = true → s.dev.inOrder p 5 = true → f.colMoved[c.val] ≠ some s.dev.now → f.columns[c.val].length < 256 → head k.val = some q →
     (∀ j : Fin 16, j ≠ k → ∀ x ∈ head j.val,
       grantRank 16 f.colLast[c.val] q.key k.val < grantRank 16 f.colLast[c.val] x.key j.val) →
     Completes (.columnArbiterMove p c) s fun d =>
       (d.fe p).columns[c.val] = f.columns[c.val] ++ [q] ∧ (d.fe p).colLast[c.val] = k.val
         ∧ (d.fe p).colMoved[c.val] = some s.dev.now
         ∧ ((d.fe p).region (k.val * 16 + c.val)).queue = (f.region (k.val * 16 + c.val)).queue.drop 1)
  ∧ (∀ (s : State) (p : Port),
     let f := s.dev.fe p
     f.runs = true → s.dev.inOrder p 5 = true → f.dealtAt ≠ some s.dev.now →
     Completes (.dealerDeal p) s fun d =>
       let f' := d.fe p
       f'.dealtAt = some s.dev.now
         ∧ (∀ l : Lane, f.lanes[l.val].fill ≤ f'.lanes[l.val].fill ∧ f'.lanes[l.val].fill ≤ f.lanes[l.val].fill + 4
           ∧ (f.lanes[l.val].fill ≤ 1022 → f'.lanes[l.val].fill ≤ 1022))
         ∧ f'.lanes[0].fill + f'.lanes[1].fill + f'.lanes[2].fill + f'.lanes[3].fill
           ≤ f.lanes[0].fill + f.lanes[1].fill + f.lanes[2].fill + f.lanes[3].fill + 8
         ∧ ∀ q rest l, f.records = q :: rest → { f with dealt := [] }.dealLane q.frame = some l →
           LaneItem.entry q ∈ f'.lanes[l.val].queue)

/-- R138 to R140, R142. The oldest frame, ended and with nothing held upstream, leaves with one marker behind the records
of every active lane in a mode that sends markers. At its close deadline a frame that is not complete loses every hit it
holds upstream, counted per region. -/
def Obligations.FramesCompleteOrClose : Prop :=
  (∀ (s : State) (p : Port) (fr : FeFrame) (rest : List FeFrame),
    let f := s.dev.fe p
    f.runs = true → f.frames = fr :: rest → fr.ended = true → fr.stop ≤ s.dev.now → f.holds fr = false →
    fr.heldAt ≠ some s.dev.now →
    Completes (.frameComplete p) s fun d =>
      (d.fe p).frames = rest ∧ ∀ l : Lane,
        if fr.marks = true ∧ f.lanes[l.val].activeFor fr.start = true then
          ∃ m, (d.fe p).lanes[l.val].queue = f.lanes[l.val].queue ++ [.marker m] ∧ m.frame = fr.start ∧ m.idx = fr.idx
            ∧ m.cyc = fr.cyc ∧ m.dead = fr.deadUnits ∧ m.short = fr.short ∧ m.ovf = fr.ovf ∧ m.dtSat = fr.dtSat
        else (d.fe p).lanes[l.val] = f.lanes[l.val])
  ∧ ∀ (s : State) (p : Port) (fr : FeFrame),
    let f := s.dev.fe p
    f.runs = true → s.dev.inOrder p 3 = true →
    (f.frames.find? fun x =>
      x.ended && !x.closed && decide (x.stop + s.dev.ap p Reg.FE_FRAME_CLOSE ≤ s.dev.now + 1) && f.holds x) = some fr →
    (∀ rn ∈ f.held fr.start, rn.1 < 256) →
    Completes (.frameCloseDeadline p) s fun d =>
      (∀ c < 4096, ∀ h ∈ ((d.fe p).chan c).queue, f.hitPlace c h ≠ fr.start)
        ∧ (∀ r < 256, ∀ q ∈ ((d.fe p).region r).queue, q.hit = true → q.frame ≠ fr.start)
        ∧ (∀ c : Fin 16, ∀ q ∈ (d.fe p).columns[c.val], q.hit = true → q.frame ≠ fr.start)
        ∧ d.fget p Reg.FE_CLOSE_DL = min (s.dev.fget p Reg.FE_CLOSE_DL + 1) (2 ^ 32 - 1)
        ∧ (fr.hits = true → ∀ rn ∈ f.held fr.start,
          d.fget p Reg.FE_RG_CLOSE_LOSS rn.1 = min (s.dev.fget p Reg.FE_RG_CLOSE_LOSS rn.1 + rn.2) (2 ^ 64 - 1))

/-- R133 to R135, R188. A lane whose packet is closed by an event or by Packet Wait, and that holds a credit and has room
in its replay buffer, sends the records of one frame at the head of its queue as one packet, in order. -/
def Obligations.LanePacketsSend : Prop :=
  (∀ (s : State) (p : Port) (l : Lane),
    let ln := (s.dev.fe p).lanes[l.val]
    (s.dev.fe p).runs = true → ln.queue ≠ [] → ln.since + s.dev.ap p Reg.FE_PKT_WAIT ≤ s.dev.now →
    Completes (.packetWaitExpire p l) s fun d =>
      (d.fe p).lanes[l.val] = { ln with due := true })
  ∧ ∀ (s : State) (p : Port) (l : Lane) (i : LaneItem) (items : List LaneItem) (closed : Bool),
    let ln := (s.dev.fe p).lanes[l.val]
    (s.dev.fe p).runs = true → ln.queue.head? = some i → packetPrefix i.frame 128 ln.queue = (items, closed) →
    closed = true ∨ ln.due = true → s.dev.laneReady p l.val = true →
    Completes (.packetSend p l) s fun d =>
      let ln' := (d.fe p).lanes[l.val]
      ln'.queue = ln.queue.drop items.length ∧ ln'.sent = (ln.sent + 1) % 256 ∧ ln'.nextSeq = (ln.nextSeq + 1) % 4096
        ∧ (∀ x ∈ items, x.frame = i.frame) ∧ items.length ≤ 128
        ∧ ∃ rs : List Record, rs.length = items.length
          ∧ d.out = .packet p.val l.val ln.nextSeq 0 i.name.1 i.name.2 (.records rs) :: s.dev.out
          ∧ ln'.replay.map RPacket.payload = ln.replay.map RPacket.payload ++ [.records rs]

/-- R51, R120, R150, R151, R167. A queue whose duplicated pointers disagree is emptied; a reset of a hit or record queue is
counted, one of the snapshot queue adds the discarded samplers to their losses. An uncorrectable configuration word blocks its
region's outputs and is counted; a corrected one is counted. -/
def Obligations.FrontEndFaultsAreContained : Prop :=
  (∀ (s : State) (p : Port) (q : FeQueue), (s.dev.fe p).runs = true → s.dev.inOrder p 2 = true →
     Completes (.queuePointerMismatch p q) s fun d =>
       let f := d.fe p
       match q with
       | .channel c => (f.chan c.val).queue = [] ∧ d.fget p Reg.FE_QRST_CNT = min (s.dev.fget p Reg.FE_QRST_CNT + 1) (2 ^ 32 - 1)
       | .region r => (f.region r.val).queue = [] ∧ d.fget p Reg.FE_QRST_CNT = min (s.dev.fget p Reg.FE_QRST_CNT + 1) (2 ^ 32 - 1)
       | .column c => f.columns[c.val] = [] ∧ d.fget p Reg.FE_QRST_CNT = min (s.dev.fget p Reg.FE_QRST_CNT + 1) (2 ^ 32 - 1)
       | .lane l => laneRecords f.lanes[l.val].queue = []
         ∧ d.fget p Reg.FE_QRST_CNT = min (s.dev.fget p Reg.FE_QRST_CNT + 1) (2 ^ 32 - 1)
       | .record => ((∀ x ∈ (s.dev.fe p).records, x.hit = false) → f.records.length ≤ 1) ∧ d.fget p Reg.FE_QRST_CNT = min (s.dev.fget p Reg.FE_QRST_CNT + 1) (2 ^ 32 - 1)
       | .snapshot => f.snapQueue = []
         ∧ d.fget p Reg.FE_SNAP_QLOSS = min (s.dev.fget p Reg.FE_SNAP_QLOSS + (s.dev.fe p).snapQueue.length) (2 ^ 32 - 1))
  ∧ ((∀ (s : State) (p : Port) (r : RegionNo), (s.dev.fe p).runs = true →
     Completes (.configFault p r) s fun d =>
       ((d.fe p).region r.val).cfgFault = true ∧ ((d.fe p).region r.val).senses = false
         ∧ d.fget p Reg.FE_RG_CFG_FLT r.val = min (s.dev.fget p Reg.FE_RG_CFG_FLT r.val + 1) (2 ^ 32 - 1))
   ∧ ∀ (s : State) (p : Port) (r : RegionNo), (s.dev.fe p).runs = true →
     Completes (.configurationCorrection p r) s fun d =>
       d.fget p Reg.FE_RG_CFG_COR r.val = min (s.dev.fget p Reg.FE_RG_CFG_COR r.val + 1) (2 ^ 32 - 1))

/-- R143 to R145, R148. A region enters FLOOD when its guard is enabled and the condition is met, and leaves it after
FLOOD_QUIET slots without a leading edge, every channel that is high, but one in PULSE, in WAIT_LOW; the chip enters once more
than FLOOD_CHIP_N regions have been in FLOOD since an earlier slot, and leaves after FLOOD_QUIET slots with no more. Each entry counts an episode, and the state objects follow. -/
def Obligations.FloodGuardsEnterAndLeave : Prop :=
  let watched := fun (d : Dev) (p : Port) => (d.fe p).chipOver = decide (d.ap p Reg.FLOOD_CHIP_N < (d.fe p).floodCount)
  (∀ (s : State) (p : Port) (r : RegionNo), (s.dev.fe p).runs = true → ((s.dev.fe p).region r.val).flood = false →
    s.dev.ap p Reg.FE_RG_FLOOD_EN r.val ≠ 0 → s.dev.floodMet p r.val = true → s.dev.inOrder p 4 = true →
    Completes (.floodEnter p r) s fun d =>
      ((d.fe p).region r.val).flood = true ∧ ((d.fe p).region r.val).suppressed = 0 ∧ d.fget p Reg.FE_RG_FLOOD r.val = 1
        ∧ d.fget p Reg.FE_RG_FLOOD_CNT r.val = min (s.dev.fget p Reg.FE_RG_FLOOD_CNT r.val + 1) (2 ^ 32 - 1) ∧ watched d p)
  ∧ (∀ (s : State) (p : Port) (r : RegionNo),
    let g := (s.dev.fe p).region r.val
    g.flood = true → g.lastEdge + 1 + s.dev.ap p Reg.FLOOD_QUIET ≤ s.dev.now →
    g.floodFrom + s.dev.ap p Reg.FLOOD_QUIET ≤ s.dev.now → s.dev.inOrder p 4 = true →
    Completes (.floodExit p r) s fun d =>
      ((d.fe p).region r.val).flood = false ∧ d.fget p Reg.FE_RG_FLOOD r.val = 0 ∧ watched d p
        ∧ ∀ c ∈ channelsOf r.val, ((s.dev.fe p).chan c).high = true → ((s.dev.fe p).chan c).st ≠ .pulse →
          ((d.fe p).chan c).st = .waitLow)
  ∧ (∀ (s : State) (p : Port), (s.dev.fe p).runs = true → (s.dev.fe p).chipFlood = false →
    (s.dev.fe p).chipOver = true → (s.dev.fe p).chipSince < s.dev.now → s.dev.inOrder p 4 = true →
    Completes (.chipFloodEnter p) s fun d =>
      (d.fe p).chipFlood = true ∧ d.fget p Reg.FE_CHIP_FLOOD = 1
        ∧ d.fget p Reg.FE_CHIP_FLOOD_CNT = min (s.dev.fget p Reg.FE_CHIP_FLOOD_CNT + 1) (2 ^ 32 - 1))
  ∧ ∀ (s : State) (p : Port), (s.dev.fe p).chipFlood = true → (s.dev.fe p).chipOver = false →
    (s.dev.fe p).chipSince + s.dev.ap p Reg.FLOOD_QUIET ≤ s.dev.now → s.dev.inOrder p 4 = true →
    Completes (.chipFloodExit p) s fun d => (d.fe p).chipFlood = false ∧ d.fget p Reg.FE_CHIP_FLOOD = 0

/-- R118, R152, R156, R170, R220. A message with an acceptable alive counter is executed by the front end and counted as
accepted: the clears are scheduled, a forced snapshot names one freeze of all samplers in CALIBRATE, and the calibration
control begins its phases or makes every coefficient pair invalid. -/
def Obligations.FrontEndCommandMessages : Prop :=
  ∀ (s : State) (p : Port) (alive : BitVec 4),
    let f := s.dev.fe p
    f.hears = true → (∀ l, f.alive = some l → 1 ≤ (alive.toNat + 16 - l) % 16 ∧ (alive.toNat + 16 - l) % 16 ≤ 7) →
    let taken := fun (d : Dev) =>
      (d.fe p).alive = some alive.toNat ∧ d.fget p Reg.FE_CFG_ACC = (s.dev.fget p Reg.FE_CFG_ACC + 1) % 2 ^ 32
    let cal := s.dev.fget p Reg.FE_SNAP_CAL_STAT
    Completes (.timingCounterClear p alive [1]) s (fun d => taken d ∧ (d.fe p).clearTiming = some s.dev.now)
    ∧ Completes (.readoutCounterClear p alive [1]) s (fun d => taken d ∧ (d.fe p).clearReadout = some s.dev.now)
    ∧ Completes (.forceSnapshot p alive [1]) s (fun d => taken d ∧
        if f.mode = .calibrate ∧ cal ≠ 1 then
          (d.fe p).freezes = f.freezes ++ [{ inst := 40 * (s.dev.now + 2), source := 2, regions := 2 ^ 256 - 1, samplers := 15 }]
        else (d.fe p).freezes = f.freezes)
    ∧ Completes (.snapCalZero p alive) s (fun d => taken d ∧
        if f.mode = .calibrate ∧ cal ≠ 1 then d.fget p Reg.FE_SNAP_CAL_STAT = 1 ∧ (d.fe p).snapCal = 1
        else d.fget p Reg.FE_SNAP_CAL_STAT = cal)
    ∧ Completes (.snapCalFull p alive) s (fun d => taken d ∧
        if f.mode = .calibrate ∧ cal = 2 then d.fget p Reg.FE_SNAP_CAL_STAT = 1 ∧ (d.fe p).snapCal = 2
        else d.fget p Reg.FE_SNAP_CAL_STAT = cal)
    ∧ Completes (.snapCalCompute p alive) s (fun d => taken d ∧
        d.fget p Reg.FE_SNAP_CAL_STAT = if f.mode = .calibrate ∧ cal = 3 then 4 else cal)
    ∧ Completes (.snapCalClear p alive) s fun d => taken d ∧
        if f.mode = .calibrate ∧ cal ≠ 1 then d.fget p Reg.FE_SNAP_CAL_STAT = 0 ∧ (d.fe p).coefs = []
        else d.fget p Reg.FE_SNAP_CAL_STAT = cal ∧ (d.fe p).coefs = f.coefs

/-! ### Snapshots (chapter 6) -/

/-- R156 to R159. A pulse of a source region that has lasted PW_WIDTH ticks names one freeze instant; the triggers that
name the earliest instant reached form one event: an armed sampler they select freezes, any other counts a miss for each of
them, and the event number advances. -/
def Obligations.TriggersFreezeArmedSamplers : Prop :=
  (∀ (s : State) (p : Port) (c : ChanNo),
    let f := s.dev.fe p
    let w := s.dev.snapWord p (regionOf c.val)
    let edge := (f.chan c.val).edgeTick + s.dev.ap p Reg.SNAP_PW_WIDTH + 1
    f.runs = true → (f.chan c.val).high = true → (f.chan c.val).pwDone = false → bit w 30 = true →
    s.dev.masked p c.val = false → (f.region (regionOf c.val)).senses = true → edge ≤ 8 * s.dev.now + 7 →
    Completes (.pulseWidthTrigger p c) s fun d =>
      ((d.fe p).chan c.val).pwDone = true ∧ (d.fe p).freezes = f.freezes ++
        if s.dev.snapshotsIn p f.mode = true ∧ s.dev.fget p Reg.FE_SNAP_CAL_STAT ≠ 1 then
          [{ inst := 5 * (edge + 2) + s.dev.ap p Reg.SNAP_PW_DELAY, source := 1, samplers := 15
             regions := if bit w 29 then 2 ^ 256 - 1 else 2 ^ regionOf c.val }]
        else [])
  ∧ ∀ (s : State) (p : Port) (z : Freeze),
    let f := s.dev.fe p
    f.runs = true → s.dev.fget p Reg.FE_SNAP_CAL_STAT ≠ 1 → leastBy Freeze.inst f.freezes = some z →
    z.inst ≤ 40 * s.dev.now + 39 →
    Completes (.freezeEvent p) s fun d =>
      (d.fe p).freezes = f.freezes.filter (fun y => y.inst != z.inst) ∧ (d.fe p).eventNo = (f.eventNo + 1) % 256
        ∧ d.fget p Reg.FE_SNAP_EVENTS = min (s.dev.fget p Reg.FE_SNAP_EVENTS + 1) (2 ^ 32 - 1)
        ∧ ∀ r < 256, ∀ k < 4,
          let sm := f.sampler (r * 4 + k)
          let sm' := (d.fe p).sampler (r * 4 + k)
          let named := f.freezes.filter fun y => y.inst == z.inst && (s.dev.selects p y r).contains k
          if named ≠ [] then
            if f.canFreeze (r * 4 + k) z.inst then
              sm'.st = .frozen ∧ sm'.frozenAt = z.inst ∧ sm'.missed = 0
                ∧ ∃ i, sm'.info = some i ∧ i.event = f.eventNo ∧ i.inst = z.inst ∧ i.missed = sm.missed
                  ∧ i.valid = min 128 (z.inst + 1 - sm.armedAt)
            else sm'.st = sm.st ∧ sm'.missed = min (sm.missed + named.length) 255
          else sm' = sm

/-- R162 to R164, R166, R167, R170, R171. 112 slots after its freeze a sampler holds its raw codes; the column's bus takes the
oldest freeze while the queue has room, and 24 slots later the sampler is copied and re-arms when it is enabled; the head of the
snapshot queue leaves as one packet of the freeze frame. While a calibration phase runs its own freezes take every armed sampler;
the codes of such a freeze are added to the phase's sums, and the sampler re-arms 136 slots after the freeze. At the end of the
phase, its freezes done, the status becomes ZERO_DONE or FULL_DONE with the sums held; an uncorrectable coefficient word loses its gain and is counted. -/
def Obligations.SnapshotsConvertedSentAndCalibrated : Prop :=
  ((∀ (s : State) (p : Port) (e : Fin 1024) (codes : List (BitVec 12)),
     let sm := (s.dev.fe p).sampler e.val
     sm.st = .frozen → sm.forCal = false → sm.frozenAt + 40 * 112 ≤ 40 * s.dev.now + 39 →
     Completes (.snapshotConversionComplete p e codes) s fun d =>
       (d.fe p).sampler e.val = { sm with st := .converted, codes := codes.map BitVec.toNat })
   ∧ (∀ (s : State) (p : Port) (e : Fin 1024) (i : SnapInfo),
     let f := s.dev.fe p
     let sm := f.sampler e.val
     let waiting := f.samplers.filter fun x => x.1 / 4 % 16 == e.val / 4 % 16 && x.2.st == .converted
     f.runs = true → sm.info = some i → (leastBy (fun x => x.2.frozenAt * 1024 + x.1) waiting).map Prod.fst = some e.val →
     let ready := max (sm.frozenAt + 40 * 112) (f.busFree.toList.getD (e.val / 4 % 16) 0)
     f.snapQueue.length < 64 → ready ≤ 40 * s.dev.now + 39 →
     Completes (.snapshotBusGrant p e) s fun d =>
       let sm' := (d.fe p).sampler e.val
       let done := max ready (40 * s.dev.now) + 40 * 24
       (d.fe p).snapQueue = f.snapQueue ++ [f.snapItem e.val i (ceilDiv done 40)]
         ∧ sm'.st = (if bit (s.dev.snapWord p (e.val / 4)) (21 + e.val % 4) then .armed else .idle)
         ∧ (d.fe p).busFree.toList.getD (e.val / 4 % 16) 0 = done ∧ sm'.armedAt = done
         ∧ sm'.deadSlots = min (ceilDiv (done - sm.frozenAt) 40) 65535)
   ∧ ∀ (s : State) (p : Port) (l : Lane) (i : SnapItem) (rest : List SnapItem),
     let f := s.dev.fe p
     let ln := f.lanes[l.val]
     f.runs = true → f.snapQueue = i :: rest → f.snapLane s.dev.now = some l → i.ready ≤ s.dev.now →
     ln.queue = [] ∨ s.dev.ap p Reg.SNAP_SHARE ≤ ln.sinceSnap + 1 → s.dev.laneReady p l.val = true →
     s.dev.fget p Reg.FE_SNAP_CAL_STAT ≠ 1 →
     Completes (.snapshotPacketSend p) s fun d =>
       (d.fe p).snapQueue = rest ∧ (d.fe p).lanes[l.val].queue = ln.queue
         ∧ d.out = .packet p.val l.val ln.nextSeq 1 i.frameIdx i.cycLo
           (.snapshot (BitVec.ofNat 128 i.descriptor) (i.samples.map (BitVec.ofNat 12))) :: s.dev.out)
  ∧ ((∀ (s : State) (p : Port),
     let f := s.dev.fe p
     f.runs = true → s.dev.fget p Reg.FE_SNAP_CAL_STAT = 1 → 0 < f.calLeft → f.calNext ≤ s.dev.now →
     (∀ z ∈ f.freezes, 40 * f.calNext ≤ z.inst) →
     Completes (.freezeEvent p) s fun d =>
       (d.fe p).calLeft = f.calLeft - 1 ∧ (d.fe p).calNext = f.calNext + 160 ∧ (d.fe p).freezes = f.freezes
         ∧ ∀ e < 1024, f.canFreeze e (40 * f.calNext) = true →
           ((d.fe p).sampler e).st = .frozen ∧ ((d.fe p).sampler e).frozenAt = 40 * f.calNext ∧ ((d.fe p).sampler e).forCal = true)
   ∧ (∀ (s : State) (p : Port) (e : Fin 1024) (codes : List (BitVec 12)),
     let f := s.dev.fe p
     let sm := f.sampler e.val
     let sums := fun (f : FrontEnd) (k : Nat) => tblRead (fun _ => 0) (if f.snapCal = 1 then f.zeroSums else f.fullSums) k
     sm.st = .frozen → sm.forCal = true → sm.frozenAt + 40 * 112 ≤ 40 * s.dev.now + 39 →
     Completes (.snapshotConversionComplete p e codes) s fun d =>
       (d.fe p).snapCal = f.snapCal ∧ ((d.fe p).sampler e.val).armedAt = sm.frozenAt + 40 * 136
         ∧ ((d.fe p).sampler e.val).st = (if bit (s.dev.snapWord p (e.val / 4)) (21 + e.val % 4) then .armed else .idle)
         ∧ ∀ j < codes.length, sums (d.fe p) (e.val * 128 + j) = sums f (e.val * 128 + j) + (codes.getD j 0).toNat)
   ∧ (∀ (s : State) (p : Port),
     let f := s.dev.fe p
     f.runs = true → s.dev.fget p Reg.FE_SNAP_CAL_STAT = 1 → f.calDoneAt ≤ s.dev.now → f.calLeft = 0 →
     (∀ x ∈ f.samplers, x.2.forCal = true → x.2.st ≠ .frozen) →
     Completes (.snapCalPhaseDone p) s fun d =>
       d.fget p Reg.FE_SNAP_CAL_STAT = (if f.snapCal = 1 then 2 else 3) ∧ (d.fe p).zeroSums = f.zeroSums
         ∧ (d.fe p).fullSums = f.fullSums)
   ∧ ∀ (s : State) (p : Port) (e : Fin 1024) (cell : BitVec 7), (s.dev.fe p).runs = true →
     Completes (.coefficientWordError p e cell) s fun d =>
       let read := fun (d : Dev) => tblRead (fun _ => 0) (d.fe p).coefs (e.val * 128 + cell.toNat)
       read d % 65536 = 0 ∧ read d / 65536 = read s.dev / 65536
         ∧ d.fget p Reg.FE_RG_CFG_FLT (e.val / 4) = min (s.dev.fget p Reg.FE_RG_CFG_FLT (e.val / 4) + 1) (2 ^ 32 - 1))

/-- R161, R166, R169. Sample j of a copied sampler comes from cell (STOP_CELL + 1 + j) mod 128. It is the raw code where RAW is
set or the cell's gain is 0, which has no valid pair and sets CAL_FAULT; else the code corrected by the cell's zero and gain,
rounded with halves upward, clipped to 0 to 4,095 and then counted in OVER. Samples before the valid ones are 0. -/
def Obligations.SnapshotSamplesAreCorrected : Prop :=
  ∀ (f : FrontEnd) (e : Nat) (i : SnapInfo) (t : Nat),
    let sm := f.sampler e
    let cell := fun (j : Nat) => (sm.stopCell + 1 + j) % 128
    let pair := fun (j : Nat) => tblRead (fun _ => 0) f.coefs (e * 128 + cell j)
    let gain := fun (j : Nat) => pair j % 65536
    let raw := fun (j : Nat) => sm.codes.getD (cell j) 0
    let v := fun (j : Nat) => 256 + roundHalfUp (((raw j : Int) * 16 - ((pair j / 65536 : Nat) : Int)) * (gain j : Int)) 262144
    let valid := fun (j : Nat) => decide (128 ≤ j + i.valid)
    let corrected := fun (j : Nat) => valid j && !i.raw && gain j != 0
    let x := f.snapItem e i t
    x.samples.length = 128
      ∧ (∀ j < 128, x.samples[j]? = some (if valid j = false then 0 else if corrected j = false then raw j
          else if v j < 0 then 0 else if 4095 < v j then 4095 else (v j).toNat))
      ∧ bit x.descriptor 41 = (List.range 128).any (fun j => valid j && gain j == 0)
      ∧ field x.descriptor 16 9
        = min 255 ((List.range 128).filter fun j => corrected j && (decide (v j < 0) || decide (4095 < v j))).length

/-! ### Links (chapter 7) -/

/-- R180 to R183, R185 to R187, R207. The line code reads back: the descrambler undoes the scrambler, the receiver removes the
stuffing without an error, and a block that a lane sends, scrambled or as a pattern test leaves it (R222), is the block its receiver
reads at the same place of the superblock. The
blocks of a packet, with blocks that may stand inside it between them, are read as that packet, with its bytes. -/
def Obligations.LineCodeReadsBack : Prop :=
  (∀ (bs : List Bool) (k : Nat), (scramble (scramble bs k).1 k).1 = bs ∧ (scramble bs k).2 = scrAfter bs.length k)
  ∧ (∀ (bs : List Bool) (last : Bool) (run : Nat), run < 24 → unstuff (stuff bs last run).1 bs.length last run = some (bs, false))
  ∧ (∀ (key : Nat) (plain : Bool) (tx : Tx) (b : Block) (at_ : LinePlace),
    tx.count = at_.index.val → tx.count ≠ 0 → tx.run = at_.run.val → tx.last = at_.last → tx.run < 24 →
    tx.scr = scrAfter (128 * (tx.count - 1)) (laneSeed key) →
    ∃ line, (tx.block key plain b).line = tx.line ++ line ∧ readBlock key plain at_ line = some (b, false)
      ∧ (tx.block key plain b).scr = scrAfter (128 * tx.count) (laneSeed key)
      ∧ (tx.block key plain b).count = (tx.count + 1) % 1024)
  ∧ ∀ (kind lane seq frame cyc : Nat) (bs : Bytes) (between more : List Block),
    kind < 4 → lane < 8 → seq < 4096 → frame < 4096 → cyc < 256 → bs ≠ [] → bs.length ≤ 1008 →
    (∀ b ∈ between, isCtl b = true ∧ blockType b ∈ insertable) →
    ∃ sop rest, packetBlocks kind lane seq frame cyc bs = sop :: rest
      ∧ readPacket (sop :: (between ++ rest ++ more))
        = some { kind := kind, lane := lane, seq := seq, frame := frame, cyc := cyc, bytes := some bs }

/-- R184, R203, R204, R213, R216, R483. 64 valid headers in a row give a receiver lock; a front end leaves low-power reset by it,
and a burst on an ABSENT downlink begins a new run. 16 bad blocks of 64 take lock and UP away, and a data lane that lost lock more
than Lane Fail Count times in 1 s is failed. Attempts start at the wanted downlink with the lanes of the Lane Map, at most eight a
run; a lane is ready after 64 blocks in a row that report lock at both ends, in time. At the end of the eighth attempt of a
primary never UP the run has failed: ABSENT, or QUARANTINED after eight runs. -/
def Obligations.LinksLockTrainAndFail : Prop :=
  (∀ (s : State) (p : Port) (l : PhysLane) (headers : List (BitVec 2)), headers.length = 64 → headers.all headerOk = true →
    Completes (.blockLockAcquire p (.up l) headers) s fun d =>
      if s.dev.get Reg.WP_STATE p.val ∈ [0, 4, 5, 6] then d = s.dev
      else ((d.port p).ul l.val).lock = true ∧ ((d.port p).ul l.val).lockAt = s.dev.now ∧ ((d.port p).ul l.val).cleanFrom = s.dev.now
        ∧ ∃ x ∈ d.out.head?, match x with
          | .train q _ _ upLock _ => q = p.val ∧ bit upLock l.val = true
          | _ => False)
  ∧ (∀ (s : State) (p : Port) (dl : Fin 2) (headers : List (BitVec 2)), headers.length = 64 → headers.all headerOk = true →
    (s.dev.fe p).power ≠ .powerOn →
    Completes (.blockLockAcquire p (.down dl) headers) s fun d =>
      if s.dev.get Reg.WP_STATE p.val ∈ [0, 5, 6] ∨ (((s.dev.port p).dl dl.val).absent = true ∧ s.dev.inBurst p = false) then d = s.dev
      else (d.fe p).power = .running ∧ (d.fe p).dlLock[dl.val] = true ∧ ((d.port p).dl dl.val).lock = true
        ∧ (((s.dev.port p).dl dl.val).absent = true → ((d.port p).dl dl.val).training = true ∧ ((d.port p).dl dl.val).attempt = 1
          ∧ ((d.port p).dl dl.val).absent = false))
  ∧ (∀ (s : State) (p : Port) (l : PhysLane) (window : List (Option (BitVec 2))),
    let u := (s.dev.port p).ul l.val
    let losses := 1 + (u.losses.filter fun t => decide (s.dev.now < t + s.dev.ms 1000)).length
    u.lock = true → window.length = 64 → 16 ≤ (window.filter badHeader).length →
    Completes (.blockLockLoss p (.up l) window) s fun d =>
      let u' := (d.port p).ul l.val
      u'.lock = false ∧ u'.up = false ∧ u'.losses.length = losses ∧ (u.up = true → u'.training = true ∧ u'.attempt = 1)
        ∧ (s.dev.get Reg.WL_LANE_FAIL < losses → u.failed = false → (logicalOn (s.dev.laneMap p) l.val).isSome = true →
          u'.failed = true ∧ bit (d.port p).failedMask l.val = true))
  ∧ (∀ (s : State) (p : Port) (dl : Fin 2) (window : List (Option (BitVec 2))),
    (s.dev.fe p).dlLock[dl.val] = true → window.length = 64 → 16 ≤ (window.filter badHeader).length →
    Completes (.blockLockLoss p (.down dl) window) s fun d =>
      (d.fe p).dlLock[dl.val] = false ∧ ((d.port p).dl dl.val).up = false
        ∧ ((s.dev.fe p).activeDl = dl.val → (d.fe p).dlLostAt = some s.dev.now))
  ∧ (∀ (s : State) (p : Port) (l : PhysLane) (locked : Bool) (lock : BitVec 5) (attempt : BitVec 8),
    let c := s.dev.port p
    let u := c.ul l.val
    let t := c.dl c.trainDl
    let n := if locked = true ∧ lock.getLsbD 0 = true then u.reports + 1 else 0
    u.lock = true → u.training = true → u.ready = false →
    Completes (.trainReceive p (.up l) locked lock attempt) s fun d =>
      ((d.port p).ul l.val).reports = min n 64
        ∧ (((d.port p).ul l.val).ready = true ↔ 64 ≤ n ∧ s.dev.now ≤ u.attemptAt + s.dev.us 1500
          ∧ (t.up = true ∨ (t.lock = true ∧ t.lockAt ≤ t.attemptAt + s.dev.ms 1))))
  ∧ (∀ (s : State) (p : Port) (dl : Fin 2) (locked : Bool) (lock : BitVec 5) (attempt : BitVec 8),
    let f := s.dev.fe p
    f.runs = true → f.dlLock[dl.val] = true →
    Completes (.trainReceive p (.down dl) locked lock attempt) s fun d =>
      ∀ n < 5, (logicalOn f.laneMap n).isSome = true → ((s.dev.port p).ul n).up = false →
        .trainUp p.val n true (f.dlLock.toList.getD f.activeDl false) attempt.toNat ∈ d.out)
  ∧ (∀ (s : State) (p : Port) (dl : Fin 2),
    let c := s.dev.port p
    let l := c.dl dl.val
    s.dev.get Reg.WP_EN p.val ≠ 0 → s.dev.get Reg.WP_STATE p.val = 1 → c.trainDl = dl.val →
    l.training = false → l.up = false → l.absent = false → l.attempt < 8 →
    Completes (.trainingAttemptStart p dl) s fun d =>
      let l' := (d.port p).dl dl.val
      l'.training = true ∧ l'.attempt = l.attempt + 1 ∧ l'.attemptAt = s.dev.now ∧ (d.port p).trainMeas = 0 ∧ (d.port p).rtts = []
        ∧ (∀ n ∈ s.dev.mapped p, ((d.port p).ul n).training = true ∧ ((d.port p).ul n).attempt = l.attempt + 1
          ∧ ((d.port p).ul n).ready = false)
        ∧ ∃ x ∈ d.out.head?, match x with
          | .train q k _ _ attempt => q = p.val ∧ k = dl.val ∧ attempt = l.attempt + 1
          | _ => False)
  ∧ ∀ (s : State) (p : Port),
    let c := s.dev.port p
    let ended := fun (l : LinkState) => l.training = true ∧ l.up = false ∧ l.attemptAt + s.dev.ms 2 ≤ s.dev.now
    c.everUp = false → c.trainDl = 0 → ended (c.dl 0) → (c.dl 0).attempt = 8 → ¬ ended (c.dl 1) →
    Completes (.trainingAttemptTimeout p) s fun d =>
      let runs := s.dev.get Reg.WP_RUN_FAIL p.val + 1
      ((d.port p).dl 0).absent = true ∧ d.get Reg.WP_RUN_FAIL p.val = min runs 8
        ∧ d.get Reg.WP_STATE p.val = (if 8 ≤ runs then 5 else 4)
        ∧ ∀ n < 5, ((d.port p).ul n).training = false ∧ ((d.port p).ul n).ready = (((c.ul n).ready && !(c.ul n).training) && decide (runs < 8))

/-- R204, R205, R207, R213. A SYNC from the concentrator resumes the logical lanes of its physical lane and is answered,
and a waiting spare takes its logical lane; one from the front end brings the lane and the trained downlink UP, once that has its
delay, and a lane reset there starts its credits afresh. A LANEMAP takes effect from its frame. A BEACON has the requested lanes
trained and a failed lane's logical lane inactive, and is repeated every 100 ms. -/
def Obligations.SyncBringsLanesUp : Prop :=
  (∀ (s : State) (p : Port) (dl : Fin 2) (phys : PhysLane) (lanes : List LaneStat),
    let f := s.dev.fe p
    f.runs = true → f.dlLock[dl.val] = true →
    Completes (.syncReceive p (.down dl phys lanes)) s fun d =>
      let f' := d.fe p
      f'.dlLostAt = none ∧ f'.activeDl = dl.val ∧ f'.ulTrain[phys.val] = none
        ∧ (∀ x ∈ f.spareFor, x.2 = phys.val → mapOf f'.laneMap x.1 = phys.val ∧ f'.spareFor = none)
        ∧ (∃ x ∈ d.out, match x with
          | .syncUp q n _ => q = p.val ∧ n = phys.val
          | _ => False)
        ∧ ∀ l : Lane, ∀ x ∈ lanes[l.val]?, mapOf f'.laneMap l.val = phys.val →
          f'.lanes[l.val].credit = x.credit.toNat ∧ f'.lanes[l.val].resetSeen = false)
  ∧ (∀ (s : State) (p : Port) (phys : PhysLane) (lanes : List LaneSync),
    let c := s.dev.port p
    let m := s.dev.laneMap p
    (c.ul phys.val).ready = true → c.trainDl < 2 → (c.dl c.trainDl).up = true ∨ 8 ≤ c.trainMeas →
    Completes (.syncReceive p (.up phys lanes)) s fun d =>
      let c' := d.port p
      (c'.ul phys.val).up = ((logicalOn m phys.val).isSome || (c.spareFor.isSome && phys.val == c.spareLane))
        ∧ (c'.ul phys.val).failed = false ∧ (c'.dl c.trainDl).up = true ∧ c'.activeDl = c.trainDl ∧ c'.dlGapFrom = none
        ∧ bit c'.failedMask phys.val = false ∧ bit c'.request phys.val = false
        ∧ ∀ l : Lane, ∀ x ∈ lanes[l.val]?, mapOf m l.val = phys.val → x.reset = true →
          c'.lanes[l.val].credit = x.sent.toNat ∧ c'.lanes[l.val].received = x.sent.toNat)
  ∧ (∀ (s : State) (p : Port) (l : Lane) (phys : BitVec 3) (frame : BitVec 12),
    let first := if s.dev.slot / 256 < frame.toNat ∧ 256 * frame.toNat < s.dev.grid.len then s.dev.grid.cycleStart + 256 * frame.toNat
      else s.dev.cycleEnd + 256 * frame.toNat
    Completes (.lanemapReceive p l phys frame) s fun d =>
      if mapOf (s.dev.laneMap p) l.val = phys.toNat then d = s.dev
      else d.laneMap p = setMap (s.dev.laneMap p) l.val phys.toNat % 2 ^ 16 ∧ (d.port p).changes = (s.dev.port p).changes ++
        [{ lane := l.val, phys := phys.toNat, frame := frame.toNat, from_ := first }])
  ∧ (∀ (s : State) (p : Port) (request failed : BitVec 5) (dl : Fin 2), (s.dev.fe p).runs = true →
    (s.dev.fe p).dlLock[dl.val] = true →
    Completes (.beaconReceive p request failed) s fun d =>
      (∀ n < 5, bit request.toNat n = true → ((s.dev.port p).ul n).up = false → s.dev.feTrains p n = false →
        ∃ x ∈ d.out, match x with
          | .trainUp q k locked _ attempt => q = p.val ∧ k = n ∧ locked = true
            ∧ attempt = (s.dev.fe p).ulAttempt.toList.getD n 0 % 8 + 1
          | _ => False)
        ∧ ∀ n < 5, ∀ l ∈ logicalOn (s.dev.fe p).laneMap n, bit failed.toNat n = true → mapOf (d.fe p).laneMap l = 7)
  ∧ ∀ (s : State) (p : Port),
    let c := s.dev.port p
    s.dev.get Reg.WP_EN p.val ≠ 0 → c.beaconAt + s.dev.ms 100 ≤ s.dev.now →
    s.dev.get Reg.WP_STATE p.val ∈ [1, 2, 3, 4] →
    Completes (.beaconBurst p) s fun d =>
      (∀ n < 2, (c.dl n).absent = true → (d.port p).beaconAt = s.dev.now ∧ (d.port p).burstAt = some s.dev.now
          ∧ .beacon p.val n c.request c.failedMask true ∈ d.out)
        ∧ (s.dev.portUp p = true → c.request ≠ 0 →
          if s.dev.linkFree p .beacon = true then
            (d.port p).beaconAt = s.dev.now ∧ .beacon p.val c.activeDl c.request c.failedMask false ∈ d.out
          else (d.port p).beaconOwed = true)

/-- R186, R187, R189, R191, R192, R542. A packet that fails its checks is counted and asked for again, at most once in 64 slots;
the expected one is accepted; one up to 2,048 ahead is asked for again; an earlier one is dropped and acknowledged again. A lane
with fewer than 128 credits out is granted one when its stall allows it, and what is owed leaves in a LINKSTAT. -/
def Obligations.PacketsAcceptedInOrder : Prop :=
  (∀ (s : State) (p : Port) (l : Lane) (blocks : List Block) (k : PacketIn),
    let c := s.dev.port p
    let ln := c.lanes[l.val]
    let delta := (k.seq + 4096 - ln.expected % 4096) % 4096
    let spaced : Bool := match ln.lastNak with | some t => decide (t + 64 ≤ s.dev.now) | none => true
    readPacket blocks = some k → k.lane = l.val → (c.ul (mapOf (s.dev.laneMap p) l.val)).up = true →
    Completes (.packetReceive p blocks) s fun d =>
      let ln' := (d.port p).lanes[l.val]
      if k.bytes = none ∨ (1 ≤ delta ∧ delta ≤ 2048) then
        (if spaced = true ∧ s.dev.linkFree p .nak = true then
            .nak p.val l.val ln.expected ∈ d.out ∧ ln'.nakOwed = false ∧ ln'.lastNak = some s.dev.now
          else d.out = s.dev.out ∧ ln'.lastNak = ln.lastNak ∧ (spaced = true → ln'.nakOwed = true))
          ∧ ln'.expected = ln.expected ∧ ln'.ackValid = ln.ackValid ∧ ln'.received = ln.received
          ∧ d.get Reg.WP_CRC_ERR p.val = if k.bytes = none then min (s.dev.get Reg.WP_CRC_ERR p.val + 1) (2 ^ 32 - 1)
            else s.dev.get Reg.WP_CRC_ERR p.val
      else if delta = 0 then
        ln'.expected = (ln.expected + 1) % 4096 ∧ ln'.ackValid = true ∧ ln'.statOwed = true
          ∧ ln'.received = (if k.kind = 0 ∨ k.kind = 1 then (ln.received + 1) % 256 else ln.received)
          ∧ ∀ bytes ∈ k.bytes, ∀ ds xs, payloadOf k.kind bytes = .snapshot ds xs → d.merge.ringIn = s.dev.merge.ringIn ++
            [{ port := p.val, frame := k.frame, cycLo := k.cyc, descriptor := ds, samples := xs }]
      else ln' = { ln with statOwed := true } ∧ d.merge = s.dev.merge)
  ∧ (∀ (s : State) (p : Port) (l : Lane),
    let c := s.dev.port p
    let ln := c.lanes[l.val]
    s.dev.portUp p = true → (c.ul (mapOf (s.dev.laneMap p) l.val)).up = true → ln.outstanding < 128 → s.dev.creditOk p = true →
    Completes (.creditGrant p l) s fun d =>
      (d.port p).lanes[l.val] = { ln with credit := (ln.credit + 1) % 256, statOwed := true })
  ∧ ∀ (s : State) (p : Port), s.dev.portUp p = true →
    ((∃ l : Lane, (s.dev.port p).lanes[l.val].statOwed = true) ∧ s.dev.linkFree p .stat = true) ∨ s.dev.statOverdue p = true →
    Completes (.linkstatSend p) s fun d =>
      (.linkstat p.val (s.dev.syncLanes p) :: s.dev.out) <:+ d.out ∧ (d.port p).linkstatAt = s.dev.now
        ∧ ∀ l : Lane, (d.port p).lanes[l.val].statOwed = false

/-- R188, R191 to R194, R214. A LINKSTAT frees each lane's packets up to the acknowledged one and gives its credits. A NAK, or no
acknowledgement within ACK Timeout, has the outstanding packets from the named one sent again in order, each counted; a packet
that would need a sixth transmission makes the physical lane leave UP and train instead. On a lane that cannot send they wait. -/
def Obligations.ReplayUntilAcknowledged : Prop :=
  let replayed := fun (s : State) (p : Port) (l : Lane) (i : Nat) (d : Dev) =>
    let ln := (s.dev.fe p).lanes[l.val]
    let again := ln.replay.drop i
    let phys := mapOf (s.dev.fe p).laneMap l.val
    if s.dev.laneOpen p l = false then d = s.dev
    else if ∃ k ∈ again, 5 ≤ k.tx then
      ((d.port p).ul phys).up = false ∧ ((d.port p).ul phys).training = true ∧ ((d.port p).ul phys).attempt = 1
        ∧ (d.fe p).lanes[l.val].replay = ln.replay
    else
      (d.fe p).lanes[l.val].replay = ln.replay.take i ++ again.map (fun k => { k with tx := k.tx + 1, lastTx := s.dev.now })
        ∧ d.out = (again.map fun k => .packet p.val l.val k.seq k.kind k.frameIdx k.cycLo k.payload).reverse ++ s.dev.out
        ∧ d.get Reg.WP_REPLAYS p.val = min (s.dev.get Reg.WP_REPLAYS p.val + again.length) (2 ^ 32 - 1)
  (∀ (s : State) (p : Port) (lanes : List LaneStat), (s.dev.fe p).hears = true →
    Completes (.linkstatReceive p lanes) s fun d =>
      ∀ l : Lane, ∀ x ∈ lanes[l.val]?,
        let ln := (s.dev.fe p).lanes[l.val]
        let ln' := (d.fe p).lanes[l.val]
        let kept := match if x.ackValid then ln.placeOf x.ackSeq.toNat else none with
          | some i => ln.replay.drop (i + 1)
          | none => ln.replay
        ln'.credit = x.credit.toNat ∧ ln'.replay.take kept.length = kept ∧ (1 ≤ l.val → ln'.replay = kept)
          ∧ ln'.creditErrors = ln.creditErrors + if 128 < (x.credit.toNat + 256 - ln.sent) % 256 then 1 else 0)
  ∧ (∀ (s : State) (p : Port) (l : Lane) (seq : BitVec 12) (i : Nat), (s.dev.fe p).hears = true →
    (s.dev.fe p).lanes[l.val].placeOf seq.toNat = some i →
    Completes (.nakReceive p l seq) s (replayed s p l i))
  ∧ ∀ (s : State) (p : Port) (l : Lane) (k : RPacket) (rest : List RPacket),
    (s.dev.fe p).lanes[l.val].replay = k :: rest → k.lastTx + s.dev.toldOf p Reg.WL_ACK_TIMEOUT ≤ s.dev.now →
    Completes (.ackTimeout p l) s (replayed s p l 0)

/-- R208 to R211, R217. A delay request leaves with its stamp, the calibrated TDC less the path delays, is answered with two, and
its answer gives a round trip; D is half the mean of round trips plus asymmetries over the filter, halves upward; the eighth
measurement of a training loads the grid with D rounded to half ticks, and that of a standby downlink brings it UP. A TIME_SET
places the front end's cycle, half ticks included. The asymmetry is half the difference of two reflection times, limited to
±5,120 (rounding and limit: the model's choice, log entry 129). -/
def Obligations.DelayMeasuredAndGridLoaded : Prop :=
  (∀ (s : State) (p : Port) (t1 : TdcStamp) (dl : Nat),
    let c := s.dev.port p
    let id := (c.reqId + 1) % 256
    let stamp := stampAt s.dev.grid.len s.dev.slot t1 (Config.pathDelay p.val 0)
    s.dev.probeDue p = some dl → dl ≠ c.activeDl ∨ s.dev.linkFree p .delayReq = true →
    Completes (.delayProbeSend p t1) s fun d =>
      (.delayReq p.val dl id stamp :: s.dev.out) <:+ d.out ∧ (d.port p).probe = some { dl := dl, id := id, at_ := s.dev.now, t1 := stamp }
        ∧ (d.port p).probeAt = s.dev.now)
  ∧ (∀ (s : State) (p : Port) (id : BitVec 8) (t2 t3 : TdcStamp) (wait : BitVec 10) (dl : Fin 2),
    let f := s.dev.fe p
    f.runs = true → f.dlLock[dl.val] = true →
    Completes (.delayReqReceive p id t2 wait t3) s fun d =>
      d.out = .delayResp p.val id.toNat (stampAt f.cycleLen (s.dev.feSlot p) t2 (-(Config.pathDelay p.val 3 : Int)))
        (stampAt f.cycleLen (s.dev.feSlot p + wait.toNat) t3 (Config.pathDelay p.val 2)) :: s.dev.out)
  ∧ (∀ (s : State) (p : Port) (id : BitVec 8) (t2 t3 : BitVec 32) (t4 : TdcStamp) (k : Probe),
    let c := s.dev.port p
    let len : Int := s.dev.grid.len * 4096
    let arrived := stampAt s.dev.grid.len s.dev.slot t4 (-(Config.pathDelay p.val 1 : Int))
    let rtt := (((arrived : Int) - k.t1) - ((t3.toNat : Int) - t2.toNat)) % len
    let add := fun (ms : List (Nat × Int)) => ((rtt.toNat, s.dev.getI Reg.WP_ASYM p.val) :: ms).take (2 ^ s.dev.get Reg.WL_DLY_FILT)
    let ms := add c.rtts
    let total := (ms.map fun m => (m.1 : Int) + m.2).sum
    c.probe = some k → k.id = id.toNat → s.dev.now ≤ k.at_ + 1024 →
    Completes (.delayRespReceive p id t2 t3 t4) s fun d =>
      let c' := d.port p
      c'.probe = none ∧
      if k.dl = c.trainDl then
        c'.rtts = ms ∧ c'.filtD = (total + ms.length) / (2 * ms.length) ∧ d.get Reg.WP_DL_DELAY p.val = c'.filtD.toNat % 2 ^ 32
          ∧ ((c.dl c.trainDl).up = false → c.trainMeas = 7 →
            c'.gridQ = 256 * ((c'.filtD + 128) / 256) ∧ d.getI Reg.WP_DCORR p.val = sgn 16 (unsgn 16 (c'.filtD - c'.gridQ))
              ∧ ∃ lanes, d.out.head? = some (.sync p.val c.trainDl lanes))
      else c'.otherRtts = add c.otherRtts ∧ c'.rtts = c.rtts ∧ (c.otherMeas = 7 → k.dl < 2 → (c'.dl k.dl).up = true))
  ∧ (∀ (s : State) (p : Port) (dl : Fin 2) (cyc : BitVec 8) (slot : BitVec 20) (tick : Fin 8) (half : Bool) (fine : Fin 4096),
    (s.dev.fe p).runs = true → (s.dev.fe p).dlLock[dl.val] = true →
    Completes (.timeSetReceive p dl cyc slot tick half fine) s fun d =>
      let f := d.fe p
      f.gridSet = true ∧ f.cycLo = cyc.toNat ∧ f.cycleStart = s.dev.now - slot.toNat ∧ f.activeDl = dl.val
        ∧ f.tickPhase = (512 * (tick.val : Int) + 256 * half.toNat - fine.val + 128) / 256
        ∧ f.cycleLen = s.dev.fget p Reg.FE_CYCLE_LEN)
  ∧ ∀ (s : State) (w : Writer) (e : BitVec 16) (val : Bytes) (pairs : List (Reflection × Reflection)),
    s.dev.Admits w Reg.WP_DLY_CAL e.toNat val →
    Completes (.linkDelayCalibration w e val pairs) s fun d =>
      if s.dev.mode ≠ .calibrate then d.Answered w .wrongMode ∧ ∀ q < 32, d.get Reg.WP_ASYM q = s.dev.get Reg.WP_ASYM q
      else d.Answered w .accepted ∧ ∀ q < 32, e.toNat = 0xFFFF ∨ q = e.toNat →
        ∀ x ∈ pairs[if e.toNat = 0xFFFF then q else 0]?,
          d.getI Reg.WP_ASYM q = max (-5120) (min 5120 ((reflectTime x.1 - reflectTime x.2 + 1) / 2))

/-- R206, R213, R216 to R218. 20 ms without lock put a front end into low-power reset. A port returns to its primary after
10 s without an error, and goes over to the other downlink once that is UP, at a cycle boundary that a TIME_SET on the other
downlink targets. Forced swaps need a free spare and a mapped lane, or train the other downlink; a QUARANTINED port is released
into a new run. -/
def Obligations.DownlinksFailOverAndReturn : Prop :=
  let swaps := fun (s : State) (p : Port) (notBefore : Nat) (d : Dev) =>
    let c := s.dev.port p
    let delay := 256 * roundHalfUp (meanDelay c.otherRtts) 256
    let lead := ceilDiv delay.toNat 4096
    let n := s.dev.boundaryAfter (max notBefore (s.dev.now + lead))
    let to_ := s.dev.startOf (s.dev.cyclePlus n)
    match c.swapSent.filter fun t => decide (s.dev.now ≤ t) with
    | some t =>
      if t = s.dev.now ∧ t = s.dev.grid.cycleStart then
        (d.port p).activeDl = 1 - c.activeDl ∧ (d.port p).trainDl = 1 - c.activeDl ∧ (d.port p).dlSwapAt = none
          ∧ ((d.port p).dl c.activeDl).up = false ∧ (d.port p).rtts = c.otherRtts ∧ (d.port p).gridQ = delay
      else d = s.dev
    | none =>
      if s.dev.now + lead < to_ then d = s.dev
      else (d.port p).swapSent = some to_ ∧ (d.port p).activeDl = c.activeDl
        ∧ d.out.head? = some (.timeSet p.val (1 - c.activeDl) (s.dev.cyclePlus n % 256) 0 0 0)
  (∀ (s : State) (p : Port) (t : Nat), (s.dev.fe p).dlLostAt = some t → (s.dev.fe p).runs = true →
    (∀ dl : Fin 2, (s.dev.fe p).dlLock[dl.val] = false) → t + s.dev.ms 20 ≤ s.dev.now →
    Completes (.downlinkLossTimeout p) s fun d => (d.fe p).power = .lowPower ∧ (d.fe p).regions = [])
  ∧ (∀ (s : State) (p : Port), (s.dev.port p).activeDl = 1 → ((s.dev.port p).dl 0).up = true →
    ((s.dev.port p).dl 0).cleanFrom + s.dev.ms 10000 ≤ s.dev.now →
    Completes (.primaryReturn p) s (swaps s p (((s.dev.port p).dl 0).cleanFrom + s.dev.ms 10000)))
  ∧ (∀ (s : State) (p : Port) (t : Nat), (s.dev.port p).dlSwapAt = some t → (s.dev.port p).activeDl < 2 →
    ((s.dev.port p).dl (1 - (s.dev.port p).activeDl)).up = true →
    Completes (.downlinkSwapApply p) s (swaps s p t))
  ∧ (∀ (s : State) (w : Writer) (p : Port) (val : Bytes), s.dev.Admits w Reg.WP_DL_SWAP p.val val →
    let o := 1 - (s.dev.port p).activeDl
    let l := (s.dev.port p).dl o
    Completes (.forceDownlinkSwap w (BitVec.ofNat 16 p.val) val) s fun d =>
      d.Answered w .accepted ∧ (d.port p).dlSwapWanted = true
        ∧ (d.port p).dlSwapAt = (if l.up then some (s.dev.now + 4096) else none)
        ∧ (l.up = false → l.training = false → ((d.port p).dl o).powered = true ∧ ((d.port p).dl o).attempt = 0))
  ∧ (∀ (s : State) (w : Writer) (p : Port) (val : Bytes), s.dev.Admits w Reg.WP_LANE_SWAP p.val val →
    let phys := mapOf (s.dev.laneMap p) (beNat val)
    Completes (.forceLaneSwap w (BitVec.ofNat 16 p.val) val) s fun d =>
      if s.dev.freeSpare p = none ∨ phys = 7 then d.Answered w .range ∧ d.ports = s.dev.ports
      else d.Answered w .accepted ∧ bit (d.port p).failedMask phys = true ∧ (d.port p).spareLane = (s.dev.freeSpare p).getD 0
        ∧ (d.port p).spareFor.isSome = true)
  ∧ ∀ (s : State) (w : Writer) (p : Port) (val : Bytes), s.dev.Admits w Reg.WP_RELEASE p.val val →
    Completes (.portRelease w (BitVec.ofNat 16 p.val) val) s fun d =>
      if s.dev.get Reg.WP_STATE p.val = 5 then
        d.Answered w .accepted ∧ d.get Reg.WP_RUN_FAIL p.val = 0 ∧ (s.dev.get Reg.WP_EN p.val ≠ 0 → d.get Reg.WP_STATE p.val = 1)
      else d.Answered w .wrongMode ∧ d.ports = s.dev.ports

/-- R12, R178, R179, R183, R187, R200, R219, R220, R222, R428. A front end discards and counts a message on its downlink that fails
R186 or its CRC; one with an acceptable alive counter is executed, counted and answered: a setting goes into the shadow copy and
waits to be applied, a READ is answered with the object's value, a MIRROR entry waits for the cycle the last message names. A block
that is not used is counted, and in a pattern test what it shows of errors. -/
def Obligations.ConfigurationMessagesExecuted : Prop :=
  let arrives := fun (s : State) (p : Port) (dl : Fin 2) (blocks : List Block) (type : Nat) (m : ConfigIn) =>
    ((s.dev.fe p).hears = true ∧ (s.dev.fe p).activeDl = dl.val)
      ∧ (∃ k, readPacket blocks = some k ∧ k.kind = 2 ∧ k.bytes.bind readConfig = some m) ∧ m.type = type
      ∧ ∀ l ∈ (s.dev.fe p).alive, 1 ≤ (m.alive + 16 - l) % 16 ∧ (m.alive + 16 - l) % 16 ≤ 7
  let taken := fun (s : State) (p : Port) (alive : Nat) (d : Dev) =>
    (d.fe p).alive = some alive ∧ d.fget p Reg.FE_CFG_ACC = (s.dev.fget p Reg.FE_CFG_ACC + 1) % 2 ^ 32
  (∀ (s : State) (p : Port) (dl : Fin 2) (blocks : List Block) (k : PacketIn),
    (s.dev.fe p).hears = true → (s.dev.fe p).activeDl = dl.val →
    readPacket blocks = some k → k.kind = 2 → k.bytes.bind readConfig = none →
    Completes (.configWriteMessage p dl blocks) s fun d =>
      d.fget p Reg.FE_CFG_REJ = min (s.dev.fget p Reg.FE_CFG_REJ + 1) (2 ^ 32 - 1) ∧ d.out = s.dev.out ∧ d.fes = s.dev.fes)
  ∧ (∀ (s : State) (p : Port) (dl : Fin 2) (blocks : List Block) (m : ConfigIn) (r : ObjRow),
    arrives s p dl blocks 1 m → m.addr ∈ feSettings → objRow m.addr = some r → m.elem < r.elems → valueCheck r m.value = none →
    s.dev.feCondition p m.addr m.elem (beNat m.value) = none →
    Completes (.configWriteMessage p dl blocks) s fun d =>
      taken s p m.alive d ∧ d.fget p m.addr m.elem = beNat m.value ∧ d.ap p m.addr m.elem = s.dev.ap p m.addr m.elem
        ∧ (d.fe p).applyAt = some (if (s.dev.fe p).mode ∈ [Mode.sentinel, .stream, .gated, .snapshot] then s.dev.now else s.dev.now + 1))
  ∧ (∀ (s : State) (p : Port) (dl : Fin 2) (blocks : List Block) (m : ConfigIn) (v : Bytes),
    arrives s p dl blocks 2 m → (s.dev.settleFor p m.addr m.elem).feRead p m.addr m.elem = .ok v → (s.dev.fe p).responses = [] →
    s.dev.laneOpen p 0 = true → (s.dev.fe p).lanes[0].replay.length < 64 → (∀ k ∈ (s.dev.fe p).lanes[0].replay, k.kind ≠ 3) →
    Completes (.configReadMessage p dl blocks) s fun d =>
      taken s p m.alive d ∧ (d.fe p).responses = [] ∧ (d.fe p).prevValue = v.take 240
        ∧ d.out = .packet p.val 0 (s.dev.fe p).lanes[0].nextSeq 3 0 0
          (.response (configResponse 2 m.alive 0 (m.addr % 256) m.elem (v.take 240))) :: s.dev.out)
  ∧ (∀ (s : State) (p : Port) (dl : Fin 2) (blocks : List Block) (m : ConfigIn), arrives s p dl blocks 3 m →
    Completes (.configMirrorMessage p dl blocks) s fun d =>
      taken s p m.alive d
        ∧ (m.elem < 64 → m.value.length = 7 → tblRead (fun _ => {}) (d.fe p).mirrorNext m.elem =
          { action := beNat (m.value.take 1), groups := beNat ((m.value.drop 1).take 2), arg := beNat (m.value.drop 3) })
        ∧ (m.elem = 0xFFFF → m.value.length = 1 → (d.fe p).mirrorNextCyc = some (beNat m.value))
        ∧ (d.fe p).mirror = (s.dev.fe p).mirror)
  ∧ ∀ (s : State) (p : Port) (rx : Rx) (at_ : LinePlace) (line : List Bool) (b : Block) (stuffing : Bool),
    let test := s.dev.mode == .loopback && s.dev.get Reg.WP_STATE p.val == 6
    let bad := if test && !stuffing && headerOk b.header then none else badBlock b stuffing
    let l := match rx with
      | .up l => (s.dev.port p).ul l.val
      | .down dl => (s.dev.port p).dl dl.val
    let errors := (testCheck (s.dev.get Reg.WP_TEST) b stuffing l.prbs).1
    readBlock (rxKey p.val rx) test at_ line = some (b, stuffing) →
    Completes (.invalidBlock p rx at_ line) s fun d =>
      (match rx with
        | .up n => ((d.port p).ul n.val).bad = l.bad + if bad = none then 0 else 1
        | .down n => ((d.port p).dl n.val).bad = l.bad + if bad = none then 0 else 1)
        ∧ d.get Reg.WP_CTL_ERR p.val = (if bad = some .crc ∨ bad = some .unknownType then
          min (s.dev.get Reg.WP_CTL_ERR p.val + 1) (2 ^ 32 - 1) else s.dev.get Reg.WP_CTL_ERR p.val)
        ∧ d.get Reg.WP_TEST_ERR p.val = (if test then min (s.dev.get Reg.WP_TEST_ERR p.val + errors) (2 ^ 64 - 1)
          else s.dev.get Reg.WP_TEST_ERR p.val)

/-- R221, R426, R427, R431, R432. The outstanding message is sent again every 1 ms; after 20 ms a request's write, and a chunk of a longer one, is answered
OUTCOME_UNKNOWN and leaves the port UNRESOLVED, its read is answered PORT_DOWN, and a message of the Keeper's own waits again.
The response completes the request and an accepted setting enters the mirror. An unresolved outcome is asked for once the
port is up again, or is NOT_APPLIED when the front end has been reset. -/
def Obligations.ConfigurationOutcomesKnownOrResolved : Prop :=
  (∀ (s : State) (p : Port) (m : CfgMsg), (s.dev.port p).cfg = some m → m.lastTx + s.dev.ms 1 ≤ s.dev.now →
    s.dev.now < m.firstTx + s.dev.ms 20 → s.dev.linkFree p .config = true →
    Completes (.configResend p) s fun d =>
      d.out = .config p.val m.bytes :: s.dev.out ∧ (d.port p).cfg = some { m with lastTx := s.dev.now, sends := m.sends + 1 })
  ∧ (∀ (s : State) (p : Port) (m : CfgMsg) (w : Writer), (s.dev.port p).cfg = some m → m.firstTx + s.dev.ms 20 ≤ s.dev.now →
    m.why = .request w →
    Completes (.configTimeout p) s fun d =>
      if m.type = 2 then .answer w .portDown [] ∈ d.out ∧ d.get Reg.COM_UNKNOWN = s.dev.get Reg.COM_UNKNOWN
      else d.Answered w .outcomeUnknown ∧ (d.port p).unresolved = some m ∧ (d.port p).cfg = none ∧ d.get Reg.COM_UNRES p.val = 1
        ∧ d.get Reg.COM_UNKNOWN = min (s.dev.get Reg.COM_UNKNOWN + 1) (2 ^ 32 - 1))
  ∧ (∀ (s : State) (p : Port) (m : CfgMsg), (s.dev.port p).cfg = some m → m.firstTx + s.dev.ms 20 ≤ s.dev.now →
    m.why ∈ [CfgWhy.rewrite, .cycleLen, .mirror (s.dev.port p).mirrorNo, .askPrev, .readBack] →
    Completes (.configTimeout p) s fun d =>
      (d.port p).cfg = none ∧ (d.port p).cfgWaiting = m :: (s.dev.port p).cfgWaiting ∧ d.out = s.dev.out)
  ∧ (∀ (s : State) (p : Port) (m : CfgMsg) (w : Writer), (s.dev.port p).cfg = some m → m.firstTx + s.dev.ms 20 ≤ s.dev.now →
    m.why = .chunk w →
    Completes (.configTimeout p) s fun d =>
      d.Answered w .outcomeUnknown ∧ (d.port p).unresolved = some m ∧ (d.port p).cfg = none ∧ d.get Reg.COM_UNRES p.val = 1
        ∧ d.get Reg.COM_UNKNOWN = min (s.dev.get Reg.COM_UNKNOWN + 1) (2 ^ 32 - 1)
        ∧ ∀ k ∈ (d.port p).cfgWaiting, k.why ≠ .chunk w ∧ k.why ≠ .request w)
  ∧ (∀ (s : State) (p : Port) (m : CfgMsg) (w : Writer) (status : BitVec 8),
    (s.dev.port p).cfg = some m → m.why = .request w → m.type = 1 → m.alive < 16 → status ≠ 1 →
    Completes (.configResponseReceive p (BitVec.ofNat 4 m.alive) status []) s fun d =>
      .answer w (statusOf status.toNat) [] ∈ d.out ∧
        ∀ r ∈ objRow m.addr, r.access = .rw → r.ty ≠ .domain → m.elem ≠ 0xFFFF → m.value ≠ [] →
          d.mir p m.addr m.elem
            = if statusOf status.toNat = .accepted then beNat m.value % 2 ^ regBits m.addr else s.dev.mir p m.addr m.elem)
  ∧ ∀ (s : State) (p : Port) (u : CfgMsg),
    let c := s.dev.port p
    c.unresolved = some u → s.dev.portUp p = true → c.resolved = none → c.cfg = none →
    max c.upAt u.firstTx + s.dev.ms 1 ≤ s.dev.now → (∀ m ∈ c.cfgWaiting, m.why ≠ .askPrev) → s.dev.linkFree p .config = true →
    Completes (.unresolvedResolve p) s fun d =>
      let c' := d.port p
      if c.feReset then c'.resolved = some .notApplied ∨ c'.unresolved = none
      else ∃ m, c'.cfg = some m ∧ m.sends = 1 ∧ (m.why = .askPrev ∨ ∃ k ∈ c'.cfgWaiting, k.why = .askPrev)

/-- R201, R349 to R351, R361. FESTATs leave every 1,024 slots, or with wake requests at most once in 8 slots; a request lapses
after 256 slots. A periodic one received refreshes the port's power, temperature and trip; 4,096 slots without one make the
port STALE, and staying so longer than Steep Time makes its die CRITICAL. -/
def Obligations.FestatReportsAndGoesStale : Prop :=
  (∀ (s : State) (p : Port) (power : BitVec 16) (temp : BitVec 12), let f := s.dev.fe p
    f.runs = true → f.festatAt + 1024 ≤ s.dev.now →
    Completes (.festatPeriodicSend p power temp) s fun d =>
      (d.fe p).festatAt = s.dev.now ∧ d.out = .festatPeriodic p.val (f.executed % 65536) (f.late % 256) (f.discarded % 256) temp.toNat
        power.toNat f.tripped f.fenceActed :: s.dev.out)
  ∧ (∀ (s : State) (p : Port), let f := s.dev.fe p
    f.runs = true → f.wakePending ≠ 0 → (∀ t ∈ f.wakeSentAt, t + 8 ≤ s.dev.now) →
    Completes (.wakeFestatSend p) s fun d =>
      (d.fe p).wakePending = 0 ∧ (d.fe p).wakeSentAt = some s.dev.now
        ∧ d.out = .festatWake p.val f.wakePending (f.executed % 65536) (f.late % 256) (f.discarded % 256) (unsgn 12 f.lastTemp)
          f.lastPower f.lastTrip f.lastFence :: s.dev.out)
  ∧ (∀ (s : State) (p : Port) (g : Fin 16), let t := tblRead (fun _ => 0) (s.dev.fe p).wakeSetAt g.val
    t ≠ 0 → t + 255 ≤ s.dev.now →
    Completes (.wakeRequestExpire p g) s fun d => tblRead (fun _ => 0) (d.fe p).wakeSetAt g.val = 0)
  ∧ (∀ (s : State) (p : Port) (exec power : BitVec 16) (late cancelled : BitVec 8) (temp : BitVec 12) (trip fence : Bool),
    s.dev.portUp p = true →
    Completes (.festatPeriodicReceive p exec late power temp trip fence cancelled) s fun d =>
      (d.port p).festatAt = s.dev.now ∧ (d.port p).staleFrom = none ∧ d.get Reg.GV_FE_POWER p.val = power.toNat
        ∧ d.getI Reg.GV_TEMP p.val = temp.toInt ∧ (d.gov.dies.toList.getD p.val {}).trip = trip
        ∧ bit (d.get Reg.GV_FE_CSTAT p.val) 1 = false ∧ d.gov.staleCritical[p.val] = false)
  ∧ (∀ (s : State) (p : Port), s.dev.portUp p = true → (s.dev.port p).staleFrom = none →
    max (s.dev.port p).festatAt (s.dev.port p).upAt + 4096 ≤ s.dev.now →
    Completes (.festatStale p) s fun d =>
      (d.port p).staleFrom = some s.dev.now ∧ bit (d.get Reg.GV_FE_CSTAT p.val) 1 = true)
  ∧ ∀ (s : State) (p : Port) (t : Nat), (s.dev.port p).staleFrom = some t → t + s.dev.ms (s.dev.get Reg.GV_STEEP) < s.dev.now →
    s.dev.gov.staleCritical[p.val] = false → s.dev.ledger.buffer.length < 1024 →
    Completes (.staleCritical p) s fun d => d.dieState p = 3 ∧ d.Recorded p.val 0x0804

/-! ### The time base (chapter 8) -/

/-- R232 to R237, R241, R242. Syncs, Follow_Ups and Announces that a port takes are used as R232 and R233 say, and a complete
exchange gives the next θ and path delay for each Sync before it; the home source that waits to return does so with it. The best
Announce selects the master. A master lost, no θ for four Sync intervals, or a lost link disqualifies the source; with the other
not qualified a locked time base goes into HOLDOVER. A SYNCE source qualifies within ±4.6 ppm with link and a usable quality level
in the last 5 s, and its port tells so. -/
def Obligations.TimeSourcesMeasuredAndQualified : Prop :=
  let synceOk := fun (s : State) (p : Fin 2) (esmcAt : Option Nat) (windows : List Int) =>
    s.dev.tu.links[p.val] && (match esmcAt with | some t => decide (s.dev.now ≤ t + 5 * s.dev.second) | none => false)
      && (match windows.head? with | some f => decide (10000000 * f.natAbs ≤ 46 * 2 ^ 48) | none => false)
  (∀ (s : State) (p : Fin 2) (head : PtpHead) (two : Bool) (stamp : TdcStamp),
    let x := s.dev.tb.ptp[p.val]
    let t2 := s.dev.readingBins (s.dev.ptpStamp p 1 stamp)
    let sync : PtpSync := { seq := head.seq.toNat, slot := s.dev.now, t2 := t2, corr := head.corr.toInt }
    s.dev.ptpHears p head = true →
    Completes (.ptpSyncReceive p head two stamp) s fun d =>
      let x' := d.tb.ptp[p.val]
      if two = false then x' = x ∧ d.get Reg.TB_PTP_1STEP p.val = min (s.dev.get Reg.TB_PTP_1STEP p.val + 1) (2 ^ 32 - 1)
      else if head.interval.toInt < -7 ∨ 0 < head.interval.toInt then x'.syncs = x.syncs ∧ x'.badInterval = x.badInterval + 1
      else if x.master ≠ some head.src.toNat then d = s.dev
      else x'.logSync = head.interval.toInt ∧ x'.syncs = sync :: x.syncs)
  ∧ (∀ (s : State) (p : Fin 2) (head : PtpHead) (origin : BitVec 80) (y : PtpSync),
    let x := s.dev.tb.ptp[p.val]
    s.dev.ptpHears p head = true → x.master = some head.src.toNat → x.syncs = [y] → y.seq = head.seq.toNat → y.t1 = none →
    Completes (.ptpFollowUpReceive p head origin) s fun d =>
      d.tb.ptp[p.val].syncs = [{ y with t1 := some (ofPtpTime origin), corr := y.corr + head.corr.toInt }])
  ∧ (∀ (s : State) (p : Fin 2) (seq : BitVec 16) (stamp : TdcStamp), s.dev.tu.links[p.val] = true →
    s.dev.tb.ptp[p.val].master.isSome = true → s.dev.srcOn p.val = true →
    Completes (.ptpDelayReqSend p seq stamp) s fun d =>
      d.tb.ptp[p.val].requests = (seq.toNat, s.dev.readingBins (s.dev.ptpStamp p 0 stamp), s.dev.now) :: s.dev.tb.ptp[p.val].requests
        ∧ d.out = .delayReqPtp p.val seq.toNat :: s.dev.out)
  ∧ (∀ (s : State) (p : Fin 2) (head : PtpHead) (receipt : BitVec 80) (y : PtpSync) (t1 t3 : Int) (slot : Nat),
    let x := s.dev.tb.ptp[p.val]
    let ready := fun (y : PtpSync) => y.t1.isSome && decide (y.slot ≤ slot)
    let paths := (((y.t2 - t1 - y.corr) + (ofPtpTime receipt - t3 - head.corr.toInt)) :: x.paths).take 16
    let path := (paths.sum + paths.length) / (2 * paths.length)
    let asym := (s.dev.getI Reg.TB_PTP_ASYM p.val * 65536 + 500) / 1000
    let theta := t1 + y.corr + path + asym - y.t2
    s.dev.ptpHears p head = true → x.master = some head.src.toNat → -7 ≤ head.interval.toInt → head.interval.toInt ≤ 0 →
    (x.requests.find? fun r => r.1 == head.seq.toNat) = some (head.seq.toNat, t3, slot) → x.syncs.filter ready = [y] → y.t1 = some t1 →
    Completes (.ptpDelayRespReceive p head receipt) s fun d =>
      let x' := d.tb.ptp[p.val]
      x'.paths = paths ∧ x'.thetas = ((theta, s.dev.now) :: x.thetas).take 16 ∧ x'.requests = x.requests.filter (fun r => decide (slot < r.2.2))
        ∧ x'.thetaAt = s.dev.now
        ∧ x'.syncs = x.syncs.filter (fun y => !ready y)
        ∧ d.get Reg.TB_SRC_OFS p.val = (theta % 2 ^ 64).toNat ∧ (x.qualified = true → x'.qualified = true)
        ∧ (x.qualified = true → s.dev.tb.phaseSrc = some (1 - p) → s.dev.get Reg.TB_HOME = p.val → s.dev.tb.homeDue = true →
          s.dev.refDue = false → theta.natAbs ≤ s.dev.stepThresh → d.tb.phaseSrc = some p ∧ d.tb.state = .locked))
  ∧ (∀ (s : State) (p : Fin 2) (head : PtpHead) (data : Announced),
    let x := s.dev.tb.ptp[p.val]
    let times := s.dev.now :: (match x.foreign.find? fun f => f.src == head.src.toNat with | some f => f.times.take 1 | none => [])
    let fs := { src := head.src.toNat, data := data, times := times, log := head.interval.toInt }
      :: x.foreign.filter fun f => f.src != head.src.toNat && decide (s.dev.now ≤ f.times.headD 0 + 4 * s.dev.logSeconds f.log)
    s.dev.ptpHears p head = true → -3 ≤ head.interval.toInt → head.interval.toInt ≤ 3 →
    Completes (.ptpAnnounceReceive p head data) s fun d =>
      let x' := d.tb.ptp[p.val]
      x'.foreign = fs ∧ match s.dev.bestMaster fs with
        | some f => x'.master = some f.src ∧ x'.clockClass = f.data.clockClass.toNat ∧ x'.announceAt = f.times.headD 0
          ∧ x'.logAnnounce = f.log ∧ (s.dev.get Reg.TB_PTP_MAXCLASS < f.data.clockClass.toNat → x'.qualified = false)
        | none => x'.master = x.master)
  ∧ (∀ (s : State) (p : Fin 2),
    let x := s.dev.tb.ptp[p.val]
    x.master.isSome = true → x.announceAt + 3 * s.dev.logSeconds x.logAnnounce ≤ s.dev.now →
    Completes (.announceReceiptTimeout p) s fun d =>
      d.tb.ptp[p.val].master = (s.dev.bestMaster (x.foreign.filter fun f => x.master != some f.src)).map Foreign.src
        ∧ d.tb.ptp[p.val].qualified = false)
  ∧ (∀ (s : State) (p : Fin 2),
    let x := s.dev.tb.ptp[p.val]
    x.qualified = true → x.thetaAt + 4 * s.dev.logSeconds x.logSync ≤ s.dev.now →
    Completes (.syncIntervalTimeout p) s fun d =>
      d.tb.ptp[p.val].qualified = false ∧ d.tb.ptp[p.val].thetas = x.thetas
        ∧ (s.dev.tb.phaseSrc = some p → s.dev.tb.ptp[(1 - p).val].qualified = false → s.dev.tb.state = .locked →
          d.tb.state = .holdover ∧ d.tb.phaseSrc = none ∧ d.tb.leftLocked = some s.dev.now))
  ∧ (∀ (s : State) (p : Fin 2) (up : Bool),
    Completes (.timingLinkChange p up) s fun d =>
      d.tu.links[p.val] = up ∧ (up = true → d.tb = s.dev.tb)
        ∧ (up = false → d.tb.ptp[p.val].qualified = false ∧ d.tb.ptp[p.val].master = none ∧ d.tb.synce[p.val].qualified = false))
  ∧ (∀ (s : State) (p : Fin 2) (dnu : Bool), s.dev.tu.links[p.val] = true →
    Completes (.esmcReceive p dnu) s fun d =>
      if dnu then d = s.dev
      else d.tb.synce[p.val].esmcAt = some s.dev.now
        ∧ d.tb.synce[p.val].qualified = synceOk s p (some s.dev.now) s.dev.tb.synce[p.val].windows)
  ∧ ∀ (s : State) (p : Fin 2) (freq : BitVec 64),
    let x := s.dev.tb.synce[p.val]
    let ok := synceOk s p x.esmcAt [freq.toInt]
    s.dev.tu.links[p.val] = true →
    Completes (.synceWindowEnd p freq) s fun d =>
      d.get Reg.TB_SRC_OFS (2 + p.val) = freq.toNat ∧ d.tb.synce[p.val].windows = (freq.toInt :: x.windows).take 16
        ∧ d.tb.synce[p.val].qualified = ok ∧ d.out.head? = some (.l1Sync p.val ok)

/-- R15, R230, R236, R237, R240, R245 to R250. The home source waits to return after Return Time when its θ agrees, else it is in
DISAGREE. An accepted step, a first setting and a preset wait for a boundary; there the readings move by the median of the
last values of θ, or to the preset, within a unit of 2⁻¹⁶ ns, once, and the move is marked in the data. 100 windows within
tolerance qualify a reference input; one outside, or a lost edge, disqualifies it and the other, or the local oscillator,
takes over; a selected input is taken at its boundary when it is qualified. -/
def Obligations.StepsAndReferencesApplyAtBoundaries : Prop :=
  let stepped := fun (s : State) (size : Int) (kind : Nat) (d : Dev) =>
    d.tb.step = none ∧ d.reading ≤ s.dev.reading + size + 1 ∧ s.dev.reading + size - 1 ≤ d.reading
      ∧ d.tu.stepRecord = noteStep s.dev.tu.stepRecord s.dev.grid.cycleStart (kind, size, 0)
      ∧ d.get Reg.TB_STEPS = min (s.dev.get Reg.TB_STEPS + 1) (2 ^ 32 - 1) ∧ d.get Reg.TB_STEP_PEND = 0 ∧ d.tu.copy = d.tb
  (∀ (s : State) (h : Fin 2) (theta : Int) (t : Nat) (rest : List (Int × Nat)),
    let x := s.dev.tb.ptp[h.val]
    s.dev.get Reg.TB_HOME = h.val → x.qualified = true → s.dev.srcOn h.val = true → s.dev.tb.phaseSrc = some (1 - h) →
    x.qualAt + s.dev.get Reg.TB_RETURN_TIME * s.dev.second ≤ s.dev.now → x.thetas = (theta, t) :: rest → s.dev.refDue = false →
    Completes .homeReturn s fun d =>
      d.tb.phaseSrc = some (1 - h) ∧ d.tb.homeDue = decide (theta.natAbs ≤ s.dev.stepThresh)
        ∧ d.tb.ptp[h.val].disagree = !decide (theta.natAbs ≤ s.dev.stepThresh))
  ∧ (∀ (s : State) (w : Writer) (val : Bytes), s.dev.Admits w Reg.TB_ACCEPT_STEP 0 val →
    Completes (.acceptStep w val) s fun d =>
      if s.dev.tb.state = .disputed ∧ s.dev.tb.phaseSrc.isSome = true then
        d.Answered w .accepted ∧ d.tb.step = some (.accepted, s.dev.now + 4096)
      else d.Answered w .wrongMode ∧ d.tb = s.dev.tb)
  ∧ (∀ (s : State) (p : Fin 2) (t : Nat), s.dev.tb.step = some (.accepted, t) → s.dev.tb.phaseSrc = some p →
    t ≤ s.dev.grid.cycleStart → s.dev.firstDue = false → s.dev.get Reg.TB_FNOM ≠ 0 →
    Completes .timeStepApply s fun d =>
      let size := median8 (s.dev.tb.ptp[p.val].thetas.map Prod.fst)
      stepped s size 0 d ∧ d.tb.state = .locked
        ∧ d.tb.ptp[p.val].thetas = s.dev.tb.ptp[p.val].thetas.map fun x => (x.1 - size, x.2))
  ∧ (∀ (s : State) (p : Fin 2) (t : Nat), s.dev.tb.step = some (.first, t) → s.dev.tb.phaseSrc = some p →
    t ≤ s.dev.grid.cycleStart → s.dev.firstDue = false → s.dev.get Reg.TB_FNOM ≠ 0 →
    Completes .firstTimeSetApply s fun d =>
      stepped s (median8 (s.dev.tb.ptp[p.val].thetas.map Prod.fst)) 1 d ∧ d.tb.state = .locked ∧ d.tb.timeSet = true)
  ∧ (∀ (s : State) (t : Nat) (r : Int), s.dev.tb.step = some (.preset r, t) →
    t ≤ s.dev.grid.cycleStart → s.dev.firstDue = false → s.dev.get Reg.TB_FNOM ≠ 0 →
    Completes .firstTimeSetApply s fun d =>
      stepped s (r - s.dev.reading) 1 d ∧ d.tb.timeSet = true)
  ∧ (∀ (s : State) (w : Writer) (val : Bytes), s.dev.Admits w Reg.TB_PRESET 0 val →
    Completes (.timePreset w val) s fun d =>
      if s.dev.tb.state = .free then
        d.Answered w .accepted ∧ d.tb.step = some (.preset (ofTime96 (beNat val)), s.dev.now + 4096)
      else d.Answered w .wrongMode ∧ d.tb = s.dev.tb)
  ∧ (∀ (s : State) (w : Writer) (val : Bytes), s.dev.Admits w Reg.TB_REF_SEL 0 val →
    Completes (.referenceSelect w val) s fun d =>
      d.Answered w .accepted ∧ d.get Reg.TB_REF_SEL = beNat val ∧ d.tu.refPend = some (beNat val, s.dev.now + 1)
        ∧ d.get Reg.TB_REF_USE = s.dev.get Reg.TB_REF_USE)
  ∧ (∀ (s : State) (n t : Nat), s.dev.tu.refPend = some (n, t) → t ≤ s.dev.grid.cycleStart →
    Completes .referenceChangeApply s fun d =>
      d.tu.refPend = none ∧ d.get Reg.TB_REF_USE
        = if (s.dev.tu.refs.toList.getD n {}).qualified then n else s.dev.get Reg.TB_REF_USE)
  ∧ (∀ (s : State) (q : Fin 2) (ppb vs : BitVec 32),
    Completes (.refclkMeasureWindow q ppb vs) s fun d =>
      let n := min 100 (s.dev.tu.refs[q.val].windows + 1)
      if ppb.toInt.natAbs ≤ s.dev.get Reg.TB_REF_TOL * 1000 then
        d.tu.refs[q.val] = { windows := n, qualified := decide (n = 100), ppb := ppb.toInt }
          ∧ d.get Reg.TB_REF_STATE q.val = if n = 100 then 2 else 1
      else d.tu.refs[q.val].windows = 0 ∧ d.tu.refs[q.val].qualified = false ∧ d.get Reg.TB_REF_STATE q.val = 1)
  ∧ ∀ (s : State) (q : Fin 2),
    Completes (.refclkEdgeLoss q) s fun d =>
      d.tu.refs[q.val].qualified = false ∧ d.get Reg.TB_REF_STATE q.val = 0 ∧ d.get Reg.TB_REF_USE =
        if s.dev.get Reg.TB_REF_USE ≠ q.val ∨ s.dev.tu.refs[q.val].qualified = false then s.dev.get Reg.TB_REF_USE
        else if s.dev.tu.refs[(1 - q).val].qualified then (1 - q).val else 2

/-- R251 to R255, R258 to R261, R263 to R268. A marker of the watched input ends ALIGNING or is classified by its deviation;
the other input's is counted. A pulse leaves at the start of a TAI second, a cycle or a frame. The standby time base takes
over at a boundary when asked, or at once from its copy when the active one fails; without a standby the fault is fatal. A
stamped edge enters its queue with the reading and its sequence number; a read takes the 64 oldest. -/
def Obligations.MarkersPulsesSwapsAndStamps : Prop :=
  (∀ (s : State) (input : Fin 2),
    let next : Int := s.dev.grid.cycleStart + s.dev.grid.len
    let named : Int := (s.dev.now : Int) - s.dev.get Reg.TB_CM_FILTER + s.dev.getI Reg.CM_OFFSET
    let nearest := fun (base len : Int) => (named - base + len / 2) % len - len / 2
    let off := if named < next then nearest s.dev.grid.cycleStart s.dev.grid.len else nearest next s.dev.cycleLen
    let near := off.natAbs ≤ s.dev.get Reg.CM_WINDOW
    s.dev.get Reg.TB_CYC_SRC ≠ 0 →
    let q := s.dev.flywheelCheck
    Completes (.cycleMarker input) s fun d =>
      if input.val ≠ q.tb.cmInput then d.tb.cmOther = (if near then min 3 (q.tb.cmOther + 1) else 0) ∧ d.grid = s.dev.grid
      else if q.tb.aligning = true then
        d.tb.aligning = false ∧ d.tb.cmLost = false ∧ d.grid.move.isSome = true ∧ d.get Reg.CM_DEV = (off % 2 ^ 32).toNat
      else d.get Reg.CM_DEV = (off % 2 ^ 32).toNat
        ∧ d.get Reg.CM_ANOM = (if near then s.dev.get Reg.CM_ANOM else min (s.dev.get Reg.CM_ANOM + 1) (2 ^ 32 - 1))
        ∧ d.get Reg.CM_JIT = (if near ∧ off ≠ 0 then min (s.dev.get Reg.CM_JIT + 1) (2 ^ 32 - 1) else s.dev.get Reg.CM_JIT)
        ∧ (off ≠ 0 → q.tb.cmRun.take 2 = [off, off] → d.grid.move.isSome = true))
  ∧ (∀ (s : State) (o : Fin 2) (ahead n : Int),
    let sec : Int := 1000000000 * 65536
    let mode := s.dev.get Reg.TPO_MODE o.val
    let after := (ahead * 1000 + s.dev.getI Reg.TPO_DELAY o.val * 65536) * 2 ^ 32
    let edge := (s.dev.now : Int) * 4096 + s.dev.binsFor after (1000 * nominalTick (s.dev.get Reg.TB_FNOM))
    ((mode = 1 ∨ (mode = 4 ∧ n % s.dev.get Reg.TPO_N o.val = 0)) ∧ ahead = n * sec - s.dev.reading ∧ 0 ≤ ahead ∧ ahead < sec
        ∧ n * sec < s.dev.readingAt (s.dev.now + 1) 0 ∧ hasPulsed s.dev.tu.pulsed[o.val] n.toNat = false)
      ∨ (ahead = 0 ∧ s.dev.tu.pulseAt[o.val] ≠ some s.dev.now ∧ ((mode = 2 ∧ s.dev.now = s.dev.grid.cycleStart)
        ∨ (mode = 3 ∧ s.dev.slot % 256 = 0 ∧ s.dev.now < s.dev.cycleEnd))) →
    Completes (.timePulse o) s fun d =>
      d.out = .pulse o.val edge (s.dev.get Reg.TPO_WIDTH o.val) (s.dev.get Reg.TPO_POL o.val == 1) :: s.dev.out
        ∧ (mode = 1 ∨ mode = 4 → d.tu.pulsed[o.val]
          = pulseRun s.dev.tu.pulsed[o.val] n.toNat (if mode = 4 then s.dev.get Reg.TPO_N o.val else 1)))
  ∧ (∀ (s : State) (w : Writer) (val : Bytes), s.dev.Admits w Reg.TB_SWAP 0 val →
    Completes (.forceTimeBaseSwap w val) s fun d =>
      d.Answered w .accepted ∧ d.tu.swapFrom = some (s.dev.now + 1) ∧ d.tu.active = s.dev.tu.active)
  ∧ (∀ s : State,
    Completes .timeBaseCheckFail s fun d =>
      if s.dev.tu.health[(1 - s.dev.tu.active).val] = 1 then
        d.tu.active = 1 - s.dev.tu.active ∧ d.tb = s.dev.tu.copy ∧ d.tu.health[(1 - s.dev.tu.active).val] = 0
          ∧ d.tu.health[s.dev.tu.active.val] = 3
          ∧ d.get Reg.TB_SWAP_CNT = min (s.dev.get Reg.TB_SWAP_CNT + 1) (2 ^ 32 - 1)
      else if s.dev.mode = .boot then d.inReset = true ∧ d.aon.reason = 5
      else d.safeReason = some 0x13 ∧ d.tu.health[s.dev.tu.active.val] = 2)
  ∧ (∀ (s : State) (u : Fin 2) (pass : Bool), s.dev.tu.health[u.val] = 3 → s.dev.ledger.buffer.length < 1024 →
    Completes (.timeBaseSelfTestDone u pass) s fun d =>
      d.tu.health[u.val] = (if pass = true ∧ s.dev.now ≤ s.dev.tu.testFrom[u.val] + s.dev.second then 1 else 2) ∧ d.Recorded 0xFF 0x0204)
  ∧ (∀ (s : State) (i : Fin 8) (signal : TimSignal) (tick : Fin 8) (code c1 c2 : BitVec 12) (rising : Bool) (k1 k2 : Nat) (aged : Bool),
    let c := s.dev.tu.tim[i.val]
    let slope := s.dev.get Reg.TIM_SLOPE i.val
    let slot := s.dev.now - s.dev.get Reg.TIM_FILTER i.val
    let at_ : Int := (slot : Int) * 4096 + convertStamp tick.val code.toNat k1 k2
    s.dev.timDirection i signal = some rising → s.dev.get Reg.TIM_MODE i.val ≠ 0 →
    slope = 2 ∨ (slope = 0 ∧ rising = true) ∨ (slope = 1 ∧ rising = false) →
    (k1, k2, aged) = (match c.pair with
      | some (a, b, t) => (a, b, decide (t + timPairAge < slot))
      | none => (Config.nominalC1 0xFF, Config.nominalC2 0xFF, true)) →
    Completes (.timEdge i signal tick code (c1, c2)) s fun d =>
      let c' := d.tu.tim[i.val]
      if ∃ t ∈ c.lastAt, at_ < t + 8 * 512 then
        c'.missed = true ∧ c'.queue = c.queue ∧ c'.seq = c.seq ∧ c'.lastAt = c.lastAt
          ∧ d.get Reg.TIM_MISSED i.val = min (s.dev.get Reg.TIM_MISSED i.val + 1) (2 ^ 32 - 1)
      else c'.seq = (c.seq + 1) % 65536 ∧ c'.missed = false ∧ c'.lastAt = some at_
        ∧ d.get Reg.TIM_QFILL i.val = c'.queue.length % 2 ^ 16
        ∧ c'.pair = (if pairValid c1.toNat c2.toNat then some (c1.toNat, c2.toNat, slot) else c.pair) ∧
        if 4096 ≤ c.queue.length then
          c'.queue = c.queue ∧ c'.overflow = true
            ∧ d.get Reg.TIM_QOVF i.val = min (s.dev.get Reg.TIM_QOVF i.val + 1) (2 ^ 32 - 1)
        else c'.queue.dropLast = c.queue ∧ ∃ x, c'.queue.getLast? = some x
          ∧ x.toNat / 2 ^ 32 = time96 (s.dev.readingBins at_) ∧ x.toNat % 2 ^ 16 = c.seq % 2 ^ 16
          ∧ x.toNat / 2 ^ 29 % 8 = i.val ∧ bit x.toNat 28 = !rising ∧ bit x.toNat 27 = (aged || outsidePair code.toNat k1 k2)
          ∧ bit x.toNat 24 = c.overflow ∧ bit x.toNat 23 = c.missed)
  ∧ (∀ (s : State) (w : Writer) (i : Fin 8) (val : Bytes), s.dev.Admits w Reg.TIM_RESTART i.val val →
    Completes (.statisticsRestart w (BitVec.ofNat 16 i.val) val) s fun d =>
      d.Answered w .accepted ∧ d.tu.tim[i.val].block = s.dev.freshBlock ∧ d.tu.tim[i.val].waiting = []
        ∧ d.tu.tim[i.val].queue = s.dev.tu.tim[i.val].queue)
  ∧ ∀ (s : State) (w : Writer) (i : Fin 8),
    let q := s.dev.tu.tim[i.val].queue
    Completes (.stampQueueRead w i) s fun d =>
      d.tu.tim[i.val].queue = q.drop 64 ∧ d.get Reg.TIM_QFILL i.val = (q.length - 64) % 2 ^ 16
        ∧ d.Answered w .accepted ((q.take 64).flatMap fun x => beBytes 16 x.toNat)

/-! ### Merging, baskets and the back end (chapter 9) -/

/-- R272 to R274, R278 to R283, R285, R286, R295, R318, R319. A basket opens at its frame with number, place, time and the
parts of the enabled ports; it closes when no port is waited for, or at its timeout with the rest MISSING; the oldest closed
basket is released in its turn to the egress queue or, in GATED, to the latency buffer, whose stalls refuse the hits they
cannot take. A receive-queue reset drops entries of that port alone and marks the basket. -/
def Obligations.BasketsOpenCloseAndRelease : Prop :=
  (∀ s : State,
    let frame := s.dev.grid.nextFrame
    let start := s.dev.grid.cycleStart + 256 * frame
    let m := s.dev.merge
    s.dev.inReset = false → start ≤ s.dev.now → start < s.dev.cycleEnd → s.dev.beforeCommits = false →
    m.commitAt = none → m.formatAt = none →
    Completes .frameBoundary s fun d =>
      d.grid = { s.dev.grid with nextFrame := frame + 1 } ∧ (sendsMarkers s.dev.mode = false → d.merge = m)
        ∧ (sendsMarkers s.dev.mode = true → ∃ b, d.merge.baskets = m.baskets ++ [b] ∧ b.num = m.next
          ∧ b.cycle = s.dev.grid.cycle ∧ b.frame = frame ∧ b.start = start ∧ b.stop = min (start + 256) s.dev.cycleEnd
          ∧ b.mode = s.dev.mode ∧ b.reading = s.dev.readingAt start 0 ∧ b.st = .open_ ∧ b.items = [] ∧ b.status = s.dev.flywheelCheck.timeStatus
          ∧ b.key = (s.dev.grid.cycle * 4096 + frame) % s.dev.get Reg.ROUTE_SPAN
          ∧ b.conc.length = s.dev.tu.stepRecord.length ∧ d.tu.stepRecord = [] ∧ d.merge.next = (m.next + 1) % 2 ^ 64
          ∧ b.parts.map (fun x => (x.port, x.expected, x.missing, x.notUp)) = (allPorts.filter fun p =>
              s.dev.get Reg.WP_EN p.val == 1).map fun p => (p.val, s.dev.portUp p, !s.dev.portUp p, !s.dev.portUp p)))
  ∧ (∀ (s : State) (b : Basket),
    let done := fun (b : Basket) => b.parts.all fun x => x.missing || x.complete (s.dev.activeMask (Fin.ofNat 32 x.port) b.start)
    s.dev.merge.baskets.find? (fun b => b.st == .open_ && decide (b.stop ≤ s.dev.now) && done b) = some b →
    (∀ x ∈ b.parts, x.port < 32) →
    Completes .basketClose s fun d =>
      d.get Reg.MG_CLOSED = min (s.dev.get Reg.MG_CLOSED + 1) (2 ^ 64 - 1)
        ∧ d.get Reg.MG_TIMEOUTS = s.dev.get Reg.MG_TIMEOUTS
        ∧ ∃ b' ∈ d.merge.baskets, b'.num = b.num ∧ b'.st = .closed ∧ b'.timeout = false
          ∧ b'.closeDelay = min (s.dev.now + 1 - b.stop) 65535 ∧ b'.items = b.items
          ∧ b'.parts.map (fun x => (x.port, x.missing, x.late))
            = b.parts.map fun x => (x.port, x.missing, s.dev.merge.late.toList.getD x.port 0))
  ∧ (∀ (s : State) (b : Basket),
    let due := fun (b : Basket) => b.st == .open_ && decide (b.stop + s.dev.get Reg.BASKET_TIMEOUT * 256 ≤ s.dev.now + 1)
    let done := fun (x : PortPart) => x.complete (s.dev.activeMask (Fin.ofNat 32 x.port) b.start)
    s.dev.merge.baskets.find? due = some b → (∀ x ∈ b.parts, x.port < 32) →
    (∃ x ∈ b.parts, x.missing = false ∧ done x = false) →
    Completes .basketTimeout s fun d =>
      d.get Reg.MG_TIMEOUTS = min (s.dev.get Reg.MG_TIMEOUTS + 1) (2 ^ 32 - 1)
        ∧ (∀ p : Fin 32, (∃ x ∈ b.parts, x.port = p.val) → d.merge.late[p.val] = 0)
        ∧ ∃ b' ∈ d.merge.baskets, b'.num = b.num ∧ b'.st = .closed ∧ b'.timeout = true ∧ b'.items = b.items
          ∧ b'.parts.map (fun x => (x.port, x.missing, x.late))
            = b.parts.map fun x => (x.port, x.missing || (x.expected && !done x), s.dev.merge.late.toList.getD x.port 0))
  ∧ (∀ (s : State) (b : Basket) (o : Fin 8),
    let first := fun (b : Basket) => b.st == .open_ || b.st == .closed
    let fs := b.frags (b.body (s.dev.get Reg.BE_FW_VER) (s.dev.get Reg.COM_NODE)) (s.dev.get Reg.COM_NODE)
      (s.dev.get Reg.BE_SRC_UDP o.val) (s.dev.get Reg.BE_MTU) false
    s.dev.merge.baskets.find? first = some b → b.st = .closed → b.mode ≠ .gated → s.dev.earlierHeld b = false →
    s.dev.egressPort b.route = some o →
    (s.dev.egr o).feed = [] → (s.dev.egr o).fill + ((fs.map fun f => f.payload.length).headD 0) ≤ 524288 →
    Completes .basketRelease s fun d =>
      (∃ b' ∈ d.merge.baskets, b'.num = b.num ∧ b'.st = .sending) ∧ d.merge.waitFrom = none
        ∧ (d.egr o).queue ++ (d.egr o).feed = (s.dev.egr o).queue ++ fs
        ∧ ∀ x ∈ s.dev.merge.baskets, x.num ≠ b.num → x ∈ d.merge.baskets)
  ∧ (∀ (s : State) (b : Basket),
    s.dev.merge.baskets.find? (fun b => b.st == .open_ || b.st == .closed) = some b → b.st = .closed → b.mode = .gated →
    (∀ x ∈ s.dev.merge.baskets, x.num = b.num → x = b) →
    (∀ x ∈ b.parts, let k := s.dev.stallOf x.port
      s.dev.overPitch k = false ∧ s.dev.stored k + 8 * b.items.length ≤ s.dev.effBytes k) →
    Completes .basketRelease s fun d =>
      ∃ b' ∈ d.merge.baskets, b'.num = b.num ∧ b'.st = .held ∧ b'.items = b.items ∧ b'.conc = b.conc)
  ∧ (∀ (s : State) (b : Basket) (x : PortPart),
    let k := s.dev.stallOf x.port
    let mine := b.items.filter fun i => i.port == x.port
    let hits := (mine.filter BItem.isHit).length
    s.dev.merge.baskets.find? (fun b => b.st == .open_ || b.st == .closed) = some b → b.st = .closed → b.mode = .gated →
    (∀ x ∈ s.dev.merge.baskets, x.num = b.num → x = b) →
    b.parts = [x] → (∀ i ∈ b.items, i.port = x.port) → k < 64 →
    s.dev.overPitch k = true ∨ s.dev.effBytes k < s.dev.stored k + 8 * mine.length →
    Completes .basketRelease s fun d =>
      d.get Reg.ST_QLOSS k = min (s.dev.get Reg.ST_QLOSS k + hits) (2 ^ 64 - 1)
        ∧ ∃ b' ∈ d.merge.baskets, b'.num = b.num ∧ b'.st = .held ∧ b'.items = b.items.filter (fun i => !i.isHit)
          ∧ b'.conc.length = b.conc.length + 1)
  ∧ ∀ (s : State) (p : Port) (n : BitVec 64) (k : Nat) (b : Basket),
    b ∈ s.dev.merge.baskets → b.num = n.toNat → b.st = .open_ →
    Completes (.concQueuePointerMismatch (.receive p) [(n, k)]) s fun d =>
      ∃ b' ∈ d.merge.baskets, b'.num = n.toNat ∧ b'.conc.length = b.conc.length + 1 ∧ b'.conc.take b.conc.length = b.conc
        ∧ b'.items.filter (fun i => i.port != p.val) = b.items.filter (fun i => i.port != p.val)
        ∧ (b'.items.filter fun i => i.port == p.val).length = (b.items.filter fun i => i.port == p.val).length - k

/-- R286 to R288, R302. A route-table write takes effect in the master table at once and sets ROUTE_PENDING; one that would
leave a used key unset outside CONFIGURE is refused. A commit applies at the first frame boundary at least 16 slots later,
a pinned format at the next cycle boundary, each after a step and a mode change due there; bit 3 of an egress word is ignored. -/
def Obligations.RoutesAndFormatsTakeEffect : Prop :=
  (∀ (s : State) (w : Writer) (col : Fin 6) (key : BitVec 16) (val : Bytes),
    s.dev.Admits w (Reg.RT_EGRESS + col.val) key.toNat val → s.dev.mode ≠ .boot → s.dev.mode = .configure →
    let v := if col = 0 then setBit (beNat val) 3 false else beNat val
    (col = 4 → bit (beNat val) 12 = false ∨ (1 ≤ beNat val % 4096 ∧ beNat val % 4096 ≤ 4094)) →
    Completes (.routeEntryWrite w col key val) s fun d =>
      d.Answered w .accepted ∧ bit (d.get Reg.MG_STATUS) 0 = true ∧ d.merge.caches = s.dev.merge.caches
        ∧ (s.dev.merge.commitAt.isSome = true → d.merge.rewritten = true)
        ∧ ∀ k < 4096, d.get (Reg.RT_EGRESS + col.val) k
          = if key.toNat = k ∨ key.toNat = 0xFFFF then v else s.dev.get (Reg.RT_EGRESS + col.val) k)
  ∧ (∀ (s : State) (w : Writer) (key : BitVec 16) (val : Bytes),
    s.dev.Admits w Reg.RT_MAC key.toNat val → s.dev.mode ≠ .boot → s.dev.mode ≠ .configure →
    key.toNat < s.dev.get Reg.ROUTE_SPAN → key.toNat < 4096 → beNat val = 0 →
    Completes (.routeEntryWrite w 1 key val) s fun d =>
      d.Answered w .range ∧ d.get Reg.RT_MAC key.toNat = s.dev.get Reg.RT_MAC key.toNat
        ∧ d.get Reg.MG_STATUS = s.dev.get Reg.MG_STATUS)
  ∧ (∀ (s : State) (w : Writer) (val : Bytes), s.dev.Admits w Reg.ROUTE_COMMIT 0 val →
    Completes (.routeCommit w val) s fun d =>
      d.Answered w .accepted ∧ bit (d.get Reg.MG_STATUS) 1 = true ∧ d.merge.rewritten = false
        ∧ d.merge.caches = s.dev.merge.caches
        ∧ d.merge.commitAt = some (s.dev.merge.commitAt.getD (s.dev.now + 16)))
  ∧ (∀ (s : State) (t : Nat), s.dev.merge.commitAt = some t →
    Completes .routeCommitApply s fun d =>
      if s.dev.grid.cycleStart + min s.dev.slot (s.dev.cycleEnd - s.dev.grid.cycleStart - 1) / 256 * 256 < t ∨ s.dev.beforeCommits = true then d = s.dev
      else d.merge.commitAt = none ∧ d.merge.caches = Vector.replicate 8 [] ∧ bit (d.get Reg.MG_STATUS) 1 = false
        ∧ bit (d.get Reg.MG_STATUS) 0 = s.dev.merge.rewritten ∧ d.get Reg.ROUTE_GEN = (s.dev.get Reg.ROUTE_GEN + 1) % 2 ^ 16)
  ∧ (∀ (s : State) (w : Writer) (val : Bytes), s.dev.Admits w Reg.BE_FMT_PIN 0 val →
    Completes (.formatPin w val) s fun d =>
      d.get Reg.BE_FMT = s.dev.get Reg.BE_FMT ∧
        if beNat val = 1 then d.Answered w .range ∧ d.merge.formatAt = s.dev.merge.formatAt
        else d.Answered w .accepted ∧ d.get Reg.BE_FMT_PIN = beNat val ∧ d.merge.formatAt = some (s.dev.now + 1))
  ∧ ∀ (s : State) (t : Nat), s.dev.merge.formatAt = some t →
    Completes .formatPinApply s fun d =>
      if s.dev.grid.cycleStart < t ∨ s.dev.beforeCommits = true then d = s.dev
      else d.merge.formatAt = none ∧ d.get Reg.BE_FMT = if s.dev.get Reg.BE_FMT_PIN = 2 then 2 else 3

/-- R168, R223, R281, R289, R290, R298 to R301, R307. A fragment leaves when the port has link and is not paused; a basket whose
last fragment has left is freed, and ring entries that have left are consumed. ARP and echo requests for the port's address are
answered, after a pause where one is in force; pauses are honoured when set. Frames not accepted are counted, with them the
codewords in error and, in LOOPBACK, the bit errors of the test (the checker: the model's, log entries 96 and 145). A snapshot packet becomes one ring entry under the ring's policy, and ready entries leave in one
datagram. -/
def Obligations.BackEndSendsAndAnswers : Prop :=
  let managed := fun (s : State) (b : Fin 8) (bytes : Bytes) (d : Dev) =>
    if (s.dev.netPort b).pause.isSome = true then
      d.out = s.dev.out ∧ (d.netPort b).held = (s.dev.netPort b).held ++ [bytes]
    else d.out = .frame b.val bytes :: s.dev.out ∧ (d.netPort b).held = (s.dev.netPort b).held
  (∀ (s : State) (b : Fin 8) (f : Frag) (rest : List Frag),
    let e := s.dev.egr b
    let n := s.dev.netPort b
    s.dev.carriesIp b.val = true → n.pause = none → e.queue = f :: rest →
    Completes (.egressFragmentSend b) s fun d =>
      d.out = .frame b.val (udpFrame (s.dev.get Reg.BE_SRC_MAC b.val) (s.dev.get Reg.BE_SRC_IP b.val) f.srcUdp
          (s.dev.get Reg.BE_TTL) n.ident f.route f.payload) :: s.dev.out
        ∧ (d.egr b).queue ++ (d.egr b).feed = rest ++ e.feed ∧ (d.netPort b).ident = (n.ident + 1) % 65536
        ∧ d.get Reg.BE_TX_FRAMES b.val = min (s.dev.get Reg.BE_TX_FRAMES b.val + 1) (2 ^ 64 - 1)
        ∧ d.merge.ring = s.dev.merge.ring.filter (fun r => !f.entries.contains r.seq)
        ∧ ∀ x ∈ d.merge.baskets, x.st = .sending → ∃ g ∈ d.merge.egress.toList, ∃ h ∈ g.queue ++ g.feed, h.num = some x.num)
  ∧ (∀ (s : State) (b : Fin 8) (dst srcMac : BitVec 48) (src target : BitVec 32),
    let ip := if s.dev.get Reg.BE_SRC_IP b.val = 0 ∧ b = 0 ∧ s.dev.mode = .safe then 0xA9FE0000 + s.dev.get Reg.COM_NODE
      else s.dev.get Reg.BE_SRC_IP b.val
    s.dev.get Reg.BE_LINK b.val = 1 → ip ≠ 0 → target.toNat = ip → s.dev.forPort b dst = true →
    Completes (.arpRequestReceive b dst srcMac src target) s fun d =>
      ∃ bytes, managed s b bytes d ∧ bytes.length = 42 ∧ bytes.take 6 = beBytes 6 srcMac.toNat
        ∧ (bytes.drop 22).take 10 = beBytes 6 (s.dev.get Reg.BE_SRC_MAC b.val) ++ beBytes 4 ip
        ∧ d.merge = s.dev.merge)
  ∧ (∀ (s : State) (b : Fin 8) (dst srcMac : BitVec 48) (src target : BitVec 32) (rest : Bytes),
    let ip := if s.dev.get Reg.BE_SRC_IP b.val = 0 ∧ b = 0 ∧ s.dev.mode = .safe then 0xA9FE0000 + s.dev.get Reg.COM_NODE
      else s.dev.get Reg.BE_SRC_IP b.val
    s.dev.get Reg.BE_LINK b.val = 1 → ip ≠ 0 → target.toNat = ip → s.dev.forPort b dst = true →
    24 + rest.length ≤ s.dev.get Reg.BE_MTU →
    Completes (.icmpEchoReceive b dst srcMac src target rest) s fun d =>
      ∃ bytes, managed s b bytes d ∧ bytes.length = 38 + rest.length ∧ bytes.drop 38 = rest
        ∧ bytes.take 6 = beBytes 6 srcMac.toNat ∧ (bytes.drop 26).take 8 = beBytes 4 ip ++ beBytes 4 src.toNat
        ∧ (bytes.drop 34).take 2 = [0, 0])
  ∧ (∀ (s : State) (b : Fin 8) (quanta : BitVec 16),
    Completes (.pauseFrameReceive b quanta) s fun d =>
      if s.dev.get Reg.BE_PAUSE b.val ≠ 1 then
        d.net = s.dev.net ∧ d.out = s.dev.out ∧ d.get Reg.BE_RX_DISC b.val = (if s.dev.get Reg.BE_LINK b.val = 1 then
          min (s.dev.get Reg.BE_RX_DISC b.val + 1) (2 ^ 64 - 1) else s.dev.get Reg.BE_RX_DISC b.val)
      else (d.egr b).queue = (s.dev.egr b).queue ∧
        if quanta.toNat = 0 then (d.netPort b).pause = none ∧ (d.netPort b).held = []
        else (d.netPort b).held = (s.dev.netPort b).held ∧ d.out = s.dev.out ∧ (d.netPort b).pause
          = some (s.dev.now + ceilDiv (quanta.toNat * 512 * s.dev.get Reg.TB_FNOM) 100000000, s.dev.now, quanta.toNat))
  ∧ (∀ (s : State) (b : Fin 8) (stop start quanta : Nat),
    (s.dev.netPort b).pause = some (stop, start, quanta) → stop ≤ s.dev.now →
    Completes (.pauseExpire b) s fun d =>
      (d.netPort b).pause = none ∧ (d.netPort b).held = []
        ∧ (s.dev.get Reg.BE_LINK b.val = 1 → d.out = ((s.dev.netPort b).held.map fun x => .frame b.val x).reverse ++ s.dev.out)
        ∧ d.get Reg.BE_PAUSE_TIME b.val = min (s.dev.get Reg.BE_PAUSE_TIME b.val + quanta) (2 ^ 64 - 1))
  ∧ (∀ (s : State) (b : Fin 8) (up : Bool),
    Completes (.backendLinkChange b up) s fun d => d.get Reg.BE_LINK b.val
      = if up = true ∧ s.dev.get Reg.BE_MODE b.val ≠ 0 ∧ s.dev.mode ≠ .loopback then 1 else 0)
  ∧ (∀ (s : State) (b : Fin 8) (dst : BitVec 48) (len : BitVec 16) (tagged : Bool) (kind : RxKind),
    s.dev.get Reg.BE_LINK b.val = 1 → kind ≠ .control 1 →
    s.dev.forPort b dst = false ∨ 9018 + (if tagged then 4 else 0) < len.toNat ∨ kindAccepted kind = false →
    Completes (.receiveDiscard b (.frame dst len tagged kind)) s fun d =>
      d.get Reg.BE_RX_DISC b.val = min (s.dev.get Reg.BE_RX_DISC b.val + 1) (2 ^ 64 - 1) ∧ d.out = s.dev.out)
  ∧ (∀ (s : State) (b : Fin 8) (lane : Fin 4) (line : List Bool), s.dev.mode = .loopback → s.dev.get Reg.BE_MODE b.val ≠ 0 →
    let held := fun (d : Dev) => tblRead (fun _ => 0) d.beTest (b.val * 4 + lane.val)
    let x := if s.dev.get Reg.BE_TEST = 1 then prbsCheck 9 5 line (held s.dev) else prbsCheck 31 28 line (held s.dev)
    Completes (.receiveDiscard b (.bits lane line)) s fun d =>
      d.get Reg.BE_TEST_ERR b.val = min (s.dev.get Reg.BE_TEST_ERR b.val + x.1) (2 ^ 64 - 1) ∧ held d = x.2)
  ∧ (∀ (s : State) (b : Fin 8) (errors : BitVec 10), s.dev.mode ≠ .loopback → s.dev.get Reg.BE_LINK b.val = 1 → errors ≠ 0 →
    Completes (.receiveDiscard b (.codeword errors)) s fun d =>
      let counted := fun (a : Nat) => d.get a b.val = min (s.dev.get a b.val + 1) (2 ^ 64 - 1)
      if errors.toNat ≤ fecCorrects then counted Reg.BE_FEC_COR else counted Reg.BE_FEC_UNC)
  ∧ (∀ (s : State) (x : SnapIn) (rest : List SnapIn) (info : FrameInfo),
    let m := s.dev.merge
    let full := decide (2 ^ s.dev.get Reg.SNAP_RING_LOG2 ≤ m.ring.length)
    let kept := if full then m.ring.drop 1 else m.ring
    m.ringIn = x :: rest → m.frames.find? (fun f => f.key == s.dev.nearCycle x.cycLo * 4096 + x.frame) = some info →
    Completes .snapshotRingWrite s fun d =>
      d.merge.ringIn = rest ∧
        if full = true ∧ s.dev.get Reg.SNAP_RING_POLICY = 0 then
          d.merge.ring = m.ring ∧ d.get Reg.SNAP_RING_DROP = min (s.dev.get Reg.SNAP_RING_DROP + 1) (2 ^ 32 - 1)
        else d.get Reg.SNAP_RING_WSEQ = (s.dev.get Reg.SNAP_RING_WSEQ + 1) % 2 ^ 32
          ∧ d.get Reg.SNAP_RING_HELD = d.merge.ring.length % 2 ^ 32
          ∧ if info.gated = true ∧ info.decided = some false then d.merge.ring = kept
            else ∃ e, d.merge.ring = kept ++ [e] ∧ e.seq = s.dev.get Reg.SNAP_RING_WSEQ ∧ e.bytes.length = 256
              ∧ e.bytes.take 5 = beBytes 4 (s.dev.get Reg.SNAP_RING_WSEQ) ++ beBytes 1 x.port
              ∧ (e.bytes.drop 32).take 16 = beBytes 16 x.descriptor.toNat
              ∧ e.ready = (!info.gated || info.decided == some true))
  ∧ ∀ (s : State) (bad : List (Nat × Nat × BadWord)) (o : Fin 8) (first : RingEntry) (more : List RingEntry),
    let n := fragSize (s.dev.get Reg.BE_MTU) / 256
    let out := (first :: more).take n
    let e := s.dev.egr o
    s.dev.merge.ring.filter (fun r => r.ready && !r.queued) = first :: more →
    s.dev.egressPort (s.dev.route (s.dev.get Reg.SNAP_ROUTE)) = some o → n ≤ out.length ∨ first.at_ + 1024 ≤ s.dev.now →
    e.feed = [] → (∀ x ∈ s.dev.merge.ring, x.bytes.length = 256) → e.fill + 32 + 256 * out.length ≤ 524288 →
    Completes (.snapshotDatagramSend bad) s fun d =>
      d.merge.ring.map RingEntry.seq = s.dev.merge.ring.map RingEntry.seq
        ∧ (∀ r ∈ d.merge.ring, (∃ x ∈ out, x.seq = r.seq) → r.queued = true)
        ∧ ∃ f, (d.egr o).queue = e.queue ++ [f] ∧ f.num = none ∧ f.entries = out.map RingEntry.seq ∧ (bad = [] → f.payload.drop 32 = out.flatMap RingEntry.bytes)

/-! ### The latency buffer (chapter 10) -/

/-- R168, R325 to R328, R330 to R333. A pin or a calendar entry opens a window as long as the table has room. When a basket's
hold time is over, a window that overlaps its frame selects it, with the tag of the earliest; any other is freed and counted;
at the backlog limit decisions pause. The first selected basket is read out to its egress queue, whole but for the words that memory has lost. -/
def Obligations.TriggersDecideAndReadOut : Prop :=
  let opened := fun (s : State) (start : Int) (width tag : Nat) (d : Dev) =>
    let m := s.dev.mem
    if 1024 ≤ m.windows.length then
      d.mem.windows = m.windows ∧ d.get Reg.TRG_REFUSED = min (s.dev.get Reg.TRG_REFUSED + 1) (2 ^ 32 - 1)
    else
      d.get Reg.TRG_OPENED = min (s.dev.get Reg.TRG_OPENED + 1) (2 ^ 64 - 1)
        ∧ d.mem.windows = (if start + width ≤ m.decidedTo then m.windows
            else m.windows ++ [{ start := start, width := width, tag := tag }])
        ∧ d.get Reg.TRG_LATE = if (m.gatedFrom : Int) ≤ start ∧ start < m.decidedTo then
            min (s.dev.get Reg.TRG_LATE + 1) (2 ^ 32 - 1) else s.dev.get Reg.TRG_LATE
  let next := fun (b : Basket) => b.mode == .gated && (b.st == .open_ || b.st == .closed || b.st == .held)
  let over_ := fun (w : Window) (b : Basket) => w.start < b.stop ∧ (b.start : Int) < w.start + w.width
  let expired := fun (s : State) (b : Basket) (d : Dev) =>
    (∀ x ∈ d.merge.baskets, x.num ≠ b.num) ∧ d.get Reg.TRG_EXPIRED = min (s.dev.get Reg.TRG_EXPIRED + 1) (2 ^ 64 - 1)
      ∧ ∀ x ∈ s.dev.merge.baskets, x.num ≠ b.num → x ∈ d.merge.baskets
  (∀ (s : State) (i : Fin 2), s.dev.mode = .gated → s.dev.get Reg.TRG_PIN_EN i.val = 1 →
    Completes (.pinTrigger i) s fun d =>
      let n := (s.dev.get Reg.TRG_PIN_CNT i.val + 1) % 2 ^ 32
      d.get Reg.TRG_PIN_CNT i.val = n
        ∧ opened s ((s.dev.now : Int) - s.dev.get Reg.TRG_FILTER i.val + s.dev.getI Reg.TRG_OFFSET i.val)
            (s.dev.get Reg.TRG_WIDTH i.val) (2 ^ 31 + i.val * 2 ^ 29 + n % 2 ^ 24) d)
  ∧ (∀ (s : State) (o : CalOcc), s.dev.windowDue = some o → o.action = 7 →
    Completes .triggerWindowOpen s fun d =>
      d.grid.calKey = o.key + 1 ∧ opened s o.at_ o.arg (3 * 2 ^ 30 + o.entry * 2 ^ 24 + o.cycle % 2 ^ 24) d)
  ∧ (∀ (s : State) (b : Basket), s.dev.merge.baskets.find? next = some b → b.st = .held →
    s.dev.mode ≠ .configure → s.dev.mode ≠ .safe → b.num + s.dev.get Reg.TRG_HOLD_EFF + 1 ≤ s.dev.merge.next →
    (∀ w ∈ s.dev.mem.windows, -2 ^ 80 ≤ w.start ∧ w.tag < 2 ^ 32) →
    Completes .decisionPoint s fun d =>
      if s.dev.get Reg.TRG_BACKLOG ≤ s.dev.get Reg.TRG_BACKLOG_NOW then d.merge = s.dev.merge ∧ d.mem.pauseFrom.isSome = true
      else d.mem.decidedTo = max s.dev.mem.decidedTo b.stop ∧ (∀ w ∈ d.mem.windows, w ∈ s.dev.mem.windows) ∧
        if ∃ w ∈ s.dev.mem.windows, over_ w b then
          d.get Reg.TRG_SELECTED = min (s.dev.get Reg.TRG_SELECTED + 1) (2 ^ 64 - 1)
            ∧ d.get Reg.TRG_BACKLOG_NOW = (s.dev.get Reg.TRG_BACKLOG_NOW + 1) % 2 ^ 32
            ∧ ∃ b' ∈ d.merge.baskets, b'.num = b.num ∧ b'.st = .selected ∧ b'.items = b.items
              ∧ ∃ w ∈ s.dev.mem.windows, over_ w b ∧ b'.tag = w.tag
                ∧ ∀ v ∈ s.dev.mem.windows, over_ v b → w.start < v.start ∨ (w.start = v.start ∧ w.tag ≤ v.tag)
        else expired s b d)
  ∧ (∀ (s : State) (b : Basket), s.dev.merge.baskets.find? next = some b → b.st = .held →
    s.dev.mode = .configure ∨ s.dev.mode = .safe →
    Completes .decisionPoint s fun d => expired s b d)
  ∧ ∀ (s : State) (bad : List (ReadWord × BadWord)) (b : Basket) (o : Fin 8),
    let lost := (bad.filter fun x => s.dev.losesWord x.2).map Prod.fst ++ s.dev.goneWords b
    let fs := b.frags (b.readBody (s.dev.get Reg.BE_FW_VER) (s.dev.get Reg.COM_NODE) lost) (s.dev.get Reg.COM_NODE)
      (s.dev.get Reg.BE_SRC_UDP o.val) (s.dev.get Reg.BE_MTU) true
    let n := s.dev.get Reg.TRG_BACKLOG_NOW - 1
    s.dev.merge.baskets.find? (fun b => b.st == .selected) = some b → s.dev.egressPort b.route = some o →
    (s.dev.egr o).feed = [] → (s.dev.egr o).fill + ((fs.map fun f => f.payload.length).headD 0) ≤ 524288 →
    Completes (.gatedReadout bad) s fun d =>
      (∃ b' ∈ d.merge.baskets, b'.num = b.num ∧ b'.st = .sending) ∧ d.get Reg.TRG_BACKLOG_NOW = n % 2 ^ 32
        ∧ (d.egr o).queue ++ (d.egr o).feed = (s.dev.egr o).queue ++ fs
        ∧ d.mem.pauseFrom = if n < s.dev.get Reg.TRG_BACKLOG then none else s.dev.mem.pauseFrom

/-- R13, R320 to R323, R334 to R336, R338, R339, R343, R344. Scrub windows raise the scrubber's cap while they last; it reads word
after word, no further than the smaller of its cap and the governor's permit allows; laps are timed against Lap Limit, and what a
read finds is counted and marks blocks. A pitch beyond what there is is refused. Scaling leaves
at most the usable capacity, from priority 0 up, and takes nothing while the configured capacities fit; it follows when a
channel goes OFFLINE. -/
def Obligations.MemoryIsScrubbedAndScaled : Prop :=
  let scaled := fun (s : State) (d : Dev) =>
    let cap := fun k => s.dev.get Reg.ST_CAP k
    let eff := fun k => d.get Reg.ST_EFF_CAP k
    d.get Reg.MEM_USABLE = s.dev.usableMiB % 2 ^ 32 ∧ sumBy eff (List.range 64) ≤ s.dev.usableMiB
      ∧ (∀ k < 64, eff k ≤ cap k ∧ d.get Reg.ST_CAP k = cap k)
      ∧ (sumBy cap (List.range 64) ≤ s.dev.usableMiB → ∀ k < 64, eff k = cap k)
      ∧ ∀ k < 64, ∀ j < 64, s.dev.get Reg.ST_PRIO j < s.dev.get Reg.ST_PRIO k → eff k < cap k → eff j = 0
  let paid := fun (s : State) => s.dev.mem.scrubPaid
    + min s.dev.scrubCap (s.dev.get Reg.GV_SCRUB_PERMIT) * 1000 * (s.dev.now - s.dev.mem.scrubAt)
  let fair := fun (s : State) => ∀ k < 64, s.dev.get Reg.ST_PRIO k ≤ 8 ∧ s.dev.get Reg.ST_CAP k < 2 ^ 32
  (∀ (s : State) (o : CalOcc), s.dev.windowDue = some o → o.action = 6 →
    Completes .scrubWindowOpen s fun d =>
      d.grid.calKey = o.key + 1 ∧ d.mem.scrubUntil = some (max (s.dev.mem.scrubUntil.getD 0) (o.at_ + o.arg))
        ∧ bit (d.get Reg.SCR_STATUS) 1 = true)
  ∧ (∀ (s : State) (t : Nat), s.dev.mem.scrubUntil = some t →
    Completes .scrubWindowEnd s fun d =>
      if t ≤ s.dev.now then d.mem.scrubUntil = none ∧ bit (d.get Reg.SCR_STATUS) 1 = false else d = s.dev)
  ∧ (∀ (s : State) (bits : BitVec 72), Completes (.scrubRead (.sram bits)) s fun d =>
      d.mem = s.dev.mem ∧ d.get Reg.ECC_SRAM_COR
        = if codeFault (bits.toNat / 2 ^ 8) (bits.toNat % 2 ^ 8) = some .corrected then
            min (s.dev.get Reg.ECC_SRAM_COR + 1) (2 ^ 64 - 1) else s.dev.get Reg.ECC_SRAM_COR)
  ∧ (∀ (s : State) (x : BadWord),
    let m := x.chan.val
    let addr := x.block.toNat * 2 ^ 18 + x.word.toNat
    s.dev.mode ≠ .safe → s.dev.get Reg.MEM_CH_STATE m = 2 → addr < s.dev.get Reg.MEM_CH_SIZE m * 2 ^ 17 →
    s.dev.mem.scrubPos ≤ m * 2 ^ 32 + addr → 8 * (s.dev.wordsBefore m addr + 1) * s.dev.get Reg.TB_FNOM ≤ paid s →
    Completes (.scrubRead (.external x)) s fun d =>
      let b := m * 2 ^ 20 + x.block.toNat
      let gone := (∃ y ∈ d.mem.marked, y.1 = b) ∨ b ∈ d.mem.retired
      let up := fun (a : Nat) => d.get a m = min (s.dev.get a m + 1) (2 ^ 64 - 1)
      d.mem.scrubPos = m * 2 ^ 32 + addr + 1 ∧ d.mem.scrubPaid = paid s ∧ match s.dev.wordFault x with
        | none => d.mem.marked = s.dev.mem.marked ∧ d.mem.retired = s.dev.mem.retired ∧ d.regs = s.dev.regs
        | some .corrected => up Reg.ECC_COR ∧ (s.dev.get Reg.MEM_RETIRE_THR ≤ 1 → gone)
        | some .uncorrectable => up Reg.ECC_UNC ∧ gone
        | some .tagError => up Reg.ECC_TAG ∧ d.mem.marked = s.dev.mem.marked ∧ d.mem.retired = s.dev.mem.retired)
  ∧ (∀ s : State, Completes (.scrubLapEnd true) s fun d =>
      d.mem.sramLapFrom = s.dev.now
        ∧ d.get Reg.SCR_SRAM_LAP = min ((s.dev.now - s.dev.mem.sramLapFrom) / s.dev.get Reg.TB_FNOM) (2 ^ 32 - 1))
  ∧ (∀ s : State, 8 * s.dev.wordsBefore 8 0 * s.dev.get Reg.TB_FNOM ≤ paid s → Completes (.scrubLapEnd false) s fun d =>
      let n := s.dev.now - s.dev.mem.lapFrom
      d.mem.lapFrom = s.dev.now ∧ d.mem.scrubPos = 0 ∧ d.get Reg.SCR_LAP = n / s.dev.second % 2 ^ 32
        ∧ d.get Reg.SCR_LAPS = min (s.dev.get Reg.SCR_LAPS + 1) (2 ^ 32 - 1)
        ∧ (n ≤ s.dev.get Reg.SCR_LAP_LIMIT * s.dev.second → bit (d.get Reg.SCR_STATUS) 0 = false))
  ∧ (∀ s : State, s.dev.get Reg.SCR_LAP_LIMIT * s.dev.second < s.dev.now - s.dev.mem.lapFrom →
    bit (s.dev.get Reg.SCR_STATUS) 0 = false → s.dev.ledger.buffer.length < 1024 →
    Completes .lapLimitExceeded s fun d => bit (d.get Reg.SCR_STATUS) 0 = true ∧ d.Recorded 0xFF 0x0704)
  ∧ (∀ (s : State) (w : Writer) (bw : Bool) (k : Fin 64) (val : Bytes),
    let a := if bw then Reg.ST_BW else Reg.ST_CAP
    s.dev.Admits w a k.val val →
    Completes (.stallPitchWrite w bw (BitVec.ofNat 16 k.val) val) s fun d =>
      let sum := sumBy (fun j => if j = k.val then beNat val else s.dev.get a j) (List.range 64)
      if k.val = 2 then d.Answered w .access ∧ d.get a 2 = s.dev.get a 2
      else if bw = false ∧ beNat val % 2 = 1 then d.Answered w .range ∧ d.get a k.val = s.dev.get a k.val
      else if (if bw then 307000 else s.dev.get Reg.MEM_USABLE) < sum then
        d.Answered w .pitchOvercommit ∧ d.get a k.val = s.dev.get a k.val
      else d.Answered w .accepted ∧ d.get a k.val = beNat val)
  ∧ (∀ (s : State) (t cause : Nat), s.dev.mem.scaleAt = some (t, cause) → t ≤ s.dev.now → fair s →
    Completes .pitchScaling s fun d => d.mem.scaleAt = none ∧ scaled s d)
  ∧ (∀ (s : State) (t : Nat), s.dev.mem.restoreAt = some t → t ≤ s.dev.grid.cycleStart → fair s →
    Completes .pitchRestore s fun d => d.mem.restoreAt = none ∧ scaled s d)
  ∧ ∀ (s : State) (m : Fin 8) (cause : Fin 3),
    s.dev.get Reg.MEM_CH_STATE m.val = 2 → cause ≠ 1 → s.dev.ledger.buffer.length < 1024 →
    Completes (.memoryChannelOffline m cause) s fun d =>
      d.get Reg.MEM_CH_STATE m.val = 3 ∧ bit (d.get Reg.MEM_ONLINE) m.val = false
        ∧ d.mem.scaleAt = some (s.dev.now + 1, 0) ∧ d.Recorded 0xFF 0x0706

/-- R334, R342. Diagnostic mode is enabled in CONFIGURE and CALIBRATE. A raw write stores the given word and no other, a raw
read gives it back, and a checked read corrects the one wrong data bit, names it, and reports what the code cannot correct;
the code takes every single wrong bit of DATA or CHECK for what it is, and every two wrong data bits as uncorrectable. -/
def Obligations.DiagnosticModeAndMemoryCode : Prop :=
  let on := fun (s : State) (w : Writer) (n : Nat) =>
    s.dev.get Reg.ECC_DIAG_EN = 1 ∧ s.dev.Admits w Reg.ECC_DIAG_CMD 0 (beBytes 1 n)
      ∧ (s.dev.get Reg.ECC_DIAG_CH = 8 → s.dev.get Reg.ECC_DIAG_ADDR ≤ 8191)
  (∀ (s : State) (w : Writer) (val : Bytes), s.dev.Admits w Reg.ECC_DIAG_EN 0 val →
    Completes (.diagnosticEnable w val) s fun d =>
      if s.dev.mode = .configure ∨ s.dev.mode = .calibrate then d.Answered w .accepted ∧ d.get Reg.ECC_DIAG_EN = beNat val
      else d.Answered w .wrongMode ∧ d.get Reg.ECC_DIAG_EN = s.dev.get Reg.ECC_DIAG_EN)
  ∧ (∀ (s : State) (w : Writer), on s w 1 →
    Completes (.diagnosticWriteRaw w) s fun d =>
      d.Answered w .accepted ∧ (s.dev.diagReaches = false → d.mem = s.dev.mem)
        ∧ (s.dev.diagReaches = true → d.diagWord.data = s.dev.get Reg.ECC_DIAG_DATA ∧ d.diagWord.check = s.dev.get Reg.ECC_DIAG_CHK
        ∧ d.diagWord.tag = (if s.dev.get Reg.ECC_DIAG_CH = 8 then 0 else s.dev.get Reg.ECC_DIAG_TAG))
        ∧ ∀ k, k ≠ s.dev.diagKey → tblRead diagDflt d.mem.diag k = tblRead diagDflt s.dev.mem.diag k)
  ∧ (∀ (s : State) (w : Writer), on s w 2 →
    Completes (.diagnosticReadRaw w) s fun d =>
      d.Answered w .accepted ∧ d.mem = s.dev.mem
        ∧ (s.dev.diagReaches = true → d.get Reg.ECC_DIAG_DATA = s.dev.diagWord.data % 2 ^ 64
          ∧ d.get Reg.ECC_DIAG_CHK = s.dev.diagWord.check % 2 ^ 8 ∧ d.get Reg.ECC_DIAG_TAG = s.dev.diagWord.tag % 2 ^ 8))
  ∧ (∀ (s : State) (w : Writer) (i : Fin 64) (v : BitVec 64), on s w 3 → s.dev.diagReaches = true →
    s.dev.get Reg.ECC_DIAG_CH ≠ 8 → s.dev.diagWord.tag = addrParity (s.dev.get Reg.ECC_DIAG_ADDR) →
    s.dev.diagWord.check = secdedCheck v.toNat → s.dev.diagWord.data = v.toNat ^^^ 2 ^ i.val →
    Completes (.diagnosticReadChecked w) s fun d =>
      d.Answered w .accepted ∧ d.get Reg.ECC_DIAG_DATA = v.toNat ∧ d.mem = s.dev.mem
        ∧ d.get Reg.ECC_DIAG_RES % 256 = 64 + i.val
        ∧ d.get Reg.ECC_DIAG_RES / 256 = s.dev.diagWord.check ^^^ secdedCheck s.dev.diagWord.data)
  ∧ (∀ (s : State) (w : Writer), on s w 3 → s.dev.diagReaches = true →
    s.dev.get Reg.ECC_DIAG_CH ≠ 8 → s.dev.diagWord.tag ≠ addrParity (s.dev.get Reg.ECC_DIAG_ADDR) →
    Completes (.diagnosticReadChecked w) s fun d =>
      d.Answered w .accepted ∧ d.get Reg.ECC_DIAG_DATA = s.dev.diagWord.data % 2 ^ 64
        ∧ d.get Reg.ECC_DIAG_RES / 64 % 4 = 3)
  ∧ ∀ v : BitVec 64,
    let syn := fun (x : Nat) => secdedCheck v.toNat ^^^ secdedCheck x
    readSyndrome (syn v.toNat) = .correct
      ∧ (∀ i < 64, readSyndrome (syn (v.toNat ^^^ 2 ^ i)) = .dataBit i)
      ∧ (∀ i < 8, readSyndrome ((secdedCheck v.toNat ^^^ 2 ^ i) ^^^ secdedCheck v.toNat) = .checkBit)
      ∧ ∀ i < 64, ∀ j < 64, i ≠ j → readSyndrome (syn (v.toNat ^^^ 2 ^ i ^^^ 2 ^ j)) = .uncorrectable

/-! ### The governor (chapter 11) -/

/-- R36 to R38, R351 to R358, R360 to R364, R366, R367. A window or wake raise is granted when die, caddy, fence and cost
allow it, and its BIAS command goes out; raises end and are forgotten; at slot 64 the levels are repeated. The
concentrator's die, at its hottest sensor, rises after Steep Time and its gates follow; a flap hold ends; the domain caddies move by budget less
power. A trip caps every region at SENTINEL until its release, and the bias limit is raised only in CONFIGURE. -/
def Obligations.GovernorGrantsGatesAndFences : Prop :=
  let hottest := fun (sensors : List (BitVec 16)) => (sensors.map BitVec.toInt).foldl max (sensors.headD 0).toInt
  let open_ := fun (s : State) (p : Port) (g req start from_ stop : Nat) =>
    s.dev.portUp p = true ∧ s.dev.modePend = none ∧ s.dev.raisesOf p g = [] ∧ (s.dev.caddy p.val).empty = false
      ∧ s.dev.dieState p = 0 ∧ req ≤ s.dev.get Reg.GV_FENCE_MAX (p.val * 16 + g) ∧ s.dev.restAt p g start < req
      ∧ s.dev.cost p g req (s.dev.stepsOf p g from_ stop) ≤ (s.dev.caddy p.val).bal - s.dev.committed p
  (∀ (s : State) (p : Port) (o : CalOcc) (raise g : Nat),
    let req := s.dev.windowRequest p g o
    let dur := o.arg % 2 ^ 16
    s.dev.nextPrecision p = some (o, raise) → bitsOf o.groups 16 = [g] → open_ s p g req raise o.at_ (o.at_ + dur) →
    raise < o.at_ + dur → (s.dev.port p).cmds = [] →
    Completes (.precisionGrant p) s fun d =>
      (∃ r, d.gov.raises = s.dev.gov.raises ++ [r] ∧ r.port = p.val ∧ r.group = g ∧ r.level = req ∧ r.start = raise
        ∧ r.open_ = o.at_ ∧ r.stop = o.at_ + dur ∧ r.window = true ∧ r.ended = false)
      ∧ ∃ f, (d.port p).cmds = [f] ∧ f.op = .bias (BitVec.ofNat 16 (2 ^ g)) (Fin.ofNat 4 req))
  ∧ (∀ (s : State) (p : Port) (o : CalOcc) (raise g : Nat),
    s.dev.nextPrecision p = some (o, raise) → bitsOf o.groups 16 = [g] → s.dev.portUp p = true →
    (s.dev.caddy p.val).empty = true ∨ s.dev.dieState p = 3 →
    Completes (.precisionGrant p) s fun d =>
      d.gov.raises = s.dev.gov.raises ∧ (d.port p).cmds = (s.dev.port p).cmds
        ∧ d.get Reg.GV_REFUSED (p.val * 16 + g) = min (s.dev.get Reg.GV_REFUSED (p.val * 16 + g) + 1) (2 ^ 32 - 1))
  ∧ (∀ (s : State) (p : Port) (exec groups : BitVec 16) (late cancelled : BitVec 8) (g : Nat),
    let start := s.dev.target p
    let hold := s.dev.get Reg.GV_WAKE_HOLD
    bitsOf groups.toNat 16 = [g] → s.dev.mode = .stream ∨ s.dev.mode = .gated → s.dev.nextPrecision p = none →
    open_ s p g 3 start start (start + hold) →
    Completes (.festatWakeReceive p exec late cancelled groups) s fun d =>
      d.get Reg.GV_WAKES (p.val * 16 + g) = min (s.dev.get Reg.GV_WAKES (p.val * 16 + g) + 1) (2 ^ 32 - 1)
        ∧ ∃ r, d.gov.raises = s.dev.gov.raises ++ [r] ∧ r.port = p.val ∧ r.group = g ∧ r.level = 3 ∧ r.start = start
          ∧ r.stop = start + hold ∧ r.window = false ∧ r.ended = false)
  ∧ (∀ (s : State) (p : Port), s.dev.modePend = none →
    Completes (.raiseEnd p) s fun d =>
      (∀ r ∈ s.dev.gov.raises, r.port ≠ p.val → r ∈ d.gov.raises)
        ∧ (∀ r ∈ d.gov.raises, r.port = p.val → r.ended = true → s.dev.now < r.stop)
        ∧ (∀ r ∈ d.gov.raises, r.port = p.val → r.stop ≤ s.dev.now + s.dev.get Reg.CAL_LEAD → r.ended = true)
        ∧ d.gov.caddies = s.dev.gov.caddies)
  ∧ (∀ (s : State) (p : Port) (l : Fin 4), 64 ≤ s.dev.slot → s.dev.gov.repeatCycle ≠ some s.dev.grid.cycle →
    s.dev.portUp p = true → (s.dev.port p).cmds = [] → (∀ g < 16, s.dev.levelAt p g (s.dev.target p) = l.val) →
    Completes .biasRepeat s fun d =>
      d.gov.repeatCycle = some s.dev.grid.cycle ∧ d.gov.raises = s.dev.gov.raises
        ∧ ∃ f, (d.port p).cmds = [f] ∧ f.op = .bias 0xFFFF l)
  ∧ (∀ (s : State) (sensors : List (BitVec 16)) (t : Nat),
    let x := s.dev.gov.dies[32]
    let temp := hottest sensors
    sensors.length = 12 → s.dev.inReset = false → x.evalAt + 1024 ≤ s.dev.now → (∀ p, (s.dev.port p).staleFrom = none) →
    x.state < 3 → s.dev.threshold 3 ≤ temp → x.rise[2] = some t → t + s.dev.ms (s.dev.get Reg.GV_STEEP) ≤ s.dev.now →
    x.changes = [] → 1 < s.dev.get Reg.GV_FLAP_N → s.dev.ledger.buffer.length < 1024 →
    (s.dev.caddy 32).empty = false → (s.dev.caddy 34).empty = false →
    Completes (.thermalEvaluation sensors) s fun d =>
      d.gov.dies[32].state = 3 ∧ d.gov.dies[32].evalAt = s.dev.now ∧ d.getI Reg.GV_TEMP 32 = temp ∧ d.gov.sensors.toList = sensors.map BitVec.toInt ∧ d.Recorded 0xFF 0x0801
        ∧ d.get Reg.GV_CORES = s.dev.get Reg.GV_MIN_CORES % 2 ^ 8 ∧ d.get Reg.GV_MEM_THROTTLE = 50
        ∧ bit (d.get Reg.GV_STATUS) 0 = true)
  ∧ (∀ (s : State) (sensors : List (BitVec 16)),
    let x := s.dev.gov.dies[32]
    let temp := hottest sensors
    sensors.length = 12 →
    s.dev.inReset = false → x.evalAt + 1024 ≤ s.dev.now → (∀ p, (s.dev.port p).staleFrom = none) →
    x.state = 0 → temp < s.dev.threshold 1 → temp < s.dev.threshold 2 → temp < s.dev.threshold 3 →
    (s.dev.caddy 32).empty = false → (s.dev.caddy 34).empty = false →
    Completes (.thermalEvaluation sensors) s fun d =>
      d.gov.dies[32].state = 0 ∧ d.gov.dies[32].rise = Vector.replicate 3 none ∧ d.get Reg.GV_CORES = 16
        ∧ d.get Reg.GV_MEM_THROTTLE = 100 ∧ bit (d.get Reg.GV_STATUS) 0 = false
        ∧ (100 < s.dev.get Reg.GV_MEM_THROTTLE → d.mem.scaleAt = some (s.dev.now + 1, 2)))
  ∧ (∀ (s : State) (i : Fin 33) (t top : Nat),
    let x := s.dev.gov.dies[i.val]
    let stale := decide (i.val < 32) && (s.dev.port (Fin.ofNat 32 i.val)).staleFrom.isSome
    x.hold = some (t, top) → t ≤ s.dev.now → x.changes = [] → 1 < s.dev.get Reg.GV_FLAP_N →
    Completes (.flapHoldEnd i) s fun d =>
      d.gov.dies[i.val].hold = none
        ∧ d.gov.dies[i.val].state = if s.dev.steepSince x.fall = true ∧ stale = false then x.state - 1 else x.state)
  ∧ (∀ (s : State) (logic serdes memory : BitVec 32), s.dev.inReset = false → (s.dev.caddy 32).at_ + 1024 ≤ s.dev.now →
    Completes (.domainCaddyUpdate logic serdes memory) s fun d =>
      ∀ c : Fin 3,
        let power := (#v[logic, serdes, memory])[c].toNat
        let lim : Rat := (s.dev.get Reg.GV_DOM_DEPTH c.val * 1000 : Nat)
        let gain : Rat := (((s.dev.get Reg.GV_DOM_BUDGET c.val : Int) - power) * 1024000 : Int) / ((s.dev.get Reg.TB_FNOM : Nat) : Rat)
        let x := s.dev.caddy (32 + c.val)
        let bal := max (-lim) (min lim (x.bal + gain))
        d.caddy (32 + c.val) = { bal := bal, at_ := s.dev.now
                                 empty := if x.empty then !decide (lim * s.dev.get Reg.GV_RESUME ≤ bal * 100) else decide (bal < 0) }
          ∧ d.get Reg.GV_DOM_POWER c.val = power)
  ∧ (∀ (s : State) (p : Port) (mean : BitVec 16), (s.dev.fe p).runs = true → (s.dev.fe p).tripped = false → 1200 ≤ mean.toInt →
    Completes (.feThermalTrip p mean) s fun d =>
      (d.fe p).tripped = true ∧ (d.fe p).fenceActed = true ∧ ∀ r < 256, ((d.fe p).region r).level ≤ 1)
  ∧ (∀ (s : State) (p : Port) (mean : BitVec 16) (cool : BitVec 32) (t : Nat),
    (s.dev.fe p).tripped = true → (s.dev.fe p).tripFrom = some t →
    Completes (.feTripRelease p mean cool) s fun d =>
      if mean.toInt < 1120 ∧ s.dev.ms 100 ≤ cool.toNat ∧ t + cool.toNat ≤ s.dev.now then
        (d.fe p).tripped = false ∧ (d.fe p).tripFrom = none
      else d = s.dev)
  ∧ ∀ (s : State) (w : Writer) (e : BitVec 16) (val : Bytes), s.dev.Admits w Reg.GV_FENCE_MAX e.toNat val →
    Completes (.fenceBiasLimitWrite w e val) s fun d =>
      let named := fun (k : Nat) => e.toNat = k ∨ e.toNat = 0xFFFF
      let raised := s.dev.mode ≠ .configure ∧ ∃ k < 512, named k ∧ s.dev.get Reg.GV_FENCE_MAX k < beNat val
      d.fes = s.dev.fes ∧ (raised → d.Answered w .wrongMode ∧ ∀ k < 512, d.get Reg.GV_FENCE_MAX k = s.dev.get Reg.GV_FENCE_MAX k)
        ∧ (¬ raised → d.Answered w .accepted ∧ (∀ k < 512, named k → d.get Reg.GV_FENCE_MAX k = beNat val)
          ∧ ∀ k < 512, ¬ named k → d.get Reg.GV_FENCE_MAX k = s.dev.get Reg.GV_FENCE_MAX k)

/-! ### Service cores and images (chapter 12) -/

/-- R337, R371, R374 to R383, R385 to R387, R390, R461, R479. A post is listed, refused or answered by its task's class and state; a
source posts what it holds while it is below its limit; the first candidate, of highest effective priority and then oldest,
starts on the first idle eligible core; a job ends by COMPLETE, its narrow stores counted, or by abort past Job Run Limit, whose third in 10 s faults its
task; a faulty core is reloaded, or FAILED the second time within 1 s. A core's access outside the map is counted and raises the
fault; a load of SRAM, shared area or SPILL memory finds the bytes its last store left there. -/
def Obligations.JobsArePostedDispatchedAndEnded : Prop :=
  let listed := fun (s : State) (src : Nat) (t : Nat) =>
    s.dev.coresRun = true ∧ s.dev.srcFull src = false
      ∧ ∃ x ∈ s.dev.task t, x.data = true ∧ x.source = src ∧ x.faulted = false
  let posted := fun (s : State) (src t arg : Nat) (d : Dev) =>
    ∃ j, d.sched.data = s.dev.sched.data ++ [j] ∧ j.task = t ∧ j.data = true ∧ j.source = src ∧ j.arg = arg
      ∧ j.prio = s.dev.get Reg.SC_TASK_PRIO t ∧ j.seq = s.dev.sched.seq ∧ j.slot = s.dev.now
  (∀ (s : State) (c : Fin 16) (t : Fin 1024) (arg : BitVec 32) (x : Task), s.dev.coresRun = true → s.dev.task t.val = some x →
    Completes (.servicePost (some c) t arg) s fun d =>
      let status := (d.sched.cores[c.val]).postStatus
      (d.sched.cores[c.val]).postArg = arg.toNat ∧
      if x.data then status = 4 ∧ d.sched.service = s.dev.sched.service
      else if x.faulted then status = 3 ∧ d.sched.service = s.dev.sched.service
      else if s.dev.overPitch 1 = true ∨ (64 ≤ s.dev.sched.staging.length ∧ s.dev.spillRoom ≤ s.dev.sched.spilled.length) then
        status = 2 ∧ d.sched.service = s.dev.sched.service ∧ d.sched.staging = s.dev.sched.staging
          ∧ d.get Reg.SC_SVC_REFUSED = min (s.dev.get Reg.SC_SVC_REFUSED + 1) (2 ^ 32 - 1)
      else d.sched.seq = (s.dev.sched.seq + 1) % 2 ^ 32 ∧
        if s.dev.sched.spilled = [] ∧ s.dev.sched.staging = [] ∧ s.dev.sched.service.length < 2048 then
          status = 0 ∧ ∃ j, d.sched.service = s.dev.sched.service ++ [j] ∧ j.task = t.val ∧ j.arg = arg.toNat
            ∧ j.seq = s.dev.sched.seq ∧ j.slot = s.dev.now ∧ j.prio = s.dev.get Reg.SC_TASK_PRIO t.val
        else status = 1 ∧ d.sched.service = s.dev.sched.service)
  ∧ (∀ (s : State) (c : Fin 16) (t : Fin 1024) (arg : BitVec 32), s.dev.coresRun = true → s.dev.task t.val = none →
    Completes (.servicePost (some c) t arg) s fun d =>
      (d.sched.cores[c.val]).postStatus = 4 ∧ d.sched.service = s.dev.sched.service)
  ∧ (∀ (s : State) (i : Fin 8) (t : Fin 1024) (arg : BitVec 32), listed s 3 t.val → 64 ≤ s.dev.tu.tim[i.val].gained →
    Completes (.dataJobPost (.tim i t arg)) s fun d =>
      posted s 3 t.val arg.toNat d ∧ d.tu.tim[i.val].gained = s.dev.tu.tim[i.val].gained - 64)
  ∧ (∀ (s : State) (c : Fin 16) (tid : BitVec 16) (t : Fin 1024) (arg : BitVec 32),
    let mine := fun (q : Request) => q.client = c ∧ q.tid = tid
    listed s 0 t.val → s.dev.sched.delegations = [] → (∃ q ∈ s.dev.keeper.queue, mine q ∧ q.delegated = false) →
    Completes (.dataJobPost (.keeper c tid t arg)) s fun d =>
      posted s 0 t.val arg.toNat d ∧ (∀ j ∈ d.sched.data.getLast?, j.request = some (c, tid))
        ∧ ∀ q ∈ d.keeper.queue, mine q → q.delegated = true)
  ∧ (∀ (s : State) (c : Fin 16) (tid : BitVec 16) (t : Fin 1024) (arg : BitVec 32) (x : Task),
    s.dev.coresRun = true → s.dev.task t.val = some x → x.data = true → x.source = 0 →
    (∃ q ∈ s.dev.keeper.queue, q.client = c ∧ q.tid = tid ∧ q.delegated = false) → 64 ≤ s.dev.sched.delegations.length →
    Completes (.dataJobPost (.keeper c tid t arg)) s fun d =>
      d.Answered (.client c tid) .busy ∧ d.sched = s.dev.sched)
  ∧ (∀ (s : State) (e : Fin 4) (t arg : Nat), s.dev.cvu[e.val].held = some (t, arg) → listed s 1 t →
    Completes (.dataJobPost (.cvu e)) s fun d => posted s 1 t arg d ∧ d.cvu[e.val].held = none)
  ∧ (∀ (s : State) (n : Fin 16) (t arg : Nat), s.dev.em.chans[n.val].waiting = some arg → s.dev.envTasks = [t] → listed s 2 t →
    Completes (.dataJobPost (.env n)) s fun d => posted s 2 t arg d ∧ d.em.chans[n.val].waiting = none)
  ∧ (∀ (s : State) (j : Job) (more : List Job) (c : Fin 16) (idle : List (Fin 16)),
    s.dev.coresRun = true → s.dev.sched.dispatchAt ≠ some s.dev.now → s.dev.candidates = j :: more →
    s.dev.eligible.filter s.dev.coreIdle = c :: idle → (∀ k ∈ s.dev.eligible, k.val ≠ s.dev.get Reg.SC_TASK_AFF j.task) →
    (∀ k ∈ s.dev.sched.data ++ s.dev.sched.service, s.dev.now ≤ k.slot + 2 ^ 31) →
    Completes .jobDispatch s fun d =>
      (d.sched.cores[c.val]).job = some (j, s.dev.now) ∧ d.sched.dispatchAt = some s.dev.now
        ∧ (∃ entry, .startJob c.val entry j.arg j.task j.seq sramTop ∈ d.out)
        ∧ ∀ k ∈ more, s.dev.ePrio k < s.dev.ePrio j ∨ (s.dev.ePrio k = s.dev.ePrio j ∧ j.slot ≤ k.slot))
  ∧ (∀ (s : State) (c : Fin 16) (stores : List CoreStore) (j : Job) (since : Nat),
    let narrow := fun (x : CoreStore) => s.dev.inSpill x.addr.toNat (2 ^ x.len.val) = true ∧ x.addr.toNat % 2 ^ x.len.val = 0
    (s.dev.sched.cores[c.val]).job = some (j, since) → s.dev.coresRun = true → j.task < 1024 →
    Completes (.jobComplete c stores) s fun d =>
      ((∀ x ∈ stores, narrow x) →
          d.get Reg.MEM_RMW = min (s.dev.get Reg.MEM_RMW + stores.length) (2 ^ 64 - 1))
        ∧ (d.sched.cores[c.val]).job = none ∧ (d.sched.cores[c.val]).freeAt = s.dev.now + 1
        ∧ d.get Reg.SC_CORE_JOBS c.val = min (s.dev.get Reg.SC_CORE_JOBS c.val + 1) (2 ^ 64 - 1)
        ∧ d.get Reg.SC_TASK_JOBS j.task = min (s.dev.get Reg.SC_TASK_JOBS j.task + 1) (2 ^ 64 - 1)
        ∧ d.get Reg.SC_CORE_BUSY c.val = min (s.dev.get Reg.SC_CORE_BUSY c.val + (s.dev.now - since)) (2 ^ 64 - 1))
  ∧ (∀ (s : State) (c : Fin 16) (stores : List CoreStore) (j : Job) (since : Nat) (x : Task),
    (s.dev.sched.cores[c.val]).job = some (j, since) → s.dev.coresRun = true → j.task < 1024 →
    s.dev.get Reg.SC_RUN_LIMIT < s.dev.now - since → s.dev.task j.task = some x → s.dev.ledger.buffer.length < 1024 →
    Completes (.jobAbort c stores) s fun d =>
      (d.sched.cores[c.val]).job = none ∧ (d.sched.cores[c.val]).freeAt = s.dev.now + 64 ∧ d.Recorded 0xFF 0x0902
        ∧ d.get Reg.SC_ABORTS = min (s.dev.get Reg.SC_ABORTS + 1) (2 ^ 32 - 1)
        ∧ (2 ≤ (x.aborts.filter fun t => decide (s.dev.now < t + s.dev.ms 10000)).length →
          ∃ x', d.task j.task = some x' ∧ x'.faulted = true))
  ∧ (∀ (s : State) (w : Writer) (t : Fin 1024) (val : Bytes) (x : Task), s.dev.Admits w Reg.SC_TASK_RESTORE t.val val →
    s.dev.task t.val = some x →
    Completes (.taskRestore w (BitVec.ofNat 16 t.val) val) s fun d =>
      if x.unused then d.Answered w .accepted ∧ d.task t.val = none
      else if x.faulted then d.Answered w .accepted ∧ d.task t.val = some { x with faulted := false, aborts := [] }
        ∧ d.get Reg.SC_TASK_PRIO t.val = x.prio % 2 ^ 8
      else d.Answered w .range ∧ d.task t.val = some x)
  ∧ (∀ (s : State) (seg : List Job) (rest : List (List Job)), s.dev.sched.spilled = seg :: rest → s.dev.coresRun = true →
    s.dev.sched.service.length ≤ 1984 → s.dev.sched.unspillAt ≤ s.dev.now →
    Completes (.spillSegmentReadback []) s fun d =>
      d.sched.service.take (s.dev.sched.service.length + seg.length) = s.dev.sched.service ++ seg
        ∧ d.sched.unspillAt = s.dev.now + 16 ∧ d.sched.spilled.take rest.length = rest)
  ∧ (∀ (s : State) (c : Fin 16) (access : CoreAccess),
    let a := access.addr.toNat
    let n := 2 ^ access.len.val
    s.dev.coresRun = true →
    s.dev.inMap a n = false ∨ (access.store = true ∧ ∃ i < n, readOnlyReg (a + i) = true) →
    Completes (.coreAccessFault c access) s fun d =>
      d.out = .coreFault c.val :: s.dev.out
        ∧ d.get Reg.SC_CORE_AFLT c.val = min (s.dev.get Reg.SC_CORE_AFLT c.val + 1) (2 ^ 32 - 1))
  ∧ (∀ (s : State) (c : Fin 16) (access : CoreAccess) (x : BadWord),
    s.dev.coresRun = true → access.store = false → access.word = some x →
    s.dev.inSpill access.addr.toNat (2 ^ access.len.val) = true →
    Completes (.coreAccessFault c access) s fun d =>
      if s.dev.losesWord x = true then d.out = .coreFault c.val :: s.dev.out
          ∧ d.get Reg.SC_SPILL_FLT = min (s.dev.get Reg.SC_SPILL_FLT + 1) (2 ^ 32 - 1)
      else (∃ v, d.out = .coreLoad c.val v :: s.dev.out) ∧ d.get Reg.SC_SPILL_FLT = s.dev.get Reg.SC_SPILL_FLT)
  ∧ (∀ (s : State) (c : Fin 16) (access : CoreAccess),
    let a := access.addr.toNat
    let n := 2 ^ access.len.val
    let found := fun (d : Dev) (b m : Nat) => (d.coreBytes c b m).1
    s.dev.coresRun = true → access.word = none →
    a + n ≤ 0x20000 ∨ withinMap 0x30000000 0x3F0000 a n = true ∨ s.dev.inSpill a n = true →
    Completes (.coreAccessFault c access) s fun d =>
      if access.store then d.out = s.dev.out ∧ found d a n = leBytes n access.data.toNat
          ∧ ∀ b, b < a ∨ a + n ≤ b → found d b 1 = found s.dev b 1
      else d.out = .coreLoad c.val ((found s.dev a n).foldr (fun b v => b + 256 * v) 0) :: s.dev.out)
  ∧ (∀ (s : State) (c : Fin 16),
    let k := s.dev.sched.cores[c.val]
    let again := ∃ t ∈ k.reloadedAt, s.dev.now < t + s.dev.ms 1000
    k.failed = false → k.reload = false →
    Completes (.coreSramError c) s fun d =>
      let k' := d.sched.cores[c.val]
      k'.job = none ∧ (again → k'.failed = true ∧ k'.reload = false) ∧ (¬ again → k'.failed = false ∧ k'.reload = true)
        ∧ (k.job.isSome = true → d.get Reg.SC_ABORTS = min (s.dev.get Reg.SC_ABORTS + 1) (2 ^ 32 - 1)))
  ∧ (∀ (s : State) (c : Fin 16), (s.dev.sched.cores[c.val]).reload = true → s.dev.ledger.buffer.length < 1024 →
    Completes (.coreReloadComplete c) s fun d =>
      (d.sched.cores[c.val]).reload = false ∧ (d.sched.cores[c.val]).reloadedAt = some s.dev.now
        ∧ (d.sched.cores[c.val]).sram = [] ∧ d.Recorded 0xFF 0x0904)
  ∧ ∀ (s : State) (w : Writer), s.dev.sched.gap = 0 →
    Completes (.traceRead w) s fun d =>
      d.Answered w .accepted ((s.dev.sched.trace.take 64).flatMap fun x => beBytes 16 x)
        ∧ d.sched.trace = s.dev.sched.trace.drop 64

/-- R394, R396, R397, R401. Erase, data and verify are taken for an image that is not in use, not the image a running trial
falls back to, and not busy; while the operation runs, Image Status reads 8; a programmed byte stands where the area was erased. Trial, cancel, confirm and preference change
the image choice as R397 allows. -/
def Obligations.ImagesWrittenVerifiedAndChosen : Prop :=
  let refusal := fun (s : State) (i : Fin 2) =>
    if s.dev.mode = .boot then some Status.wrongMode
    else if s.dev.get Reg.IMG_IN_USE = i.val ∨ (s.dev.aon.trialState = 2 ∧ s.dev.aon.preferred = i.val) then some .range
    else if (s.dev.flashDev i).busy.isSome then some .busy else none
  let busy := fun (s : State) (w : Writer) (i : Fin 2) (op : ImageOp) (d : Dev) =>
    match refusal s i with
    | some st => d.Answered w st ∧ d.flash = s.dev.flash
    | none => d.Answered w .accepted ∧ (d.flashDev i).busy = some op ∧ d.get Reg.IMG_STATUS i.val = 8 ∧ d.get Reg.IMG_VERSION i.val = 0
  let choice := fun (d : Dev) => (d.aon.preferred, d.aon.trialState, d.aon.trialImage)
  (∀ (s : State) (w : Writer) (i : Fin 2) (val : Bytes), s.dev.Admits w Reg.IMG_ERASE i.val val →
    Completes (.imageErase w (BitVec.ofNat 16 i.val) val) s fun d => busy s w i .erase d)
  ∧ (∀ (s : State) (w : Writer) (i : Fin 2) (val : Bytes), s.dev.Admits w Reg.IMG_VERIFY i.val val →
    Completes (.imageVerify w (BitVec.ofNat 16 i.val) val) s fun d => busy s w i .check d)
  ∧ (∀ (s : State) (w : Writer) (i : Fin 2) (data : Bytes),
    let off := s.dev.get Reg.IMG_WOFS i.val
    let misfit := data.length < 4 ∨ data.length % 4 ≠ 0 ∨ 8388608 < off + data.length
    s.dev.Admits w Reg.IMG_DATA i.val data →
    Completes (.imageData w (BitVec.ofNat 16 i.val) data) s fun d =>
      (misfit → d.Answered w .range ∧ d.flash = s.dev.flash)
        ∧ (¬ misfit → busy s w i (.program off data) d))
  ∧ (∀ (s : State) (i : Fin 2) (off : Nat) (data : Bytes), (s.dev.flashDev i).busy = some (.program off data) →
    off + data.length ≤ 8388608 →
    Completes (.imageOperationComplete i) s fun d =>
      (d.flashDev i).busy = none ∧ d.get Reg.IMG_STATUS i.val = 9 ∧ d.get Reg.IMG_WOFS i.val = off + data.length
        ∧ (∀ k < data.length, s.dev.flashAt i (off + k) = 0xFF → d.flashAt i (off + k) = (data.getD k 0).toNat)
        ∧ ∀ o, o < off ∨ off + data.length ≤ o → d.flashAt i o = s.dev.flashAt i o)
  ∧ (∀ (s : State) (i : Fin 2), (s.dev.flashDev i).busy = some .erase →
    Completes (.imageOperationComplete i) s fun d =>
      (d.flashDev i).busy = none ∧ d.get Reg.IMG_STATUS i.val = 9 ∧ ∀ o, d.flashAt i o = 0xFF)
  ∧ (∀ (s : State) (i : Fin 2), (s.dev.flashDev i).busy = some .check →
    Completes (.imageOperationComplete i) s fun d =>
      (d.flashDev i).busy = none ∧ (∀ o, d.flashAt i o = s.dev.flashAt i o)
        ∧ ((s.dev.flashDev i).accepted = false → d.get Reg.IMG_STATUS i.val = 7)
        ∧ ((s.dev.flashDev i).accepted = true → s.dev.flashNat i 0 2 = 0xFFFF → d.get Reg.IMG_STATUS i.val = 1)
        ∧ (d.get Reg.IMG_STATUS i.val = 0 → s.dev.flashNat i 0 2 = 0x5646
          ∧ s.dev.flashNat i 252 4 = crc32c (s.dev.flashBytes i 0 252) ∧ s.dev.flashNat i 12 1 ≤ s.dev.get Reg.ID_REV
          ∧ d.get Reg.IMG_VERSION i.val = s.dev.flashNat i 4 4
          ∧ sha256 (s.dev.flashBytes i 256 (s.dev.flashNat i 16 4 - 256)) = s.dev.flashNat i 20 32))
  ∧ (∀ (s : State) (w : Writer) (val : Bytes),
    let v := beNat val
    s.dev.Admits w Reg.IMG_TRIAL 0 val →
    Completes (.imageTrial w val) s fun d =>
      if v = 0xFF then d.Answered w .accepted ∧ choice d =
        if s.dev.aon.trialState = 1 then (s.dev.aon.preferred, 0, 0xFF) else choice s.dev
      else if 1 < v then d.Answered w .range ∧ d.aon = s.dev.aon
      else if s.dev.get Reg.IMG_IN_USE = v ∨ s.dev.get Reg.IMG_STATUS v ≠ 0 then d.Answered w .wrongMode ∧ d.aon = s.dev.aon
      else d.Answered w .accepted ∧ choice d = (s.dev.aon.preferred, 1, v))
  ∧ (∀ (s : State) (w : Writer), s.dev.Admits w Reg.IMG_TRIAL 0 [0xFF] →
    Completes (.imageTrialCancel w) s fun d =>
      d.Answered w .accepted ∧ choice d = if s.dev.aon.trialState = 1 then (s.dev.aon.preferred, 0, 0xFF) else choice s.dev)
  ∧ (∀ (s : State) (w : Writer) (val : Bytes), s.dev.Admits w Reg.IMG_CONFIRM 0 val →
    Completes (.imageConfirm w val) s fun d =>
      if s.dev.aon.trialState = 2 then d.Answered w .accepted ∧ choice d = (s.dev.get Reg.IMG_IN_USE, 0, 0xFF)
      else d.Answered w .wrongMode ∧ d.aon = s.dev.aon)
  ∧ ∀ (s : State) (w : Writer) (val : Bytes),
    let v := beNat val
    s.dev.Admits w Reg.IMG_PREFER 0 val →
    Completes (.preferredImage w val) s fun d =>
      if s.dev.aon.trialState = 0 ∧ s.dev.get Reg.IMG_STATUS v = 0 then d.Answered w .accepted ∧ choice d = (v, 0, 0xFF)
      else d.Answered w .wrongMode ∧ d.aon = s.dev.aon

/-! ### The control path (chapter 13) -/

/-- R409 to R421. A valid new request of a client, of an ALIVE ahead by 1 to 7, enters the queue of 64 with the slot of its
arrival; a repeated, stale or surplus one is answered so; a TID that has its response is answered with it again, one in
progress not at all; another VERSION and a client too many are answered so; anything invalid is counted and discarded. CAN FD
segments are put together in order within 10 ms. -/
def Obligations.RequestsAdmittedOnce : Prop :=
  let valid := fun (d : Dev) (b : Bytes) => messageValid b = true ∧ bytesAt b 7 1 = d.get Reg.COM_NODE
  let tid := fun (b : Bytes) => BitVec.ofNat 16 (bytesAt b 4 2)
  let count := fun (s d : Dev) (a : Nat) => d.get a = min (s.get a + 1) (2 ^ 32 - 1)
  let own := fun (d : Dev) (id : ClientId) (c : Fin 16) => (d.keeper.clients[c.val]).bind fun k => if k.id = id then some k else none
  let seen := fun (d : Dev) (id : ClientId) (c : Fin 16) (b : Bytes) =>
    (own d id c).bind fun k => (k.txns.filter fun t => !d.expired t).find? fun t => t.tid == tid b
  let ahead := fun (d : Dev) (id : ClientId) (c : Fin 16) (b : Bytes) =>
    match (own d id c).bind Client.alive with | some a => (bytesAt b 3 1 / 16 + 16 - a) % 16 | none => 1
  let entered := fun (s d : Dev) (c : Fin 16) (m : Arrival) =>
    let b := m.bytes
    d.keeper.queue = s.keeper.queue ++ [{ requestOf c b with arrived := s.now, via := m.via, mac := m.mac, prio := m.prio }] ∧ d.out = s.out
      ∧ ∃ k, d.keeper.clients[c.val] = some k ∧ k.alive = some (bytesAt b 3 1 / 16) ∧ k.heardAt = s.now
        ∧ ∃ t ∈ k.txns, t.tid = tid b ∧ t.response = none
  let onBus := fun (s : Dev) (bus : Fin 2) (id : BitVec 29) (seg num : Nat) =>
    s.serves = true ∧ bit (s.get Reg.COM_CAN_EN) bus.val = true ∧ bit id.toNat 25 = false
      ∧ field id.toNat 24 17 = s.get Reg.COM_NODE ∧ field id.toNat 8 7 = seg ∧ field id.toNat 6 1 = num
  let partOf := fun (s : Dev) (bus : Fin 2) (id : BitVec 29) =>
    s.keeper.assemblies.find? fun a => a.bus == bus.val && a.client == field id.toNat 16 9
  (∀ (s : State) (i : Instr) (m : Arrival) (c : Fin 16),
    let delta := ahead s.dev m.id c m.bytes
    let tells := fun (d : Dev) st => d.keeper.queue = s.dev.keeper.queue ∧ s.dev.Told d m (responseBytes (requestOf c m.bytes) 0 st [])
    s.dev.arrival i = some m → valid s.dev m.bytes → bytesAt m.bytes 2 1 = 1 → s.dev.clientEntry m.id = some c →
    seen s.dev m.id c m.bytes = none →
    Completes i s fun d =>
      if delta = 0 then tells d .repeat ∧ count s.dev d Reg.COM_ALIVE_REJ
      else if 8 ≤ delta then tells d .stale ∧ count s.dev d Reg.COM_ALIVE_REJ
      else if 64 ≤ s.dev.keeper.queue.length then tells d .busy ∧ count s.dev d Reg.COM_BUSY
      else if 1 ≤ bytesAt m.bytes 6 1 ∧ bytesAt m.bytes 6 1 ≤ 4 then entered s.dev d c m
      else d.Answered (.client c (tid m.bytes)) .notPresent)
  ∧ (∀ (s : State) (i : Instr) (m : Arrival) (c : Fin 16) (t : Txn),
    s.dev.arrival i = some m → valid s.dev m.bytes → bytesAt m.bytes 2 1 = 1 → s.dev.clientEntry m.id = some c →
    seen s.dev m.id c m.bytes = some t →
    Completes i s fun d =>
      d.keeper.queue = s.dev.keeper.queue ∧ match t.response with
        | some r => s.dev.Told d m (withFlags r 1) ∧ count s.dev d Reg.COM_REPLAYS
        | none => d.out = s.dev.out ∧ count s.dev d Reg.COM_INPROG)
  ∧ (∀ (s : State) (i : Instr) (m : Arrival),
    s.dev.arrival i = some m → messageValid m.bytes = false ∨ bytesAt m.bytes 7 1 ≠ s.dev.get Reg.COM_NODE →
    Completes i s fun d =>
      d.keeper.queue = s.dev.keeper.queue ∧ d.keeper.clients = s.dev.keeper.clients ∧ d.out = s.dev.out
        ∧ d.get Reg.COM_MSG_ERR = min (s.dev.get Reg.COM_MSG_ERR + 1 + m.broken) (2 ^ 32 - 1))
  ∧ (∀ (s : State) (i : Instr) (m : Arrival),
    let tells := fun (d : Dev) st => s.dev.Told d m (responseBytes (requestOf 0 m.bytes) 0 st [])
    s.dev.arrival i = some m → valid s.dev m.bytes → bytesAt m.bytes 2 1 ≠ 1 ∨ s.dev.clientEntry m.id = none →
    Completes i s fun d =>
      d.keeper.queue = s.dev.keeper.queue ∧ d.keeper.clients = s.dev.keeper.clients
        ∧ if bytesAt m.bytes 2 1 ≠ 1 then tells d .version else tells d .noResource ∧ count s.dev d Reg.COM_NORES)
  ∧ (∀ (s : State) (bus : Fin 2) (id : BitVec 29) (data : Bytes),
    onBus s.dev bus id 1 0 → data.length = 64 →
    Completes (.canFdFrameReceive bus id data) s fun d =>
      d.keeper.queue = s.dev.keeper.queue ∧ ∃ a, partOf d bus id = some a ∧ a.bytes = data ∧ a.segNum = 0 ∧ a.at_ = s.dev.now)
  ∧ (∀ (s : State) (bus : Fin 2) (id : BitVec 29) (data : Bytes) (seg num : Nat) (a : CanAssembly),
    let next := num = (a.segNum + 1) % 64 ∧ s.dev.now ≤ a.at_ + s.dev.ms 10 ∧ (seg = 3 ∨ data.length = 64) ∧ (a.bytes ++ data).length ≤ 1048
    onBus s.dev bus id seg num → 2 ≤ seg → partOf s.dev bus id = some a →
    Completes (.canFdFrameReceive bus id data) s fun d =>
      (next → seg = 2 → d.keeper.queue = s.dev.keeper.queue ∧
        ∃ x, partOf d bus id = some x ∧ x.bytes = a.bytes ++ data ∧ x.segNum = num ∧ x.at_ = s.dev.now)
      ∧ (¬ next → d.keeper.queue = s.dev.keeper.queue ∧ partOf d bus id = none ∧ count s.dev d Reg.COM_MSG_ERR))
  ∧ (∀ (s : State) (bus : Fin 2) (id : BitVec 29) (data : Bytes) (seg num : Nat),
    onBus s.dev bus id seg num → partOf s.dev bus id = none → num ≠ 0 ∨ 2 ≤ seg →
    Completes (.canFdFrameReceive bus id data) s fun d =>
      d.keeper = s.dev.keeper ∧ d.out = s.dev.out ∧ count s.dev d Reg.COM_MSG_ERR)
  ∧ ∀ (s : State) (bus : Fin 2) (client : BitVec 8) (a : CanAssembly),
    let mine := fun (a : CanAssembly) => a.bus == bus.val && a.client == client.toNat
    s.dev.keeper.assemblies.find? mine = some a → a.at_ + s.dev.ms 10 < s.dev.now →
    Completes (.canSegmentTimeout bus client) s fun d =>
      d.keeper.assemblies = s.dev.keeper.assemblies.filter (fun a => !mine a) ∧ count s.dev d Reg.COM_MSG_ERR

/-- R329, R345, R402, R403, R408, R411, R417, R421, R424 to R426, R435, R443. A read is refused for an address, element or
class that gives no value, answered for the concentrator, or sent on to its port. A write is checked by its row and its
object's conditions and stored, or sent on. TRIGGER opens a window in GATED; a token is given for the challenge read within
1 s; RESTART answers and restarts; an uncorrectable SRAM word resets what held it. -/
def Obligations.RequestsExecutedAndAnswered : Prop :=
  let sent := fun (s : State) (p : Port) (m : CfgMsg) (d : Dev) =>
    let c := s.dev.port p
    if c.cfg.isSome then (d.port p).cfgWaiting = c.cfgWaiting ++ [m]
    else c.cfgWaiting = [] ∧ c.unresolved.isNone = true ∧ s.dev.linkFree p .config = true →
      ∃ x, (d.port p).cfg = some x ∧ x.type = m.type ∧ x.index = m.index ∧ x.sub = m.sub ∧ x.elem = m.elem ∧ x.value = m.value
        ∧ x.why = m.why
  (∀ (s : State) (w : Writer) (port : BitVec 8) (index : BitVec 16) (sub : BitVec 8) (elem : BitVec 16),
    let at_ := locate port.toNat index.toNat sub.toNat
    Completes (.maroriRead w port index sub elem) s fun d =>
      (at_ = none → d.Answered w .notPresent) ∧ ∀ r, at_ = some r →
        (r.elems ≤ elem.toNat → d.Answered w .range)
          ∧ (elem.toNat < r.elems → writeOnly r = true → d.Answered w .access)
          ∧ (elem.toNat < r.elems → writeOnly r = false → r.addr ∉ ownRead → sub ≠ 0 → port.toNat = 0xFF →
            d.Answered w .accepted (s.dev.readBytes r elem.toNat)))
  ∧ (∀ (s : State) (w : Writer) (p : Port) (index : BitVec 16) (sub : BitVec 8) (elem : BitVec 16) (r : ObjRow),
    locate p.val index.toNat sub.toNat = some r → elem.toNat < r.elems → writeOnly r = false → r.addr ∉ ownRead → sub ≠ 0 →
    Completes (.maroriRead w (BitVec.ofNat 8 p.val) index sub elem) s fun d =>
      if s.dev.portUp p = true then sent s p (cfgMsg 2 r.addr elem.toNat [] (.request w)) d else d.Answered w .portDown)
  ∧ (∀ (s : State) (w : Writer) (index : BitVec 16) (sub : BitVec 8) (elem : BitVec 16) (val : Bytes) (r : ObjRow),
    let e := elem.toNat
    let new := s.dev.stored1 r.addr e (beNat val)
    locate 0xFF index.toNat sub.toNat = some r → sub ≠ 0 → r.addr ∉ ownWrite → roElem r.addr e = false → e ≠ 0xFFFF →
    s.dev.Admits w r.addr e val →
    Completes (.maroriWrite w 0xFF index sub elem val) s fun d =>
      match (s.dev.set r.addr e new).condition r.addr e (beNat val) with
      | some st => d.Answered w st ∧ d.get r.addr e = s.dev.get r.addr e
      | none => d.Answered w .accepted ∧ d.get r.addr e = new % 2 ^ regBits r.addr)
  ∧ (∀ (s : State) (w : Writer) (p : Port) (index : BitVec 16) (sub : BitVec 8) (elem : BitVec 16) (val : Bytes) (r : ObjRow),
    locate p.val index.toNat sub.toNat = some r → sub ≠ 0 → r.addr ∉ ownWrite → roElem r.addr elem.toNat = false →
    s.dev.Admits w r.addr elem.toNat val → domainCheck r.addr elem.toNat val.length = none → val.length ≤ 240 →
    Completes (.maroriWrite w (BitVec.ofNat 8 p.val) index sub elem val) s fun d =>
      if s.dev.portUp p = true then sent s p (cfgMsg 1 r.addr elem.toNat val (.request w)) d else d.Answered w .portDown)
  ∧ (∀ (s : State) (w : Writer), Completes (.maroriNop w) s fun d => d.Answered w .accepted)
  ∧ (∀ (s : State) (w : Writer) (payload : Bytes),
    let tag := bytesAt payload 0 4
    let slot : Nat := bytesAt payload 9 3 % 2 ^ 20
    let width := bytesAt payload 12 4
    let start : Int := (s.dev.grid.cycleStart : Int) + sgn 40 (bytesAt payload 4 5 + 2 ^ 40 - s.dev.grid.cycle) * (s.dev.cycleLen : Int) + (slot : Int)
    let misfit := 2 ^ 30 ≤ tag ∨ s.dev.cycleLen ≤ slot ∨ width = 0 ∨ 16777215 < width ∨ (s.dev.arrivalOf w : Int) + 65536 * 256 < start
    payload.length = 16 →
    Completes (.maroriTrigger w 0xFF 0 0 0 payload) s fun d =>
      if s.dev.onCan w = true then d.Answered w .unsupported
      else if s.dev.mode ≠ .gated ∨ s.dev.get Reg.TRG_MSG_EN = 0 then d.Answered w .wrongMode ∧ d.mem = s.dev.mem
      else if misfit then d.Answered w .range ∧ d.mem = s.dev.mem
      else if 1024 ≤ s.dev.mem.windows.length then d.Answered w .noResource ∧ d.mem = s.dev.mem
      else d.Answered w .accepted ∧ (s.dev.mem.decidedTo < start + width →
        d.mem.windows = s.dev.mem.windows ++ [{ start := start, width := width, tag := tag }]))
  ∧ (∀ (s : State) (c : Fin 16) (tid : BitVec 16) (val : Bytes) (k : Client),
    s.dev.Admits (.client c tid) Reg.COM_GUARD_TOKEN 0 val → s.dev.keeper.clients[c.val] = some k →
    Completes (.guardToken (.client c tid) val) s fun d =>
      if ∃ x ∈ k.challengeRead, x.1 = beNat val ∧ x.1 = s.dev.keeper.challenge ∧ s.dev.now ≤ x.2 + s.dev.second then
        d.Answered (.client c tid) .accepted
          ∧ ∃ k', d.keeper.clients[c.val] = some k' ∧ k'.tokenAt = some s.dev.now ∧ k'.challengeRead = none
      else d.Answered (.client c tid) .guard ∧ d.keeper.challenge = s.dev.keeper.challenge
        ∧ ∃ k', d.keeper.clients[c.val] = some k' ∧ k'.tokenAt = k.tokenAt)
  ∧ (∀ (s : State) (c : Fin 16) (k : Client) (t : Nat), s.dev.keeper.clients[c.val] = some k → k.tokenAt = some t →
    Completes (.guardTokenExpire c) s fun d =>
      d.keeper.clients[c.val] = some (if t + s.dev.second < s.dev.now then { k with tokenAt := none } else k))
  ∧ (∀ (s : State) (c : Fin 16) (tid : BitVec 16) (k : Client), s.dev.keeper.clients[c.val] = some k →
    Completes (.transactionEntryExpire c tid) s fun d =>
      ∃ k', d.keeper.clients[c.val] = some k' ∧ k'.alive = k.alive ∧ ∀ t, t ∈ k'.txns ↔ t ∈ k.txns
        ∧ ¬ (t.tid = tid ∧ t.response.isSome = true ∧ t.unknown = false ∧ t.sentAt + 10 * s.dev.second ≤ s.dev.now))
  ∧ (∀ (s : State) (w : Writer) (val : Bytes), s.dev.Admits w Reg.BT_RESTART 0 val →
    Completes (.restart w val) s fun d =>
      d.Answered w .accepted ∧ d.inReset = true ∧ d.aon.reason = 3 ∧ d.regs = [] ∧ d.ledger.copies = s.dev.ledger.copies)
  ∧ ∀ (s : State) (place : SramPlace) (bits : BitVec 72), s.dev.mode ≠ .boot → s.dev.ledger.buffer.length < 1024 →
    codeFault (bits.toNat / 2 ^ 8) (bits.toNat % 2 ^ 8) = some .uncorrectable →
    Completes (.sramWordUncorrectable place bits) s fun d =>
      d.get Reg.ECC_SRAM_UNC = min (s.dev.get Reg.ECC_SRAM_UNC + 1) (2 ^ 64 - 1) ∧ match place with
        | .queue _ _ => d.mode = s.dev.mode
        | .blockTable m b => (∃ y ∈ d.mem.marked, y.1 = m.val * 2 ^ 20 + b.toNat) ∨ m.val * 2 ^ 20 + b.toNat ∈ d.mem.retired
        | .windowTable => d.mem.windows = [] ∧ d.get Reg.TRG_WFILL = 0 ∧ d.Recorded 0xFF 0x0707
        | .dictionary both => d.safeReason = if both then some 0x13 else s.dev.safeReason
        | .transactions c => ∀ k, s.dev.keeper.clients[c.val] = some k →
            d.keeper.clients[c.val] = some { k with txns := [] } ∧ d.Recorded 0xFF 0x0A02
        | .keeperOther => d.keeper.assemblies = [] ∧ d.keeper.queue = s.dev.keeper.queue
        | .taskTable t => ∀ x, s.dev.task t.val = some x → ∃ x', d.task t.val = some x' ∧ x'.faulted = true
        | .readOutQueue | .indexCache => d.mem = s.dev.mem
        | .stallState k => (d.mem.stall k.val).blocks = (s.dev.mem.stall k.val).blocks ∧ (d.mem.stall k.val).full = false

/-! ### The check-value unit and the environment monitor (chapters 15 and 16) -/

/-- R447, R454, R455, R458 to R462. A slot is queued once; an idle engine takes the next with the parameters of that moment
and checks its fields and addresses; the end of a descriptor writes its result and status and counts it; an alive checker
accepts a counter ahead by 1 to 7. A partial result passed on as seed gives the result over both parts. -/
def Obligations.CheckValuesComputedAndReported : Prop :=
  let field_ := fun (d : Dev) (e : Fin 4) (slot off n : Nat) => descField ((d.eng e).slot slot) off n
  let ended := fun (s d : Dev) (e : Fin 4) (slot : Nat) =>
    (d.eng e).running = none ∧ bit (d.eng e).done slot = true
      ∧ d.get Reg.CV_DONE e.val = min (s.get Reg.CV_DONE e.val + 1) (2 ^ 64 - 1)
  (∀ (s : State) (core : Fin 16) (e : Fin 4) (slot : Fin 16) (desc : Bytes), s.dev.coresRun = true → desc.length = 48 →
    Completes (.cvuSubmit core e slot desc) s fun d =>
      if (s.dev.eng e).queued slot.val = true then d.out = .coreFault core.val :: s.dev.out ∧ d.cvu = s.dev.cvu
      else (d.eng e).queue = (s.dev.eng e).queue ++ [(slot.val, core.val)] ∧ (d.eng e).slot slot.val = desc
        ∧ bit (d.eng e).done slot.val = false ∧ d.out = s.dev.out)
  ∧ (∀ (s : State) (e : Fin 4) (q : Nat × Nat) (rest : List (Nat × Nat)),
    let b := (s.dev.eng e).slot q.1
    (s.dev.eng e).queue = q :: rest → s.dev.coresRun = true → (s.dev.eng e).running = none → (s.dev.eng e).held = none →
    Completes (.cvuDescriptorStart e) s fun d =>
      (d.eng e).queue = rest ∧ (d.eng e).running = some q ∧ (d.eng e).params = s.dev.cvParams e.val
        ∧ (64 ≤ descField b 8 1 ∨ 16777216 < descField b 4 4 ∨ descField b 42 2 ≠ 0 ∨
            (bit (descField b 8 1) 4 = true ∧ descField b 4 4 ≤ descField b 12 4) → (d.eng e).verdict = 4)
        ∧ ((d.eng e).verdict = 0 → descField b 4 4 = 0 ∨ descField b 0 4 + descField b 4 4 ≤ 0x20000
          ∨ (0x30000000 ≤ descField b 0 4 ∧ descField b 0 4 + descField b 4 4 ≤ 0x303F0000)
          ∨ (0x80000000 ≤ descField b 0 4 ∧ descField b 0 4 + descField b 4 4 ≤ 2 ^ 32)))
  ∧ (∀ (s : State) (e : Fin 4) (slot core : Nat) (data : Bytes),
    let x := s.dev.eng e
    let b := x.slot slot
    let ctl := descField b 8 1
    let result := cvResult x.params (if bit ctl 1 then some (descField b 16 8) else none) (bit ctl 2) data
    x.running = some (slot, core) → s.dev.coresRun = true → x.verdict = 0 → data.length = descField b 4 4 → b.length = 48 →
    bit ctl 4 = false → bit ctl 5 = false →
    Completes (.cvuDescriptorComplete e data none) s fun d =>
      ended s.dev d e slot ∧ field_ d e slot 32 8 = result % 2 ^ 64 ∧ field_ d e slot 44 4 = s.dev.now % 2 ^ 32
        ∧ (d.eng e).held = x.held
        ∧ field_ d e slot 40 1 = if bit ctl 0 = true ∧ result ≠ descField b 24 8 then 1 else 0)
  ∧ (∀ (s : State) (e : Fin 4) (slot core : Nat) (data : Bytes),
    let x := s.dev.eng e
    let b := x.slot slot
    let ctl := descField b 8 1
    let byte := (data.getD (descField b 12 4) 0).toNat
    let counter := if bit ctl 3 then byte % 16 else byte / 16
    let a := descField b 9 1 % 64
    let delta := if bit s.dev.aliveFresh a = true then 1 else (counter + 16 - s.dev.get Reg.CV_ALIVE_LAST a) % 16
    x.running = some (slot, core) → s.dev.coresRun = true → x.verdict = 0 → data.length = descField b 4 4 → b.length = 48 →
    bit ctl 0 = false → bit ctl 4 = true → bit ctl 5 = false → s.dev.afterHigher a e.val = false →
    Completes (.cvuDescriptorComplete e data none) s fun d =>
      ended s.dev d e slot
        ∧ field_ d e slot 40 1 = (if delta = 0 then 2 else if delta < 8 then 0 else 3)
        ∧ field_ d e slot 41 1 = counter * 16 + (if delta = 1 then 1 else if delta = 0 ∨ 8 ≤ delta then 3 else 2)
        ∧ d.get Reg.CV_ALIVE_LAST a = (if 1 ≤ delta ∧ delta < 8 then counter else s.dev.get Reg.CV_ALIVE_LAST a))
  ∧ (∀ (s : State) (e : Fin 4) (slot core : Nat) (data : Bytes) (bad : Option ScrubWord),
    let x := s.dev.eng e
    x.running = some (slot, core) → s.dev.coresRun = true → x.verdict = 4 ∨ x.verdict = 5 → (x.slot slot).length = 48 →
    bit (descField (x.slot slot) 8 1) 5 = false →
    Completes (.cvuDescriptorComplete e data bad) s fun d =>
      ended s.dev d e slot ∧ field_ d e slot 40 1 = x.verdict ∧ field_ d e slot 32 8 = 0
        ∧ d.get Reg.CV_DERR e.val = min (s.dev.get Reg.CV_DERR e.val + 1) (2 ^ 32 - 1))
  ∧ (∀ (s : State) (e : Fin 4) (slot core : Nat) (data : Bytes) (w : ScrubWord),
    let x := s.dev.eng e
    x.running = some (slot, core) → s.dev.coresRun = true → x.verdict = 0 → (x.slot slot).length = 48 →
    bit (descField (x.slot slot) 8 1) 5 = false → wordFits (x.slot slot) w = true →
    s.dev.readFault w = some .uncorrectable ∨ s.dev.readFault w = some .tagError →
    Completes (.cvuDescriptorComplete e data (some w)) s fun d =>
      ended s.dev d e slot ∧ field_ d e slot 40 1 = 6 ∧ field_ d e slot 32 8 = 0
        ∧ d.get Reg.CV_DERR e.val = min (s.dev.get Reg.CV_DERR e.val + 1) (2 ^ 32 - 1))
  ∧ (∀ (s : State) (w : Writer) (e : BitVec 16) (val : Bytes), s.dev.Admits w Reg.CV_ALIVE_RESET e.toNat val →
    Completes (.aliveReset w e val) s fun d =>
      d.Answered w .accepted ∧ ∀ k < 64, bit d.aliveFresh k =
        if e.toNat = k ∨ e.toNat = 0xFFFF then true else bit s.dev.aliveFresh k)
  ∧ ∀ (ps : CvParams) (seed : Option Nat) (part : Bool) (a b : Bytes),
    cvResult ps (some (cvResult ps seed true a)) part b = cvResult ps seed part (a ++ b)

/-- R465 to R479. A write of Channel Type aborts the conversion and clears VALID; a conversion starts when nothing holds it
back, and at its last sample publishes its result unless a sample lay in a blanking interval; a blanking input rises, falls
and holds; the fence's clamp is counted and shown. -/
def Obligations.ConversionsStartCompleteAndBlank : Prop :=
  let clear := fun (s : Dev) (n : Fin 16) =>
    s.mode ≠ .boot ∧ s.inReset = false ∧ (s.emChan n).waiting = none ∧ s.blanked (s.get Reg.EM_BLANK_SEL n.val) = false
  let begun := fun (s d : Dev) (n : Fin 16) =>
    (d.emChan n).running = some s.now ∧ (d.emChan n).startedAt = some s.now ∧ (d.emChan n).spoiled = false
      ∧ (d.emChan n).swap = (s.get Reg.EM_SWAP n.val == 1) ∧ (d.emChan n).interval = s.get Reg.EM_INTERVAL n.val
  let quiet := fun (s : Dev) => ∀ i : Fin 2, (s.em.blanks[i.val]).start = none
  (∀ (s : State) (w : Writer) (n : Fin 16) (val : Bytes), s.dev.Admits w Reg.EM_TYPE n.val val → clear s.dev n →
    Completes (.emChannelTypeWrite w (BitVec.ofNat 16 n.val) val) s fun d =>
      d.Answered w .accepted ∧ d.get Reg.EM_TYPE n.val = beNat val ∧ (d.emChan n).valid = false
        ∧ if beNat val = 0 then (d.emChan n).running = none else begun s.dev d n)
  ∧ (∀ (s : State) (n : Fin 16), clear s.dev n → s.dev.get Reg.EM_TYPE n.val ≠ 0 → (s.dev.emChan n).running = none →
    (∀ t ∈ (s.dev.emChan n).startedAt, t + s.dev.ms (s.dev.emChan n).interval ≤ s.dev.now) →
    Completes (.emConversionStart n) s fun d => begun s.dev d n ∧ (d.emChan n).value = (s.dev.emChan n).value)
  ∧ (∀ (s : State) (n : Fin 16), s.dev.blanked (s.dev.get Reg.EM_BLANK_SEL n.val) = true →
    Completes (.emConversionStart n) s fun d => d = s.dev)
  ∧ (∀ (s : State) (n : Fin 16) (t : Nat) (v1p v1n vsp vsn : Int) (i peak : Nat),
    let c := s.dev.emChan n
    let r := emRtd (s.dev.emType n) c.swap (s.dev.get Reg.EM_IEXC n.val) (s.dev.get Reg.EM_RNOM n.val) v1p v1n vsp vsn i peak false
    c.running = some t → s.dev.mode ≠ .boot → s.dev.inReset = false → t + s.dev.emTime n ≤ s.dev.now → quiet s.dev →
    c.spoiled = false → i ≠ 0 → 1 ≤ s.dev.emType n → s.dev.emType n ≤ 3 →
    Completes (.emConversionComplete n (.rtd v1p v1n vsp vsn i peak)) s fun d =>
      let c' := d.emChan n
      c'.running = none ∧ c'.valid = true ∧ c'.withheld = false ∧ c'.sampleAt = t + s.dev.emTime n ∧ c'.value = r.value
        ∧ c'.aux = r.aux ∧ c'.aux2 = r.aux2 ∧ d.get Reg.EM_CONV n.val = (s.dev.get Reg.EM_CONV n.val + 1) % 2 ^ 32)
  ∧ (∀ (s : State) (n : Fin 16) (t : Nat) (sI sQ dI dQ : Int) (peak : Nat),
    let c := s.dev.emChan n
    c.running = some t → s.dev.mode ≠ .boot → s.dev.inReset = false → t + s.dev.emTime n ≤ s.dev.now → quiet s.dev →
    c.spoiled = false → 4 ≤ s.dev.emType n → s.dev.emType n ≤ 6 →
    Completes (.emConversionComplete n (.sine sI sQ dI dQ peak)) s fun d =>
      let c' := d.emChan n
      c'.running = none ∧ c'.valid = true ∧ c'.sampleAt = t + s.dev.emTime n
        ∧ d.get Reg.EM_CONV n.val = (s.dev.get Reg.EM_CONV n.val + 1) % 2 ^ 32
        ∧ ((if s.dev.emType n = 6 then 1000000000 else 100000000) < peak → c'.value = 0x7FFFFFFF ∧ c'.aux = 0x7FFFFFFF
          ∧ bit c'.flags 2 = true))
  ∧ (∀ (s : State) (n : Fin 16) (t : Nat) (meas : EmMeas),
    (s.dev.emChan n).running = some t → s.dev.mode ≠ .boot → s.dev.inReset = false → t + s.dev.emTime n ≤ s.dev.now →
    (s.dev.emChan n).spoiled = true → measFits (s.dev.emType n) meas = true →
    Completes (.emConversionComplete n meas) s fun d =>
      let c' := d.emChan n
      c'.running = none ∧ c'.withheld = true ∧ c'.value = (s.dev.emChan n).value ∧ c'.valid = (s.dev.emChan n).valid
        ∧ d.get Reg.EM_BLANKED n.val = min (s.dev.get Reg.EM_BLANKED n.val + 1) (2 ^ 32 - 1))
  ∧ (∀ (s : State) (i : Fin 2), s.dev.mode ≠ .boot → s.dev.inReset = false → (s.dev.em.blanks[i.val]).high = false →
    (s.dev.em.blanks[i.val]).holdUntil = none →
    Completes (.blankRise i) s fun d =>
      d.em.blanks[i.val] = { high := true, holdUntil := none
                             start := (s.dev.em.blanks[i.val]).start.or (some (s.dev.now - s.dev.us 1)) }
        ∧ d.get Reg.EM_BLANK_CNT i.val = min (s.dev.get Reg.EM_BLANK_CNT i.val + 1) (2 ^ 32 - 1))
  ∧ (∀ (s : State) (i : Fin 2), (s.dev.em.blanks[i.val]).high = true →
    Completes (.blankFall i) s fun d =>
      (d.em.blanks[i.val]).high = false ∧ (d.em.blanks[i.val]).start = (s.dev.em.blanks[i.val]).start
        ∧ (d.em.blanks[i.val]).holdUntil = some (s.dev.now + s.dev.us (s.dev.get Reg.EM_BLANK_HOLD)))
  ∧ (∀ (s : State) (i : Fin 2) (a t : Nat), (s.dev.em.blanks[i.val]).start = some a →
    (s.dev.em.blanks[i.val]).holdUntil = some t → t ≤ s.dev.now →
    Completes (.blankHoldEnd i) s fun d =>
      (d.em.blanks[i.val]).start = none ∧ (d.em.blanks[i.val]).holdUntil = none ∧ ∀ n : Fin 16,
        let c := s.dev.emChan n
        let meets := ∃ r ∈ c.running, ∃ x ∈ s.dev.emIntegrations n, r + x.1 ≤ t ∧ a ≤ r + x.2
        (bit c.blankSel i.val = true ∧ meets → (d.emChan n).spoiled = true)
          ∧ (¬ (bit c.blankSel i.val = true ∧ meets) → d.emChan n = c))
  ∧ ∀ (s : State) (n : Fin 16) (current : BitVec 32), s.dev.mode ≠ .boot → s.dev.inReset = false → 1 ≤ s.dev.emType n →
    s.dev.emType n ≤ 3 → 1000000 < current.toNat →
    Completes (.excitationClamp n current) s fun d =>
      d.get Reg.EM_IEXC_CLAMP = min (s.dev.get Reg.EM_IEXC_CLAMP + 1) (2 ^ 32 - 1) ∧ bit (d.get Reg.GV_FENCE_STAT) 4 = true
        ∧ (d.emChan n).clamped = ((s.dev.emChan n).clamped || (s.dev.emChan n).running.isSome)

/-! ### Modes, start-up and recovery (chapter 17) -/

/-- R29, R31, R32, R284, R288, R320, R367, R483, R485 to R497. The pending mode takes effect at its boundary, unless a check of R491
refuses it; SAFE drains and then powers its ports down; a reset, a failed step or the boot's timeout restarts the device with
its reason, and the release of reset begins a boot with every object at its default; a fatal fault and a thermal trip ask for
SAFE. -/
def Obligations.ModesChangeAndTheDeviceStarts : Prop :=
  let due := fun (s : Dev) (m : ModePend) =>
    s.modePend = some m ∧ s.inReset = false ∧ s.noTime = false ∧ s.modeDue = true ∧ s.stepDue = false ∧ s.firstDue = false
  let down := fun (s d : Dev) (reason : Nat) =>
    d.inReset = true ∧ d.mode = .boot ∧ d.regs = [] ∧ d.aon.reason = reason ∧ d.ledger.copies = s.ledger.copies
  let safeNext := fun (s d : Dev) (reason : Nat) =>
    d.mode = s.mode ∧ d.safeReason = some reason ∧ d.modePend = some { target := .safe, cycle := none, notBefore := s.now + 1 }
  (∀ (s : State) (m : ModePend), due s.dev m → s.dev.modeRefusal m.target = none →
    Completes .modeChange s fun d =>
      d.mode = m.target ∧ d.modePend = none ∧ d.modeFrom = s.dev.grid.cycleStart ∧ (∀ r ∈ d.gov.raises, r.window = true)
        ∧ (m.target ≠ .configure → ∀ r ∈ d.gov.raises, r ∈ s.dev.gov.raises ∧ s.dev.grid.cycleStart ≤ r.start)
        ∧ d.get Reg.MD_CHANGES = min (s.dev.get Reg.MD_CHANGES + 1) (2 ^ 32 - 1)
        ∧ (s.dev.mode = .configure → d.merge.next = 0 ∧ d.merge.formed = [] ∧ d.merge.caches = Vector.replicate 8 [])
        ∧ (m.target = .gated → d.mem.gatedFrom = s.dev.grid.cycleStart)
        ∧ (m.target = .configure → d.safeReason = none ∧ d.boot.step = none)
        ∧ (m.target = .safe → d.draining = true ∧ d.safeFrom = s.dev.now ∧ d.mem.windows = [] ∧ d.merge.ring = []
          ∧ d.safeReason = some (s.dev.safeReason.getD 0x14)))
  ∧ (∀ (s : State) (m : ModePend), due s.dev m → s.dev.mode = .configure → sendsMarkers m.target = true →
    s.dev.ledger.buffer.length < 1024 →
    (∃ p : Port, s.dev.get Reg.WP_EN p.val = 1 ∧ ((s.dev.port p).cycLenAcked = false
        ∨ s.dev.get Reg.BASKET_TIMEOUT * 256 < s.dev.mir p Reg.FE_FRAME_CLOSE + 256))
      ∨ s.dev.usableMiB < s.dev.stallSum Reg.ST_CAP ∨ s.dev.bandwidth < s.dev.stallSum Reg.ST_BW
      ∨ (∃ k < s.dev.get Reg.ROUTE_SPAN, s.dev.get Reg.RT_MAC k = 0 ∨ s.dev.get Reg.RT_IP k = 0) →
    Completes .modeChange s fun d =>
      d.mode = .configure ∧ d.modePend = none ∧ d.get Reg.MD_REFUSAL ≠ 0 ∧ d.Recorded 0xFF 0x0106)
  ∧ (∀ s : State, s.dev.mode = .safe → s.dev.draining = true →
    s.dev.safeFrom + (s.dev.get Reg.BASKET_TIMEOUT + 64) * 256 ≤ s.dev.now → s.dev.ledger.buffer.length < 1024 →
    Completes .safeDrainEnd s fun d =>
      d.draining = false ∧ d.merge.baskets = [] ∧ (∀ b : Fin 8, (d.egr b).queue = [] ∧ (d.egr b).feed = [])
        ∧ (∀ b < 7, d.get Reg.BE_LINK (b + 1) = 0) ∧ d.get Reg.BE_LINK 0 = s.dev.get Reg.BE_LINK 0
        ∧ (s.dev.merge.baskets ≠ [] → d.Recorded 0xFF 0x0107))
  ∧ (∀ (s : State) (w : RateSweep), s.dev.keeper.sweep = some w → w.ports = [] →
    Completes .rateSweepComplete s fun d =>
      d.keeper.sweep = none ∧ d.mode = s.dev.mode ∧
        if s.dev.mode = .sentinel ∧ s.dev.get Reg.MD_SEN_PROMOTE = 1 ∧ s.dev.get Reg.MD_SEN_REGIONS ≤ w.counts
            ∧ s.dev.modePend = none then
          d.modePend = some { target := .stream, cycle := none, notBefore := s.dev.now + 4096 } ∧ d.get Reg.MD_REQUEST = 6
        else d.modePend = s.dev.modePend)
  ∧ (∀ (s : State) (p : Port), (s.dev.fe p).power = .powerOn → (s.dev.fe p).supplyFrom + s.dev.ms 1 ≤ s.dev.now →
    Completes (.fePowerOnReset p) s fun d => (d.fe p).power = .lowPower ∧ d.mode = s.dev.mode)
  ∧ (∀ (s : State) (p : Port),
    Completes (.feSupplyFault p) s fun d =>
      (d.fe p).power = .powerOn ∧ (d.fe p).supplyFrom = s.dev.now ∧ (d.fe p).cmds = [] ∧ (d.fe p).frames = []
        ∧ ∀ q, q ≠ p → d.fe q = s.dev.fe q)
  ∧ (∀ (s : State) (lost : Bool),
    Completes (.resetAssert lost) s fun d =>
      d.inReset = true ∧ (lost = true → d.aon = {} ∧ d.ledger.buffer = [] ∧ d.ledger.copies = s.dev.ledger.copies)
        ∧ (lost = false → s.dev.inReset = true → d = s.dev)
        ∧ (lost = false → s.dev.inReset = false → down s.dev d 2 ∧ d.aon.preferred = s.dev.aon.preferred))
  ∧ (∀ (s : State) (strap : BitVec 8), s.dev.inReset = true →
    Completes (.resetRelease strap) s fun d =>
      d.inReset = false ∧ d.mode = .boot ∧ d.boot.step = some 1 ∧ d.now = 0 ∧ d.modePend = none
        ∧ d.aon.restarts = (s.dev.aon.restarts + 1) % 2 ^ 32 ∧ d.aon.preferred = s.dev.aon.preferred
        ∧ d.get Reg.COM_NODE = (if strap = 0 ∨ strap = 0xFF then 1 else strap.toNat)
        ∧ ∀ a < 2 ^ 24, a ≠ Reg.COM_NODE → ∀ e, d.get a e = regDflt (regKey 0xFF a e))
  ∧ (∀ s : State, s.dev.mode = .boot → s.dev.inReset = false → 10 * s.dev.second ≤ s.dev.now →
    Completes .bootTimeout s fun d => down s.dev d 6)
  ∧ (∀ (s : State) (a b : Bool), s.dev.mode = .boot → s.dev.inReset = false → s.dev.boot.step = some 1 →
    Completes (.bootStepComplete (.selfTest a b)) s fun d =>
      if a = false ∧ b = false then down s.dev d 4
      else d.boot.step = some 2 ∧ d.keeper.active = (if a then 0 else 1)
        ∧ d.keeper.health = if a = true ∧ b = true then #v[0, 1] else if a then #v[0, 2] else #v[2, 0])
  ∧ (∀ s : State, s.dev.mode = .boot → s.dev.inReset = false → s.dev.boot.step = some 2 →
    Completes (.bootStepComplete .failedStarts) s fun d =>
      d.boot.step = some 3 ∧ d.boot.planSafe = if 3 ≤ s.dev.failedStarts then some 0x10 else s.dev.boot.planSafe)
  ∧ (∀ s : State, s.dev.mode = .boot → s.dev.inReset = false → s.dev.boot.step = some 5 → s.dev.ledger.buffer.length < 1024 →
    Completes (.bootStepComplete .loaded) s fun d =>
      d.boot.step = some (if s.dev.boot.planSafe.isSome then 7 else 6) ∧ d.Recorded 0xFF 0x0101
        ∧ d.get Reg.BE_FW_VER = if s.dev.get Reg.IMG_IN_USE = 2 then s.dev.get Reg.BE_FW_VER
          else s.dev.get Reg.IMG_VERSION (s.dev.get Reg.IMG_IN_USE) % 2 ^ 32)
  ∧ (∀ (s : State) (sram : Bool) (chans : List MemTest), s.dev.mode = .boot → s.dev.inReset = false →
    s.dev.boot.step = some 6 → s.dev.boot.memDone = false →
    Completes (.bootStepComplete (.memory sram chans)) s fun d =>
      if sram = false then down s.dev d 5
      else d.boot.memDone = true ∧ d.mem.epochs = [] ∧ d.mem.spill = [] ∧ ∀ m : Fin 8,
        let was := s.dev.get Reg.MEM_CH_STATE m.val
        if was = 3 then d.get Reg.MEM_CH_STATE m.val = 3
        else match chans[m.val]? with
          | some .absent => d.get Reg.MEM_CH_STATE m.val = 0 ∧ d.get Reg.MEM_CH_SIZE m.val = 0
          | some (.failed mib) => d.get Reg.MEM_CH_STATE m.val = 4 ∧ d.get Reg.MEM_CH_SIZE m.val = mib.toNat
          | some (.passed mib) => d.get Reg.MEM_CH_STATE m.val = 2 ∧ d.get Reg.MEM_CH_SIZE m.val = mib.toNat
          | none => d.get Reg.MEM_CH_STATE m.val = was)
  ∧ (∀ s : State, s.dev.mode = .boot → s.dev.inReset = false →
    s.dev.boot.step = some 7 ∨ (s.dev.boot.step = some 6 ∧ s.dev.boot.clocksDone = false) →
    let ready := s.dev.tu.refs.toList.any RefInput.qualified = true ∨ s.dev.boot.stepFrom + s.dev.ms 200 ≤ s.dev.now
    Completes (.bootStepComplete .clocks) s fun d =>
      (¬ ready → d = s.dev)
        ∧ (ready → match s.dev.boot.planSafe with
          | none => d.boot.clocksDone = true ∧ (s.dev.boot.memDone = true → d.boot.step = some 8)
          | some r => d.boot.step = some 9 ∧ d.safeReason = some r
            ∧ d.modePend = some { target := .safe, cycle := none, notBefore := s.dev.now + 1 }))
  ∧ (∀ s : State, s.dev.mode = .boot → s.dev.inReset = false → s.dev.boot.step = some 8 →
    let ready := (∀ p : Port, s.dev.get Reg.WP_EN p.val ≠ 0 → s.dev.portUp p = true) ∨ s.dev.boot.stepFrom + s.dev.ms 100 ≤ s.dev.now
    Completes (.bootStepComplete .ports) s fun d =>
      (¬ ready → d = s.dev) ∧ (ready → d.boot.step = some 9 ∧ d.mode = .boot
        ∧ d.modePend = some { target := .configure, cycle := none, notBefore := s.dev.now + 4096 }))
  ∧ (∀ (s : State) (t : Nat), s.dev.confirmAt = some t → t ≤ s.dev.now → s.dev.ledger.buffer.length < 1024 →
    Completes .startConfirm s fun d =>
      d.confirmAt = none ∧ d.boot.startOpen = false ∧ d.aon.failedTimes = [] ∧ d.Recorded 0xFF 0x0102)
  ∧ (∀ s : State, s.dev.inReset = false →
    Completes .fatalFault s fun d =>
      if s.dev.mode = .boot then down s.dev d 5
      else if s.dev.mode = .safe then d = { s.dev with safeReason := some 0x13 } else safeNext s.dev d 0x13)
  ∧ ∀ (s : State) (sensor : Fin 12) (mean : BitVec 16), s.dev.inReset = false → s.dev.gov.dies[32].trip = false →
    1200 ≤ mean.toInt →
    Completes (.concThermalTrip sensor mean) s fun d =>
      d.gov.dies[32].trip = true ∧ d.gov.sensors[sensor.val] = mean.toInt ∧ d.get Reg.GV_FENCE_CNT = min (s.dev.get Reg.GV_FENCE_CNT + 1) (2 ^ 32 - 1)
        ∧ (s.dev.mode = .safe → d.mode = .safe ∧ d.modePend = s.dev.modePend)
        ∧ (s.dev.mode = .boot → d.boot.planSafe = some 0x12 ∧ d.boot.step = some 9)
        ∧ (s.dev.mode ≠ .safe → safeNext s.dev d 0x12)

/-- R424, R434, R451, R452, R500 to R503, R506 to R510. A forced swap needs a STANDBY and leaves the previous Keeper a warm
standby for 10 s; a failed Keeper is replaced when there is a standby, else the device restarts; guard tokens end with a
takeover. Waiting records go to both copies under rising SEQ; a read gives up to 16 unread records and marks them read. -/
def Obligations.KeepersSwapAndTheLedgerIsKept : Prop :=
  let swapped := fun (s d : Dev) =>
    d.keeper.active = 1 - s.keeper.active ∧ (d.keeper.health[(1 - s.keeper.active).val]) = 0 ∧ d.keeper.takeover = some s.now
      ∧ d.get Reg.RD_KP_SWAPS = min (s.get Reg.RD_KP_SWAPS + 1) (2 ^ 32 - 1) ∧ d.keeper.sweep = none
      ∧ ∀ c : Fin 16, ∀ k, d.keeper.clients[c.val] = some k → k.tokenAt = none
  let ready := fun (s : Dev) => (s.keeper.health[(1 - s.keeper.active).val]) = 1
  (∀ (s : State) (w : Writer) (val : Bytes), s.dev.Admits w Reg.RD_KP_SWAP 0 val →
    Completes (.forceKeeperSwap w val) s fun d =>
      (¬ ready s.dev → d.Answered w .wrongMode ∧ d.keeper.active = s.dev.keeper.active)
        ∧ (ready s.dev → swapped s.dev d ∧ .answer w .accepted [] ∈ d.out
          ∧ (d.keeper.health[s.dev.keeper.active.val]) = 1 ∧ d.keeper.warmUntil = some (s.dev.now + 10 * s.dev.second)))
  ∧ (∀ (s : State) (cause : Fin 4) (us : Fin 1001) (torn : Bool),
    let early := ∃ t ∈ s.dev.keeper.takeover, s.dev.now < t + 10 * s.dev.second
    let warm := ∃ t ∈ s.dev.keeper.warmUntil, s.dev.now < t
    s.dev.inReset = false →
    Completes (.keeperFailure cause us torn) s fun d =>
      (¬ early → ready s.dev → swapped s.dev d ∧ (d.keeper.health[s.dev.keeper.active.val]) = 3
        ∧ d.keeper.testFrom = some s.dev.now ∧ d.keeper.warmUntil = none)
      ∧ (early → warm → ready s.dev → swapped s.dev d ∧ (d.keeper.health[s.dev.keeper.active.val]) = 2)
      ∧ ((early ∧ ¬ warm) ∨ ¬ ready s.dev → d.inReset = true ∧ d.aon.reason = 4))
  ∧ (∀ (s : State) (pass : Bool) (t : Nat), s.dev.keeper.testFrom = some t → s.dev.ledger.buffer.length < 1024 →
    Completes (.keeperSelfTestDone pass) s fun d =>
      d.keeper.testFrom = none ∧ d.keeper.active = s.dev.keeper.active ∧ d.Recorded 0xFF 0x0202
        ∧ (d.keeper.health[(1 - s.dev.keeper.active).val]) = if pass = true ∧ s.dev.now ≤ t + s.dev.second then 1 else 2)
  ∧ (∀ (s : State) (t : Nat), s.dev.keeper.warmUntil = some t →
    Completes .warmStandbyEnd s fun d =>
      d.keeper = if t ≤ s.dev.now then { s.dev.keeper with warmUntil := none } else s.dev.keeper)
  ∧ (∀ (s : State) (r : LedgerRec) (rest : List LedgerRec),
    s.dev.ledger.buffer = r :: rest → s.dev.ledgerOpen = true → s.dev.ledgerUses 0 = true → s.dev.ledgerUses 1 = true →
    Completes (.ledgerWrite true true) s fun d =>
      d.ledger.buffer = rest ∧ d.ledger.seq = s.dev.ledger.seq + 1 ∧ ∀ i : Fin 2, ∃ x, (d.ledger.copies[i.val]).getLast? = some x
        ∧ x.seq = s.dev.ledger.seq ∧ x.source = r.source ∧ x.code = r.code ∧ x.time = r.time ∧ x.v1 = r.v1 ∧ x.v2 = r.v2 ∧ x.v3 = r.v3
        ∧ (s.dev.ledger.seq % 64 ≠ 0 → (d.ledger.copies[i.val]).dropLast = s.dev.ledger.copies[i.val]))
  ∧ (∀ (s : State) (w : Writer),
    Completes (.ledgerRead w) s fun d =>
      let rs := s.dev.ledgerUnread.take 16
      d.Answered w .accepted (rs.flatMap LedgerRec.bytes) ∧ (rs.flatMap LedgerRec.bytes).length = 64 * rs.length
        ∧ d.ledger.copies = s.dev.ledger.copies ∧ ∀ r ∈ d.ledgerUnread, r ∈ s.dev.ledgerUnread ∧ ∀ x ∈ rs, x.seq < r.seq)
  ∧ ∀ (s : State) (w : Writer) (val : Bytes), s.dev.Admits w Reg.LG_REWIND 0 val →
    Completes (.ledgerRewind w val) s fun d => d.Answered w .accepted ∧ d.ledgerUnread = d.ledgerRecords
end

