-- ==== Sys2Proof/Laws/Tables.lean ====
section
/-! SUPPORT. Laws of the sparse tables: what a read gives after a write, and that a write keeps the canonical form. -/

namespace Sys2Proof.Machine

variable {α : Type} (d : Nat → α)

@[simp] theorem tblRead_nil (k : Nat) : tblRead d [] k = d k := rfl

theorem tblRead_tblDrop (t : Tbl α) (k j : Nat) :
    tblRead d (tblDrop t k) j = if j = k then d j else tblRead d t j := by
  induction t with
  | nil => simp [tblDrop]
  | cons e rest ih =>
    obtain ⟨k', v⟩ := e
    by_cases hk : k' = k
    · subst hk
      by_cases hj : j = k'
      · subst hj; simpa [tblDrop] using ih
      · simp [tblDrop, ih, hj, tblRead, Ne.symm hj]
    · by_cases hj : j = k
      · subst hj; simp [tblDrop, hk, tblRead, ih]
      · simp [tblDrop, hk, tblRead, ih, hj]

theorem tblRead_tblPut (t : Tbl α) (k : Nat) (v : α) (j : Nat) :
    tblRead d (tblPut t k v) j = if j = k then v else tblRead d t j := by
  induction t with
  | nil => by_cases h : k = j <;> simp [tblPut, tblRead, h, eq_comm]
  | cons e rest ih =>
    obtain ⟨k', v'⟩ := e
    by_cases hk : k' = k
    · subst hk
      by_cases hj : k' = j
      · subst hj; simp [tblPut, tblRead]
      · simp [tblPut, tblRead, hj, Ne.symm hj]
    · by_cases hlt : k < k'
      · by_cases hj : k = j
        · subst hj; simp [tblPut, tblRead, hk, hlt]
        · simp [tblPut, tblRead, hk, hlt, hj, Ne.symm hj]
      · by_cases hj : k' = j
        · subst hj; simp [tblPut, tblRead, hk, hlt]
        · simp [tblPut, tblRead, hk, hlt, hj, ih]

/-- A read after a write. -/
theorem tblRead_tblWrite [DecidableEq α] (t : Tbl α) (k : Nat) (v : α) (j : Nat) :
    tblRead d (tblWrite d t k v) j = if j = k then v else tblRead d t j := by
  unfold tblWrite
  split
  · rename_i h
    rw [tblRead_tblDrop]
    split
    · rename_i hj; rw [hj, h]
    · rfl
  · exact tblRead_tblPut d t k v j

@[simp] theorem tblRead_tblWrite_same [DecidableEq α] (t : Tbl α) (k : Nat) (v : α) :
    tblRead d (tblWrite d t k v) k = v := by simp [tblRead_tblWrite]

theorem tblRead_tblWrite_other [DecidableEq α] (t : Tbl α) (k : Nat) (v : α) (j : Nat) (h : j ≠ k) :
    tblRead d (tblWrite d t k v) j = tblRead d t j := by simp [tblRead_tblWrite, h]

/-! ### The canonical form -/

theorem tblDrop_keys (t : Tbl α) (k : Nat) : ∀ e ∈ tblDrop t k, e ∈ t := by
  induction t with
  | nil => simp [tblDrop]
  | cons e rest ih =>
    intro x hx
    simp only [tblDrop] at hx
    split at hx
    · exact List.mem_cons_of_mem _ (ih x hx)
    · rcases List.mem_cons.1 hx with h | h
      · exact h ▸ List.mem_cons_self
      · exact List.mem_cons_of_mem _ (ih x h)

theorem tblPut_keys (t : Tbl α) (k : Nat) (v : α) : ∀ e ∈ tblPut t k v, e.1 = k ∨ e ∈ t := by
  induction t with
  | nil => simp [tblPut]
  | cons e rest ih =>
    obtain ⟨k', v'⟩ := e
    intro x hx
    simp only [tblPut] at hx
    split at hx
    · rcases List.mem_cons.1 hx with h | h
      · exact .inl (by rw [h])
      · exact .inr (List.mem_cons_of_mem _ h)
    · split at hx
      · rcases List.mem_cons.1 hx with h | h
        · exact .inl (by rw [h])
        · exact .inr h
      · rcases List.mem_cons.1 hx with h | h
        · exact .inr (h ▸ List.mem_cons_self)
        · exact (ih x h).imp_right (List.mem_cons_of_mem _)

/-- What the canonical form says of a table's head and rest. -/
theorem tblWf_cons [DecidableEq α] (k : Nat) (v : α) (rest : Tbl α) :
    tblWf d ((k, v) :: rest) = true ↔ v ≠ d k ∧ (∀ e ∈ rest, k < e.1) ∧ tblWf d rest = true := by
  simp [tblWf, and_assoc]

theorem tblWf_tblDrop [DecidableEq α] (t : Tbl α) (k : Nat) (h : tblWf d t = true) : tblWf d (tblDrop t k) = true := by
  induction t with
  | nil => simpa [tblDrop] using h
  | cons e rest ih =>
    obtain ⟨k', v⟩ := e
    obtain ⟨h1, h2, h3⟩ := (tblWf_cons d k' v rest).1 h
    simp only [tblDrop]
    split
    · exact ih h3
    · exact (tblWf_cons d k' v _).2 ⟨h1, fun e he => h2 e (tblDrop_keys rest k e he), ih h3⟩

theorem tblWf_tblPut [DecidableEq α] (t : Tbl α) (k : Nat) (v : α) (h : tblWf d t = true) (hv : v ≠ d k) :
    tblWf d (tblPut t k v) = true := by
  induction t with
  | nil => exact (tblWf_cons d k v []).2 ⟨hv, by simp, rfl⟩
  | cons e rest ih =>
    obtain ⟨k', v'⟩ := e
    obtain ⟨h1, h2, h3⟩ := (tblWf_cons d k' v' rest).1 h
    simp only [tblPut]
    split
    · rename_i hk
      exact (tblWf_cons d k v rest).2 ⟨hv, hk ▸ h2, h3⟩
    · split
      · rename_i hlt
        refine (tblWf_cons d k v _).2 ⟨hv, ?_, h⟩
        intro e he
        rcases List.mem_cons.1 he with he | he
        · exact he ▸ hlt
        · exact lt_trans hlt (h2 e he)
      · rename_i hk hlt
        refine (tblWf_cons d k' v' _).2 ⟨h1, ?_, ih h3⟩
        intro e he
        rcases tblPut_keys rest k v e he with he | he
        · rw [he]; omega
        · exact h2 e he

/-- A write keeps the canonical form. -/
theorem tblWf_tblWrite [DecidableEq α] (t : Tbl α) (k : Nat) (v : α) (h : tblWf d t = true) :
    tblWf d (tblWrite d t k v) = true := by
  unfold tblWrite
  split
  · exact tblWf_tblDrop d t k h
  · rename_i hv; exact tblWf_tblPut d t k v h hv

/-- Taking entries out keeps the canonical form. -/
theorem tblWf_filter [DecidableEq α] (t : Tbl α) (f : Nat × α → Bool) (h : tblWf d t = true) : tblWf d (t.filter f) = true := by
  induction t with
  | nil => simpa using h
  | cons e rest ih =>
    obtain ⟨k', v⟩ := e
    obtain ⟨h1, h2, h3⟩ := (tblWf_cons d k' v rest).1 h
    simp only [List.filter_cons]
    split
    · exact (tblWf_cons d k' v _).2 ⟨h1, fun e he => h2 e (List.mem_filter.1 he).1, ih h3⟩
    · exact ih h3

end Sys2Proof.Machine
end

