-- ==== Sys2Proof/Laws/State.lean ====
section
/-! SUPPORT. What each update of the device leaves: one lemma per field and update. -/

namespace Sys2Proof.Machine

variable (d : Dev)

@[simp] theorem Dev.set_now (a e v : Nat) : (d.set a e v).now = d.now := rfl
@[simp] theorem Dev.set_free (a e v : Nat) : (d.set a e v).free = d.free := rfl
@[simp] theorem Dev.set_mode (a e v : Nat) : (d.set a e v).mode = d.mode := rfl
@[simp] theorem Dev.set_modePend (a e v : Nat) : (d.set a e v).modePend = d.modePend := rfl
@[simp] theorem Dev.set_modeFrom (a e v : Nat) : (d.set a e v).modeFrom = d.modeFrom := rfl
@[simp] theorem Dev.set_safeReason (a e v : Nat) : (d.set a e v).safeReason = d.safeReason := rfl
@[simp] theorem Dev.set_safeFrom (a e v : Nat) : (d.set a e v).safeFrom = d.safeFrom := rfl
@[simp] theorem Dev.set_draining (a e v : Nat) : (d.set a e v).draining = d.draining := rfl
@[simp] theorem Dev.set_confirmAt (a e v : Nat) : (d.set a e v).confirmAt = d.confirmAt := rfl
@[simp] theorem Dev.set_inReset (a e v : Nat) : (d.set a e v).inReset = d.inReset := rfl
@[simp] theorem Dev.set_applied (a e v : Nat) : (d.set a e v).applied = d.applied := rfl
@[simp] theorem Dev.set_mirror (a e v : Nat) : (d.set a e v).mirror = d.mirror := rfl
@[simp] theorem Dev.set_mirrorDom (a e v : Nat) : (d.set a e v).mirrorDom = d.mirrorDom := rfl
@[simp] theorem Dev.set_grid (a e v : Nat) : (d.set a e v).grid = d.grid := rfl
@[simp] theorem Dev.set_tb (a e v : Nat) : (d.set a e v).tb = d.tb := rfl
@[simp] theorem Dev.set_tu (a e v : Nat) : (d.set a e v).tu = d.tu := rfl
@[simp] theorem Dev.set_fes (a e v : Nat) : (d.set a e v).fes = d.fes := rfl
@[simp] theorem Dev.set_ports (a e v : Nat) : (d.set a e v).ports = d.ports := rfl
@[simp] theorem Dev.set_lines (a e v : Nat) : (d.set a e v).lines = d.lines := rfl
@[simp] theorem Dev.set_boot (a e v : Nat) : (d.set a e v).boot = d.boot := rfl
@[simp] theorem Dev.set_aon (a e v : Nat) : (d.set a e v).aon = d.aon := rfl
@[simp] theorem Dev.set_merge (a e v : Nat) : (d.set a e v).merge = d.merge := rfl
@[simp] theorem Dev.set_net (a e v : Nat) : (d.set a e v).net = d.net := rfl
@[simp] theorem Dev.set_mem (a e v : Nat) : (d.set a e v).mem = d.mem := rfl
@[simp] theorem Dev.set_gov (a e v : Nat) : (d.set a e v).gov = d.gov := rfl
@[simp] theorem Dev.set_sched (a e v : Nat) : (d.set a e v).sched = d.sched := rfl
@[simp] theorem Dev.set_flash (a e v : Nat) : (d.set a e v).flash = d.flash := rfl
@[simp] theorem Dev.set_cvu (a e v : Nat) : (d.set a e v).cvu = d.cvu := rfl
@[simp] theorem Dev.set_aliveFresh (a e v : Nat) : (d.set a e v).aliveFresh = d.aliveFresh := rfl
@[simp] theorem Dev.set_aliveAt (a e v : Nat) : (d.set a e v).aliveAt = d.aliveAt := rfl
@[simp] theorem Dev.set_beTest (a e v : Nat) : (d.set a e v).beTest = d.beTest := rfl
@[simp] theorem Dev.set_em (a e v : Nat) : (d.set a e v).em = d.em := rfl
@[simp] theorem Dev.set_ledger (a e v : Nat) : (d.set a e v).ledger = d.ledger := rfl
@[simp] theorem Dev.set_keeper (a e v : Nat) : (d.set a e v).keeper = d.keeper := rfl
@[simp] theorem Dev.set_out (a e v : Nat) : (d.set a e v).out = d.out := rfl

@[simp] theorem Dev.setI_now (a e : Nat) (v : Int) : (d.setI a e v).now = d.now := rfl
@[simp] theorem Dev.setI_free (a e : Nat) (v : Int) : (d.setI a e v).free = d.free := rfl
@[simp] theorem Dev.setI_mode (a e : Nat) (v : Int) : (d.setI a e v).mode = d.mode := rfl
@[simp] theorem Dev.setI_modePend (a e : Nat) (v : Int) : (d.setI a e v).modePend = d.modePend := rfl
@[simp] theorem Dev.setI_modeFrom (a e : Nat) (v : Int) : (d.setI a e v).modeFrom = d.modeFrom := rfl
@[simp] theorem Dev.setI_safeReason (a e : Nat) (v : Int) : (d.setI a e v).safeReason = d.safeReason := rfl
@[simp] theorem Dev.setI_safeFrom (a e : Nat) (v : Int) : (d.setI a e v).safeFrom = d.safeFrom := rfl
@[simp] theorem Dev.setI_draining (a e : Nat) (v : Int) : (d.setI a e v).draining = d.draining := rfl
@[simp] theorem Dev.setI_confirmAt (a e : Nat) (v : Int) : (d.setI a e v).confirmAt = d.confirmAt := rfl
@[simp] theorem Dev.setI_inReset (a e : Nat) (v : Int) : (d.setI a e v).inReset = d.inReset := rfl
@[simp] theorem Dev.setI_applied (a e : Nat) (v : Int) : (d.setI a e v).applied = d.applied := rfl
@[simp] theorem Dev.setI_mirror (a e : Nat) (v : Int) : (d.setI a e v).mirror = d.mirror := rfl
@[simp] theorem Dev.setI_mirrorDom (a e : Nat) (v : Int) : (d.setI a e v).mirrorDom = d.mirrorDom := rfl
@[simp] theorem Dev.setI_grid (a e : Nat) (v : Int) : (d.setI a e v).grid = d.grid := rfl
@[simp] theorem Dev.setI_tb (a e : Nat) (v : Int) : (d.setI a e v).tb = d.tb := rfl
@[simp] theorem Dev.setI_tu (a e : Nat) (v : Int) : (d.setI a e v).tu = d.tu := rfl
@[simp] theorem Dev.setI_fes (a e : Nat) (v : Int) : (d.setI a e v).fes = d.fes := rfl
@[simp] theorem Dev.setI_ports (a e : Nat) (v : Int) : (d.setI a e v).ports = d.ports := rfl
@[simp] theorem Dev.setI_lines (a e : Nat) (v : Int) : (d.setI a e v).lines = d.lines := rfl
@[simp] theorem Dev.setI_boot (a e : Nat) (v : Int) : (d.setI a e v).boot = d.boot := rfl
@[simp] theorem Dev.setI_aon (a e : Nat) (v : Int) : (d.setI a e v).aon = d.aon := rfl
@[simp] theorem Dev.setI_merge (a e : Nat) (v : Int) : (d.setI a e v).merge = d.merge := rfl
@[simp] theorem Dev.setI_net (a e : Nat) (v : Int) : (d.setI a e v).net = d.net := rfl
@[simp] theorem Dev.setI_mem (a e : Nat) (v : Int) : (d.setI a e v).mem = d.mem := rfl
@[simp] theorem Dev.setI_gov (a e : Nat) (v : Int) : (d.setI a e v).gov = d.gov := rfl
@[simp] theorem Dev.setI_sched (a e : Nat) (v : Int) : (d.setI a e v).sched = d.sched := rfl
@[simp] theorem Dev.setI_flash (a e : Nat) (v : Int) : (d.setI a e v).flash = d.flash := rfl
@[simp] theorem Dev.setI_cvu (a e : Nat) (v : Int) : (d.setI a e v).cvu = d.cvu := rfl
@[simp] theorem Dev.setI_aliveFresh (a e : Nat) (v : Int) : (d.setI a e v).aliveFresh = d.aliveFresh := rfl
@[simp] theorem Dev.setI_aliveAt (a e : Nat) (v : Int) : (d.setI a e v).aliveAt = d.aliveAt := rfl
@[simp] theorem Dev.setI_beTest (a e : Nat) (v : Int) : (d.setI a e v).beTest = d.beTest := rfl
@[simp] theorem Dev.setI_em (a e : Nat) (v : Int) : (d.setI a e v).em = d.em := rfl
@[simp] theorem Dev.setI_ledger (a e : Nat) (v : Int) : (d.setI a e v).ledger = d.ledger := rfl
@[simp] theorem Dev.setI_keeper (a e : Nat) (v : Int) : (d.setI a e v).keeper = d.keeper := rfl
@[simp] theorem Dev.setI_out (a e : Nat) (v : Int) : (d.setI a e v).out = d.out := rfl

@[simp] theorem Dev.bump_now (a e n : Nat) : (d.bump a e n).now = d.now := rfl
@[simp] theorem Dev.bump_free (a e n : Nat) : (d.bump a e n).free = d.free := rfl
@[simp] theorem Dev.bump_mode (a e n : Nat) : (d.bump a e n).mode = d.mode := rfl
@[simp] theorem Dev.bump_modePend (a e n : Nat) : (d.bump a e n).modePend = d.modePend := rfl
@[simp] theorem Dev.bump_modeFrom (a e n : Nat) : (d.bump a e n).modeFrom = d.modeFrom := rfl
@[simp] theorem Dev.bump_safeReason (a e n : Nat) : (d.bump a e n).safeReason = d.safeReason := rfl
@[simp] theorem Dev.bump_safeFrom (a e n : Nat) : (d.bump a e n).safeFrom = d.safeFrom := rfl
@[simp] theorem Dev.bump_draining (a e n : Nat) : (d.bump a e n).draining = d.draining := rfl
@[simp] theorem Dev.bump_confirmAt (a e n : Nat) : (d.bump a e n).confirmAt = d.confirmAt := rfl
@[simp] theorem Dev.bump_inReset (a e n : Nat) : (d.bump a e n).inReset = d.inReset := rfl
@[simp] theorem Dev.bump_applied (a e n : Nat) : (d.bump a e n).applied = d.applied := rfl
@[simp] theorem Dev.bump_mirror (a e n : Nat) : (d.bump a e n).mirror = d.mirror := rfl
@[simp] theorem Dev.bump_mirrorDom (a e n : Nat) : (d.bump a e n).mirrorDom = d.mirrorDom := rfl
@[simp] theorem Dev.bump_grid (a e n : Nat) : (d.bump a e n).grid = d.grid := rfl
@[simp] theorem Dev.bump_tb (a e n : Nat) : (d.bump a e n).tb = d.tb := rfl
@[simp] theorem Dev.bump_tu (a e n : Nat) : (d.bump a e n).tu = d.tu := rfl
@[simp] theorem Dev.bump_fes (a e n : Nat) : (d.bump a e n).fes = d.fes := rfl
@[simp] theorem Dev.bump_ports (a e n : Nat) : (d.bump a e n).ports = d.ports := rfl
@[simp] theorem Dev.bump_lines (a e n : Nat) : (d.bump a e n).lines = d.lines := rfl
@[simp] theorem Dev.bump_boot (a e n : Nat) : (d.bump a e n).boot = d.boot := rfl
@[simp] theorem Dev.bump_aon (a e n : Nat) : (d.bump a e n).aon = d.aon := rfl
@[simp] theorem Dev.bump_merge (a e n : Nat) : (d.bump a e n).merge = d.merge := rfl
@[simp] theorem Dev.bump_net (a e n : Nat) : (d.bump a e n).net = d.net := rfl
@[simp] theorem Dev.bump_mem (a e n : Nat) : (d.bump a e n).mem = d.mem := rfl
@[simp] theorem Dev.bump_gov (a e n : Nat) : (d.bump a e n).gov = d.gov := rfl
@[simp] theorem Dev.bump_sched (a e n : Nat) : (d.bump a e n).sched = d.sched := rfl
@[simp] theorem Dev.bump_flash (a e n : Nat) : (d.bump a e n).flash = d.flash := rfl
@[simp] theorem Dev.bump_cvu (a e n : Nat) : (d.bump a e n).cvu = d.cvu := rfl
@[simp] theorem Dev.bump_aliveFresh (a e n : Nat) : (d.bump a e n).aliveFresh = d.aliveFresh := rfl
@[simp] theorem Dev.bump_aliveAt (a e n : Nat) : (d.bump a e n).aliveAt = d.aliveAt := rfl
@[simp] theorem Dev.bump_beTest (a e n : Nat) : (d.bump a e n).beTest = d.beTest := rfl
@[simp] theorem Dev.bump_em (a e n : Nat) : (d.bump a e n).em = d.em := rfl
@[simp] theorem Dev.bump_ledger (a e n : Nat) : (d.bump a e n).ledger = d.ledger := rfl
@[simp] theorem Dev.bump_keeper (a e n : Nat) : (d.bump a e n).keeper = d.keeper := rfl
@[simp] theorem Dev.bump_out (a e n : Nat) : (d.bump a e n).out = d.out := rfl

@[simp] theorem Dev.wrap_now (a e : Nat) : (d.wrap a e).now = d.now := rfl
@[simp] theorem Dev.wrap_free (a e : Nat) : (d.wrap a e).free = d.free := rfl
@[simp] theorem Dev.wrap_mode (a e : Nat) : (d.wrap a e).mode = d.mode := rfl
@[simp] theorem Dev.wrap_modePend (a e : Nat) : (d.wrap a e).modePend = d.modePend := rfl
@[simp] theorem Dev.wrap_modeFrom (a e : Nat) : (d.wrap a e).modeFrom = d.modeFrom := rfl
@[simp] theorem Dev.wrap_safeReason (a e : Nat) : (d.wrap a e).safeReason = d.safeReason := rfl
@[simp] theorem Dev.wrap_safeFrom (a e : Nat) : (d.wrap a e).safeFrom = d.safeFrom := rfl
@[simp] theorem Dev.wrap_draining (a e : Nat) : (d.wrap a e).draining = d.draining := rfl
@[simp] theorem Dev.wrap_confirmAt (a e : Nat) : (d.wrap a e).confirmAt = d.confirmAt := rfl
@[simp] theorem Dev.wrap_inReset (a e : Nat) : (d.wrap a e).inReset = d.inReset := rfl
@[simp] theorem Dev.wrap_applied (a e : Nat) : (d.wrap a e).applied = d.applied := rfl
@[simp] theorem Dev.wrap_mirror (a e : Nat) : (d.wrap a e).mirror = d.mirror := rfl
@[simp] theorem Dev.wrap_mirrorDom (a e : Nat) : (d.wrap a e).mirrorDom = d.mirrorDom := rfl
@[simp] theorem Dev.wrap_grid (a e : Nat) : (d.wrap a e).grid = d.grid := rfl
@[simp] theorem Dev.wrap_tb (a e : Nat) : (d.wrap a e).tb = d.tb := rfl
@[simp] theorem Dev.wrap_tu (a e : Nat) : (d.wrap a e).tu = d.tu := rfl
@[simp] theorem Dev.wrap_fes (a e : Nat) : (d.wrap a e).fes = d.fes := rfl
@[simp] theorem Dev.wrap_ports (a e : Nat) : (d.wrap a e).ports = d.ports := rfl
@[simp] theorem Dev.wrap_lines (a e : Nat) : (d.wrap a e).lines = d.lines := rfl
@[simp] theorem Dev.wrap_boot (a e : Nat) : (d.wrap a e).boot = d.boot := rfl
@[simp] theorem Dev.wrap_aon (a e : Nat) : (d.wrap a e).aon = d.aon := rfl
@[simp] theorem Dev.wrap_merge (a e : Nat) : (d.wrap a e).merge = d.merge := rfl
@[simp] theorem Dev.wrap_net (a e : Nat) : (d.wrap a e).net = d.net := rfl
@[simp] theorem Dev.wrap_mem (a e : Nat) : (d.wrap a e).mem = d.mem := rfl
@[simp] theorem Dev.wrap_gov (a e : Nat) : (d.wrap a e).gov = d.gov := rfl
@[simp] theorem Dev.wrap_sched (a e : Nat) : (d.wrap a e).sched = d.sched := rfl
@[simp] theorem Dev.wrap_flash (a e : Nat) : (d.wrap a e).flash = d.flash := rfl
@[simp] theorem Dev.wrap_cvu (a e : Nat) : (d.wrap a e).cvu = d.cvu := rfl
@[simp] theorem Dev.wrap_aliveFresh (a e : Nat) : (d.wrap a e).aliveFresh = d.aliveFresh := rfl
@[simp] theorem Dev.wrap_aliveAt (a e : Nat) : (d.wrap a e).aliveAt = d.aliveAt := rfl
@[simp] theorem Dev.wrap_beTest (a e : Nat) : (d.wrap a e).beTest = d.beTest := rfl
@[simp] theorem Dev.wrap_em (a e : Nat) : (d.wrap a e).em = d.em := rfl
@[simp] theorem Dev.wrap_ledger (a e : Nat) : (d.wrap a e).ledger = d.ledger := rfl
@[simp] theorem Dev.wrap_keeper (a e : Nat) : (d.wrap a e).keeper = d.keeper := rfl
@[simp] theorem Dev.wrap_out (a e : Nat) : (d.wrap a e).out = d.out := rfl

@[simp] theorem Dev.fset_now (p : Port) (a e v : Nat) : (d.fset p a e v).now = d.now := rfl
@[simp] theorem Dev.fset_free (p : Port) (a e v : Nat) : (d.fset p a e v).free = d.free := rfl
@[simp] theorem Dev.fset_mode (p : Port) (a e v : Nat) : (d.fset p a e v).mode = d.mode := rfl
@[simp] theorem Dev.fset_modePend (p : Port) (a e v : Nat) : (d.fset p a e v).modePend = d.modePend := rfl
@[simp] theorem Dev.fset_modeFrom (p : Port) (a e v : Nat) : (d.fset p a e v).modeFrom = d.modeFrom := rfl
@[simp] theorem Dev.fset_safeReason (p : Port) (a e v : Nat) : (d.fset p a e v).safeReason = d.safeReason := rfl
@[simp] theorem Dev.fset_safeFrom (p : Port) (a e v : Nat) : (d.fset p a e v).safeFrom = d.safeFrom := rfl
@[simp] theorem Dev.fset_draining (p : Port) (a e v : Nat) : (d.fset p a e v).draining = d.draining := rfl
@[simp] theorem Dev.fset_confirmAt (p : Port) (a e v : Nat) : (d.fset p a e v).confirmAt = d.confirmAt := rfl
@[simp] theorem Dev.fset_inReset (p : Port) (a e v : Nat) : (d.fset p a e v).inReset = d.inReset := rfl
@[simp] theorem Dev.fset_applied (p : Port) (a e v : Nat) : (d.fset p a e v).applied = d.applied := rfl
@[simp] theorem Dev.fset_mirror (p : Port) (a e v : Nat) : (d.fset p a e v).mirror = d.mirror := rfl
@[simp] theorem Dev.fset_mirrorDom (p : Port) (a e v : Nat) : (d.fset p a e v).mirrorDom = d.mirrorDom := rfl
@[simp] theorem Dev.fset_grid (p : Port) (a e v : Nat) : (d.fset p a e v).grid = d.grid := rfl
@[simp] theorem Dev.fset_tb (p : Port) (a e v : Nat) : (d.fset p a e v).tb = d.tb := rfl
@[simp] theorem Dev.fset_tu (p : Port) (a e v : Nat) : (d.fset p a e v).tu = d.tu := rfl
@[simp] theorem Dev.fset_fes (p : Port) (a e v : Nat) : (d.fset p a e v).fes = d.fes := rfl
@[simp] theorem Dev.fset_ports (p : Port) (a e v : Nat) : (d.fset p a e v).ports = d.ports := rfl
@[simp] theorem Dev.fset_lines (p : Port) (a e v : Nat) : (d.fset p a e v).lines = d.lines := rfl
@[simp] theorem Dev.fset_boot (p : Port) (a e v : Nat) : (d.fset p a e v).boot = d.boot := rfl
@[simp] theorem Dev.fset_aon (p : Port) (a e v : Nat) : (d.fset p a e v).aon = d.aon := rfl
@[simp] theorem Dev.fset_merge (p : Port) (a e v : Nat) : (d.fset p a e v).merge = d.merge := rfl
@[simp] theorem Dev.fset_net (p : Port) (a e v : Nat) : (d.fset p a e v).net = d.net := rfl
@[simp] theorem Dev.fset_mem (p : Port) (a e v : Nat) : (d.fset p a e v).mem = d.mem := rfl
@[simp] theorem Dev.fset_gov (p : Port) (a e v : Nat) : (d.fset p a e v).gov = d.gov := rfl
@[simp] theorem Dev.fset_sched (p : Port) (a e v : Nat) : (d.fset p a e v).sched = d.sched := rfl
@[simp] theorem Dev.fset_flash (p : Port) (a e v : Nat) : (d.fset p a e v).flash = d.flash := rfl
@[simp] theorem Dev.fset_cvu (p : Port) (a e v : Nat) : (d.fset p a e v).cvu = d.cvu := rfl
@[simp] theorem Dev.fset_aliveFresh (p : Port) (a e v : Nat) : (d.fset p a e v).aliveFresh = d.aliveFresh := rfl
@[simp] theorem Dev.fset_aliveAt (p : Port) (a e v : Nat) : (d.fset p a e v).aliveAt = d.aliveAt := rfl
@[simp] theorem Dev.fset_beTest (p : Port) (a e v : Nat) : (d.fset p a e v).beTest = d.beTest := rfl
@[simp] theorem Dev.fset_em (p : Port) (a e v : Nat) : (d.fset p a e v).em = d.em := rfl
@[simp] theorem Dev.fset_ledger (p : Port) (a e v : Nat) : (d.fset p a e v).ledger = d.ledger := rfl
@[simp] theorem Dev.fset_keeper (p : Port) (a e v : Nat) : (d.fset p a e v).keeper = d.keeper := rfl
@[simp] theorem Dev.fset_out (p : Port) (a e v : Nat) : (d.fset p a e v).out = d.out := rfl

@[simp] theorem Dev.fbump_now (p : Port) (a e n : Nat) : (d.fbump p a e n).now = d.now := rfl
@[simp] theorem Dev.fbump_free (p : Port) (a e n : Nat) : (d.fbump p a e n).free = d.free := rfl
@[simp] theorem Dev.fbump_mode (p : Port) (a e n : Nat) : (d.fbump p a e n).mode = d.mode := rfl
@[simp] theorem Dev.fbump_modePend (p : Port) (a e n : Nat) : (d.fbump p a e n).modePend = d.modePend := rfl
@[simp] theorem Dev.fbump_modeFrom (p : Port) (a e n : Nat) : (d.fbump p a e n).modeFrom = d.modeFrom := rfl
@[simp] theorem Dev.fbump_safeReason (p : Port) (a e n : Nat) : (d.fbump p a e n).safeReason = d.safeReason := rfl
@[simp] theorem Dev.fbump_safeFrom (p : Port) (a e n : Nat) : (d.fbump p a e n).safeFrom = d.safeFrom := rfl
@[simp] theorem Dev.fbump_draining (p : Port) (a e n : Nat) : (d.fbump p a e n).draining = d.draining := rfl
@[simp] theorem Dev.fbump_confirmAt (p : Port) (a e n : Nat) : (d.fbump p a e n).confirmAt = d.confirmAt := rfl
@[simp] theorem Dev.fbump_inReset (p : Port) (a e n : Nat) : (d.fbump p a e n).inReset = d.inReset := rfl
@[simp] theorem Dev.fbump_applied (p : Port) (a e n : Nat) : (d.fbump p a e n).applied = d.applied := rfl
@[simp] theorem Dev.fbump_mirror (p : Port) (a e n : Nat) : (d.fbump p a e n).mirror = d.mirror := rfl
@[simp] theorem Dev.fbump_mirrorDom (p : Port) (a e n : Nat) : (d.fbump p a e n).mirrorDom = d.mirrorDom := rfl
@[simp] theorem Dev.fbump_grid (p : Port) (a e n : Nat) : (d.fbump p a e n).grid = d.grid := rfl
@[simp] theorem Dev.fbump_tb (p : Port) (a e n : Nat) : (d.fbump p a e n).tb = d.tb := rfl
@[simp] theorem Dev.fbump_tu (p : Port) (a e n : Nat) : (d.fbump p a e n).tu = d.tu := rfl
@[simp] theorem Dev.fbump_fes (p : Port) (a e n : Nat) : (d.fbump p a e n).fes = d.fes := rfl
@[simp] theorem Dev.fbump_ports (p : Port) (a e n : Nat) : (d.fbump p a e n).ports = d.ports := rfl
@[simp] theorem Dev.fbump_lines (p : Port) (a e n : Nat) : (d.fbump p a e n).lines = d.lines := rfl
@[simp] theorem Dev.fbump_boot (p : Port) (a e n : Nat) : (d.fbump p a e n).boot = d.boot := rfl
@[simp] theorem Dev.fbump_aon (p : Port) (a e n : Nat) : (d.fbump p a e n).aon = d.aon := rfl
@[simp] theorem Dev.fbump_merge (p : Port) (a e n : Nat) : (d.fbump p a e n).merge = d.merge := rfl
@[simp] theorem Dev.fbump_net (p : Port) (a e n : Nat) : (d.fbump p a e n).net = d.net := rfl
@[simp] theorem Dev.fbump_mem (p : Port) (a e n : Nat) : (d.fbump p a e n).mem = d.mem := rfl
@[simp] theorem Dev.fbump_gov (p : Port) (a e n : Nat) : (d.fbump p a e n).gov = d.gov := rfl
@[simp] theorem Dev.fbump_sched (p : Port) (a e n : Nat) : (d.fbump p a e n).sched = d.sched := rfl
@[simp] theorem Dev.fbump_flash (p : Port) (a e n : Nat) : (d.fbump p a e n).flash = d.flash := rfl
@[simp] theorem Dev.fbump_cvu (p : Port) (a e n : Nat) : (d.fbump p a e n).cvu = d.cvu := rfl
@[simp] theorem Dev.fbump_aliveFresh (p : Port) (a e n : Nat) : (d.fbump p a e n).aliveFresh = d.aliveFresh := rfl
@[simp] theorem Dev.fbump_aliveAt (p : Port) (a e n : Nat) : (d.fbump p a e n).aliveAt = d.aliveAt := rfl
@[simp] theorem Dev.fbump_beTest (p : Port) (a e n : Nat) : (d.fbump p a e n).beTest = d.beTest := rfl
@[simp] theorem Dev.fbump_em (p : Port) (a e n : Nat) : (d.fbump p a e n).em = d.em := rfl
@[simp] theorem Dev.fbump_ledger (p : Port) (a e n : Nat) : (d.fbump p a e n).ledger = d.ledger := rfl
@[simp] theorem Dev.fbump_keeper (p : Port) (a e n : Nat) : (d.fbump p a e n).keeper = d.keeper := rfl
@[simp] theorem Dev.fbump_out (p : Port) (a e n : Nat) : (d.fbump p a e n).out = d.out := rfl

@[simp] theorem Dev.setAp_now (p : Port) (a e v : Nat) : (d.setAp p a e v).now = d.now := rfl
@[simp] theorem Dev.setAp_free (p : Port) (a e v : Nat) : (d.setAp p a e v).free = d.free := rfl
@[simp] theorem Dev.setAp_mode (p : Port) (a e v : Nat) : (d.setAp p a e v).mode = d.mode := rfl
@[simp] theorem Dev.setAp_modePend (p : Port) (a e v : Nat) : (d.setAp p a e v).modePend = d.modePend := rfl
@[simp] theorem Dev.setAp_modeFrom (p : Port) (a e v : Nat) : (d.setAp p a e v).modeFrom = d.modeFrom := rfl
@[simp] theorem Dev.setAp_safeReason (p : Port) (a e v : Nat) : (d.setAp p a e v).safeReason = d.safeReason := rfl
@[simp] theorem Dev.setAp_safeFrom (p : Port) (a e v : Nat) : (d.setAp p a e v).safeFrom = d.safeFrom := rfl
@[simp] theorem Dev.setAp_draining (p : Port) (a e v : Nat) : (d.setAp p a e v).draining = d.draining := rfl
@[simp] theorem Dev.setAp_confirmAt (p : Port) (a e v : Nat) : (d.setAp p a e v).confirmAt = d.confirmAt := rfl
@[simp] theorem Dev.setAp_inReset (p : Port) (a e v : Nat) : (d.setAp p a e v).inReset = d.inReset := rfl
@[simp] theorem Dev.setAp_regs (p : Port) (a e v : Nat) : (d.setAp p a e v).regs = d.regs := rfl
@[simp] theorem Dev.setAp_mirror (p : Port) (a e v : Nat) : (d.setAp p a e v).mirror = d.mirror := rfl
@[simp] theorem Dev.setAp_mirrorDom (p : Port) (a e v : Nat) : (d.setAp p a e v).mirrorDom = d.mirrorDom := rfl
@[simp] theorem Dev.setAp_grid (p : Port) (a e v : Nat) : (d.setAp p a e v).grid = d.grid := rfl
@[simp] theorem Dev.setAp_tb (p : Port) (a e v : Nat) : (d.setAp p a e v).tb = d.tb := rfl
@[simp] theorem Dev.setAp_tu (p : Port) (a e v : Nat) : (d.setAp p a e v).tu = d.tu := rfl
@[simp] theorem Dev.setAp_fes (p : Port) (a e v : Nat) : (d.setAp p a e v).fes = d.fes := rfl
@[simp] theorem Dev.setAp_ports (p : Port) (a e v : Nat) : (d.setAp p a e v).ports = d.ports := rfl
@[simp] theorem Dev.setAp_lines (p : Port) (a e v : Nat) : (d.setAp p a e v).lines = d.lines := rfl
@[simp] theorem Dev.setAp_boot (p : Port) (a e v : Nat) : (d.setAp p a e v).boot = d.boot := rfl
@[simp] theorem Dev.setAp_aon (p : Port) (a e v : Nat) : (d.setAp p a e v).aon = d.aon := rfl
@[simp] theorem Dev.setAp_merge (p : Port) (a e v : Nat) : (d.setAp p a e v).merge = d.merge := rfl
@[simp] theorem Dev.setAp_net (p : Port) (a e v : Nat) : (d.setAp p a e v).net = d.net := rfl
@[simp] theorem Dev.setAp_mem (p : Port) (a e v : Nat) : (d.setAp p a e v).mem = d.mem := rfl
@[simp] theorem Dev.setAp_gov (p : Port) (a e v : Nat) : (d.setAp p a e v).gov = d.gov := rfl
@[simp] theorem Dev.setAp_sched (p : Port) (a e v : Nat) : (d.setAp p a e v).sched = d.sched := rfl
@[simp] theorem Dev.setAp_flash (p : Port) (a e v : Nat) : (d.setAp p a e v).flash = d.flash := rfl
@[simp] theorem Dev.setAp_cvu (p : Port) (a e v : Nat) : (d.setAp p a e v).cvu = d.cvu := rfl
@[simp] theorem Dev.setAp_aliveFresh (p : Port) (a e v : Nat) : (d.setAp p a e v).aliveFresh = d.aliveFresh := rfl
@[simp] theorem Dev.setAp_aliveAt (p : Port) (a e v : Nat) : (d.setAp p a e v).aliveAt = d.aliveAt := rfl
@[simp] theorem Dev.setAp_beTest (p : Port) (a e v : Nat) : (d.setAp p a e v).beTest = d.beTest := rfl
@[simp] theorem Dev.setAp_em (p : Port) (a e v : Nat) : (d.setAp p a e v).em = d.em := rfl
@[simp] theorem Dev.setAp_ledger (p : Port) (a e v : Nat) : (d.setAp p a e v).ledger = d.ledger := rfl
@[simp] theorem Dev.setAp_keeper (p : Port) (a e v : Nat) : (d.setAp p a e v).keeper = d.keeper := rfl
@[simp] theorem Dev.setAp_out (p : Port) (a e v : Nat) : (d.setAp p a e v).out = d.out := rfl

@[simp] theorem Dev.setFe_now (p : Port) (f : FrontEnd) : (d.setFe p f).now = d.now := rfl
@[simp] theorem Dev.setFe_free (p : Port) (f : FrontEnd) : (d.setFe p f).free = d.free := rfl
@[simp] theorem Dev.setFe_mode (p : Port) (f : FrontEnd) : (d.setFe p f).mode = d.mode := rfl
@[simp] theorem Dev.setFe_modePend (p : Port) (f : FrontEnd) : (d.setFe p f).modePend = d.modePend := rfl
@[simp] theorem Dev.setFe_modeFrom (p : Port) (f : FrontEnd) : (d.setFe p f).modeFrom = d.modeFrom := rfl
@[simp] theorem Dev.setFe_safeReason (p : Port) (f : FrontEnd) : (d.setFe p f).safeReason = d.safeReason := rfl
@[simp] theorem Dev.setFe_safeFrom (p : Port) (f : FrontEnd) : (d.setFe p f).safeFrom = d.safeFrom := rfl
@[simp] theorem Dev.setFe_draining (p : Port) (f : FrontEnd) : (d.setFe p f).draining = d.draining := rfl
@[simp] theorem Dev.setFe_confirmAt (p : Port) (f : FrontEnd) : (d.setFe p f).confirmAt = d.confirmAt := rfl
@[simp] theorem Dev.setFe_inReset (p : Port) (f : FrontEnd) : (d.setFe p f).inReset = d.inReset := rfl
@[simp] theorem Dev.setFe_regs (p : Port) (f : FrontEnd) : (d.setFe p f).regs = d.regs := rfl
@[simp] theorem Dev.setFe_applied (p : Port) (f : FrontEnd) : (d.setFe p f).applied = d.applied := rfl
@[simp] theorem Dev.setFe_mirror (p : Port) (f : FrontEnd) : (d.setFe p f).mirror = d.mirror := rfl
@[simp] theorem Dev.setFe_mirrorDom (p : Port) (f : FrontEnd) : (d.setFe p f).mirrorDom = d.mirrorDom := rfl
@[simp] theorem Dev.setFe_grid (p : Port) (f : FrontEnd) : (d.setFe p f).grid = d.grid := rfl
@[simp] theorem Dev.setFe_tb (p : Port) (f : FrontEnd) : (d.setFe p f).tb = d.tb := rfl
@[simp] theorem Dev.setFe_tu (p : Port) (f : FrontEnd) : (d.setFe p f).tu = d.tu := rfl
@[simp] theorem Dev.setFe_ports (p : Port) (f : FrontEnd) : (d.setFe p f).ports = d.ports := rfl
@[simp] theorem Dev.setFe_lines (p : Port) (f : FrontEnd) : (d.setFe p f).lines = d.lines := rfl
@[simp] theorem Dev.setFe_boot (p : Port) (f : FrontEnd) : (d.setFe p f).boot = d.boot := rfl
@[simp] theorem Dev.setFe_aon (p : Port) (f : FrontEnd) : (d.setFe p f).aon = d.aon := rfl
@[simp] theorem Dev.setFe_merge (p : Port) (f : FrontEnd) : (d.setFe p f).merge = d.merge := rfl
@[simp] theorem Dev.setFe_net (p : Port) (f : FrontEnd) : (d.setFe p f).net = d.net := rfl
@[simp] theorem Dev.setFe_mem (p : Port) (f : FrontEnd) : (d.setFe p f).mem = d.mem := rfl
@[simp] theorem Dev.setFe_gov (p : Port) (f : FrontEnd) : (d.setFe p f).gov = d.gov := rfl
@[simp] theorem Dev.setFe_sched (p : Port) (f : FrontEnd) : (d.setFe p f).sched = d.sched := rfl
@[simp] theorem Dev.setFe_flash (p : Port) (f : FrontEnd) : (d.setFe p f).flash = d.flash := rfl
@[simp] theorem Dev.setFe_cvu (p : Port) (f : FrontEnd) : (d.setFe p f).cvu = d.cvu := rfl
@[simp] theorem Dev.setFe_aliveFresh (p : Port) (f : FrontEnd) : (d.setFe p f).aliveFresh = d.aliveFresh := rfl
@[simp] theorem Dev.setFe_aliveAt (p : Port) (f : FrontEnd) : (d.setFe p f).aliveAt = d.aliveAt := rfl
@[simp] theorem Dev.setFe_beTest (p : Port) (f : FrontEnd) : (d.setFe p f).beTest = d.beTest := rfl
@[simp] theorem Dev.setFe_em (p : Port) (f : FrontEnd) : (d.setFe p f).em = d.em := rfl
@[simp] theorem Dev.setFe_ledger (p : Port) (f : FrontEnd) : (d.setFe p f).ledger = d.ledger := rfl
@[simp] theorem Dev.setFe_keeper (p : Port) (f : FrontEnd) : (d.setFe p f).keeper = d.keeper := rfl
@[simp] theorem Dev.setFe_out (p : Port) (f : FrontEnd) : (d.setFe p f).out = d.out := rfl

@[simp] theorem Dev.updFe_now (p : Port) (g : FrontEnd → FrontEnd) : (d.updFe p g).now = d.now := rfl
@[simp] theorem Dev.updFe_free (p : Port) (g : FrontEnd → FrontEnd) : (d.updFe p g).free = d.free := rfl
@[simp] theorem Dev.updFe_mode (p : Port) (g : FrontEnd → FrontEnd) : (d.updFe p g).mode = d.mode := rfl
@[simp] theorem Dev.updFe_modePend (p : Port) (g : FrontEnd → FrontEnd) : (d.updFe p g).modePend = d.modePend := rfl
@[simp] theorem Dev.updFe_modeFrom (p : Port) (g : FrontEnd → FrontEnd) : (d.updFe p g).modeFrom = d.modeFrom := rfl
@[simp] theorem Dev.updFe_safeReason (p : Port) (g : FrontEnd → FrontEnd) : (d.updFe p g).safeReason = d.safeReason := rfl
@[simp] theorem Dev.updFe_safeFrom (p : Port) (g : FrontEnd → FrontEnd) : (d.updFe p g).safeFrom = d.safeFrom := rfl
@[simp] theorem Dev.updFe_draining (p : Port) (g : FrontEnd → FrontEnd) : (d.updFe p g).draining = d.draining := rfl
@[simp] theorem Dev.updFe_confirmAt (p : Port) (g : FrontEnd → FrontEnd) : (d.updFe p g).confirmAt = d.confirmAt := rfl
@[simp] theorem Dev.updFe_inReset (p : Port) (g : FrontEnd → FrontEnd) : (d.updFe p g).inReset = d.inReset := rfl
@[simp] theorem Dev.updFe_regs (p : Port) (g : FrontEnd → FrontEnd) : (d.updFe p g).regs = d.regs := rfl
@[simp] theorem Dev.updFe_applied (p : Port) (g : FrontEnd → FrontEnd) : (d.updFe p g).applied = d.applied := rfl
@[simp] theorem Dev.updFe_mirror (p : Port) (g : FrontEnd → FrontEnd) : (d.updFe p g).mirror = d.mirror := rfl
@[simp] theorem Dev.updFe_mirrorDom (p : Port) (g : FrontEnd → FrontEnd) : (d.updFe p g).mirrorDom = d.mirrorDom := rfl
@[simp] theorem Dev.updFe_grid (p : Port) (g : FrontEnd → FrontEnd) : (d.updFe p g).grid = d.grid := rfl
@[simp] theorem Dev.updFe_tb (p : Port) (g : FrontEnd → FrontEnd) : (d.updFe p g).tb = d.tb := rfl
@[simp] theorem Dev.updFe_tu (p : Port) (g : FrontEnd → FrontEnd) : (d.updFe p g).tu = d.tu := rfl
@[simp] theorem Dev.updFe_ports (p : Port) (g : FrontEnd → FrontEnd) : (d.updFe p g).ports = d.ports := rfl
@[simp] theorem Dev.updFe_lines (p : Port) (g : FrontEnd → FrontEnd) : (d.updFe p g).lines = d.lines := rfl
@[simp] theorem Dev.updFe_boot (p : Port) (g : FrontEnd → FrontEnd) : (d.updFe p g).boot = d.boot := rfl
@[simp] theorem Dev.updFe_aon (p : Port) (g : FrontEnd → FrontEnd) : (d.updFe p g).aon = d.aon := rfl
@[simp] theorem Dev.updFe_merge (p : Port) (g : FrontEnd → FrontEnd) : (d.updFe p g).merge = d.merge := rfl
@[simp] theorem Dev.updFe_net (p : Port) (g : FrontEnd → FrontEnd) : (d.updFe p g).net = d.net := rfl
@[simp] theorem Dev.updFe_mem (p : Port) (g : FrontEnd → FrontEnd) : (d.updFe p g).mem = d.mem := rfl
@[simp] theorem Dev.updFe_gov (p : Port) (g : FrontEnd → FrontEnd) : (d.updFe p g).gov = d.gov := rfl
@[simp] theorem Dev.updFe_sched (p : Port) (g : FrontEnd → FrontEnd) : (d.updFe p g).sched = d.sched := rfl
@[simp] theorem Dev.updFe_flash (p : Port) (g : FrontEnd → FrontEnd) : (d.updFe p g).flash = d.flash := rfl
@[simp] theorem Dev.updFe_cvu (p : Port) (g : FrontEnd → FrontEnd) : (d.updFe p g).cvu = d.cvu := rfl
@[simp] theorem Dev.updFe_aliveFresh (p : Port) (g : FrontEnd → FrontEnd) : (d.updFe p g).aliveFresh = d.aliveFresh := rfl
@[simp] theorem Dev.updFe_aliveAt (p : Port) (g : FrontEnd → FrontEnd) : (d.updFe p g).aliveAt = d.aliveAt := rfl
@[simp] theorem Dev.updFe_beTest (p : Port) (g : FrontEnd → FrontEnd) : (d.updFe p g).beTest = d.beTest := rfl
@[simp] theorem Dev.updFe_em (p : Port) (g : FrontEnd → FrontEnd) : (d.updFe p g).em = d.em := rfl
@[simp] theorem Dev.updFe_ledger (p : Port) (g : FrontEnd → FrontEnd) : (d.updFe p g).ledger = d.ledger := rfl
@[simp] theorem Dev.updFe_keeper (p : Port) (g : FrontEnd → FrontEnd) : (d.updFe p g).keeper = d.keeper := rfl
@[simp] theorem Dev.updFe_out (p : Port) (g : FrontEnd → FrontEnd) : (d.updFe p g).out = d.out := rfl

@[simp] theorem Dev.setPort_now (p : Port) (c : CPort) : (d.setPort p c).now = d.now := rfl
@[simp] theorem Dev.setPort_free (p : Port) (c : CPort) : (d.setPort p c).free = d.free := rfl
@[simp] theorem Dev.setPort_mode (p : Port) (c : CPort) : (d.setPort p c).mode = d.mode := rfl
@[simp] theorem Dev.setPort_modePend (p : Port) (c : CPort) : (d.setPort p c).modePend = d.modePend := rfl
@[simp] theorem Dev.setPort_modeFrom (p : Port) (c : CPort) : (d.setPort p c).modeFrom = d.modeFrom := rfl
@[simp] theorem Dev.setPort_safeReason (p : Port) (c : CPort) : (d.setPort p c).safeReason = d.safeReason := rfl
@[simp] theorem Dev.setPort_safeFrom (p : Port) (c : CPort) : (d.setPort p c).safeFrom = d.safeFrom := rfl
@[simp] theorem Dev.setPort_draining (p : Port) (c : CPort) : (d.setPort p c).draining = d.draining := rfl
@[simp] theorem Dev.setPort_confirmAt (p : Port) (c : CPort) : (d.setPort p c).confirmAt = d.confirmAt := rfl
@[simp] theorem Dev.setPort_inReset (p : Port) (c : CPort) : (d.setPort p c).inReset = d.inReset := rfl
@[simp] theorem Dev.setPort_regs (p : Port) (c : CPort) : (d.setPort p c).regs = d.regs := rfl
@[simp] theorem Dev.setPort_applied (p : Port) (c : CPort) : (d.setPort p c).applied = d.applied := rfl
@[simp] theorem Dev.setPort_mirror (p : Port) (c : CPort) : (d.setPort p c).mirror = d.mirror := rfl
@[simp] theorem Dev.setPort_mirrorDom (p : Port) (c : CPort) : (d.setPort p c).mirrorDom = d.mirrorDom := rfl
@[simp] theorem Dev.setPort_grid (p : Port) (c : CPort) : (d.setPort p c).grid = d.grid := rfl
@[simp] theorem Dev.setPort_tb (p : Port) (c : CPort) : (d.setPort p c).tb = d.tb := rfl
@[simp] theorem Dev.setPort_tu (p : Port) (c : CPort) : (d.setPort p c).tu = d.tu := rfl
@[simp] theorem Dev.setPort_fes (p : Port) (c : CPort) : (d.setPort p c).fes = d.fes := rfl
@[simp] theorem Dev.setPort_lines (p : Port) (c : CPort) : (d.setPort p c).lines = d.lines := rfl
@[simp] theorem Dev.setPort_boot (p : Port) (c : CPort) : (d.setPort p c).boot = d.boot := rfl
@[simp] theorem Dev.setPort_aon (p : Port) (c : CPort) : (d.setPort p c).aon = d.aon := rfl
@[simp] theorem Dev.setPort_merge (p : Port) (c : CPort) : (d.setPort p c).merge = d.merge := rfl
@[simp] theorem Dev.setPort_net (p : Port) (c : CPort) : (d.setPort p c).net = d.net := rfl
@[simp] theorem Dev.setPort_mem (p : Port) (c : CPort) : (d.setPort p c).mem = d.mem := rfl
@[simp] theorem Dev.setPort_gov (p : Port) (c : CPort) : (d.setPort p c).gov = d.gov := rfl
@[simp] theorem Dev.setPort_sched (p : Port) (c : CPort) : (d.setPort p c).sched = d.sched := rfl
@[simp] theorem Dev.setPort_flash (p : Port) (c : CPort) : (d.setPort p c).flash = d.flash := rfl
@[simp] theorem Dev.setPort_cvu (p : Port) (c : CPort) : (d.setPort p c).cvu = d.cvu := rfl
@[simp] theorem Dev.setPort_aliveFresh (p : Port) (c : CPort) : (d.setPort p c).aliveFresh = d.aliveFresh := rfl
@[simp] theorem Dev.setPort_aliveAt (p : Port) (c : CPort) : (d.setPort p c).aliveAt = d.aliveAt := rfl
@[simp] theorem Dev.setPort_beTest (p : Port) (c : CPort) : (d.setPort p c).beTest = d.beTest := rfl
@[simp] theorem Dev.setPort_em (p : Port) (c : CPort) : (d.setPort p c).em = d.em := rfl
@[simp] theorem Dev.setPort_ledger (p : Port) (c : CPort) : (d.setPort p c).ledger = d.ledger := rfl
@[simp] theorem Dev.setPort_keeper (p : Port) (c : CPort) : (d.setPort p c).keeper = d.keeper := rfl
@[simp] theorem Dev.setPort_out (p : Port) (c : CPort) : (d.setPort p c).out = d.out := rfl

@[simp] theorem Dev.updPort_now (p : Port) (g : CPort → CPort) : (d.updPort p g).now = d.now := rfl
@[simp] theorem Dev.updPort_free (p : Port) (g : CPort → CPort) : (d.updPort p g).free = d.free := rfl
@[simp] theorem Dev.updPort_mode (p : Port) (g : CPort → CPort) : (d.updPort p g).mode = d.mode := rfl
@[simp] theorem Dev.updPort_modePend (p : Port) (g : CPort → CPort) : (d.updPort p g).modePend = d.modePend := rfl
@[simp] theorem Dev.updPort_modeFrom (p : Port) (g : CPort → CPort) : (d.updPort p g).modeFrom = d.modeFrom := rfl
@[simp] theorem Dev.updPort_safeReason (p : Port) (g : CPort → CPort) : (d.updPort p g).safeReason = d.safeReason := rfl
@[simp] theorem Dev.updPort_safeFrom (p : Port) (g : CPort → CPort) : (d.updPort p g).safeFrom = d.safeFrom := rfl
@[simp] theorem Dev.updPort_draining (p : Port) (g : CPort → CPort) : (d.updPort p g).draining = d.draining := rfl
@[simp] theorem Dev.updPort_confirmAt (p : Port) (g : CPort → CPort) : (d.updPort p g).confirmAt = d.confirmAt := rfl
@[simp] theorem Dev.updPort_inReset (p : Port) (g : CPort → CPort) : (d.updPort p g).inReset = d.inReset := rfl
@[simp] theorem Dev.updPort_regs (p : Port) (g : CPort → CPort) : (d.updPort p g).regs = d.regs := rfl
@[simp] theorem Dev.updPort_applied (p : Port) (g : CPort → CPort) : (d.updPort p g).applied = d.applied := rfl
@[simp] theorem Dev.updPort_mirror (p : Port) (g : CPort → CPort) : (d.updPort p g).mirror = d.mirror := rfl
@[simp] theorem Dev.updPort_mirrorDom (p : Port) (g : CPort → CPort) : (d.updPort p g).mirrorDom = d.mirrorDom := rfl
@[simp] theorem Dev.updPort_grid (p : Port) (g : CPort → CPort) : (d.updPort p g).grid = d.grid := rfl
@[simp] theorem Dev.updPort_tb (p : Port) (g : CPort → CPort) : (d.updPort p g).tb = d.tb := rfl
@[simp] theorem Dev.updPort_tu (p : Port) (g : CPort → CPort) : (d.updPort p g).tu = d.tu := rfl
@[simp] theorem Dev.updPort_fes (p : Port) (g : CPort → CPort) : (d.updPort p g).fes = d.fes := rfl
@[simp] theorem Dev.updPort_lines (p : Port) (g : CPort → CPort) : (d.updPort p g).lines = d.lines := rfl
@[simp] theorem Dev.updPort_boot (p : Port) (g : CPort → CPort) : (d.updPort p g).boot = d.boot := rfl
@[simp] theorem Dev.updPort_aon (p : Port) (g : CPort → CPort) : (d.updPort p g).aon = d.aon := rfl
@[simp] theorem Dev.updPort_merge (p : Port) (g : CPort → CPort) : (d.updPort p g).merge = d.merge := rfl
@[simp] theorem Dev.updPort_net (p : Port) (g : CPort → CPort) : (d.updPort p g).net = d.net := rfl
@[simp] theorem Dev.updPort_mem (p : Port) (g : CPort → CPort) : (d.updPort p g).mem = d.mem := rfl
@[simp] theorem Dev.updPort_gov (p : Port) (g : CPort → CPort) : (d.updPort p g).gov = d.gov := rfl
@[simp] theorem Dev.updPort_sched (p : Port) (g : CPort → CPort) : (d.updPort p g).sched = d.sched := rfl
@[simp] theorem Dev.updPort_flash (p : Port) (g : CPort → CPort) : (d.updPort p g).flash = d.flash := rfl
@[simp] theorem Dev.updPort_cvu (p : Port) (g : CPort → CPort) : (d.updPort p g).cvu = d.cvu := rfl
@[simp] theorem Dev.updPort_aliveFresh (p : Port) (g : CPort → CPort) : (d.updPort p g).aliveFresh = d.aliveFresh := rfl
@[simp] theorem Dev.updPort_aliveAt (p : Port) (g : CPort → CPort) : (d.updPort p g).aliveAt = d.aliveAt := rfl
@[simp] theorem Dev.updPort_beTest (p : Port) (g : CPort → CPort) : (d.updPort p g).beTest = d.beTest := rfl
@[simp] theorem Dev.updPort_em (p : Port) (g : CPort → CPort) : (d.updPort p g).em = d.em := rfl
@[simp] theorem Dev.updPort_ledger (p : Port) (g : CPort → CPort) : (d.updPort p g).ledger = d.ledger := rfl
@[simp] theorem Dev.updPort_keeper (p : Port) (g : CPort → CPort) : (d.updPort p g).keeper = d.keeper := rfl
@[simp] theorem Dev.updPort_out (p : Port) (g : CPort → CPort) : (d.updPort p g).out = d.out := rfl

@[simp] theorem Dev.emit_now (o : Out) : (d.emit o).now = d.now := rfl
@[simp] theorem Dev.emit_free (o : Out) : (d.emit o).free = d.free := rfl
@[simp] theorem Dev.emit_mode (o : Out) : (d.emit o).mode = d.mode := rfl
@[simp] theorem Dev.emit_modePend (o : Out) : (d.emit o).modePend = d.modePend := rfl
@[simp] theorem Dev.emit_modeFrom (o : Out) : (d.emit o).modeFrom = d.modeFrom := rfl
@[simp] theorem Dev.emit_safeReason (o : Out) : (d.emit o).safeReason = d.safeReason := rfl
@[simp] theorem Dev.emit_safeFrom (o : Out) : (d.emit o).safeFrom = d.safeFrom := rfl
@[simp] theorem Dev.emit_draining (o : Out) : (d.emit o).draining = d.draining := rfl
@[simp] theorem Dev.emit_confirmAt (o : Out) : (d.emit o).confirmAt = d.confirmAt := rfl
@[simp] theorem Dev.emit_inReset (o : Out) : (d.emit o).inReset = d.inReset := rfl
@[simp] theorem Dev.emit_regs (o : Out) : (d.emit o).regs = d.regs := rfl
@[simp] theorem Dev.emit_applied (o : Out) : (d.emit o).applied = d.applied := rfl
@[simp] theorem Dev.emit_mirror (o : Out) : (d.emit o).mirror = d.mirror := rfl
@[simp] theorem Dev.emit_mirrorDom (o : Out) : (d.emit o).mirrorDom = d.mirrorDom := rfl
@[simp] theorem Dev.emit_grid (o : Out) : (d.emit o).grid = d.grid := rfl
@[simp] theorem Dev.emit_tb (o : Out) : (d.emit o).tb = d.tb := rfl
@[simp] theorem Dev.emit_tu (o : Out) : (d.emit o).tu = d.tu := rfl
@[simp] theorem Dev.emit_fes (o : Out) : (d.emit o).fes = d.fes := rfl
@[simp] theorem Dev.emit_ports (o : Out) : (d.emit o).ports = d.ports := rfl
@[simp] theorem Dev.emit_boot (o : Out) : (d.emit o).boot = d.boot := rfl
@[simp] theorem Dev.emit_aon (o : Out) : (d.emit o).aon = d.aon := rfl
@[simp] theorem Dev.emit_merge (o : Out) : (d.emit o).merge = d.merge := rfl
@[simp] theorem Dev.emit_net (o : Out) : (d.emit o).net = d.net := rfl
@[simp] theorem Dev.emit_mem (o : Out) : (d.emit o).mem = d.mem := rfl
@[simp] theorem Dev.emit_gov (o : Out) : (d.emit o).gov = d.gov := rfl
@[simp] theorem Dev.emit_sched (o : Out) : (d.emit o).sched = d.sched := rfl
@[simp] theorem Dev.emit_flash (o : Out) : (d.emit o).flash = d.flash := rfl
@[simp] theorem Dev.emit_cvu (o : Out) : (d.emit o).cvu = d.cvu := rfl
@[simp] theorem Dev.emit_aliveFresh (o : Out) : (d.emit o).aliveFresh = d.aliveFresh := rfl
@[simp] theorem Dev.emit_aliveAt (o : Out) : (d.emit o).aliveAt = d.aliveAt := rfl
@[simp] theorem Dev.emit_beTest (o : Out) : (d.emit o).beTest = d.beTest := rfl
@[simp] theorem Dev.emit_em (o : Out) : (d.emit o).em = d.em := rfl
@[simp] theorem Dev.emit_ledger (o : Out) : (d.emit o).ledger = d.ledger := rfl
@[simp] theorem Dev.emit_keeper (o : Out) : (d.emit o).keeper = d.keeper := rfl

@[simp] theorem Dev.updClient_now (c : Fin 16) (f : Client → Client) : (d.updClient c f).now = d.now := rfl
@[simp] theorem Dev.updClient_free (c : Fin 16) (f : Client → Client) : (d.updClient c f).free = d.free := rfl
@[simp] theorem Dev.updClient_mode (c : Fin 16) (f : Client → Client) : (d.updClient c f).mode = d.mode := rfl
@[simp] theorem Dev.updClient_modePend (c : Fin 16) (f : Client → Client) : (d.updClient c f).modePend = d.modePend := rfl
@[simp] theorem Dev.updClient_modeFrom (c : Fin 16) (f : Client → Client) : (d.updClient c f).modeFrom = d.modeFrom := rfl
@[simp] theorem Dev.updClient_safeReason (c : Fin 16) (f : Client → Client) : (d.updClient c f).safeReason = d.safeReason := rfl
@[simp] theorem Dev.updClient_safeFrom (c : Fin 16) (f : Client → Client) : (d.updClient c f).safeFrom = d.safeFrom := rfl
@[simp] theorem Dev.updClient_draining (c : Fin 16) (f : Client → Client) : (d.updClient c f).draining = d.draining := rfl
@[simp] theorem Dev.updClient_confirmAt (c : Fin 16) (f : Client → Client) : (d.updClient c f).confirmAt = d.confirmAt := rfl
@[simp] theorem Dev.updClient_inReset (c : Fin 16) (f : Client → Client) : (d.updClient c f).inReset = d.inReset := rfl
@[simp] theorem Dev.updClient_regs (c : Fin 16) (f : Client → Client) : (d.updClient c f).regs = d.regs := rfl
@[simp] theorem Dev.updClient_applied (c : Fin 16) (f : Client → Client) : (d.updClient c f).applied = d.applied := rfl
@[simp] theorem Dev.updClient_mirror (c : Fin 16) (f : Client → Client) : (d.updClient c f).mirror = d.mirror := rfl
@[simp] theorem Dev.updClient_mirrorDom (c : Fin 16) (f : Client → Client) : (d.updClient c f).mirrorDom = d.mirrorDom := rfl
@[simp] theorem Dev.updClient_grid (c : Fin 16) (f : Client → Client) : (d.updClient c f).grid = d.grid := rfl
@[simp] theorem Dev.updClient_tb (c : Fin 16) (f : Client → Client) : (d.updClient c f).tb = d.tb := rfl
@[simp] theorem Dev.updClient_tu (c : Fin 16) (f : Client → Client) : (d.updClient c f).tu = d.tu := rfl
@[simp] theorem Dev.updClient_fes (c : Fin 16) (f : Client → Client) : (d.updClient c f).fes = d.fes := rfl
@[simp] theorem Dev.updClient_ports (c : Fin 16) (f : Client → Client) : (d.updClient c f).ports = d.ports := rfl
@[simp] theorem Dev.updClient_lines (c : Fin 16) (f : Client → Client) : (d.updClient c f).lines = d.lines := rfl
@[simp] theorem Dev.updClient_boot (c : Fin 16) (f : Client → Client) : (d.updClient c f).boot = d.boot := rfl
@[simp] theorem Dev.updClient_aon (c : Fin 16) (f : Client → Client) : (d.updClient c f).aon = d.aon := rfl
@[simp] theorem Dev.updClient_merge (c : Fin 16) (f : Client → Client) : (d.updClient c f).merge = d.merge := rfl
@[simp] theorem Dev.updClient_net (c : Fin 16) (f : Client → Client) : (d.updClient c f).net = d.net := rfl
@[simp] theorem Dev.updClient_mem (c : Fin 16) (f : Client → Client) : (d.updClient c f).mem = d.mem := rfl
@[simp] theorem Dev.updClient_gov (c : Fin 16) (f : Client → Client) : (d.updClient c f).gov = d.gov := rfl
@[simp] theorem Dev.updClient_sched (c : Fin 16) (f : Client → Client) : (d.updClient c f).sched = d.sched := rfl
@[simp] theorem Dev.updClient_flash (c : Fin 16) (f : Client → Client) : (d.updClient c f).flash = d.flash := rfl
@[simp] theorem Dev.updClient_cvu (c : Fin 16) (f : Client → Client) : (d.updClient c f).cvu = d.cvu := rfl
@[simp] theorem Dev.updClient_aliveFresh (c : Fin 16) (f : Client → Client) : (d.updClient c f).aliveFresh = d.aliveFresh := rfl
@[simp] theorem Dev.updClient_aliveAt (c : Fin 16) (f : Client → Client) : (d.updClient c f).aliveAt = d.aliveAt := rfl
@[simp] theorem Dev.updClient_beTest (c : Fin 16) (f : Client → Client) : (d.updClient c f).beTest = d.beTest := rfl
@[simp] theorem Dev.updClient_em (c : Fin 16) (f : Client → Client) : (d.updClient c f).em = d.em := rfl
@[simp] theorem Dev.updClient_ledger (c : Fin 16) (f : Client → Client) : (d.updClient c f).ledger = d.ledger := rfl
@[simp] theorem Dev.updClient_out (c : Fin 16) (f : Client → Client) : (d.updClient c f).out = d.out := rfl

@[simp] theorem Dev.setNet_now (b : Fin 8) (n : NetPort) : (d.setNet b n).now = d.now := rfl
@[simp] theorem Dev.setNet_free (b : Fin 8) (n : NetPort) : (d.setNet b n).free = d.free := rfl
@[simp] theorem Dev.setNet_mode (b : Fin 8) (n : NetPort) : (d.setNet b n).mode = d.mode := rfl
@[simp] theorem Dev.setNet_modePend (b : Fin 8) (n : NetPort) : (d.setNet b n).modePend = d.modePend := rfl
@[simp] theorem Dev.setNet_modeFrom (b : Fin 8) (n : NetPort) : (d.setNet b n).modeFrom = d.modeFrom := rfl
@[simp] theorem Dev.setNet_safeReason (b : Fin 8) (n : NetPort) : (d.setNet b n).safeReason = d.safeReason := rfl
@[simp] theorem Dev.setNet_safeFrom (b : Fin 8) (n : NetPort) : (d.setNet b n).safeFrom = d.safeFrom := rfl
@[simp] theorem Dev.setNet_draining (b : Fin 8) (n : NetPort) : (d.setNet b n).draining = d.draining := rfl
@[simp] theorem Dev.setNet_confirmAt (b : Fin 8) (n : NetPort) : (d.setNet b n).confirmAt = d.confirmAt := rfl
@[simp] theorem Dev.setNet_inReset (b : Fin 8) (n : NetPort) : (d.setNet b n).inReset = d.inReset := rfl
@[simp] theorem Dev.setNet_regs (b : Fin 8) (n : NetPort) : (d.setNet b n).regs = d.regs := rfl
@[simp] theorem Dev.setNet_applied (b : Fin 8) (n : NetPort) : (d.setNet b n).applied = d.applied := rfl
@[simp] theorem Dev.setNet_mirror (b : Fin 8) (n : NetPort) : (d.setNet b n).mirror = d.mirror := rfl
@[simp] theorem Dev.setNet_mirrorDom (b : Fin 8) (n : NetPort) : (d.setNet b n).mirrorDom = d.mirrorDom := rfl
@[simp] theorem Dev.setNet_grid (b : Fin 8) (n : NetPort) : (d.setNet b n).grid = d.grid := rfl
@[simp] theorem Dev.setNet_tb (b : Fin 8) (n : NetPort) : (d.setNet b n).tb = d.tb := rfl
@[simp] theorem Dev.setNet_tu (b : Fin 8) (n : NetPort) : (d.setNet b n).tu = d.tu := rfl
@[simp] theorem Dev.setNet_fes (b : Fin 8) (n : NetPort) : (d.setNet b n).fes = d.fes := rfl
@[simp] theorem Dev.setNet_ports (b : Fin 8) (n : NetPort) : (d.setNet b n).ports = d.ports := rfl
@[simp] theorem Dev.setNet_lines (b : Fin 8) (n : NetPort) : (d.setNet b n).lines = d.lines := rfl
@[simp] theorem Dev.setNet_boot (b : Fin 8) (n : NetPort) : (d.setNet b n).boot = d.boot := rfl
@[simp] theorem Dev.setNet_aon (b : Fin 8) (n : NetPort) : (d.setNet b n).aon = d.aon := rfl
@[simp] theorem Dev.setNet_merge (b : Fin 8) (n : NetPort) : (d.setNet b n).merge = d.merge := rfl
@[simp] theorem Dev.setNet_mem (b : Fin 8) (n : NetPort) : (d.setNet b n).mem = d.mem := rfl
@[simp] theorem Dev.setNet_gov (b : Fin 8) (n : NetPort) : (d.setNet b n).gov = d.gov := rfl
@[simp] theorem Dev.setNet_sched (b : Fin 8) (n : NetPort) : (d.setNet b n).sched = d.sched := rfl
@[simp] theorem Dev.setNet_flash (b : Fin 8) (n : NetPort) : (d.setNet b n).flash = d.flash := rfl
@[simp] theorem Dev.setNet_cvu (b : Fin 8) (n : NetPort) : (d.setNet b n).cvu = d.cvu := rfl
@[simp] theorem Dev.setNet_aliveFresh (b : Fin 8) (n : NetPort) : (d.setNet b n).aliveFresh = d.aliveFresh := rfl
@[simp] theorem Dev.setNet_aliveAt (b : Fin 8) (n : NetPort) : (d.setNet b n).aliveAt = d.aliveAt := rfl
@[simp] theorem Dev.setNet_beTest (b : Fin 8) (n : NetPort) : (d.setNet b n).beTest = d.beTest := rfl
@[simp] theorem Dev.setNet_em (b : Fin 8) (n : NetPort) : (d.setNet b n).em = d.em := rfl
@[simp] theorem Dev.setNet_ledger (b : Fin 8) (n : NetPort) : (d.setNet b n).ledger = d.ledger := rfl
@[simp] theorem Dev.setNet_keeper (b : Fin 8) (n : NetPort) : (d.setNet b n).keeper = d.keeper := rfl
@[simp] theorem Dev.setNet_out (b : Fin 8) (n : NetPort) : (d.setNet b n).out = d.out := rfl

@[simp] theorem Dev.set_regs (a e v : Nat) : (d.set a e v).regs = storeSet d.regs 255 a e v := rfl
@[simp] theorem Dev.fset_regs (p : Port) (a e v : Nat) : (d.fset p a e v).regs = storeSet d.regs p.val a e v := rfl
@[simp] theorem Dev.setAp_applied (p : Port) (a e v : Nat) : (d.setAp p a e v).applied = storeSet d.applied p.val a e v := rfl
@[simp] theorem Dev.setFe_fes (p : Port) (f : FrontEnd) : (d.setFe p f).fes = d.fes.set p.val f := rfl
@[simp] theorem Dev.setPort_ports (p : Port) (c : CPort) : (d.setPort p c).ports = d.ports.set p.val c := rfl
@[simp] theorem Dev.updPort_ports (p : Port) (g : CPort → CPort) :
    (d.updPort p g).ports = d.ports.set p.val (g d.ports[p.val]) := rfl
@[simp] theorem Dev.setNet_net (b : Fin 8) (n : NetPort) : (d.setNet b n).net = d.net.set b.val n := rfl
@[simp] theorem Dev.emit_lines (o : Out) : (d.emit o).lines = d.linesAfter o := rfl
@[simp] theorem Dev.emit_out (o : Out) : (d.emit o).out = o :: d.out := rfl

/-! ### Reading objects -/

@[simp] theorem read_storeSet (t : Tbl Nat) (p a e v k : Nat) :
    tblRead regDflt (storeSet t p a e v) k = if k = regKey p a e then v % 2 ^ regBits a else tblRead regDflt t k :=
  tblRead_tblWrite regDflt t _ _ k

/-- An object's word after a write of an object of the concentrator. -/
theorem Dev.get_set (a e v a' e' : Nat) :
    (d.set a e v).get a' e' = if regKey 255 a' e' = regKey 255 a e then v % 2 ^ regBits a else d.get a' e' := by
  simp [Dev.get]

@[simp] theorem Dev.get_set_same (a e v : Nat) : (d.set a e v).get a e = v % 2 ^ regBits a := by simp [Dev.get]

/-- A write leaves an object at another address. -/
theorem Dev.get_set_other (a e v a' e' : Nat) (h : regKey 255 a' e' ≠ regKey 255 a e) : (d.set a e v).get a' e' = d.get a' e' := by
  simp [Dev.get, h]

@[simp] theorem Dev.get_bump_same (a e n : Nat) :
    (d.bump a e n).get a e = min (d.get a e + n) (2 ^ regBits a - 1) := by
  have h : min (d.get a e + n) (2 ^ regBits a - 1) < 2 ^ regBits a :=
    lt_of_le_of_lt (min_le_right _ _) (Nat.sub_lt (Nat.two_pow_pos _) Nat.one_pos)
  simp [Dev.bump, Nat.mod_eq_of_lt h]

theorem Dev.get_bump_other (a e n a' e' : Nat) (h : regKey 255 a' e' ≠ regKey 255 a e) : (d.bump a e n).get a' e' = d.get a' e' :=
  Dev.get_set_other d a e _ a' e' h

/-- Store keys of different objects differ. -/
theorem regKey_inj {p a e p' a' e' : Nat} (hp : p < 2 ^ 8) (ha : a < 2 ^ 24) (he : e < 2 ^ 16) (hp' : p' < 2 ^ 8)
    (ha' : a' < 2 ^ 24) (he' : e' < 2 ^ 16) :
    regKey p a e = regKey p' a' e' ↔ p = p' ∧ a = a' ∧ e = e' := by
  unfold regKey; omega

/-! ### The parts of the device -/

@[simp] theorem Dev.fe_setFe_same (p : Port) (f : FrontEnd) : (d.setFe p f).fe p = f := by simp [Dev.fe]

theorem Dev.fe_setFe_other (p q : Port) (f : FrontEnd) (h : q ≠ p) : (d.setFe p f).fe q = d.fe q := by
  have : p.val ≠ q.val := fun h' => h (Fin.ext h'.symm)
  simp [Dev.fe, Vector.getElem_set_ne, this]

@[simp] theorem Dev.port_setPort_same (p : Port) (c : CPort) : (d.setPort p c).port p = c := by simp [Dev.port]

theorem Dev.port_setPort_other (p q : Port) (c : CPort) (h : q ≠ p) : (d.setPort p c).port q = d.port q := by
  have : p.val ≠ q.val := fun h' => h (Fin.ext h'.symm)
  simp [Dev.port, Vector.getElem_set_ne, this]

end Sys2Proof.Machine
end

