-- ==== Sys2Proof/Laws/Ops.lean ====
section
/-! SUPPORT. What the shared operations can do, said once each: iteration, the canonical form of the stores, ledger events, the
dictionary's checks, the answer to a request. -/

namespace Sys2Proof.Machine

variable (d : Dev)

/-! ### Iteration -/

/-- What every pass keeps, the iteration keeps. -/
theorem forEach_keeps {α σ : Type} (P : σ → Prop) (l : List α) (f : α → σ → σ) (hf : ∀ a ∈ l, ∀ s, P s → P (f a s)) (s : σ)
    (h : P s) : P (forEach l f s) := by
  induction l generalizing s with
  | nil => exact h
  | cons a rest ih =>
    exact ih (fun b hb => hf b (List.mem_cons_of_mem _ hb)) (f a s) (hf a List.mem_cons_self s h)

/-- What every pass leaves as it is, the iteration leaves as it is. -/
theorem forEach_same {α σ β : Type} (g : σ → β) (l : List α) (f : α → σ → σ) (hf : ∀ a ∈ l, ∀ s, g (f a s) = g s) (s : σ) :
    g (forEach l f s) = g s :=
  forEach_keeps (fun t => g t = g s) l f (fun a ha t ht => (hf a ha t).trans ht) s rfl

theorem forRange_eq {σ : Type} (n : Nat) (f : Nat → σ → σ) (s : σ) : forRange n f s = forEach (List.range n) f s := rfl

theorem forRange_keeps {σ : Type} (P : σ → Prop) (n : Nat) (f : Nat → σ → σ) (hf : ∀ i < n, ∀ s, P s → P (f i s)) (s : σ)
    (h : P s) : P (forRange n f s) :=
  forEach_keeps P (List.range n) f (fun i hi => hf i (List.mem_range.1 hi)) s h

theorem forRange_same {σ β : Type} (g : σ → β) (n : Nat) (f : Nat → σ → σ) (hf : ∀ i < n, ∀ s, g (f i s) = g s) (s : σ) :
    g (forRange n f s) = g s :=
  forEach_same g (List.range n) f (fun i hi => hf i (List.mem_range.1 hi)) s

/-! ### The canonical form of the stores -/

theorem storeSet_wf (t : Tbl Nat) (p a e v : Nat) (h : tblWf regDflt t = true) : tblWf regDflt (storeSet t p a e v) = true :=
  tblWf_tblWrite regDflt t _ _ h

theorem dropPort_wf (t : Tbl Nat) (p : Port) (h : tblWf regDflt t = true) : tblWf regDflt (dropPort t p) = true :=
  tblWf_filter regDflt t _ h

theorem Dev.set_wf (a e v : Nat) (h : tblWf regDflt d.regs = true) : tblWf regDflt (d.set a e v).regs = true :=
  storeSet_wf _ _ _ _ _ h

theorem Dev.setI_wf (a e : Nat) (v : Int) (h : tblWf regDflt d.regs = true) : tblWf regDflt (d.setI a e v).regs = true :=
  storeSet_wf _ _ _ _ _ h

theorem Dev.bump_wf (a e n : Nat) (h : tblWf regDflt d.regs = true) : tblWf regDflt (d.bump a e n).regs = true :=
  storeSet_wf _ _ _ _ _ h

theorem Dev.wrap_wf (a e : Nat) (h : tblWf regDflt d.regs = true) : tblWf regDflt (d.wrap a e).regs = true :=
  storeSet_wf _ _ _ _ _ h

theorem Dev.fset_wf (p : Port) (a e v : Nat) (h : tblWf regDflt d.regs = true) : tblWf regDflt (d.fset p a e v).regs = true :=
  storeSet_wf _ _ _ _ _ h

theorem Dev.fbump_wf (p : Port) (a e n : Nat) (h : tblWf regDflt d.regs = true) : tblWf regDflt (d.fbump p a e n).regs = true :=
  storeSet_wf _ _ _ _ _ h

theorem Dev.setAp_wf (p : Port) (a e v : Nat) (h : tblWf regDflt d.applied = true) :
    tblWf regDflt (d.setAp p a e v).applied = true :=
  storeSet_wf _ _ _ _ _ h

/-! ### Objects of a front end -/

/-- A front-end object's word after a write of one. -/
theorem Dev.fget_fset (p q : Port) (a e v a' e' : Nat) : (d.fset p a e v).fget q a' e'
    = if regKey q.val a' e' = regKey p.val a e then v % 2 ^ regBits a else d.fget q a' e' := by
  simp [Dev.fget]

@[simp] theorem Dev.fget_fset_same (p : Port) (a e v : Nat) : (d.fset p a e v).fget p a e = v % 2 ^ regBits a := by
  simp [Dev.fget]

/-- A port's keys and the concentrator's are never the same. -/
theorem regKey_port_ne (p : Port) (a e a' e' : Nat) : regKey p.val a e ≠ regKey 255 a' e' := by
  have := p.isLt; unfold regKey; omega

theorem regKey_ports_ne {p q : Port} (h : p ≠ q) (a e a' e' : Nat) : regKey p.val a e ≠ regKey q.val a' e' := by
  have h1 := p.isLt
  have h2 := q.isLt
  have h3 : p.val ≠ q.val := fun e => h (Fin.ext e)
  unfold regKey; omega

@[simp] theorem Dev.fget_set (p : Port) (a e v a' e' : Nat) : (d.set a e v).fget p a' e' = d.fget p a' e' := by
  simp [Dev.fget, regKey_port_ne]

@[simp] theorem Dev.get_fset (p : Port) (a e v a' e' : Nat) : (d.fset p a e v).get a' e' = d.get a' e' := by
  simp [Dev.get, (regKey_port_ne p a e a' e').symm]

/-- A write of one front end's object leaves those of another. -/
theorem Dev.fget_fset_other {p q : Port} (h : q ≠ p) (a e v a' e' : Nat) : (d.fset p a e v).fget q a' e' = d.fget q a' e' := by
  simp [Dev.fget, regKey_ports_ne h]

/-- A front-end counter after it was advanced. -/
@[simp] theorem Dev.fget_fbump_same (p : Port) (a e n : Nat) :
    (d.fbump p a e n).fget p a e = min (d.fget p a e + n) (2 ^ regBits a - 1) := by
  have h : min (d.fget p a e + n) (2 ^ regBits a - 1) < 2 ^ regBits a :=
    lt_of_le_of_lt (min_le_right _ _) (Nat.sub_lt (Nat.two_pow_pos _) Nat.one_pos)
  simp [Dev.fbump, Nat.mod_eq_of_lt h]

/-! ### Ledger events (R508) -/

/-- A ledger event changes the ledger's buffer and the count of lost records, and nothing else. -/
theorem Dev.log_eq (source code : Nat) (v1 v2 v3 : Int) : ∃ b n,
    d.log source code v1 v2 v3 = { d with ledger := { d.ledger with buffer := b }, aon := { d.aon with lost := n } } := by
  unfold Dev.log
  dsimp only
  split
  · exact ⟨_, _, rfl⟩
  · split
    · exact ⟨_, d.aon.lost, rfl⟩
    · exact ⟨d.ledger.buffer, _, rfl⟩

@[simp] theorem Dev.log_regs (source code : Nat) (v1 v2 v3 : Int) : (d.log source code v1 v2 v3).regs = d.regs := by
  obtain ⟨b, n, h⟩ := d.log_eq source code v1 v2 v3; rw [h]

@[simp] theorem Dev.log_applied (source code : Nat) (v1 v2 v3 : Int) : (d.log source code v1 v2 v3).applied = d.applied := by
  obtain ⟨b, n, h⟩ := d.log_eq source code v1 v2 v3; rw [h]

@[simp] theorem Dev.log_mirror (source code : Nat) (v1 v2 v3 : Int) : (d.log source code v1 v2 v3).mirror = d.mirror := by
  obtain ⟨b, n, h⟩ := d.log_eq source code v1 v2 v3; rw [h]

@[simp] theorem Dev.log_get (source code : Nat) (v1 v2 v3 : Int) (a e : Nat) :
    (d.log source code v1 v2 v3).get a e = d.get a e := by simp [Dev.get]

@[simp] theorem Dev.log_fget (source code : Nat) (v1 v2 v3 : Int) (p : Port) (a e : Nat) :
    (d.log source code v1 v2 v3).fget p a e = d.fget p a e := by simp [Dev.fget]

/-- While the buffer has room, the event is in it afterwards. -/
theorem Dev.log_recorded (source code : Nat) (v1 v2 v3 : Int) (h : d.ledger.buffer.length < 1024) :
    ∃ r ∈ (d.log source code v1 v2 v3).ledger.buffer, r.source = source ∧ r.code = code := by
  unfold Dev.log
  dsimp only
  split
  · rename_i hs
    obtain ⟨r, hr, hr'⟩ := List.any_eq_true.1 hs
    refine ⟨_, List.mem_map_of_mem hr, ?_⟩
    rw [if_pos hr']
    simp only [Bool.and_eq_true, beq_iff_eq] at hr'
    exact ⟨hr'.1.1.2, hr'.1.1.1⟩
  · exact ⟨_, List.mem_append_right _ (List.mem_singleton.2 rfl), rfl, rfl⟩

/-- What has been recorded stays recorded. -/
theorem Dev.log_keeps (source code : Nat) (v1 v2 v3 : Int) (x y : Nat)
    (h : ∃ r ∈ d.ledger.buffer, r.source = x ∧ r.code = y) :
    ∃ r ∈ (d.log source code v1 v2 v3).ledger.buffer, r.source = x ∧ r.code = y := by
  obtain ⟨r, hr, h1, h2⟩ := h
  unfold Dev.log
  dsimp only
  split
  · refine ⟨_, List.mem_map_of_mem hr, ?_⟩
    split <;> exact ⟨h1, h2⟩
  · split
    · exact ⟨r, List.mem_append_left _ hr, h1, h2⟩
    · exact ⟨r, hr, h1, h2⟩

/-! ### The dictionary's checks and the answer (R421) -/

/-- The access check changes nothing but the client table: a guarded write uses its token up. -/
theorem Dev.accessCheck_eq (w : Writer) (r : ObjRow) : ∃ k, (d.accessCheck w r).2 = { d with keeper := k } := by
  have hu : ∃ k, d.useToken w = { d with keeper := k } := by cases w <;> exact ⟨_, rfl⟩
  unfold Dev.accessCheck
  split
  · dsimp only
    split
    · exact hu
    · exact ⟨d.keeper, rfl⟩
  · split
    · exact ⟨_, rfl⟩
    · exact ⟨_, rfl⟩
    · exact ⟨_, rfl⟩
    · exact ⟨_, rfl⟩
    · exact ⟨_, rfl⟩
    · split
      · exact hu
      · exact ⟨_, rfl⟩

/-- So do the checks of a write as a whole. -/
theorem Dev.gate_eq (w : Writer) (a e : Nat) (val : Bytes) : ∃ k, (d.gate w a e val).2 = { d with keeper := k } := by
  unfold Dev.gate
  split
  · exact ⟨_, rfl⟩
  · rename_i r _
    split
    · exact ⟨_, rfl⟩
    · have h := d.accessCheck_eq w r
      split <;> rename_i hc <;> rw [hc] at h <;> exact h

/-- What sending a frame of the management traffic may change: a port's transmitter, its counts, and what has been sent. -/
def Dev.Sent (d e : Dev) : Prop :=
  ∃ r n o, e = { d with regs := r, net := n, out := o } ∧ (tblWf regDflt d.regs = true → tblWf regDflt r = true)
    ∧ ∀ k, (∀ b, k ≠ regKey 255 Reg.BE_TX_FRAMES b) → (∀ b, k ≠ regKey 255 Reg.BE_TX_BYTES b) →
      tblRead regDflt r k = tblRead regDflt d.regs k

theorem Dev.sent_refl : d.Sent d := ⟨_, _, _, rfl, id, fun _ _ _ => rfl⟩

theorem Dev.Sent.trans {d e f : Dev} (h : d.Sent e) (h' : e.Sent f) : d.Sent f := by
  obtain ⟨r, n, o, rfl, hw, hr⟩ := h
  obtain ⟨r', n', o', rfl, hw', hr'⟩ := h'
  exact ⟨r', n', o', rfl, fun w => hw' (hw w), fun k h1 h2 => (hr' k h1 h2).trans (hr k h1 h2)⟩

theorem Dev.setNet_sent (b : Fin 8) (n : NetPort) : d.Sent (d.setNet b n) := ⟨_, _, _, rfl, id, fun _ _ _ => rfl⟩

/-- Something sent on no Wasel lane leaves the lanes' transmitters. -/
theorem Dev.emit_sent (o : Out) (h : d.lineOf o = none) : d.Sent (d.emit o) :=
  ⟨d.regs, d.net, o :: d.out, by simp only [Dev.emit, Dev.linesAfter, h], id, fun _ _ _ => rfl⟩

theorem Dev.sendFrame_sent (b : Fin 8) (bytes : Bytes) : d.Sent (d.sendFrame b bytes) := by
  refine Dev.Sent.trans ?_ (Dev.emit_sent _ _ rfl)
  refine ⟨_, _, _, rfl, fun w => Dev.bump_wf _ _ _ _ (Dev.bump_wf d _ _ _ w), fun k h1 h2 => ?_⟩
  simp [Dev.bump, h1, h2]

theorem Dev.sendManaged_sent (b : Fin 8) (bytes : Bytes) : d.Sent (d.sendManaged b bytes) := by
  unfold Dev.sendManaged
  dsimp only
  split
  · exact d.sent_refl
  · split
    · exact d.setNet_sent b _
    · exact d.sendFrame_sent b bytes

theorem Dev.sendMessage_sent (b : Fin 8) (mac ip udp : Nat) (msg : Bytes) : d.Sent (d.sendMessage b mac ip udp msg) :=
  (d.setNet_sent b _).trans (Dev.sendManaged_sent _ b _)

/-- What sending a response may change. -/
theorem Dev.reply_sent (cl : Client) (resp : Bytes) : d.Sent (d.reply cl resp) := by
  unfold Dev.reply
  split
  · exact forEach_keeps (fun t => d.Sent t) _ _ (fun f _ t h => h.trans (Dev.emit_sent t _ rfl)) d d.sent_refl
  · exact Dev.sendMessage_sent d _ _ _ _ _
  · exact d.sent_refl
  · exact d.sent_refl

/-- An answer is the last thing sent; besides, it changes the Keeper's account of the request, counts an accepted one, and sends
the response. -/
theorem Dev.answer_eq (w : Writer) (st : Status) (value : Bytes) : ∃ k e,
    Dev.Sent { if st = .accepted then d.bump Reg.COM_EXEC else d with keeper := k } e
      ∧ d.answer w st value = { e with out := .answer w st value :: e.out } := by
  unfold Dev.answer
  generalize (if st = .accepted then d.bump Reg.COM_EXEC else d) = x
  cases w with
  | core => exact ⟨x.keeper, x, x.sent_refl, rfl⟩
  | keeper => exact ⟨x.keeper, x, x.sent_refl, rfl⟩
  | client c tid =>
    dsimp only
    split
    · rename_i cl q _ _
      exact ⟨_, _, Dev.reply_sent _ { cl with via := q.via, mac := q.mac, prio := q.prio } (responseBytes q 0 st value), rfl⟩
    · exact ⟨x.keeper, x, x.sent_refl, rfl⟩

/-- The answer is at the front of what has been sent. -/
@[simp] theorem Dev.answer_out (w : Writer) (st : Status) (value : Bytes) :
    (d.answer w st value).out.head? = some (.answer w st value) := by
  obtain ⟨k, e, -, h⟩ := d.answer_eq w st value; rw [h]; rfl

@[simp] theorem Dev.answer_mode (w : Writer) (st : Status) (value : Bytes) : (d.answer w st value).mode = d.mode := by
  obtain ⟨k, e, ⟨r, n, o, rfl, -⟩, h⟩ := d.answer_eq w st value; rw [h]; split <;> rfl

/-- An answer leaves every object but the count of executed requests and the counts of what the back-end ports have sent. -/
theorem Dev.answer_get (w : Writer) (st : Status) (value : Bytes) (a e : Nat)
    (h : st = .accepted → regKey 255 a e ≠ regKey 255 Reg.COM_EXEC 0) (hf : ∀ b, regKey 255 a e ≠ regKey 255 Reg.BE_TX_FRAMES b)
    (hb : ∀ b, regKey 255 a e ≠ regKey 255 Reg.BE_TX_BYTES b) : (d.answer w st value).get a e = d.get a e := by
  obtain ⟨k, x, ⟨r, n, o, rfl, -, hr⟩, he⟩ := d.answer_eq w st value
  unfold Dev.get
  rw [he]
  refine (hr _ hf hb).trans ?_
  split
  · rename_i hs; exact Dev.get_bump_other d _ _ _ _ _ (h hs)
  · rfl

/-- An answer keeps the stores' canonical form. -/
theorem Dev.answer_wf (w : Writer) (st : Status) (value : Bytes) (h : tblWf regDflt d.regs = true) :
    tblWf regDflt (d.answer w st value).regs = true := by
  obtain ⟨k, x, ⟨r, n, o, rfl, hw, -⟩, he⟩ := d.answer_eq w st value
  rw [he]
  refine hw ?_
  split
  · exact Dev.bump_wf d _ _ _ h
  · exact h

/-- A write that the dictionary refuses is answered so. -/
theorem Dev.write_refused {w : Writer} {a e : Nat} {val : Bytes} {st : Status} (f : Dev → Nat → Status × Dev)
    (h : (d.gate w a e val).1 = some st) : d.write w a e val f = (d.gate w a e val).2.answer w st := by
  unfold Dev.write
  split
  · rename_i st' d' hg; rw [hg] at h ⊢; cases h; rfl
  · rename_i d' hg; rw [hg] at h; cases h

/-- A write that the dictionary lets through has the outcome and effect of its own rule. -/
theorem Dev.write_admitted {w : Writer} {a e : Nat} {val : Bytes} (f : Dev → Nat → Status × Dev)
    (h : (d.gate w a e val).1 = none) :
    d.write w a e val f = (f (d.gate w a e val).2 (beNat val)).2.answer w (f (d.gate w a e val).2 (beNat val)).1 := by
  unfold Dev.write
  split
  · rename_i st' d' hg; rw [hg] at h; cases h
  · rename_i d' hg; rw [hg]

end Sys2Proof.Machine
end

