-- ==== Sys2Proof/Laws/Step.lean ====
section
/-! SUPPORT. What a step can do: every command answers a next state and leaves the queue of waiting commands alone. -/

namespace Sys2Proof.Machine

/-- Every command answers a next state, with its effect on the device and the queue as it was. -/
theorem exec_next (c : Instr) (s : State) : ∃ f : Dev, exec c s = .next { s with dev := f } := by
  cases c <;> exact ⟨_, rfl⟩

/-- The queue of waiting commands after a command. -/
theorem exec_pending {c : Instr} {s t : State} (h : exec c s = .next t) : t.pending = s.pending := by
  obtain ⟨f, hf⟩ := exec_next c s
  rw [hf] at h
  cases h
  rfl

@[simp] theorem step_cons (d : Dev) (c : Instr) (rest : List Instr) :
    step { dev := d, pending := c :: rest } = exec c { dev := d, pending := rest } := rfl

@[simp] theorem step_nil (d : Dev) : step { dev := d, pending := [] } = .next (State.tick { dev := d, pending := [] }) := rfl

/-- Everything a step can do: pass one slot, or run the command at the front of the queue. -/
theorem step_cases {s t : State} (h : step s = .next t) :
    (s.pending = [] ∧ t = s.tick) ∨ ∃ c rest, s.pending = c :: rest ∧ exec c { s with pending := rest } = .next t := by
  obtain ⟨d, q⟩ := s
  cases q with
  | nil => exact .inl ⟨rfl, by cases h; rfl⟩
  | cons c rest => exact .inr ⟨c, rest, rfl, h⟩

/-- Every step answers a next state with the queue's rest. -/
theorem step_next (s : State) : ∃ t, step s = .next t ∧ t.pending = s.pending.tail := by
  obtain ⟨d, q⟩ := s
  cases q with
  | nil => exact ⟨_, rfl, rfl⟩
  | cons c rest =>
    obtain ⟨f, hf⟩ := exec_next c { dev := d, pending := rest }
    exact ⟨_, hf, rfl⟩

/-- The effect of a command written as a function of the device. -/
@[simp] theorem State.on_eq (s : State) (f : Dev → Dev) : s.on f = .next { s with dev := f s.dev } := rfl

end Sys2Proof.Machine
end

