-- ==== Sys2Proof/WellFormed.lean ====
section
/-! DEFINITION. The conditions on a command's operands that their types do not state: a field's range, a list's length.
The meanings take a command as it comes; these conditions say which commands the spec's wires and measurements can
carry. -/

namespace Sys2Proof

/-- Whether no two entries of a list are equal. -/
def noRepeat : List Nat → Bool
  | [] => true
  | x :: xs => !xs.contains x && noRepeat xs

/-- A fast command's operand (R196): a CAL block names each of its entries once, and a phase move fits its signed eight
bits. -/
def FcmdOp.wf : FcmdOp → Bool
  | .cal entries => noRepeat (entries.map fun e => e.val)
  | .tickPhase h => decide (-128 ≤ h) && decide (h ≤ 127)
  | .bias _ _ | .mode _ | .cycleEnd | .inject => true

/-- A SYNC block names four logical lanes (R207). -/
def SyncMsg.wf : SyncMsg → Bool
  | .down _ _ lanes => lanes.length == 4
  | .up _ lanes => lanes.length == 4

/-- A memory channel holds 4, 8, 16 or 32 GiB (R308). -/
def MemTest.wf : MemTest → Bool
  | .passed mib => [4096, 8192, 16384, 32768].contains mib.toNat
  | .absent => true
  | .failed mib => decide (mib.toNat ≤ 32768)

/-- The result of a boot step (R487): the memory sequence looks at the eight channels (R341). -/
def BootResult.wf : BootResult → Bool
  | .memory _ chans => chans.length == 8 && chans.all MemTest.wf
  | .selfTest _ _ | .failedStarts | .flash _ _ | .image | .loaded | .clocks | .ports => true

/-- The data lengths of a CAN FD frame (R414). -/
def canLengths : List Nat := [0, 1, 2, 3, 4, 5, 6, 7, 8, 12, 16, 20, 24, 32, 48, 64]

/-- An edge names a code of its kind of input (R263). -/
def TimSignal.wf : TimSignal → Bool
  | .pin _ _ => true
  | .line code _ => [1, 2, 3, 4, 7, 8].contains code.val
  | .tap code _ _ => [5, 6, 9].contains code.val

/-- The value of an object is at most 1,024 bytes (R397, R399). -/
def valueWf (val : Bytes) : Bool := decide (val.length ≤ 1024)

/-- Whether a command's operands lie within their ranges. -/
def Instr.wf : Instr → Bool
  | .feCycleBoundary _ meas => noRepeat (meas.map fun m => m.region.val)
  | .pairRefresh _ _ meas => noRepeat (meas.map fun m => m.1.val)
  | .fcmdReceive _ _ op _ _ => op.wf
  | .blockLockAcquire _ _ headers => headers.length == 64
  | .blockLockLoss _ _ window => window.length == 64
  | .invalidBlock _ _ _ line => decide (130 ≤ line.length) && decide (line.length ≤ 136)
  | .linkstatReceive _ lanes => lanes.length == 4
  | .timEdge _ signal _ _ _ => signal.wf
  | .syncReceive _ msg => msg.wf
  | .snapshotConversionComplete _ _ codes => codes.length == 128
  | .canFdFrameReceive _ _ data => canLengths.contains data.length
  | .thermalEvaluation sensors => sensors.length == 12
  | .cvuSubmit _ _ _ desc => desc.length == 48
  | .bootStepComplete r => r.wf
  | .configResponseReceive _ _ _ val
  | .maroriWrite _ _ _ _ _ val | .maroriTrigger _ _ _ _ _ val | .imageData _ _ val | .modeRequest _ val
  | .calendarCommit _ val | .cycleLengthWrite _ val | .injectRequest _ _ val | .timingCounterClear _ _ val
  | .readoutCounterClear _ _ val | .forceSnapshot _ _ val | .portRelease _ _ val | .forceLaneSwap _ _ val
  | .forceDownlinkSwap _ _ val | .linkDelayCalibration _ _ val _ | .acceptStep _ val | .timePreset _ val
  | .referenceSelect _ val | .forceTimeBaseSwap _ val | .statisticsRestart _ _ val | .routeEntryWrite _ _ _ val
  | .routeCommit _ val | .formatPin _ val | .stallPitchWrite _ _ _ val | .diagnosticEnable _ val
  | .fenceBiasLimitWrite _ _ val | .taskRestore _ _ val | .imageErase _ _ val | .imageVerify _ _ val
  | .imageTrial _ val | .imageConfirm _ val | .preferredImage _ val | .guardToken _ val | .restart _ val
  | .ledgerRewind _ val | .forceKeeperSwap _ val | .aliveReset _ _ val | .emChannelTypeWrite _ _ val => valueWf val
  | _ => true

end Sys2Proof
end

