-- ==== Sys2Proof/Tests/Slice0.lean ====
section
/-! SUPPORT. Tests of the model: ill-formed commands are refused, single steps reproduce the spec's worked numbers,
and for every statement about the model a concrete state and operands that meet its hypotheses together. -/

namespace Sys2Proof.Tests

set_option Elab.async false
open Sys2Proof Sys2Proof.Machine

/-! ## Small states -/

/-- A state with no command waiting. -/
def st (d : Dev) : State := { dev := d, pending := [] }

/-- A store with these objects set: node or port, address, element, word. -/
def objs (l : List (Nat × Nat × Nat × Nat)) : Tbl Nat := l.foldl (fun t x => storeSet t x.1 x.2.1 x.2.2.1 x.2.2.2) []

/-- A device in CONFIGURE at slot `n` with concentrator objects set: address, element, word. -/
def dev (n : Nat) (l : List (Nat × Nat × Nat) := []) (m : Mode := .configure) : Dev :=
  { now := n, mode := m, regs := objs (l.map fun x => (0xFF, x.1, x.2.1, x.2.2)) }

/-- A device with the front end on port 5 in a state and objects of that port set, in the shadow copy and as applied. -/
def withFe (d : Dev) (f : FrontEnd) (l : List (Nat × Nat × Nat) := []) : Dev :=
  let put := fun (t : Tbl Nat) => l.foldl (fun t x => storeSet t 5 x.1 x.2.1 x.2.2) t
  { d.setFe 5 f with regs := put d.regs, applied := put d.applied }

/-- A device with port 5 of the concentrator UP and in a state. -/
def withPort (d : Dev) (c : CPort) : Dev := ((d.setPort 5 c).set Reg.WP_EN 5 1).set Reg.WP_STATE 5 2

def hitE (lead : Nat) (c : Bool) : HitEntry := { leadTick := lead, leadFine := 1213, trailTick := lead + 6, trailFine := 1100, complete := c, totSat := false, c1 := 610, c2 := 1407, stale := false, settling := false, lsb := 0, cycleAt := 0 }
def rec (hit : Bool) (region frame key : Nat) : QRec := { bits := 5, hit := hit, region := region, frame := frame, idx := 3, cyc := 0, key := key }
def fr3 : FeFrame := { start := 768, stop := 1024, idx := 3, cyc := 0, marks := true, hits := true }
def fr3e : FeFrame := { start := 768, stop := 1024, idx := 3, cyc := 0, marks := true, hits := true, ended := true, deadUnits := 7 }
def upLk : LinkState := { up := true, ready := true, lock := true }
def upPort : CPort := { uls := Vector.replicate 5 upLk, dls := #v[upLk, { powered := false }], everUp := true }
def runFe : FrontEnd := { power := .running, dlLock := #v[true, false] }
def quiet (n : Nat) : CPort := { upPort with linkstatAt := n, probeAt := n }
def rp (n : Nat) (tx : Nat) : RPacket := { seq := n, kind := 0, frameIdx := 3, cycLo := 0, payload := .records [], tx := tx, lastTx := 100 }
def cm (t : Nat) (why : CfgWhy) : CfgMsg := { type := t, alive := 3, index := 0x4100, sub := 1, elem := 9, value := [1, 0], firstTx := 100, lastTx := 100, sends := 1, why := why, chunks := [] }
def good64 : List (BitVec 2) := List.replicate 64 1#2
def bad64 : List (Option (BitVec 2)) := List.replicate 48 (some 2#2) ++ List.replicate 16 none
def tdc (t : Fin 8) (code : Nat) : TdcStamp := { tick := t, code := BitVec.ofNat 12 code, c1 := 610, c2 := 1407 }
def refl (n : Nat) : Reflection := { sent := tdc 0 700, slots := BitVec.ofNat 8 n, back := tdc 3 900 }
def pkt (kind lane seq : Nat) (bs : Bytes) : PacketIn := { kind := kind, lane := lane, seq := seq, frame := 6, cyc := 7, bytes := some bs }
def damaged (bs : List Block) : List Block := bs.take 1 ++ bs.drop 2
def src (q : Bool) : PtpSource := { master := some 77, clockClass := 6, qualified := q, thetas := [(-65536, 4000), (-65536, 3000)], logAnnounce := 0, logSync := 0 }
def tb0 : TimeBase := { state := .locked, timeSet := true, phaseSrc := some 0, ptp := #v[src true, src false] }
def tdev (n : Nat) (l : List (Nat × Nat × Nat)) (tb : TimeBase) (tu : TimeUnits := { links := #v[true, true] }) (c : Nat := 0) : Dev := { dev n l with tb := tb, tu := tu, grid := { cycleStart := c } }
def ph (l : Int) : PtpHead := { udp := false, domain := 0, src := 77, seq := 9, interval := BitVec.ofInt 8 l, corr := 5 }
def tdc8 (t : Fin 8) (code : Nat) : TdcStamp := { tick := t, code := BitVec.ofNat 12 code, c1 := 610, c2 := 1407 }
def ann (c : BitVec 8) : Announced := { prio1 := 1, clockClass := c, accuracy := 2, variance := 3, prio2 := 4, identity := 5, steps := 1 }
def tok : Writer := .client 3 7
def withTok (d : Dev) : Dev := { d with keeper := { d.keeper with clients := d.keeper.clients.set 3 (some { id := .udp 1 2, via := .udp 0, alive := none, heardAt := 0, tokenAt := some d.now }) } }
def rt : Route := { egress := 0, mac := 5, ip := 0x0A000002, udp := 40920, vlan := 0, dscp := 0 }
def bk (n : Nat) : Basket := { num := n, cycle := 0, frame := n, start := 256 * n, stop := 256 * n + 256, mode := .stream, reading := 0, rate := 0, status := 0, uncertainty := 0, holdover := 0, key := 0, route := rt, routePending := false, routeGen := 0, format := 3, parts := [{ port := 5, expected := true, missing := false, notUp := false, corr := 0 }] }
def done4 : PortPart := { port := 5, expected := true, missing := false, notUp := false, corr := 0, marks := #v[some 1, some 0, some 0, some 0] }
def gdev (n : Nat) (l : List (Nat × Nat × Nat)) (m : Merge) (mode : Mode := .stream) : Dev := { dev n l mode with merge := m, grid := { cycleStart := 0, nextFrame := 2 } }
def netRegs (l : List (Nat × Nat)) : Dev := { gdev 600 [] {} with regs := l.map fun x => (regKey 0xFF x.1 0, x.2) }
def ringE (q : Nat) : RingEntry := { seq := q, key := 0, bytes := List.replicate 256 7, ready := true, at_ := 5 }
def frg : Frag := { num := some 1, last := true, payload := [1, 2, 3], route := rt, srcUdp := 7 }
def badW : BadWord := { chan := 0, block := 5, word := 9, beats := (3, 5) }
def gk (n : Nat) : Basket := { num := n, cycle := 0, frame := n, start := 256 * n, stop := 256 * n + 256, mode := .gated, reading := 0, rate := 0, status := 0, uncertainty := 0, holdover := 0, key := 0, route := rt, routePending := false, routeGen := 0, format := 3, parts := [{ port := 5, expected := true, missing := false, notUp := false, corr := 0 }], st := .held, items := [.hit 5 0 3 100 7 0] }
def mdev (n : Nat) (l : List (Nat × Nat × Nat)) (m : Memory) (b : List Basket := []) (mode : Mode := .gated) : Dev := { dev n l mode with merge := { baskets := b, next := 9 }, mem := m }
def win1 : Window := { start := 300, width := 4, tag := 7 }
def occ7 : CalOcc := { entry := 3, action := 7, arg := 40, ports := 2 ^ 32 - 1, groups := 65535, at_ := 60, slot := 60, cycle := 0, modeFrom := 0, mode := .gated }
def occ6 : CalOcc := { occ7 with action := 6 }
def scr0 : Memory := { scrubPaid := 2 ^ 60 }
def word1 (a z : Nat) : BadWord := { chan := 1, block := 5, word := 0, beats := (BitVec.ofNat 40 a, BitVec.ofNat 40 (z + addrParity (5 * 2 ^ 18))) }
def gv (n : Nat) (l : List (Nat × Nat × Nat)) (g : Governor) (m : Mode := .stream) : Dev := withPort { dev n l m with gov := g } {}
def cal4 : List (Nat × Nat × Nat) := [(Reg.CAL_EN + 0x300, 3, 1), (Reg.CAL_ACTION + 0x300, 3, 4), (Reg.CAL_SLOT + 0x300, 3, 160), (Reg.CAL_ARG + 0x300, 3, 40), (Reg.CAL_GROUPS + 0x300, 3, 4)]
def occ4 : CalOcc := { entry := 3, action := 4, arg := 40, ports := 2 ^ 32 - 1, groups := 4, at_ := 160, slot := 160, cycle := 0, modeFrom := 0, mode := .stream }
def die3 : Die := { rise := #v[some 5, some 5, some 5] }
def setDie32 (x : Die) : Governor := { dies := (Vector.replicate 33 {}).set 32 x }
def ras (p t : Nat) : Raise := { port := p, group := 2, level := 3, start := 5, stop := t, steps := [(1, 9)], open_ := 5, window := true }
def tk (data : Bool) (src : Nat) : Task := { data := data, prio := 4, source := src, entry := 64 }
def tasks0 : List (Nat × Task) := [(3, tk true 3), (4, tk true 0), (5, tk true 1), (6, tk true 2), (7, tk false 15)]
def sdev (n : Nat) (l : List (Nat × Nat × Nat)) (sc : Sched) (m : Mode := .stream) : Dev := { dev n l m with sched := { sc with tasks := tasks0 } }
def jb (t slot seq prio : Nat) : Job := { task := t, data := false, prio := prio, source := 15, arg := 9, seq := seq, slot := slot }
def req (c : Fin 16) (tid : BitVec 16) : Request := { client := c, tid := tid, op := 1, node := 0, port := 5, index := 0x1000, sub := 1, elem := 0, value := [], alive := 3 }
def cores0 (c : Core) : Vector Core 16 := (Vector.replicate 16 {}).set 2 c
def idev (l : List (Nat × Nat × Nat)) (f : Flash) (a : AlwaysOn := {}) : Dev := { dev 600 l with flash := #v[f, {}], aon := a }
def wrd : BadWord := { chan := 0, block := 1, word := 0, beats := (0, BitVec.ofNat 40 (addrParity (2 ^ 18))) }
def msg : Bytes := [77, 82, 1, 112, 26, 43, 2, 1, 5, 0, 65, 16, 1, 0, 0, 68, 0, 4, 0, 0, 64, 40, 101, 188, 72, 112]
def msg2 : Bytes := [77, 82, 1, 112, 26, 43, 2, 1, 5, 0, 65, 16, 1, 0, 0, 68, 0, 44] ++ List.replicate 44 7 ++ [87, 37, 121, 219]
def cl (id : ClientId) (a : Nat) (t : List Txn := []) : Client := { id := id, via := .udp 0, alive := some a, heardAt := 5, txns := t }
def txr (r : Option Bytes) : Txn := { tid := 0x1A2B, response := r, status := .accepted, sentAt := 5, unknown := false }
def kdev (n : Nat) (l : List (Nat × Nat × Nat)) (k : Keeper) (m : Mode := .configure) : Dev := { dev n ((Reg.COM_NODE, 0, 1) :: (Reg.BE_MODE, 0, 1) :: (Reg.BE_LINK, 0, 1) :: (Reg.BE_SRC_IP, 0, 77) :: l) m with keeper := k, boot := { step := none } }
def k3 (c : Client) : Keeper := { clients := (Vector.replicate 16 none).set 0 (some c) }
def rowOf (a : Nat) : ObjRow := (objRow a).getD ⟨0, .u8, .ro, 1, 0, 0, 255⟩
def canid (seg num : Nat) : BitVec 29 := BitVec.ofNat 29 (3 * 2 ^ 26 + 1 * 2 ^ 17 + 9 * 2 ^ 9 + seg * 2 ^ 7 + num * 2)
def tdevG (payload : Nat) : Dev := { dev 600 [(Reg.TRG_MSG_EN, 0, 1)] .gated with grid := { cycle := payload } }
def desc (len ctl ac expect : Nat) : Bytes := beBytes 4 0 ++ beBytes 4 len ++ beBytes 1 ctl ++ beBytes 1 ac ++ beBytes 2 0 ++ beBytes 4 1 ++ beBytes 8 0 ++ beBytes 8 expect ++ beBytes 8 0 ++ beBytes 8 0
def cv (x : Engine) (l : List (Nat × Nat × Nat) := []) : Dev := { dev 600 l with cvu := (Vector.replicate 4 {}).set 1 x }
def p2 : CvParams := [16, 0x1021, 0xFFFF, 0, 0, 0]
def emd (c : EmChan) (n : Nat) (l : List (Nat × Nat × Nat)) (b : Blank := {}) : Dev := { dev n l with em := { chans := (Vector.replicate 16 {}).set 3 c, blanks := #v[b, {}] } }
def bd (n : Nat) (b : BootState) (m : Mode := .boot) : Dev := { dev n [] m with boot := b }
def pendTo (m : Mode) : Option ModePend := some { target := m, cycle := none, notBefore := 0 }
def lrec (q : Nat) : LedgerRec := { seq := q, flags := 0, time := 0, aon := 0, source := 255, code := 0x102, count := 1, v1 := 1, v2 := 2, v3 := 3, restarts := 0, cycle := 0 }
def ldev (n : Nat) (l : Ledger) : Dev := { dev n with ledger := l, flash := #v[{ accepted := true }, { accepted := true }], boot := { step := none } }
def bk0 : Basket := { num := 3, cycle := 0, frame := 3, start := 768, stop := 1024, mode := .stream, reading := 0, rate := 0, status := 0, uncertainty := 0, holdover := 0, key := 0, route := { egress := 0, mac := 5, ip := 9, udp := 40920, vlan := 0, dscp := 0 }, routePending := false, routeGen := 0, format := 3, parts := [] }
/-- The device after a command. -/
def after (c : Instr) (s : State) : Dev := match exec c s with
  | .next t => t.dev
  | _ => {}

/-! ## Ill-formed commands are refused -/

/-- No region is measured twice; no channel. -/
theorem test_wf_repeats :
    Instr.wf (.feCycleBoundary 0 [⟨1, [], 0, 0, 0⟩, ⟨1, [], 0, 0, 0⟩]) = false
      ∧ Instr.wf (.pairRefresh 0 (610, 1407) [(4, 610, 1407), (4, 610, 1407)]) = false
      ∧ Instr.wf (.pairRefresh 0 (610, 1407) [(4, 610, 1407), (5, 610, 1407)]) = true := by decide +kernel

/-- R196, R212. -/
theorem test_wf_operands :
    Instr.wf (.fcmdReceive 0 1 (.cal [2, 2]) 0 0) = false ∧ Instr.wf (.fcmdReceive 0 1 (.tickPhase 128) 0 0) = false
      ∧ Instr.wf (.fcmdReceive 0 1 (.tickPhase (-129)) 0 0) = false
      ∧ Instr.wf (.fcmdReceive 0 1 (.tickPhase (-128)) 0 0) = true := by decide +kernel

/-- R178, R183, R184, R190, R207: the bits of a block, the headers of a lock decision, the lanes of a LINKSTAT or a SYNC. -/
theorem test_wf_blocks :
    Instr.wf (.blockLockAcquire 0 (.up 0) [1]) = false ∧ Instr.wf (.blockLockLoss 0 (.up 0) []) = false
      ∧ Instr.wf (.invalidBlock 0 (.up 0) ⟨1, false, 0⟩ (List.replicate 129 true)) = false
      ∧ Instr.wf (.invalidBlock 0 (.up 0) ⟨1, false, 0⟩ (List.replicate 137 true)) = false
      ∧ Instr.wf (.linkstatReceive 0 []) = false ∧ Instr.wf (.syncReceive 0 (.down 0 0 [])) = false
      ∧ Instr.wf (.syncReceive 0 (.up 0 [])) = false
      ∧ Instr.wf (.invalidBlock 0 (.up 0) ⟨1, false, 0⟩ (List.replicate 136 true)) = true := by decide +kernel

/-- R162, R263, R353, R413, R414, R459, R341, R397: numbers of codes, sensors, bytes and channels, and the code of a line. -/
theorem test_wf_lengths :
    Instr.wf (.snapshotConversionComplete 0 0 []) = false ∧ Instr.wf (.canFdFrameReceive 0 0 (List.replicate 9 0)) = false
      ∧ Instr.wf (.thermalEvaluation []) = false ∧ Instr.wf (.timEdge 0 (.line 5 true) 0 0 (512, 1024)) = false
      ∧ Instr.wf (.timEdge 0 (.tap 1 true 0) 0 0 (512, 1024)) = false
      ∧ Instr.wf (.cvuSubmit 0 0 0 []) = false ∧ Instr.wf (.bootStepComplete (.memory true [])) = false
      ∧ Instr.wf (.bootStepComplete (.memory true (List.replicate 8 (.passed 5)))) = false
      ∧ Instr.wf (.maroriWrite .core 0 0 0 0 (List.replicate 1025 0)) = false
      ∧ Instr.wf (.canFdFrameReceive 0 0 (List.replicate 12 0)) = true
      ∧ Instr.wf (.bootStepComplete (.memory true (List.replicate 8 (.passed 4096)))) = true
      ∧ Instr.wf (.modeRequest .core [3]) = true := by decide +kernel

/-! ## Words written out in the spec -/

/-- The flood records of the worked example of the region readout (R127). -/
theorem test_flood_records :
    floodRecord 68 (timeField 42 3) 0 .regionStart = 0x510A98000000
      ∧ floodRecord 68 0xFFFFF 1400 .regionEnd = 0x513FFFFC15E1 ∧ floodRecord 68 0 0 .regionStart = 0x510000000000
      ∧ floodRecord 68 (timeField 181 0) 0 .regionEnd = 0x512D40000001 := by decide +kernel

/-- The marker of frame 2,000 of the same example (R128). -/
theorem test_frame_marker : markerRecord 2000 6 80 0 false false true false = 0x9F4001801402 := by decide +kernel

/-- The pair c1 = 610, c2 = 1,407 converts the stamps of the worked example of the hit timing (R92). -/
theorem test_stamps : convertStamp 805 1213 610 1407 = 411261 ∧ convertStamp 810 1100 610 1407 = 413893 := by decide +kernel

/-- The hit record of the same example: TIME 0x64694, TOT 164 (R99, R126). -/
theorem test_hit_record : hitRecord 0x4D2 0x64694 164 false false false = 0x134991A50520 := by decide +kernel

/-- Hit A and hit B of the worked example of the merge (R274, R296). -/
theorem test_hit_entries :
    hitEntry 0x11 0x0C3 (-90) 40 0 256 = 0x8861FFFD30288000 ∧ hitEntry 5 0x4D2 411187 164 0 256 = 0x2A69323198A40000 := by
  decide +kernel

/-- The DISPATCH entry of J4 in the worked example of the scheduler (R389). -/
theorem test_trace_word : traceWord 2 2 0x022 0 2 2 1 7 0x00012345 1000 = 0x210444410000000700012345000003E8 := by
  decide +kernel

/-- The identifiers of client 0x80's request with PRIO 3 to node 3 and of its response (R413). -/
theorem test_can_identifiers : canId 3 0 3 0x80 0 0 = 0x0C070000 ∧ canId 3 1 3 0x80 0 0 = 0x0E070000 := by decide +kernel

/-- DATA 3 has CHECK 0x0C (R334). -/
theorem test_memory_code : secdedCheck 3 = 0x0C ∧ readSyndrome 0 = .correct := by decide +kernel

/-- The message of the worked example of the check-value unit (R455), and the presets over "123456789" (R456). -/
theorem test_check_values :
    crc16 [0x4D, 0x52] = 0x1C28
      ∧ cvPresets.map (fun p => cvResult p none false [0x31, 0x32, 0x33, 0x34, 0x35, 0x36, 0x37, 0x38, 0x39])
        = [0xE3069283, 0x29B1, 0xCBF43926, 0x995DC9BBDF1939FA, 0xDF, 0x059E, 0x4, 0x21CF02] := by decide +kernel

/-- The worked example of the snapshots: raw 1,850 with Z16 3,705 and G 17,074 (R169). -/
theorem test_corrected_code : correctCode 1850 3705 17074 = (1943, false) := by decide +kernel

/-- The Pt100 of the worked example of the environment monitor at 25 °C in three wires (R466 to R469). -/
theorem test_pt100 : emRtd 2 true 1000 100000 110746700 (-110722700) 110246700 (-110222700) 1000000 110746700 false
    = { value := 25000, aux := 109735, aux2 := 12, flags := 0 } := by decide +kernel

/-- The settling times of R67, in slots. -/
theorem test_settling_times :
    settleTime 0 1 = 2500 ∧ settleTime 1 2 = 16 ∧ settleTime 1 3 = 25 ∧ settleTime 2 3 = 12 ∧ settleTime 3 1 = 8 ∧ settleTime 3 2 = 6 := by
  decide +kernel

/-- Logical lane 2 moves from physical lane 2 to 4: Lane Map 0x0688 becomes 0x0708 (R213, worked example). -/
theorem test_lane_map : setMap 0x0688 2 4 = 0x0708 := by decide +kernel

/-- The summary of port 0x1A in the worked example of the merge (R293). -/
theorem test_port_summary :
    { gk 0 with items := [.hit 0x1A 0 3 100 7 0, .hit 0x1A 1 4 101 7 0] }.summary { port := 0x1A, expected := true, missing := true, notUp := false, corr := 0, dead := some 35, active := 15, marks := #v[some 1, some 1, none, some 0] }
      = beBytes 16 0x1A01002300000002000000020000FB00 := by decide +kernel

/-! ## Single steps -/

/-- D = 49,173 fine bins gives Q = 49,152 and a Delay Correction of +21 (R210, R211, worked example of the links). -/
theorem test_link_delay :
    let d := (withPort (dev 600) { filtD := 49173 }).sendTimeSet 5 0
    d.getI Reg.WP_DCORR 5 = 21 ∧ (d.port 5).gridQ = 49152 := by decide +kernel

/-- R445. A Mode Request of BOOT is answered RANGE; the mode request of the mode itself is ACCEPTED. -/
theorem test_mode_requests :
    (after (.modeRequest .core [1]) (st (dev 5000))).Answered .core .range
      ∧ (after (.modeRequest .core [3]) (st (dev 5000))).Answered .core .accepted := by
  unfold Dev.Answered; decide +kernel

/-- R408, R421. An object that does not exist at the port is NOT_PRESENT; RWC objects change in CONFIGURE only. -/
theorem test_status_codes :
    (after (.maroriRead .core 0xFF 0x4142 0 0) (st (dev 5000))).Answered .core .notPresent
      ∧ (after (.maroriRead .core 5 0x2300 0 0) (st (dev 5000))).Answered .core .notPresent
      ∧ (after (.cycleLengthWrite .core [0, 0x0F, 0x42, 0x40]) (st (dev 5000 [] .stream))).Answered .core .wrongMode := by
  unfold Dev.Answered; decide +kernel

/-- The hit of the worked example of the hit timing, from its stamps on: pair (610, 1,407), correction +23 (R92 to R103). -/
theorem test_hit_of_stamps :
    let e : HitEntry := { leadTick := 805, leadFine := 1213, trailTick := 810, trailFine := 1100, complete := true, totSat := false, c1 := 610, c2 := 1407, stale := false, settling := false, lsb := 0, cycleAt := 0 }
    let f : FrontEnd := { power := .running, frames := [{ start := 0, stop := 256, idx := 1000, cyc := 0, marks := true, hits := true }], regions := [(68, { corr := 23 })] }
    ((withFe (dev 110) f).hitOf 5 1234 e).bits = 0x134991A50520 := by decide +kernel

/-- A pulse that began in tick 803 and lasts 10 ticks freezes at sample period 819 · 5 (R156, R157, worked example). -/
theorem test_pulse_width_freeze :
    let f : FrontEnd := { power := .running, mode := .snapshot, chans := [(1234, { high := true, edgeTick := 803, st := .pulse })], regions := [(68, { level := 1 })] }
    let s := st (withFe (dev 101) f [(Reg.FE_RG_SNAP, 68, 2 ^ 30 + 2 ^ 25 + 2 ^ 20), (Reg.SNAP_PW_WIDTH, 0, 10), (Reg.SNAP_PW_DELAY, 0, 15)])
    ((after (.pulseWidthTrigger 5 1234) s).fe 5).freezes = [{ inst := 4095, source := 1, regions := 2 ^ 68, samplers := 15 }] := by
  decide +kernel

/-- A PRECISION window of 50,000 slots over a region column costs 39.424 µJ, a STANDARD one 14.848 µJ (R356, worked example);
both are raises from SENTINEL. -/
theorem test_raise_costs :
    let d := { dev 5000 with mirror := [] }
    d.cost 7 0 3 [(1, 50000)] = 39424 ∧ d.cost 7 0 2 [(1, 50000)] = 14848 := by decide +kernel

/-- With TRG_HOLD 1,220,703 and TRG_BACKLOG 65,536 the INDEX stall has 2,516 MiB (R316). -/
theorem test_index_stall : indexMiB 1220703 65536 = 2516 := by decide +kernel

/-- TRIG_A at slot 500,000 with offset −12,500 and width 25,000, its 41st edge (R327, worked example of the memory). -/
theorem test_pin_trigger :
    let s := st (dev 500000 [(Reg.TRG_PIN_EN, 0, 1), (Reg.TRG_FILTER, 0, 0), (Reg.TRG_OFFSET, 0, 2 ^ 32 - 12500), (Reg.TRG_WIDTH, 0, 25000), (Reg.TRG_PIN_CNT, 0, 40)] .gated)
    (after (.pinTrigger 0) s).mem.windows = [{ start := 487500, width := 25000, tag := 0x80000029 }] := by decide +kernel

/-- After 300 s of holdover the uncertainty reads 152 ns (R242, worked example of the time base). -/
theorem test_holdover : ({ dev 37500000000 with tb := { state := .holdover, leftLocked := some 0 } } : Dev).uncertainty = 152 := by
  decide +kernel

/-- The check-value example: checker 5 at 0x3 takes 0x4; the same message again is ALIVE_REPEAT, 0x43; another is a MISMATCH,
0x40 (R455, R461, R462). -/
theorem test_check_value_alive :
    let b := beBytes 4 0x1000 ++ beBytes 4 2 ++ [0x31, 5] ++ beBytes 2 0x21 ++ List.replicate 12 0 ++ beBytes 8 0x1C28
    let ran := fun (last : Nat) (data : Bytes) => ({ dev 600 [(Reg.CV_ALIVE_LAST, 5, last)] with aliveFresh := 0 } : Dev).checkData (cvPresets.getD 1 []) b data
    let ok := ran 3 [0x4D, 0x52]
    (ok.1, ok.2.1, ok.2.2.1, ok.2.2.2.get Reg.CV_ALIVE_LAST 5) = (0x1C28, 0, 0x41, 4)
      ∧ ((ran 4 [0x4D, 0x52]).2.1, (ran 4 [0x4D, 0x52]).2.2.1) = (2, 0x43)
      ∧ ((ran 4 [0x4D, 0x53]).2.1, (ran 4 [0x4D, 0x53]).2.2.1) = (1, 0x40) := by decide +kernel

/-- GATED requested at slot 998,000 of a cycle waits for the cycle after the next (R29, R30, worked example of the time model). -/
theorem test_mode_boundary :
    ((after (.modeRequest .core [7]) (st (dev 998000 [] .stream))).modePend.map fun m =>
      decide (m.target = .gated ∧ 1000000 < m.notBefore ∧ m.notBefore ≤ 2000000)) = some true := by decide +kernel

/-- The message of the worked example of the object dictionary, with a CRC-32C of its own (R409, R411). -/
theorem test_message : messageValid msg = true ∧ messageValid (msg.set 3 0x71) = false ∧ (requestOf 0 msg).index = 0x4110 := by
  decide +kernel

/-! ## Hypotheses of the statements are met

Each witness below is one conjunct per clause of its statement that has hypotheses: a concrete state and operands, and the
hypotheses at them. -/

theorem witness_RunsTakeCommandsInOrder :
    let s : State := { dev := dev 5, pending := [.blankRise 0] }
    s.pending.length ≤ 3 ∧ (∃ t, runSteps 3 s = .next t ∧ t.dev.now = 7) :=
  ⟨by decide, _, rfl, by decide +kernel⟩

theorem witness_StoresStayCanonical :
    let d := withFe (dev 600 [(Reg.BASKET_TIMEOUT, 0, 9), (Reg.CYCLE_LEN, 0, 1000000)]) runFe [(Reg.FE_SNAP_QLOSS, 0, 2)]
    d.canonical ∧ 2 ≤ d.regs.length
      ∧ ∃ t, step { dev := d, pending := [.maroriWrite .core 0xFF 0x2300 1 5 [0]] } = .next t ∧ 2 < t.dev.regs.length :=
  ⟨by unfold Dev.canonical; decide +kernel, by decide +kernel, _, rfl, by decide +kernel⟩

theorem witness_ModeChangesOnlyWhenPending :
    (∃ t, exec .modeChange (st { dev 600 [] .stream with modePend := pendTo .configure }) = .next t ∧ t.dev.mode ≠ .stream)
      ∧ restarts (.resetAssert false) = true ∧ (∃ t, exec (.resetAssert false) (st (dev 600)) = .next t) :=
  ⟨⟨_, rfl, by decide +kernel⟩, rfl, _, rfl⟩

theorem witness_CommandsLeaveTheRestAlone :
    (∃ t, exec (.blankRise 0) (st (dev 600)) = .next t ∧ t.dev.em ≠ (dev 600).em) ∧ Part.mode ∉ touches (.blankRise 0)
      ∧ ∃ l, setsObjects (.portRelease .core 5 [1]) = some l ∧ Reg.BE_MTU ∉ l :=
  ⟨⟨_, rfl, by decide +kernel⟩, by decide +kernel, _, rfl, by decide +kernel⟩

theorem witness_PortCommandsLeaveOtherPortsAlone :
    actsOn (.blockLockAcquire 5 (.down 0) (List.replicate 64 1)) = some 5
      ∧ (∃ t, exec (.blockLockAcquire 5 (.down 0) (List.replicate 64 1)) (st (withFe (dev 600 [(Reg.WP_STATE, 5, 1)]) { power := .running })) = .next t ∧ (t.dev.fe 5).dlLock[0] = true)
      ∧ ∃ l, setsFeObjects (.blockLockAcquire 5 (.down 0) (List.replicate 64 1)) = some l ∧ Reg.FE_SNAP_QLOSS ∉ l :=
  ⟨rfl, ⟨_, rfl, by decide +kernel⟩, _, rfl, by decide +kernel⟩

theorem witness_DictionaryChecksWritesWhole :
    (∃ r, objRow Reg.CYCLE_LEN = some r)
      ∧ (writes (.cycleLengthWrite .core [0, 15, 66, 64]) = some (.core, Reg.CYCLE_LEN, 0, [0, 15, 66, 64])
        ∧ ((dev 600 [] .stream).gate .core Reg.CYCLE_LEN 0 [0, 15, 66, 64]).1 = some .wrongMode)
      ∧ locate 0xFF 0x4142 0 = none
      ∧ (∃ r, locate 0xFF 0x2300 1 = some r ∧ r.addr ∉ ownWrite ∧ roElem r.addr 5 = false
        ∧ ((dev 600).gate .core r.addr 5 [2]).1 = some .range)
      ∧ ∃ r, locate 0xFF 0x2300 1 = some r ∧ r.addr ∉ ownWrite ∧ 1 < r.elems ∧ r.elems ≤ 0xFFFF
        ∧ ((dev 600).gate .core r.addr 0xFFFF [1]).1 = none := by
  refine ⟨⟨rowOf Reg.CYCLE_LEN, by decide +kernel⟩, ⟨rfl, by decide +kernel⟩, by decide +kernel, ⟨rowOf Reg.WP_EN, ?_⟩, rowOf Reg.WP_EN, ?_⟩
    <;> decide +kernel

theorem witness_CycleBoundaryStartsNextCycle :
    (
    let s : State := st { dev 1000000 with grid := { cycle := 2 ^ 40 - 1, nextFrame := 3907 } }
    (s.dev.inReset = false) ∧ (s.dev.cycleEnd ≤ s.dev.now) ∧ (s.dev.cycleDone = true) ∧ (Option.all (fun x => x.1 != 0) s.dev.cut = true)) := by
  decide +kernel

theorem witness_GridMoveEndsCycleEarly :
    (
    let s : State := st { dev 999997 with grid := { nextFrame := 3907, move := some { at_ := 999997, cycle := none, delta := -3, synth := false, record := true } } }
    let m : GridMove := { at_ := 999997, cycle := none, delta := -3, synth := false, record := true }
    (s.dev.inReset = false) ∧ (s.dev.cut = some (0, m)) ∧ (m.at_ ≤ s.dev.now) ∧ (s.dev.cycleDone = true)) := by
  decide +kernel

theorem witness_ModeRequestsWaitForTheirBoundary :
    (
    let s : State := st (dev 5000)
    let w : Sys2Proof.Writer := .core
    let m : Mode := .stream
    (s.dev.Admits w Reg.MD_REQUEST 0 [BitVec.ofNat 8 (modeCode m)]) ∧ (m ≠ s.dev.mode) ∧ (permitted s.dev.mode m = true) ∧ (s.dev.mode ≠ Mode.safe) ∧ (s.dev.safeReason = none) ∧ (s.dev.get Reg.MD_TARGET_CYC = 0)) ∧ (
    let s : State := st (dev 5000 [(Reg.MD_TARGET_CYC, 0, 1)])
    let w : Sys2Proof.Writer := .core
    let m : Mode := .stream
    let k : ℕ := 1
    (s.dev.Admits w Reg.MD_REQUEST 0 [BitVec.ofNat 8 (modeCode m)]) ∧ (m ≠ s.dev.mode) ∧ (permitted s.dev.mode m = true) ∧ (s.dev.mode ≠ Mode.safe) ∧ (s.dev.safeReason = none) ∧ (s.dev.get Reg.MD_TARGET_CYC = k) ∧ (k ≠ 0)) ∧ (
    let s : State := st (dev 5000)
    let w : Sys2Proof.Writer := .core
    (s.dev.Admits w Reg.MD_REQUEST 0 [BitVec.ofNat 8 (modeCode s.dev.mode)]) ∧ (s.dev.safeReason = none)) := by
  refine ⟨?_, ?_, ?_⟩ <;> first | decide +kernel | (unfold Dev.Admits; decide +kernel)

theorem witness_CalendarCommitsAreCheckedAndApplied :
    (
    let s : State := st (dev 5000)
    let w : Sys2Proof.Writer := .core
    let val : Bytes := [1]
    (s.dev.Admits w Reg.CAL_COMMIT 0 val)) ∧ (
    let s : State := st (withPort (dev 5000) { mirrorAcked := false, mirrorBoundary := 5256 })
    let p : Port := 5
    ((s.dev.port p).mirrorAcked = false) ∧ (bit (s.dev.get Reg.WP_STATUS ↑p) 11 = false) ∧ ((s.dev.port p).mirrorBoundary ≤ s.dev.now + 256) ∧ (s.dev.ledger.buffer.length < 1024)) ∧ (
    let s : State := st { dev 5000 with grid := { cycle := 9, cycleStart := 4096, bankPend := some (4096, objs [(0xFF, Reg.CAL_EN, 3, 1)]) } }
    let t : ℕ := 4096
    let b : Tbl ℕ := objs [(0xFF, Reg.CAL_EN, 3, 1)]
    (s.dev.grid.bankPend = some (t, b)) ∧ (t ≤ s.dev.grid.cycleStart) ∧ (s.dev.beforeCommits = false) ∧ (s.dev.routeDue = false)) := by
  refine ⟨?_, ?_, ?_⟩ <;> first | decide +kernel | (unfold Dev.Admits; decide +kernel)

theorem witness_CycleLengthWriteGovernsNextCycle :
    (
    let s : State := st (dev 5000)
    let w : Sys2Proof.Writer := .core
    let val : Bytes := [0, 0x0F, 0x42, 0x41]
    (s.dev.Admits w Reg.CYCLE_LEN 0 val)) := by
  first | decide +kernel | (unfold Dev.Admits; decide +kernel)

theorem witness_FastCommandsIssueInOrder :
    (
    let s : State := st (withPort (dev 5000) { linkstatAt := 4990, cmds := [{ op := .inject, cycle := 0, slot := 5100, target := 5100, rank := 5, tokens := 1 }] })
    let p : Port := 5
    let f : Fcmd := { op := .inject, cycle := 0, slot := 5100, target := 5100, rank := 5, tokens := 1 }
    let new : Bool := false
    (s.dev.portUp p = true) ∧ (s.dev.statOverdue p = false) ∧ ((s.dev.feedInjects p).nextCopy p = some (f, new)) ∧ (f.tokens ≤ (s.dev.port p).tokensNow s.dev.now)) ∧ (
    let d : Dev := (withPort (dev 5000) { linkstatAt := 4990, cmds := [{ op := .inject, cycle := 0, slot := 5100, target := 5100, rank := 5, tokens := 1 }] })
    let p : Port := 5
    let f : Fcmd := { op := .inject, cycle := 0, slot := 5100, target := 5100, rank := 5, tokens := 1 }
    let new : Bool := false
    (d.nextCopy p = some (f, new))) ∧ (
    let s : State := st (withPort (dev 5061 [(Reg.CAL_EN + 0x300, 3, 1), (Reg.CAL_ACTION + 0x300, 3, 3), (Reg.CAL_SLOT + 0x300, 3, 5060), (Reg.CAL_PORTS + 0x300, 3, 2^32-1)] .stream) { linkstatAt := 4990 })
    let p : Port := 5
    let q : Dev := (withPort (dev 5061 [(Reg.CAL_EN + 0x300, 3, 1), (Reg.CAL_ACTION + 0x300, 3, 3), (Reg.CAL_SLOT + 0x300, 3, 5060), (Reg.CAL_PORTS + 0x300, 3, 2^32-1)] .stream) { linkstatAt := 4990 })
    let late : ℕ := 0
    ((if s.dev.takesCmds p = true then s.dev.feedInjects p else s.dev) = q) ∧ (sumBy (fun f => if f.copies = 0 then f.tokens else 0)
    (List.filter (fun f => decide (f.target ≤ s.dev.now)) (q.port p).cmds) =
      late)) := by
  refine ⟨?_, ?_, ?_⟩ <;> decide +kernel

theorem witness_LeadingEdgeCapturedSuppressedOrLost :
    (
    let s : State := st (withFe (dev 1003 [] .stream) { power := .running, mode := .stream, frames := [{ start := 768, stop := 1024, idx := 3, cyc := 0 }], regions := [(0, { level := 3 })], chans := [(0, { pairC1 := 610, pairC2 := 1407, pairValid := true, pairAt := 1000 })] })
    let p : Port := 5
    let c : ChanNo := 0
    let f := s.dev.fe p
    let g := f.region (regionOf ↑c)
    (f.runs = true) ∧ (s.dev.masked p ↑c = false) ∧ (g.senses = true)) := by
  decide +kernel

theorem witness_PulseEndsAndChannelRearms :
    (
    let s : State := st (withFe (dev 1003) { power := .running, chans := [(0, { st := .pulse, high := true, queue := [{ leadTick := 8000, leadFine := 1213, trailTick := 0, trailFine := 0, complete := false, totSat := false, c1 := 610, c2 := 1407, stale := false, settling := false, lsb := 0, cycleAt := 0 }] })] })
    let p : Port := 5
    let c : ChanNo := 0
    let ch := (s.dev.fe p).chan ↑c
    ((s.dev.fe p).runs = true) ∧ (ch.high = true) ∧ (ch.st = ChanSt.pulse)) ∧ (
    let s : State := st (withFe (dev 1007) { power := .running, chans := [(0, { st := .pulse, high := true, edgeTick := 8000, queue := [{ leadTick := 8000, leadFine := 1213, trailTick := 0, trailFine := 0, complete := false, totSat := false, c1 := 610, c2 := 1407, stale := false, settling := false, lsb := 0, cycleAt := 0 }] })] })
    let p : Port := 5
    let c : ChanNo := 0
    let ch := (s.dev.fe p).chan ↑c
    (ch.st = ChanSt.pulse) ∧ (∃ e ∈ ch.queue, e.complete = false ∧ 2047 * totLsb e.lsb ≤ (8 * (s.dev.now + 1) - ch.edgeTick) * 512)) ∧ (
    let s : State := st (withFe (dev 1003) { power := .running, regions := [(0, { level := 3 })], chans := [(0, { st := .rearm, deadFrom := 8010, endTick := 8030 })] })
    let p : Port := 5
    let c : ChanNo := 0
    let ch := (s.dev.fe p).chan ↑c
    (ch.st = ChanSt.rearm) ∧ (ch.endTick ≤ 8 * s.dev.now + 7)) ∧ (
    let s : State := st (withFe (dev 1003) { power := .running, regions := [(0, { level := 3 })], chans := [(0, { st := .rearm, deadFrom := 8010, endTick := 8030 })] })
    let p : Port := 5
    let c : ChanNo := 0
    let ch := (s.dev.fe p).chan ↑c
    (ch.st = ChanSt.rearm) ∧ (ch.endTick ≤ 8 * s.dev.now + 7) ∧ (ch.deadFrom < ch.endTick)) := by
  refine ⟨?_, ?_, ?_, ?_⟩ <;> decide +kernel

theorem witness_StampsConvertedAndPhaseLatched :
    (
    let c1 : ℕ := 610
    let c2 : ℕ := 1407
    (c1 < c2)) ∧ (
    let r : ℕ := 7
    (r < 256)) := by
  refine ⟨?_, ?_⟩ <;> decide +kernel

theorem witness_FrontEndFramesAndCyclesFollow :
    (
    let s : State := st (withFe (dev 1000003) { power := .running, cycleStart := 1000000, clearTiming := some 5, clearReadout := some 6 } [(Reg.FE_CHIP_DT, 0, 0x100), (Reg.FE_QRST_CNT, 0, 9)])
    let p : Port := 5
    let f := s.dev.fe p
    (f.runs = true)) ∧ (
    let s : State := st (withFe (dev 1024) { power := .running, frames := [{ start := 768, stop := 1024, idx := 3, cyc := 0 }] })
    let p : Port := 5
    let fr : FeFrame := { start := 768, stop := 1024, idx := 3, cyc := 0 }
    let f := s.dev.fe p
    (f.runs = true) ∧ (f.frames.getLast? = some fr) ∧ (fr.ended = false) ∧ (fr.stop ≤ s.dev.now) ∧ (fr.stop < f.cycleStop)) ∧ (
    let s : State := st (withFe (dev 1000000) { power := .running, gridSet := true, frames := [{ start := 999936, stop := 1000000, idx := 3906, cyc := 0, short := true }], regions := [(7, { level := 3 })] })
    let p : Port := 5
    let f := s.dev.fe p
    (f.runs = true) ∧ (f.gridSet = true) ∧ (f.cycleStop ≤ s.dev.now)) := by
  refine ⟨?_, ?_, ?_⟩ <;> decide +kernel

theorem witness_AnalogueSettingsTakeEffect :
    (
    let s : State := st (withFe (dev 1003) { runFe with applyAt := some 1000 })
    let p : Port := 5
    ((s.dev.fe p).applyAt = some 1000) ∧ ((s.dev.fe p).runs = true)
      ∧ (if (s.dev.fe p).applyAtCycle then 1000 < (s.dev.fe p).cycleStart else 1000 ≤ s.dev.now)) ∧ (
    let s : State := st (withFe (dev 1003) { power := .running } [(Reg.FE_CH_ANA, 9, 0x100)])
    let p : Port := 5
    let c : ChanNo := 9
    ((s.dev.fe p).runs = true) ∧ (bit (s.dev.ap p Reg.FE_CH_ANA ↑c) 8 = true)) ∧ (
    let s : State := st (withFe (dev 1003) { power := .running, regions := [(7, { level := 3, settleUntil := 1003, outFrom := some 1003 })] })
    let p : Port := 5
    let r : RegionNo := 7
    (((s.dev.fe p).region ↑r).settleUntil ≤ s.dev.now)) ∧ (
    let s : State := st (withPort (dev 1003 [] .calibrate) {})
    let w : Sys2Proof.Writer := .core
    let p : Port := 5
    let val : Bytes := [0x00, 0x10, 0x00, 0x64]
    (s.dev.get Reg.WP_STATE ↑p = 2 ∨ s.dev.get Reg.WP_STATE ↑p = 3) ∧ (s.dev.Admits w Reg.FE_INJECT 0 val)) := by
  refine ⟨?_, ?_, ?_, ?_⟩ <;> first | decide +kernel | (unfold Dev.Admits; decide +kernel)

theorem witness_FastCommandReceivedOnce :
    (
    let s : State := st (withFe (dev 1003) { power := .running, dlLock := #v[true, true] })
    let p : Port := 5
    let f := s.dev.fe p
    (f.hears = true)) := by
  decide +kernel

theorem witness_DueFastCommandExecutes :
    (
    let s : State := st (withFe (dev 1003) { power := .running, cmds := [{ id := 3, op := .mode 6, cyc := 0, slot := 1003, order := 0, left := [] }] })
    let p : Port := 5
    let i : DueItem := { cmd := { id := 3, op := .mode 6, cyc := 0, slot := 1003, order := 0, left := [] }, entry := none, action := 0, rank := 1003 * 2 ^ 40 }
    let m : Mode := .stream
    (s.dev.inOrder p 1 = true) ∧ ((s.dev.due p).2 = some i) ∧ (opMode i.cmd.op = some m)) ∧ (
    let s : State := st (withFe (dev 1003 [] .stream) { power := .running, mode := .stream, mirror := [(4, { action := 1, arg := 3 })], cmds := [{ id := 3, op := .cal [4], cyc := 0, slot := 1003, order := 0, left := [4] }], columns := (Vector.replicate 16 []).set 2 [{ bits := 0, hit := true, region := 2, frame := 0, idx := 0, cyc := 0, key := 0 }], regions := [(7, { queue := [{ bits := 0, hit := true, region := 7, frame := 0, idx := 0, cyc := 0, key := 0 }] })] })
    let p : Port := 5
    let i : DueItem := { cmd := { id := 3, op := .cal [4], cyc := 0, slot := 1003, order := 0, left := [4] }, entry := some 4, action := 1, rank := 1003 * 2 ^ 40 + 2 ^ 30 + 4 * 2 ^ 20 }
    (s.dev.inOrder p 1 = true) ∧ ((s.dev.due p).2 = some i) ∧ (isAction 1 i = true)) ∧ (
    let s : State := st (withFe (dev 1003 [] .stream) { power := .running, mode := .stream, cmds := [{ id := 3, op := .bias 0x0001 2, cyc := 0, slot := 1003, order := 0, left := [] }] })
    let p : Port := 5
    let i : DueItem := { cmd := { id := 3, op := .bias 0x0001 2, cyc := 0, slot := 1003, order := 0, left := [] }, entry := none, action := 0, rank := 1003 * 2 ^ 40 + 4 * 2 ^ 30 }
    let r : ℕ := 16
    let l : ℕ := 2
    let f := ((s.dev.due p).1.fe p).finish i
    let all := List.filterMap (fun c => opBias c.op)
      (i.cmd :: List.filter (fun c => (opBias c.op).isSome && f.reached s.dev.now c == f.reached s.dev.now i.cmd) f.cmds)
    (s.dev.inOrder p 1 = true) ∧ ((s.dev.due p).2 = some i) ∧ ((opBias i.cmd.op).isSome = true) ∧ (r < 256) ∧ (Option.map Prod.snd (List.filter (fun b => bit b.1 (s.dev.groupOf p r)) all).getLast? = some l)) ∧ (
    let s : State := st (withFe (dev 1003 [] .calibrate) { power := .running, mode := .calibrate, cmds := [{ id := 3, op := .inject, cyc := 0, slot := 1003, order := 0, left := [] }], regions := [(0, { level := 2 })] } [(Reg.FE_CH_ANA, 1, 0x40)])
    let p : Port := 5
    let i : DueItem := { cmd := { id := 3, op := .inject, cyc := 0, slot := 1003, order := 0, left := [] }, entry := none, action := 0, rank := 1003 * 2 ^ 40 + 6 * 2 ^ 30 }
    (s.dev.inOrder p 1 = true) ∧ ((s.dev.due p).2 = some i) ∧ (i.cmd.op = FcmdOp.inject)) ∧ (
    let s : State := st (withFe (dev 1003 [] .calibrate) { power := .running, mode := .calibrate, cmds := [{ id := 3, op := .tickPhase (-1), cyc := 0, slot := 1003, order := 0, left := [] }] })
    let p : Port := 5
    let i : DueItem := { cmd := { id := 3, op := .tickPhase (-1), cyc := 0, slot := 1003, order := 0, left := [] }, entry := none, action := 0, rank := 1003 * 2 ^ 40 + 7 * 2 ^ 30 }
    let h : ℤ := -1
    (s.dev.inOrder p 1 = true) ∧ ((s.dev.due p).2 = some i) ∧ (i.cmd.op = FcmdOp.tickPhase h)) := by
  refine ⟨?_, ?_, ?_, ?_, ?_⟩ <;> decide +kernel

theorem witness_CycleEndCommandEndsTheCycle :
    (
    let s : State := st (withFe (dev 1003 [] .stream) { power := .running, mode := .stream, cmds := [{ id := 3, op := .cycleEnd, cyc := 0, slot := 1003, order := 0, left := [] }, { id := 4, op := .inject, cyc := 0, slot := 1009, order := 1, left := [] }] })
    let p : Port := 5
    let i : DueItem := { cmd := { id := 3, op := .cycleEnd, cyc := 0, slot := 1003, order := 0, left := [] }, entry := none, action := 0, rank := 1003 * 2 ^ 40 + 8 * 2 ^ 30 }
    (s.dev.inOrder p 1 = true) ∧ ((s.dev.due p).2 = some i) ∧ (i.cmd.op = FcmdOp.cycleEnd)) := by
  decide +kernel

theorem witness_LatchRefreshAndSnapshotEntriesExecute :
    (
    let s : State := st (withFe (withPort (dev 1003 [] .sentinel) {}) { power := .running, mode := .sentinel, mirror := [(4, { action := 2 })], regions := [(3, { level := 1, rate := 77 })], cmds := [{ id := 3, op := .cal [4], cyc := 0, slot := 1003, order := 0, left := [4] }] })
    let p : Port := 5
    let i : DueItem := { cmd := { id := 3, op := .cal [4], cyc := 0, slot := 1003, order := 0, left := [4] }, entry := some 4, action := 2, rank := 1003 * 2 ^ 40 + 2 * 2 ^ 30 + 4 * 2 ^ 20 }
    (s.dev.inOrder p 1 = true) ∧ ((s.dev.due p).2 = some i) ∧ (isAction 2 i = true)) ∧ (
    let s : State := st (withFe (dev 1003 [] .stream) { power := .running, mode := .stream, mirror := [(4, { action := 3 })], regions := [(0, { level := 3 })], cmds := [{ id := 3, op := .cal [4], cyc := 0, slot := 1003, order := 0, left := [4] }] })
    let p : Port := 5
    let i : DueItem := { cmd := { id := 3, op := .cal [4], cyc := 0, slot := 1003, order := 0, left := [4] }, entry := some 4, action := 3, rank := 1003 * 2 ^ 40 + 3 * 2 ^ 30 + 4 * 2 ^ 20 }
    (s.dev.inOrder p 1 = true) ∧ ((s.dev.due p).2 = some i) ∧ (isAction 3 i = true)) ∧ (
    let s : State := st (withFe (dev 1003 [] .calibrate) { power := .running, mode := .calibrate, mirror := [(4, { action := 5, arg := 3 })], regions := [(0, { level := 3 })], cmds := [{ id := 3, op := .cal [4], cyc := 0, slot := 1003, order := 0, left := [4] }] })
    let p : Port := 5
    let i : DueItem := { cmd := { id := 3, op := .cal [4], cyc := 0, slot := 1003, order := 0, left := [4] }, entry := some 4, action := 5, rank := 1003 * 2 ^ 40 + 5 * 2 ^ 30 + 4 * 2 ^ 20 }
    (s.dev.inOrder p 1 = true) ∧ ((s.dev.due p).2 = some i) ∧ (isAction 5 i = true)) := by
  refine ⟨?_, ?_, ?_⟩ <;> decide +kernel

theorem witness_ArbitersAndDealerMoveRecords :
    (
    let s : State := st (withFe (dev 1003 [] .stream) { power := .running, frames := [fr3], chans := [(1, { queue := [hitE 8010 true] }), (2, { st := .blocked, queue := [hitE 8000 true, hitE 8008 true,hitE 8016 true,hitE 8024 true] })] })
    let p : Port := 5
    let r : RegionNo := 0
    let k : Fin 16 := 2
    let e : HitEntry := hitE 8000 true
    let f := s.dev.fe p
    let g := f.region ↑r
    let chan := fun k => (channelsOf ↑r).getD k 0
    let head := fun k => (f.chan (chan k)).queue.head?
    (f.runs = true) ∧ (s.dev.inOrder p 5 = true) ∧ (g.readAt ≠ some s.dev.now) ∧ (head ↑k = some e) ∧ (f.readable (chan ↑k) e = true) ∧ (∀ (j : Fin 16),
      j ≠ k →
    ∀ x ∈ head ↑j,
      f.readable (chan ↑j) x = true →
        grantRank 16 g.lastChan (e.leadTick / 8) ↑k < grantRank 16 g.lastChan (x.leadTick / 8) ↑j)) ∧ (
    let s : State := st (withFe (dev 1003 [] .stream) { power := .running, regions := [(3, { queue := [rec true 3 768 1001] }), (19, { queue := [rec true 19 768 1000] })] })
    let p : Port := 5
    let c : Fin 16 := 3
    let k : Fin 16 := 1
    let q : QRec := rec true 19 768 1000
    let f := s.dev.fe p
    let head := fun k => (f.region (k * 16 + ↑c)).queue.head?
    (f.runs = true) ∧ (s.dev.inOrder p 5 = true) ∧ (f.colMoved[↑c] ≠ some s.dev.now) ∧ (f.columns[↑c].length < 256) ∧ (head ↑k = some q) ∧ (∀ (j : Fin 16), j ≠ k → ∀ x ∈ head ↑j, grantRank 16 f.colLast[↑c] q.key ↑k < grantRank 16 f.colLast[↑c] x.key ↑j)) ∧ (
    let s : State := st (withFe (dev 1003 [] .stream) { power := .running, records := List.replicate 9 (rec false 3 768 1001), columns := (Vector.replicate 16 []).set 2 [rec true 3 768 1001] })
    let p : Port := 5
    let f := s.dev.fe p
    (f.runs = true) ∧ (s.dev.inOrder p 5 = true) ∧ (f.dealtAt ≠ some s.dev.now)) := by
  refine ⟨?_, ?_, ?_⟩ <;> decide +kernel

theorem witness_FramesCompleteOrClose :
    (
    let s : State := st (withFe (dev 1024 [] .stream) { power := .running, frames := [fr3e] })
    let p : Port := 5
    let fr : FeFrame := fr3e
    let rest : List FeFrame := []
    let f := s.dev.fe p
    (f.runs = true) ∧ (f.frames = fr :: rest) ∧ (fr.ended = true) ∧ (fr.stop ≤ s.dev.now) ∧ (f.holds fr = false) ∧ (fr.heldAt ≠ some s.dev.now)) ∧ (
    let s : State := st (withFe (dev 3071 [] .stream) { power := .running, frames := [fr3e], chans := [(0, { queue := [hitE 8000 true] })], regions := [(3, { queue := [rec true 3 768 1001] })], columns := (Vector.replicate 16 []).set 2 [rec true 3 768 1001] } [(Reg.FE_FRAME_CLOSE, 0, 2048)])
    let p : Port := 5
    let fr : FeFrame := fr3e
    let f := s.dev.fe p
    (f.runs = true) ∧ (s.dev.inOrder p 3 = true) ∧ (List.find?
    (fun x => x.ended && !x.closed && decide (x.stop + s.dev.ap p Reg.FE_FRAME_CLOSE ≤ s.dev.now + 1) && f.holds x)
    f.frames =
      some fr) ∧ (∀ rn ∈ f.held fr.start, rn.1 < 256)) := by
  refine ⟨?_, ?_⟩ <;> decide +kernel

theorem witness_LanePacketsSend :
    (
    let s : State := st (withFe (dev 1040 [] .stream) { power := .running, lanes := (Vector.replicate 4 {}).set 1 { queue := [.entry (rec true 3 768 1001)], since := 1000 } } [(Reg.FE_PKT_WAIT, 0, 40)])
    let p : Port := 5
    let l : Lane := 1
    let ln := (s.dev.fe p).lanes[↑l]
    ((s.dev.fe p).runs = true) ∧ (ln.queue ≠ []) ∧ (ln.since + s.dev.ap p Reg.FE_PKT_WAIT ≤ s.dev.now)) ∧ (
    let s : State := st (withFe (withPort (dev 1040 [] .stream) { uls := (Vector.replicate 5 {}).set 1 { up := true } }) { power := .running, lanes := (Vector.replicate 4 {}).set 1 { queue := [.entry (rec true 3 768 1001)], since := 1000, due := true, credit := 1 } })
    let p : Port := 5
    let l : Lane := 1
    let i : LaneItem := .entry (rec true 3 768 1001)
    let items : List LaneItem := [.entry (rec true 3 768 1001)]
    let closed : Bool := false
    let ln := (s.dev.fe p).lanes[↑l]
    ((s.dev.fe p).runs = true) ∧ (ln.queue.head? = some i) ∧ (packetPrefix i.frame 128 ln.queue = (items, closed)) ∧ (closed = true ∨ ln.due = true) ∧ (s.dev.laneReady p ↑l = true)) := by
  refine ⟨?_, ?_⟩ <;> decide +kernel

theorem witness_FrontEndFaultsAreContained :
    (
    let s : State := st (withFe (dev 5040 [] .stream) { power := .running, regions := [(3, { level := 3 })] })
    let p : Port := 5
    ((s.dev.fe p).runs = true)) ∧ (
    let s : State := st (withFe (dev 5040 [] .stream) { power := .running, regions := [(3, { level := 3 })] })
    let p : Port := 5
    ((s.dev.fe p).runs = true)) ∧ (
    let s : State := st (withFe (dev 1040 [] .stream) { power := .running, chans := [(1, { st := .blocked, queue := [hitE 8010 true] })] })
    let p : Port := 5
    ((s.dev.fe p).runs = true) ∧ (s.dev.inOrder p 2 = true)) := by
  refine ⟨?_, ?_, ?_⟩ <;> decide +kernel

theorem witness_FloodGuardsEnterAndLeave :
    (
    let s : State := st (withFe (dev 1040 [] .stream) { power := .running, chans := (channelsOf 3).map fun c => (c, { lastEdge := some 1039 }) } [(Reg.FE_RG_FLOOD_EN, 3, 1), (Reg.FLOOD_N, 0, 8)])
    let p : Port := 5
    let r : RegionNo := 3
    ((s.dev.fe p).runs = true) ∧ (((s.dev.fe p).region ↑r).flood = false) ∧ (s.dev.ap p Reg.FE_RG_FLOOD_EN ↑r ≠ 0) ∧ (s.dev.floodMet p ↑r = true) ∧ (s.dev.inOrder p 4 = true)) ∧ (
    let s : State := st (withFe (dev 5040 [] .stream) { power := .running, regions := [(3, { flood := true, lastEdge := 1000, floodFrom := 900, level := 3 })], chans := [(12, { high := true })] })
    let p : Port := 5
    let r : RegionNo := 3
    let g := (s.dev.fe p).region ↑r
    (g.flood = true) ∧ (g.lastEdge + 1 + s.dev.ap p Reg.FLOOD_QUIET ≤ s.dev.now) ∧ (g.floodFrom + s.dev.ap p Reg.FLOOD_QUIET ≤ s.dev.now) ∧ (s.dev.inOrder p 4 = true)) ∧ (
    let s : State := st (withFe (dev 5040 [] .stream) { power := .running, chipOver := true, chipSince := 5039, regions := [(3, { flood := true }), (4, { flood := true })] } [(Reg.FLOOD_CHIP_N, 0, 1)])
    let p : Port := 5
    ((s.dev.fe p).runs = true) ∧ ((s.dev.fe p).chipFlood = false) ∧ ((s.dev.fe p).chipOver = true) ∧ ((s.dev.fe p).chipSince < s.dev.now) ∧ (s.dev.inOrder p 4 = true)) ∧ (
    let s : State := st (withFe (dev 5040 [] .stream) { power := .running, chipFlood := true, chipSince := 7, regions := [(3, { flood := true })] } [(Reg.FLOOD_CHIP_N, 0, 1)])
    let p : Port := 5
    ((s.dev.fe p).chipFlood = true) ∧ ((s.dev.fe p).chipOver = false) ∧ ((s.dev.fe p).chipSince + s.dev.ap p Reg.FLOOD_QUIET ≤ s.dev.now) ∧ (s.dev.inOrder p 4 = true)) := by
  refine ⟨?_, ?_, ?_, ?_⟩ <;> decide +kernel

theorem witness_FrontEndCommandMessages :
    (
    let s : State := st (withFe (dev 5040 [] .calibrate) { power := .running, dlLock := #v[true, true], mode := .calibrate, alive := some 15 } [(Reg.FE_SNAP_CAL_STAT, 0, 2)])
    let p : Port := 5
    let alive : BitVec 4 := 1
    let f := s.dev.fe p
    (f.hears = true) ∧ (∀ (l : ℕ), f.alive = some l → 1 ≤ (alive.toNat + 16 - l) % 16 ∧ (alive.toNat + 16 - l) % 16 ≤ 7)) := by
  decide +kernel

theorem witness_TriggersFreezeArmedSamplers :
    (
    let s : State := st (withFe (dev 5040 [] .snapshot) { power := .running, mode := .snapshot, regions := [(0, { level := 3 })], chans := [(0, { high := true, st := .pulse, edgeTick := 40000 })] } [(Reg.FE_RG_SNAP, 0, 2 ^ 30), (Reg.SNAP_PW_WIDTH, 0, 10), (Reg.SNAP_PW_DELAY, 0, 15)])
    let p : Port := 5
    let c : ChanNo := 0
    let f := s.dev.fe p
    let w := s.dev.snapWord p (regionOf ↑c)
    let edge := (f.chan ↑c).edgeTick + s.dev.ap p Reg.SNAP_PW_WIDTH + 1
    (f.runs = true) ∧ ((f.chan ↑c).high = true) ∧ ((f.chan ↑c).pwDone = false) ∧ (bit w 30 = true) ∧ (s.dev.masked p ↑c = false) ∧ ((f.region (regionOf ↑c)).senses = true) ∧ (edge ≤ 8 * s.dev.now + 7)) ∧ (
    let s : State := st (withFe (dev 5040 [] .snapshot) { power := .running, mode := .snapshot, eventNo := 255, freezes := [{ inst := 201605, source := 1, regions := 3, samplers := 15 }], samplers := [(0, { st := .armed, armedAt := 200000, word := 2 ^ 21 }), (1, { st := .frozen })] } [(Reg.FE_RG_SNAP, 0, 2 ^ 21)])
    let p : Port := 5
    let z : Freeze := { inst := 201605, source := 1, regions := 3, samplers := 15 }
    let f := s.dev.fe p
    (f.runs = true) ∧ (s.dev.fget p Reg.FE_SNAP_CAL_STAT ≠ 1) ∧ (leastBy Freeze.inst f.freezes = some z) ∧ (z.inst ≤ 40 * s.dev.now + 39)) := by
  refine ⟨?_, ?_⟩ <;> decide +kernel

theorem witness_SnapshotsConvertedSentAndCalibrated :
    (
    let s : State := st (withFe (dev 600) { runFe with snapCal := 1, calDoneAt := 5 } [(Reg.FE_SNAP_CAL_STAT, 0, 1)])
    let p : Port := 5
    ((s.dev.fe p).runs = true) ∧ (s.dev.fget p Reg.FE_SNAP_CAL_STAT = 1) ∧ ((s.dev.fe p).calDoneAt ≤ s.dev.now)) ∧ (
    let s : State := st (withFe (dev 5040 [] .calibrate) { power := .running, calLeft := 3, calNext := 5038, regions := [(2, { level := 3 })], samplers := [(9, { st := .armed, armedAt := 5 })] } [(Reg.FE_SNAP_CAL_STAT, 0, 1)])
    let p : Port := 5
    let f := s.dev.fe p
    (f.runs = true) ∧ (s.dev.fget p Reg.FE_SNAP_CAL_STAT = 1) ∧ (0 < f.calLeft) ∧ (f.calNext ≤ s.dev.now) ∧ (∀ z ∈ f.freezes, 40 * f.calNext ≤ z.inst)) ∧ (
    let s : State := st (withFe (dev 5040 [] .calibrate) { power := .running, snapCal := 1, zeroSums := [(9 * 128 + 1, 500)], samplers := [(9, { st := .frozen, forCal := true, frozenAt := 40 * 4928 + 39 })] } [(Reg.FE_RG_SNAP, 2, 2 ^ 22)])
    let p : Port := 5
    let e : Fin 1024 := 9
    let f := s.dev.fe p
    let sm := f.sampler ↑e
    (sm.st = SampSt.frozen) ∧ (sm.forCal = true) ∧ (sm.frozenAt + 40 * 112 ≤ 40 * s.dev.now + 39)) ∧ (
    let s : State := st (withFe (dev 5040 [] .calibrate) { power := .running, snapCal := 1, calDoneAt := 5040 } [(Reg.FE_SNAP_CAL_STAT, 0, 1)])
    let p : Port := 5
    let f := s.dev.fe p
    (f.runs = true) ∧ (s.dev.fget p Reg.FE_SNAP_CAL_STAT = 1) ∧ (f.calDoneAt ≤ s.dev.now) ∧ (f.calLeft = 0) ∧ (∀ x ∈ f.samplers, x.2.forCal = true → x.2.st ≠ SampSt.frozen)) ∧ (
    let s : State := st (withFe (dev 5040 [] .calibrate) { power := .running, coefs := [(9 * 128 + 5, 3705 * 65536 + 17074)] })
    let p : Port := 5
    ((s.dev.fe p).runs = true)) ∧ (
    let s : State := st (withFe (dev 5040 [] .snapshot) { power := .running, samplers := [(9, { st := .frozen, frozenAt := 40 * 4928 + 39 })] })
    let p : Port := 5
    let e : Fin 1024 := 9
    let sm := (s.dev.fe p).sampler ↑e
    (sm.st = SampSt.frozen) ∧ (sm.forCal = false) ∧ (sm.frozenAt + 40 * 112 ≤ 40 * s.dev.now + 39)) ∧ (
    let s : State := st (withFe (dev 5040 [] .snapshot) { power := .running, samplers := [(9, { st := .converted, frozenAt := 40 * 4928 + 39, info := some { event := 1, source := 0, input := 0, raw := true, inst := 40 * 4928 + 39, frame := 4864, frameIdx := 19, cycLo := 0, phase := 0, settling := false, valid := 128, missed := 0, dead := 0, lostBefore := false } })] } [(Reg.FE_RG_SNAP, 2, 2 ^ 22)])
    let p : Port := 5
    let e : Fin 1024 := 9
    let i : SnapInfo := { event := 1, source := 0, input := 0, raw := true, inst := 40 * 4928 + 39, frame := 4864, frameIdx := 19, cycLo := 0, phase := 0, settling := false, valid := 128, missed := 0, dead := 0, lostBefore := false }
    let f := s.dev.fe p
    let sm := f.sampler ↑e
    let waiting := List.filter (fun x => x.1 / 4 % 16 == ↑e / 4 % 16 && x.2.st == SampSt.converted) f.samplers
    let ready := max (sm.frozenAt + 40 * 112) (f.busFree.toList.getD (↑e / 4 % 16) 0)
    (f.runs = true) ∧ (sm.info = some i) ∧ (Option.map Prod.fst (leastBy (fun x => x.2.frozenAt * 1024 + x.1) waiting) = some ↑e) ∧ (f.snapQueue.length < 64) ∧ (ready ≤ 40 * s.dev.now + 39)) ∧ (
    let s : State := st (withFe (withPort (dev 5040 [] .snapshot) { uls := Vector.replicate 5 { up := true } }) { power := .running, lanes := Vector.replicate 4 { credit := 1 }, snapQueue := [{ region := 3, sampler := 1, frame := 0, frameIdx := 7, cycLo := 0, descriptor := 77, samples := [5], ready := 0 }] })
    let p : Port := 5
    let l : Lane := 0
    let i : SnapItem := { region := 3, sampler := 1, frame := 0, frameIdx := 7, cycLo := 0, descriptor := 77, samples := [5], ready := 0 }
    let rest : List SnapItem := []
    let f := s.dev.fe p
    let ln := f.lanes[↑l]
    (f.runs = true) ∧ (f.snapQueue = i :: rest) ∧ (f.snapLane s.dev.now = some l) ∧ (i.ready ≤ s.dev.now) ∧ (ln.queue = [] ∨ s.dev.ap p Reg.SNAP_SHARE ≤ ln.sinceSnap + 1) ∧ (s.dev.laneReady p ↑l = true) ∧ (s.dev.fget p Reg.FE_SNAP_CAL_STAT ≠ 1)) := by
  refine ⟨?_, ?_, ?_, ?_, ?_, ?_, ?_, ?_⟩ <;> decide +kernel

theorem witness_LineCodeReadsBack :
    (
    let run : ℕ := 23
    (run < 24)) ∧ (
    let key : ℕ := 43
    let tx : Tx := { count := 5, run := 3, last := true, scr := scrAfter 512 (laneSeed 43) }
    let at_ : LinePlace := { index := 5, last := true, run := 3 }
    (tx.count = ↑at_.index) ∧ (tx.count ≠ 0) ∧ (tx.run = ↑at_.run) ∧ (tx.last = at_.last) ∧ (tx.run < 24) ∧ (tx.scr = scrAfter (128 * (tx.count - 1)) (laneSeed key))) ∧ (
    let kind : ℕ := 0
    let lane : ℕ := 2
    let seq : ℕ := 5
    let frame : ℕ := 6
    let cyc : ℕ := 7
    let bs : Bytes := [1,2,3,4,5,6,7,8,9,10,11,12,13,14,15,16,17]
    let between : List Block := [idleBlock, nakBlock 1 2]
    (kind < 4) ∧ (lane < 8) ∧ (seq < 4096) ∧ (frame < 4096) ∧ (cyc < 256) ∧ (bs ≠ []) ∧ (List.length bs ≤ 1008) ∧ (∀ b ∈ between, isCtl b = true ∧ blockType b ∈ insertable)) := by
  refine ⟨?_, ?_, ?_⟩ <;> decide +kernel

theorem witness_LinksLockTrainAndFail :
    (
    let headers : List (BitVec 2) := good64
    (headers.length = 64) ∧ (headers.all headerOk = true)) ∧ (
    let s : State := st ((withFe (withPort (dev 5000) { dls := #v[{ absent := true, attempt := 8 }, {}] }) { power := .lowPower }).set Reg.WP_STATE 5 4)
    let p : Port := 5
    let headers : List (BitVec 2) := good64
    (headers.length = 64) ∧ (headers.all headerOk = true) ∧ ((s.dev.fe p).power ≠ FePower.powerOn)) ∧ (
    let s : State := st ((withPort (dev 5000) { upPort with uls := (Vector.replicate 5 upLk).set 2 { up := true, lock := true, losses := [4000, 4100, 4200, 4300] } }).set Reg.WL_LANE_FAIL 0 4)
    let p : Port := 5
    let l : PhysLane := 2
    let window : List (Option (BitVec 2)) := bad64
    let u := (s.dev.port p).ul ↑l
    (u.lock = true) ∧ (window.length = 64) ∧ (16 ≤ (List.filter badHeader window).length)) ∧ (
    let s : State := st (withFe (withPort (dev 5000) upPort) runFe)
    let p : Port := 5
    let dl : Fin 2 := 0
    let window : List (Option (BitVec 2)) := bad64
    ((s.dev.fe p).dlLock[↑dl] = true) ∧ (window.length = 64) ∧ (16 ≤ (List.filter badHeader window).length)) ∧ (
    let s : State := st (withPort (dev 5000) { upPort with uls := (Vector.replicate 5 upLk).set 2 { lock := true, training := true, reports := 63, attemptAt := 4990 } })
    let p : Port := 5
    let l : PhysLane := 2
    let c := s.dev.port p
    let u := c.ul ↑l
    (u.lock = true) ∧ (u.training = true) ∧ (u.ready = false)) ∧ (
    let s : State := st (withFe (withPort (dev 5000) { upPort with uls := (Vector.replicate 5 upLk).set 2 {} }) runFe)
    let p : Port := 5
    let dl : Fin 2 := 0
    let f := s.dev.fe p
    (f.runs = true) ∧ (f.dlLock[↑dl] = true)) ∧ (
    let s : State := st ((withPort (dev 5000) { dls := #v[{}, {}] }).set Reg.WP_STATE 5 1)
    let p : Port := 5
    let dl : Fin 2 := 0
    let c := s.dev.port p
    let l := c.dl ↑dl
    (s.dev.get Reg.WP_EN ↑p ≠ 0) ∧ (s.dev.get Reg.WP_STATE ↑p = 1) ∧ (c.trainDl = ↑dl) ∧ (l.training = false) ∧ (l.up = false) ∧ (l.absent = false) ∧ (l.attempt < 8)) ∧ (
    let s : State := st ((withPort (dev 500000) { dls := #v[{ training := true, attempt := 8, attemptAt := 250000 }, {}], uls := (Vector.replicate 5 {}).set 2 { training := true, attempt := 3, attemptAt := 250000 } }).set Reg.WP_STATE 5 1)
    let p : Port := 5
    let c := s.dev.port p
    let ended := fun l => l.training = true ∧ l.up = false ∧ l.attemptAt + s.dev.ms 2 ≤ s.dev.now
    (c.everUp = false) ∧ (c.trainDl = 0) ∧ (ended (c.dl 0)) ∧ ((c.dl 0).attempt = 8) ∧ (¬ended (c.dl 1))) := by
  refine ⟨?_, ?_, ?_, ?_, ?_, ?_, ?_, ?_⟩ <;> decide +kernel

theorem witness_SyncBringsLanesUp :
    (
    let s : State := st (withFe (withPort (dev 5000) upPort) { runFe with spareFor := some (2, 4), laneMap := setMap 0x688 2 7, dlLostAt := some 5 })
    let p : Port := 5
    let dl : Fin 2 := 0
    let f := s.dev.fe p
    (f.runs = true) ∧ (f.dlLock[↑dl] = true)) ∧ (
    let s : State := st ((withPort (dev 5000) { upPort with uls := (Vector.replicate 5 upLk).set 2 { ready := true, lock := true } }).set Reg.WP_STATE 5 1)
    let p : Port := 5
    let phys : PhysLane := 2
    let c := s.dev.port p
    ((c.ul ↑phys).ready = true) ∧ (c.trainDl < 2) ∧ ((c.dl c.trainDl).up = true ∨ 8 ≤ c.trainMeas)) ∧ (
    let s : State := st (withFe (withPort (dev 5000) { upPort with uls := (Vector.replicate 5 upLk).set 2 { ready := true, lock := true } }) runFe)
    let p : Port := 5
    let dl : Fin 2 := 0
    ((s.dev.fe p).runs = true) ∧ ((s.dev.fe p).dlLock[↑dl] = true)) ∧ (
    let s : State := st ((withPort (dev 12500000) { }).set Reg.WP_STATE 5 4)
    let p : Port := 5
    let c := s.dev.port p
    (s.dev.get Reg.WP_EN ↑p ≠ 0) ∧ (c.beaconAt + s.dev.ms 100 ≤ s.dev.now) ∧ (s.dev.get Reg.WP_STATE ↑p ∈ [1, 2, 3, 4])) := by
  refine ⟨?_, ?_, ?_, ?_⟩ <;> decide +kernel

theorem witness_PacketsAcceptedInOrder :
    (
    let s : State := st (withPort (dev 5000) upPort)
    let p : Port := 5
    let l : Lane := 2
    let blocks : List Block := packetBlocks 0 2 0 6 7 [1,2,3,4,5,6,7]
    let k : PacketIn := pkt 0 2 0 [1,2,3,4,5,6,7]
    let c := s.dev.port p
    (readPacket blocks = some k) ∧ (k.lane = ↑l) ∧ ((c.ul (mapOf (s.dev.laneMap p) ↑l)).up = true)) ∧ (
    let s : State := st (withPort (dev 5000 [] .stream) upPort)
    let p : Port := 5
    let l : Lane := 2
    let c := s.dev.port p
    let ln := c.lanes[↑l]
    (s.dev.portUp p = true) ∧ ((c.ul (mapOf (s.dev.laneMap p) ↑l)).up = true) ∧ (ln.outstanding < 128) ∧ (s.dev.creditOk p = true)) ∧ (
    let s : State := st (withPort (dev 5000 [] .stream) { upPort with linkstatAt := 4990, lanes := Vector.replicate 4 { statOwed := true } })
    let p : Port := 5
    (s.dev.portUp p = true) ∧ ((∃ l : Lane, (s.dev.port p).lanes[l].statOwed = true) ∧ s.dev.linkFree p LinkKind.stat = true ∨ s.dev.statOverdue p = true)) := by
  refine ⟨?_, ?_, ?_⟩ <;> decide +kernel

theorem witness_ReplayUntilAcknowledged :
    (
    let s : State := st (withFe (dev 5000) { runFe with responses := [[1]], lanes := Vector.replicate 4 { replay := [rp 5 1, rp 6 1] } })
    let p : Port := 5
    ((s.dev.fe p).hears = true)) ∧ (
    let s : State := st (withFe (dev 5000) { runFe with lanes := Vector.replicate 4 { replay := [rp 5 1, rp 6 1, rp 7 2] } })
    let p : Port := 5
    let l : Lane := 1
    let seq : BitVec 12 := 6
    let i : ℕ := 1
    ((s.dev.fe p).hears = true) ∧ ((s.dev.fe p).lanes[↑l].placeOf seq.toNat = some i)) ∧ (
    let s : State := st (withFe (dev 5000) { runFe with lanes := Vector.replicate 4 { replay := [rp 5 1, rp 6 1, rp 7 2] } })
    let p : Port := 5
    let l : Lane := 1
    let k : RPacket := rp 5 1
    let rest : List RPacket := [rp 6 1, rp 7 2]
    ((s.dev.fe p).lanes[↑l].replay = k :: rest) ∧ (k.lastTx + s.dev.toldOf p Reg.WL_ACK_TIMEOUT ≤ s.dev.now)) := by
  refine ⟨?_, ?_, ?_⟩ <;> decide +kernel

theorem witness_DelayMeasuredAndGridLoaded :
    (
    let s : State := st (withPort (dev 50000) { upPort with linkstatAt := 49990 })
    let p : Port := 5
    let dl : ℕ := 0
    let c := s.dev.port p
    (s.dev.probeDue p = some dl) ∧ (dl ≠ c.activeDl ∨ s.dev.linkFree p LinkKind.delayReq = true)) ∧ (
    let s : State := st (withFe (dev 50000) runFe)
    let p : Port := 5
    let dl : Fin 2 := 0
    let f := s.dev.fe p
    (f.runs = true) ∧ (f.dlLock[↑dl] = true)) ∧ (
    let s : State := st (withPort (dev 50000 [(Reg.WP_ASYM, 5, 2 ^ 32 - 72), (Reg.WL_DLY_FILT, 0, 0)]) { upPort with probe := some { dl := 0, id := 9, at_ := 49990, t1 := 1000 } })
    let p : Port := 5
    let id : BitVec 8 := 9
    let k : Probe := { dl := 0, id := 9, at_ := 49990, t1 := 1000 }
    let c := s.dev.port p
    (c.probe = some k) ∧ (k.id = id.toNat) ∧ (s.dev.now ≤ k.at_ + 1024)) ∧ (
    let s : State := st (withFe (dev 50000) runFe)
    let p : Port := 5
    let dl : Fin 2 := 0
    ((s.dev.fe p).runs = true) ∧ ((s.dev.fe p).dlLock[↑dl] = true)) ∧ (
    let s : State := st (dev 50000 [] .calibrate)
    let w : Sys2Proof.Writer := .core
    let e : BitVec 16 := 5
    let val : Bytes := [1]
    (s.dev.Admits w Reg.WP_DLY_CAL e.toNat val)) := by
  refine ⟨?_, ?_, ?_, ?_, ?_⟩ <;> first | decide +kernel | (unfold Dev.Admits; decide +kernel)

theorem witness_DownlinksFailOverAndReturn :
    (
    let s : State := st (withFe (dev 5000000) { runFe with dlLock := #v[false, false], dlLostAt := some 1000 })
    let p : Port := 5
    let t : ℕ := 1000
    ((s.dev.fe p).dlLostAt = some t) ∧ ((s.dev.fe p).runs = true) ∧ (∀ (dl : Fin 2), (s.dev.fe p).dlLock[↑dl] = false) ∧ (t + s.dev.ms 20 ≤ s.dev.now)) ∧ (
    let s : State := st (withFe (withPort { dev 1300000000 with grid := { cycleStart := 1300000000 } } { upPort with activeDl := 1, dls := #v[upLk, upLk] }) { runFe with activeDl := 1, dlLock := #v[true, true] })
    let p : Port := 5
    ((s.dev.port p).activeDl = 1) ∧ (((s.dev.port p).dl 0).up = true) ∧ (((s.dev.port p).dl 0).cleanFrom + s.dev.ms 10000 ≤ s.dev.now)) ∧ (
    let s : State := st (withFe (withPort { dev 1300000000 with grid := { cycleStart := 1300000000 } } { upPort with dlSwapAt := some 4096, dls := #v[upLk, upLk] }) { runFe with dlLock := #v[true, true] })
    let p : Port := 5
    let t : ℕ := 4096
    ((s.dev.port p).dlSwapAt = some t) ∧ ((s.dev.port p).activeDl < 2) ∧ (((s.dev.port p).dl (1 - (s.dev.port p).activeDl)).up = true)) ∧ (
    let s : State := st (withPort (dev 5000) upPort)
    let w : Sys2Proof.Writer := .core
    let p : Port := 5
    let val : Bytes := [1]
    (s.dev.Admits w Reg.WP_DL_SWAP (↑p) val)) ∧ (
    let s : State := st (withPort (dev 5000) upPort)
    let w : Sys2Proof.Writer := .core
    let p : Port := 5
    let val : Bytes := [2]
    (s.dev.Admits w Reg.WP_LANE_SWAP (↑p) val)) ∧ (
    let s : State := st ((withPort (dev 5000) { }).set Reg.WP_STATE 5 5)
    let w : Sys2Proof.Writer := .core
    let p : Port := 5
    let val : Bytes := [1]
    (s.dev.Admits w Reg.WP_RELEASE (↑p) val)) := by
  refine ⟨?_, ?_, ?_, ?_, ?_, ?_⟩ <;> first | decide +kernel | (unfold Dev.Admits; decide +kernel)

theorem witness_ConfigurationMessagesExecuted :
    (
    let s : State := st (withFe (dev 5000) runFe)
    let p : Port := 5
    let dl : Fin 2 := 0
    let blocks : List Block := packetBlocks 2 7 0 0 0 [1,2,3]
    let k : PacketIn := { kind := 2, lane := 7, seq := 0, frame := 0, cyc := 0, bytes := some [1,2,3] }
    ((s.dev.fe p).hears = true) ∧ ((s.dev.fe p).activeDl = ↑dl) ∧ (readPacket blocks = some k) ∧ (k.kind = 2) ∧ (k.bytes.bind readConfig = none)) ∧ (
    let s : State := st (withFe (dev 5000) { runFe with mode := .configure })
    let p : Port := 5
    let dl : Fin 2 := 0
    let blocks : List Block := packetBlocks 2 7 0 0 0 (configBytes 1 3 (Reg.FE_CH_ANA / 256) (Reg.FE_CH_ANA % 256) 9 [1, 0x80])
    let m : ConfigIn := { type := 1, alive := 3, addr := Reg.FE_CH_ANA, elem := 9, value := [1, 0x80] }
    let r : ObjRow := ⟨Reg.FE_CH_ANA, .u16, .rw, 4096, 256, 0, 511⟩
    ((fun s p dl blocks type m =>
    ((s.dev.fe p).hears = true ∧ (s.dev.fe p).activeDl = ↑dl) ∧
      (∃ k, readPacket blocks = some k ∧ k.kind = 2 ∧ k.bytes.bind readConfig = some m) ∧
        m.type = type ∧ ∀ l ∈ (s.dev.fe p).alive, 1 ≤ (m.alive + 16 - l) % 16 ∧ (m.alive + 16 - l) % 16 ≤ 7)
      s p dl blocks 1 m) ∧ (m.addr ∈ feSettings) ∧ (objRow m.addr = some r) ∧ (m.elem < r.elems) ∧ (valueCheck r m.value = none) ∧ (s.dev.feCondition p m.addr m.elem (beNat m.value) = none)) ∧ (
    let s : State := st (withFe (withPort (dev 5000) upPort) { runFe with mode := .configure })
    let p : Port := 5
    let dl : Fin 2 := 0
    let blocks : List Block := packetBlocks 2 7 0 0 0 (configBytes 2 3 (Reg.FE_CH_ANA / 256) (Reg.FE_CH_ANA % 256) 9 [])
    let m : ConfigIn := { type := 2, alive := 3, addr := Reg.FE_CH_ANA, elem := 9, value := [] }
    let v : Bytes := [1, 0]
    ((fun s p dl blocks type m =>
    ((s.dev.fe p).hears = true ∧ (s.dev.fe p).activeDl = ↑dl) ∧
      (∃ k, readPacket blocks = some k ∧ k.kind = 2 ∧ k.bytes.bind readConfig = some m) ∧
        m.type = type ∧ ∀ l ∈ (s.dev.fe p).alive, 1 ≤ (m.alive + 16 - l) % 16 ∧ (m.alive + 16 - l) % 16 ≤ 7)
      s p dl blocks 2 m) ∧ ((s.dev.settleFor p m.addr m.elem).feRead p m.addr m.elem = Except.ok v) ∧ ((s.dev.fe p).responses = []) ∧ (s.dev.laneOpen p 0 = true) ∧ ((s.dev.fe p).lanes[0].replay.length < 64) ∧ (∀ k ∈ (s.dev.fe p).lanes[0].replay, k.kind ≠ 3)) ∧ (
    let s : State := st (withFe (dev 5000) { runFe with mode := .configure })
    let p : Port := 5
    let dl : Fin 2 := 0
    let blocks : List Block := packetBlocks 2 7 0 0 0 (configBytes 3 3 0 0 63 [5, 0, 15, 0, 0, 0, 3])
    let m : ConfigIn := { type := 3, alive := 3, addr := 0, elem := 63, value := [5, 0, 15, 0, 0, 0, 3] }
    ((fun s p dl blocks type m =>
    ((s.dev.fe p).hears = true ∧ (s.dev.fe p).activeDl = ↑dl) ∧
      (∃ k, readPacket blocks = some k ∧ k.kind = 2 ∧ k.bytes.bind readConfig = some m) ∧
        m.type = type ∧ ∀ l ∈ (s.dev.fe p).alive, 1 ≤ (m.alive + 16 - l) % 16 ∧ (m.alive + 16 - l) % 16 ≤ 7)
      s p dl blocks 3 m)) ∧ (
    let s : State := st (withPort (dev 5000) upPort)
    let p : Port := 5
    let rx : Rx := .up 3
    let at_ : LinePlace := { index := 5, last := false, run := 3 }
    let line : List Bool := bitsMsb 2 2 ++ (scramble (bitsMsb 128 (trainBlock 3 true 1 true 1).payload.toNat.succ) (scrAfter 512 (laneSeed 43))).1
    let b : Block := { (trainBlock 3 true 1 true 1) with payload := (trainBlock 3 true 1 true 1).payload + 1 }
    let stuffing : Bool := false
    let test := s.dev.mode == Mode.loopback && s.dev.get Reg.WP_STATE ↑p == 6
    (readBlock (rxKey (↑p) rx) test at_ line = some (b, stuffing))) := by
  refine ⟨?_, ?_, ?_, ?_, ?_⟩ <;> decide +kernel

theorem witness_ConfigurationOutcomesKnownOrResolved :
    (
    let s : State := st (withPort (dev 200000) { quiet 199990 with cfg := some (cm 1 (.request .core)) })
    let p : Port := 5
    let m : CfgMsg := cm 1 (.request .core)
    ((s.dev.port p).cfg = some m) ∧ (m.lastTx + s.dev.ms 1 ≤ s.dev.now) ∧ (s.dev.now < m.firstTx + s.dev.ms 20) ∧ (s.dev.linkFree p LinkKind.config = true)) ∧ (
    let s : State := st (withPort (dev 2600000) { upPort with cfg := some (cm 1 (.request .core)) })
    let p : Port := 5
    let m : CfgMsg := cm 1 (.request .core)
    let w : Sys2Proof.Writer := .core
    ((s.dev.port p).cfg = some m) ∧ (m.firstTx + s.dev.ms 20 ≤ s.dev.now) ∧ (m.why = CfgWhy.request w)) ∧ (
    let s : State := st (withPort (dev 2600000) { upPort with cfg := some (cm 1 .rewrite) })
    let p : Port := 5
    let m : CfgMsg := cm 1 .rewrite
    ((s.dev.port p).cfg = some m) ∧ (m.firstTx + s.dev.ms 20 ≤ s.dev.now) ∧ (m.why ∈ [CfgWhy.rewrite, CfgWhy.cycleLen, CfgWhy.mirror (s.dev.port p).mirrorNo, CfgWhy.askPrev, CfgWhy.readBack])) ∧ (
    let s : State := st (withPort (dev 2600000) { upPort with cfg := some (cm 1 (.chunk .core)), cfgWaiting := [cm 1 (.request .core), cm 1 .rewrite] })
    let p : Port := 5
    let m : CfgMsg := cm 1 (.chunk .core)
    let w : Sys2Proof.Writer := .core
    ((s.dev.port p).cfg = some m) ∧ (m.firstTx + s.dev.ms 20 ≤ s.dev.now) ∧ (m.why = CfgWhy.chunk w)) ∧ (
    let s : State := st (withPort (dev 200000) { upPort with cfg := some { cm 1 (.request .core) with index := Reg.FE_CH_ANA / 256, sub := Reg.FE_CH_ANA % 256 } })
    let p : Port := 5
    let m : CfgMsg := { cm 1 (.request .core) with index := Reg.FE_CH_ANA / 256, sub := Reg.FE_CH_ANA % 256 }
    let w : Sys2Proof.Writer := .core
    let status : BitVec 8 := 0
    ((s.dev.port p).cfg = some m) ∧ (m.why = CfgWhy.request w) ∧ (m.type = 1) ∧ (m.alive < 16) ∧ (status ≠ 1)) ∧ (
    let s : State := st (withPort (dev 2600000) { quiet 2599990 with unresolved := some (cm 1 (.request .core)) })
    let p : Port := 5
    let u : CfgMsg := cm 1 (.request .core)
    let c := s.dev.port p
    (c.unresolved = some u) ∧ (s.dev.portUp p = true) ∧ (c.resolved = none) ∧ (c.cfg = none) ∧ (max c.upAt u.firstTx + s.dev.ms 1 ≤ s.dev.now) ∧ (∀ m ∈ c.cfgWaiting, m.why ≠ CfgWhy.askPrev) ∧ (s.dev.linkFree p LinkKind.config = true)) := by
  refine ⟨?_, ?_, ?_, ?_, ?_, ?_⟩ <;> decide +kernel

theorem witness_FestatReportsAndGoesStale :
    (
    let s : State := st (withFe (dev 5000) { runFe with executed := 70000 })
    let p : Port := 5
    let f := s.dev.fe p
    (f.runs = true) ∧ (f.festatAt + 1024 ≤ s.dev.now)) ∧ (
    let s : State := st (withFe (dev 5000) { runFe with wakePending := 5, wakeSentAt := some 4992 })
    let p : Port := 5
    let f := s.dev.fe p
    (f.runs = true) ∧ (f.wakePending ≠ 0) ∧ (∀ t ∈ f.wakeSentAt, t + 8 ≤ s.dev.now)) ∧ (
    let s : State := st (withFe (dev 5000) { runFe with wakeSetAt := [(3, 4745)] })
    let p : Port := 5
    let g : Fin 16 := 3
    let t := tblRead (fun x => 0) (s.dev.fe p).wakeSetAt ↑g
    (t ≠ 0) ∧ (t + 255 ≤ s.dev.now)) ∧ (
    let s : State := st (withPort (dev 5000) upPort)
    let p : Port := 5
    (s.dev.portUp p = true)) ∧ (
    let s : State := st (withPort (dev 5000) upPort)
    let p : Port := 5
    (s.dev.portUp p = true) ∧ ((s.dev.port p).staleFrom = none) ∧ (max (s.dev.port p).festatAt (s.dev.port p).upAt + 4096 ≤ s.dev.now)) ∧ (
    let s : State := st (withPort (dev 500000000) { upPort with staleFrom := some 5 })
    let p : Port := 5
    let t : ℕ := 5
    ((s.dev.port p).staleFrom = some t) ∧ (t + s.dev.ms (s.dev.get Reg.GV_STEEP) < s.dev.now) ∧ (s.dev.gov.staleCritical[↑p] = false) ∧ (s.dev.ledger.buffer.length < 1024)) := by
  refine ⟨?_, ?_, ?_, ?_, ?_, ?_⟩ <;> decide +kernel

theorem witness_TimeSourcesMeasuredAndQualified :
    (
    let s : State := st (tdev 5000 [] tb0)
    let p : Fin 2 := 0
    let head : PtpHead := ph 0
    (s.dev.ptpHears p head = true)) ∧ (
    let s : State := st (tdev 5000 [] { tb0 with ptp := #v[{ src true with syncs := [{ seq := 9, slot := 4000, t2 := 100, corr := 5 }] }, src false] })
    let p : Fin 2 := 0
    let head : PtpHead := ph 0
    let y : PtpSync := { seq := 9, slot := 4000, t2 := 100, corr := 5 }
    let x := s.dev.tb.ptp[↑p]
    (s.dev.ptpHears p head = true) ∧ (x.master = some head.src.toNat) ∧ (x.syncs = [y]) ∧ (y.seq = head.seq.toNat) ∧ (y.t1 = none)) ∧ (
    let s : State := st (tdev 5000 [] tb0)
    let p : Fin 2 := 0
    (s.dev.tu.links[↑p] = true) ∧ (s.dev.tb.ptp[↑p].master.isSome = true) ∧ (s.dev.srcOn ↑p = true)) ∧ (
    let s : State := st (tdev 5000 [] { tb0 with ptp := #v[{ src true with syncs := [{ seq := 10, slot := 4600, t2 := 0, corr := 0 }, { seq := 9, slot := 4000, t2 := 900, corr := 5, t1 := some 100 }], requests := [(10, 2000, 4700), (9, 1000, 4500)] }, src false] })
    let p : Fin 2 := 0
    let head : PtpHead := ph 0
    let y : PtpSync := { seq := 9, slot := 4000, t2 := 900, corr := 5, t1 := some 100 }
    let t1 : ℤ := 100
    let t3 : ℤ := 1000
    let slot : ℕ := 4500
    let x := s.dev.tb.ptp[↑p]
    let ready := fun y => y.t1.isSome && decide (y.slot ≤ slot)
    (s.dev.ptpHears p head = true) ∧ (x.master = some head.src.toNat) ∧ (-7 ≤ head.interval.toInt) ∧ (head.interval.toInt ≤ 0) ∧ (List.find? (fun r => r.1 == head.seq.toNat) x.requests = some (head.seq.toNat, t3, slot)) ∧ (List.filter ready x.syncs = [y]) ∧ (y.t1 = some t1)) ∧ (
    let s : State := st (tdev 5000 [] tb0)
    let p : Fin 2 := 0
    let head : PtpHead := ph 0
    (s.dev.ptpHears p head = true) ∧ (-3 ≤ head.interval.toInt) ∧ (head.interval.toInt ≤ 3)) ∧ (
    let s : State := st (tdev 500000000 [] tb0)
    let p : Fin 2 := 0
    let x := s.dev.tb.ptp[↑p]
    (x.master.isSome = true) ∧ (x.announceAt + 3 * s.dev.logSeconds x.logAnnounce ≤ s.dev.now)) ∧ (
    let s : State := st (tdev 500000000 [] tb0)
    let p : Fin 2 := 0
    let x := s.dev.tb.ptp[↑p]
    (x.qualified = true) ∧ (x.thetaAt + 4 * s.dev.logSeconds x.logSync ≤ s.dev.now)) ∧ (
    let s : State := st (tdev 500000000 [] tb0)
    let p : Fin 2 := 0
    (s.dev.tu.links[↑p] = true)) ∧ (
    let s : State := st (tdev 500000000 [] { tb0 with synce := #v[{ esmcAt := some 5000 }, {}] })
    let p : Fin 2 := 0
    (s.dev.tu.links[↑p] = true)) := by
  refine ⟨?_, ?_, ?_, ?_, ?_, ?_, ?_, ?_, ?_⟩ <;> decide +kernel

theorem witness_StepsAndReferencesApplyAtBoundaries :
    (
    let s : State := st (tdev 7500000000 [] { tb0 with phaseSrc := some 1, ptp := #v[src true, src true] })
    let h : Fin 2 := 0
    let theta : ℤ := -65536
    let t : ℕ := 4000
    let rest : List (ℤ × ℕ) := [(-65536, 3000)]
    let x := s.dev.tb.ptp[↑h]
    (s.dev.get Reg.TB_HOME = ↑h) ∧ (x.qualified = true) ∧ (s.dev.srcOn ↑h = true) ∧ (s.dev.tb.phaseSrc = some (1 - h)) ∧ (x.qualAt + s.dev.get Reg.TB_RETURN_TIME * s.dev.second ≤ s.dev.now) ∧ (x.thetas = (theta, t) :: rest) ∧ (s.dev.refDue = false)) ∧ (
    let s : State := st (withTok (tdev 5000 [] { tb0 with state := .disputed }))
    let w : Sys2Proof.Writer := tok
    let val : Bytes := [1]
    (s.dev.Admits w Reg.TB_ACCEPT_STEP 0 val)) ∧ (
    let s : State := st (tdev 1000000 [] { tb0 with state := .disputed, step := some (.accepted, 1000000), ptp := #v[{ src true with thetas := List.replicate 8 (1795686, 5) }, src true] } { links := #v[true, true] } 1000000)
    let p : Fin 2 := 0
    let t : ℕ := 1000000
    (s.dev.tb.step = some (StepKind.accepted, t)) ∧ (s.dev.tb.phaseSrc = some p) ∧ (t ≤ s.dev.grid.cycleStart) ∧ (s.dev.firstDue = false) ∧ (s.dev.get Reg.TB_FNOM ≠ 0)) ∧ (
    let s : State := st (tdev 1000000 [] { tb0 with timeSet := false, state := .acquiring, step := some (.first, 1000000), ptp := #v[{ src true with thetas := List.replicate 8 (1795686, 5) }, src true] } { links := #v[true, true] } 1000000)
    let p : Fin 2 := 0
    let t : ℕ := 1000000
    (s.dev.tb.step = some (StepKind.first, t)) ∧ (s.dev.tb.phaseSrc = some p) ∧ (t ≤ s.dev.grid.cycleStart) ∧ (s.dev.firstDue = false) ∧ (s.dev.get Reg.TB_FNOM ≠ 0)) ∧ (
    let s : State := st (tdev 1000000 [] { tb0 with timeSet := false, state := .free, step := some (.preset 123456789, 1000000) } { links := #v[true, true] } 1000000)
    let t : ℕ := 1000000
    let r : ℤ := 123456789
    (s.dev.tb.step = some (StepKind.preset r, t)) ∧ (t ≤ s.dev.grid.cycleStart) ∧ (s.dev.firstDue = false) ∧ (s.dev.get Reg.TB_FNOM ≠ 0)) ∧ (
    let s : State := st (withTok (tdev 5000 [] { tb0 with state := .free }))
    let w : Sys2Proof.Writer := tok
    let val : Bytes := List.replicate 12 1
    (s.dev.Admits w Reg.TB_PRESET 0 val)) ∧ (
    let s : State := st (tdev 5000 [] tb0)
    let w : Sys2Proof.Writer := .core
    let val : Bytes := [1]
    (s.dev.Admits w Reg.TB_REF_SEL 0 val)) ∧ (
    let s : State := st (tdev 1000000 [] tb0 { refs := #v[{}, { qualified := true, ppb := 30 }], refPend := some (1, 5) } 1000000)
    let n : ℕ := 1
    let t : ℕ := 5
    (s.dev.tu.refPend = some (n, t)) ∧ (t ≤ s.dev.grid.cycleStart)) := by
  refine ⟨?_, ?_, ?_, ?_, ?_, ?_, ?_, ?_⟩ <;> first | decide +kernel | (unfold Dev.Admits; decide +kernel)

theorem witness_MarkersPulsesSwapsAndStamps :
    (
    let s : State := st (tdev 1000007 [(Reg.TB_CYC_SRC, 0, 1)] { tb0 with cmRun := [4, 4] } {} 1000000)
    (s.dev.get Reg.TB_CYC_SRC ≠ 0)) ∧ (
    let s : State := st (tdev 0 [(Reg.TPO_MODE, 0, 1)] tb0)
    let o : Fin 2 := 0
    let ahead : ℤ := 0
    let n : ℤ := 0
    let sec := 1000000000 * 65536
    let mode := s.dev.get Reg.TPO_MODE ↑o
    ((mode = 1 ∨ mode = 4 ∧ n % ↑(s.dev.get Reg.TPO_N ↑o) = 0) ∧
    ahead = n * sec - s.dev.reading ∧
      0 ≤ ahead ∧
        ahead < sec ∧ n * sec < s.dev.readingAt (s.dev.now + 1) 0 ∧ hasPulsed s.dev.tu.pulsed[↑o] n.toNat = false ∨
      ahead = 0 ∧
    s.dev.tu.pulseAt[↑o] ≠ some s.dev.now ∧
      (mode = 2 ∧ s.dev.now = s.dev.grid.cycleStart ∨ mode = 3 ∧ s.dev.slot % 256 = 0 ∧ s.dev.now < s.dev.cycleEnd))) ∧ (
    let s : State := st (tdev 1000256 [] tb0 {} 1000000)
    let w : Sys2Proof.Writer := .core
    let val : Bytes := [1]
    (s.dev.Admits w Reg.TB_SWAP 0 val)) ∧ (
    let s : State := st (tdev 1000256 [] tb0 { health := #v[0, 3] } 1000000)
    let u : Fin 2 := 1
    (s.dev.tu.health[↑u] = 3) ∧ (s.dev.ledger.buffer.length < 1024)) ∧ (
    let s : State := st (tdev 1000256 [(Reg.TIM_MODE, 2, 2), (Reg.TIM_SLOPE, 2, 1)] tb0 { tim := (Vector.replicate 8 {}).set 2 { pair := some (610, 1407, 5) } })
    let i : Fin 8 := 2
    let signal : TimSignal := .pin 4000 0
    let rising : Bool := false
    let k1 : ℕ := 610
    let k2 : ℕ := 1407
    let aged : Bool := false
    let c := s.dev.tu.tim[↑i]
    let slope := s.dev.get Reg.TIM_SLOPE ↑i
    let slot := s.dev.now - s.dev.get Reg.TIM_FILTER ↑i
    (s.dev.timDirection i signal = some rising) ∧ (s.dev.get Reg.TIM_MODE ↑i ≠ 0) ∧ (slope = 2 ∨ slope = 0 ∧ rising = true ∨ slope = 1 ∧ rising = false) ∧ ((k1, k2, aged) =
      match c.pair with
      | some (a, b, t) => (a, b, decide (t + timPairAge < slot))
      | none => (Config.nominalC1 255, Config.nominalC2 255, true))) ∧ (
    let s : State := st (tdev 1000256 [] tb0)
    let w : Sys2Proof.Writer := .core
    let i : Fin 8 := 2
    let val : Bytes := [1]
    (s.dev.Admits w Reg.TIM_RESTART (↑i) val)) := by
  refine ⟨?_, ?_, ?_, ?_, ?_, ?_⟩ <;> first | decide +kernel | (unfold Dev.Admits; decide +kernel)

theorem witness_BasketsOpenCloseAndRelease :
    (
    let s : State := st (withPort (gdev 600 [(Reg.ROUTE_SPAN, 0, 7)] { next := 2 }) {})
    let frame := s.dev.grid.nextFrame
    let start := s.dev.grid.cycleStart + 256 * frame
    let m := s.dev.merge
    (s.dev.inReset = false) ∧ (start ≤ s.dev.now) ∧ (start < s.dev.cycleEnd) ∧ (s.dev.beforeCommits = false) ∧ (m.commitAt = none) ∧ (m.formatAt = none)) ∧ (
    let s : State := st (withPort (gdev 600 [] { next := 2, baskets := [{ bk 1 with parts := [done4], items := [.hit 5 0 3 100 7 0, .hit 5 0 4 100 7 0] }] }) {})
    let b : Basket := { bk 1 with parts := [done4], items := [.hit 5 0 3 100 7 0, .hit 5 0 4 100 7 0] }
    let done := fun b => b.parts.all fun x => x.missing || x.complete (s.dev.activeMask (Fin.ofNat 32 x.port) b.start)
    (List.find? (fun b => b.st == BasketSt.open_ && decide (b.stop ≤ s.dev.now) && done b) s.dev.merge.baskets = some b) ∧ (∀ x ∈ b.parts, x.port < 32)) ∧ (
    let s : State := st (withPort (gdev 2600 [(Reg.BASKET_TIMEOUT, 0, 8)] { next := 2, late := (Vector.replicate 32 0).set 5 3, baskets := [bk 1] }) {})
    let b : Basket := bk 1
    let due := fun b => b.st == BasketSt.open_ && decide (b.stop + s.dev.get Reg.BASKET_TIMEOUT * 256 ≤ s.dev.now + 1)
    let done := fun x => x.complete (s.dev.activeMask (Fin.ofNat 32 x.port) b.start)
    (List.find? due s.dev.merge.baskets = some b) ∧ (∀ x ∈ b.parts, x.port < 32) ∧ (∃ x ∈ b.parts, x.missing = false ∧ done x = false)) ∧ (
    let s : State := st (withPort (gdev 2600 [(Reg.BE_LINK, 0, 1), (Reg.BE_SRC_IP, 0, 5)] { next := 2, baskets := [{ bk 0 with st := .sending }, { bk 1 with st := .closed }, bk 2] }) {})
    let b : Basket := { bk 1 with st := .closed }
    let o : Fin 8 := 0
    let first := fun b => b.st == BasketSt.open_ || b.st == BasketSt.closed
    let fs := b.frags (b.body (s.dev.get Reg.BE_FW_VER) (s.dev.get Reg.COM_NODE)) (s.dev.get Reg.COM_NODE)
      (s.dev.get Reg.BE_SRC_UDP ↑o) (s.dev.get Reg.BE_MTU) false
    (List.find? first s.dev.merge.baskets = some b) ∧ (b.st = BasketSt.closed) ∧ (b.mode ≠ Mode.gated) ∧ (s.dev.earlierHeld b = false) ∧ (s.dev.egressPort b.route = some o) ∧ ((s.dev.egr o).feed = []) ∧ ((s.dev.egr o).fill + (List.map (fun f => List.length f.payload) fs).headD 0 ≤ 524288)) ∧ (
    let s : State := st (withPort (gdev 2600 [] { next := 2, baskets := [{ bk 1 with st := .closed, mode := .gated, items := [.hit 5 0 3 100 7 0, .other 5 0 4] }] } .gated) {})
    let b : Basket := { bk 1 with st := .closed, mode := .gated, items := [.hit 5 0 3 100 7 0, .other 5 0 4] }
    (List.find? (fun b => b.st == BasketSt.open_ || b.st == BasketSt.closed) s.dev.merge.baskets = some b) ∧ (b.st = BasketSt.closed) ∧ (b.mode = Mode.gated) ∧ (∀ x ∈ s.dev.merge.baskets, x.num = b.num → x = b) ∧ (∀ x ∈ b.parts,
      have k := s.dev.stallOf x.port;
      s.dev.overPitch k = false ∧ s.dev.stored k + 8 * b.items.length ≤ s.dev.effBytes k)) ∧ (
    let s : State := st (withPort (gdev 2600 [(Reg.ST_EFF_CAP, 3, 0)] { next := 2, baskets := [{ bk 1 with st := .closed, mode := .gated, items := [.hit 5 0 3 100 7 0, .other 5 0 4] }] } .gated) {})
    let b : Basket := { bk 1 with st := .closed, mode := .gated, items := [.hit 5 0 3 100 7 0, .other 5 0 4] }
    let x : PortPart := { port := 5, expected := true, missing := false, notUp := false, corr := 0 }
    let k := s.dev.stallOf x.port
    let mine := List.filter (fun i => i.port == x.port) b.items
    (List.find? (fun b => b.st == BasketSt.open_ || b.st == BasketSt.closed) s.dev.merge.baskets = some b) ∧ (b.st = BasketSt.closed) ∧ (b.mode = Mode.gated) ∧ (∀ x ∈ s.dev.merge.baskets, x.num = b.num → x = b) ∧ (b.parts = [x]) ∧ (∀ i ∈ b.items, i.port = x.port) ∧ (k < 64) ∧ (s.dev.overPitch k = true ∨ s.dev.effBytes k < s.dev.stored k + 8 * mine.length)) ∧ (
    let s : State := st (gdev 600 [] { next := 2, baskets := [{ bk 1 with items := [.hit 5 0 3 100 7 0, .hit 6 0 4 100 7 0, .other 5 0 4] }] })
    let n : BitVec 64 := 1
    let b : Basket := { bk 1 with items := [.hit 5 0 3 100 7 0, .hit 6 0 4 100 7 0, .other 5 0 4] }
    (b ∈ s.dev.merge.baskets) ∧ (b.num = n.toNat) ∧ (b.st = BasketSt.open_)) := by
  refine ⟨?_, ?_, ?_, ?_, ?_, ?_, ?_⟩ <;> decide +kernel

theorem witness_RoutesAndFormatsTakeEffect :
    (
    let s : State := st (gdev 600 [] { commitAt := some 5 } .configure)
    let w : Sys2Proof.Writer := .core
    let col : Fin 6 := 3
    let key : BitVec 16 := 9
    let val : Bytes := [1, 2]
    (s.dev.Admits w (Reg.RT_EGRESS + ↑col) key.toNat val) ∧ (s.dev.mode ≠ Mode.boot) ∧ (s.dev.mode = Mode.configure) ∧ (col = 4 → bit (beNat val) 12 = false ∨ 1 ≤ beNat val % 4096 ∧ beNat val % 4096 ≤ 4094)) ∧ (
    let s : State := st (gdev 600 [(Reg.ROUTE_SPAN, 0, 7), (Reg.RT_MAC, 3, 77)] {})
    let w : Sys2Proof.Writer := .core
    let key : BitVec 16 := 3
    let val : Bytes := List.replicate 8 0
    (s.dev.Admits w Reg.RT_MAC key.toNat val) ∧ (s.dev.mode ≠ Mode.boot) ∧ (s.dev.mode ≠ Mode.configure) ∧ (key.toNat < s.dev.get Reg.ROUTE_SPAN) ∧ (key.toNat < 4096) ∧ (beNat val = 0)) ∧ (
    let s : State := st (gdev 600 [] {})
    let w : Sys2Proof.Writer := .core
    let val : Bytes := [1]
    (s.dev.Admits w Reg.ROUTE_COMMIT 0 val)) ∧ (
    let s : State := st (gdev 600 [(Reg.ROUTE_GEN, 0, 65535)] { commitAt := some 500, caches := Vector.replicate 8 [(0, rt)], rewritten := true })
    let t : ℕ := 500
    (s.dev.merge.commitAt = some t)) ∧ (
    let s : State := st (gdev 600 [] {})
    let w : Sys2Proof.Writer := .core
    let val : Bytes := [2]
    (s.dev.Admits w Reg.BE_FMT_PIN 0 val)) ∧ (
    let s : State := st { gdev 2000600 [(Reg.BE_FMT_PIN, 0, 2)] { formatAt := some 5 } with grid := { cycleStart := 1000000 } }
    let t : ℕ := 5
    (s.dev.merge.formatAt = some t)) := by
  refine ⟨?_, ?_, ?_, ?_, ?_, ?_⟩ <;> first | decide +kernel | (unfold Dev.Admits; decide +kernel)

theorem witness_BackEndSendsAndAnswers :
    (
    let s : State := st { gdev 600 [(Reg.BE_LINK, 0, 1), (Reg.BE_SRC_IP, 0, 0x0A000001)] { baskets := [{ bk 1 with st := .sending }], egress := (Vector.replicate 8 {}).set 0 { queue := [frg] } } with net := (Vector.replicate 8 {}).set 0 { ident := 65535 } }
    let b : Fin 8 := 0
    let f : Frag := frg
    let rest : List Frag := []
    let e := s.dev.egr b
    let n := s.dev.netPort b
    (s.dev.carriesIp ↑b = true) ∧ (n.pause = none) ∧ (e.queue = f :: rest)) ∧ (
    let s : State := st (netRegs [(Reg.BE_SRC_MAC, 7), (Reg.BE_SRC_IP, 0x0A000001), (Reg.BE_LINK, 1)])
    let b : Fin 8 := 0
    let dst : BitVec 48 := 0xFFFFFFFFFFFF
    let target : BitVec 32 := 0x0A000001
    let ip := if s.dev.get Reg.BE_SRC_IP ↑b = 0 ∧ b = 0 ∧ s.dev.mode = Mode.safe then 2851995648 + s.dev.get Reg.COM_NODE
    else s.dev.get Reg.BE_SRC_IP ↑b
    (s.dev.get Reg.BE_LINK ↑b = 1) ∧ (ip ≠ 0) ∧ (target.toNat = ip) ∧ (s.dev.forPort b dst = true)) ∧ (
    let s : State := st (netRegs [(Reg.BE_SRC_MAC, 7), (Reg.BE_SRC_IP, 0x0A000001), (Reg.BE_LINK, 1)])
    let b : Fin 8 := 0
    let dst : BitVec 48 := 7
    let target : BitVec 32 := 0x0A000001
    let rest : Bytes := [0, 1, 0, 2, 9, 9, 9]
    let ip := if s.dev.get Reg.BE_SRC_IP ↑b = 0 ∧ b = 0 ∧ s.dev.mode = Mode.safe then 2851995648 + s.dev.get Reg.COM_NODE
    else s.dev.get Reg.BE_SRC_IP ↑b
    (s.dev.get Reg.BE_LINK ↑b = 1) ∧ (ip ≠ 0) ∧ (target.toNat = ip) ∧ (s.dev.forPort b dst = true) ∧ (24 + List.length rest ≤ s.dev.get Reg.BE_MTU)) ∧ (
    let s : State := st { gdev 600 [(Reg.BE_PAUSE, 0, 1), (Reg.BE_LINK, 0, 1)] {} with net := (Vector.replicate 8 {}).set 0 { pause := some (600, 500, 9), held := [[1], [2]] } }
    let b : Fin 8 := 0
    let stop : ℕ := 600
    let start : ℕ := 500
    let quanta : ℕ := 9
    ((s.dev.netPort b).pause = some (stop, start, quanta)) ∧ (stop ≤ s.dev.now)) ∧ (
    let s : State := st (netRegs [(Reg.BE_SRC_MAC, 7), (Reg.BE_LINK, 1)])
    let b : Fin 8 := 0
    let dst : BitVec 48 := 9
    let len : BitVec 16 := 60
    let tagged : Bool := false
    let kind : RxKind := .other
    (s.dev.get Reg.BE_LINK ↑b = 1) ∧ (kind ≠ RxKind.control 1) ∧ (s.dev.forPort b dst = false ∨ (9018 + if tagged = true then 4 else 0) < len.toNat ∨ kindAccepted kind = false)) ∧ (
    let s : State := st (gdev 600 [(Reg.BE_MODE, 0, 1), (Reg.BE_TEST, 0, 1)] {} .loopback)
    let b : Fin 8 := 0
    (s.dev.mode = Mode.loopback) ∧ (s.dev.get Reg.BE_MODE ↑b ≠ 0)) ∧ (
    let s : State := st (gdev 600 [(Reg.BE_LINK, 0, 1)] {})
    let b : Fin 8 := 0
    let errors : BitVec 10 := 7
    (s.dev.mode ≠ Mode.loopback) ∧ (s.dev.get Reg.BE_LINK ↑b = 1) ∧ (errors ≠ 0)) ∧ (
    let s : State := st (gdev 600 [(Reg.SNAP_RING_LOG2, 0, 1)] { ring := [ringE 1, ringE 2], frames := [{ key := 9, reading := 5, rate := 0, status := 0, corrs := [], gated := false }], ringIn := [{ port := 5, frame := 9, cycLo := 0, descriptor := 77, samples := [1, 2] }] })
    let x : SnapIn := { port := 5, frame := 9, cycLo := 0, descriptor := 77, samples := [1, 2] }
    let rest : List SnapIn := []
    let info : FrameInfo := { key := 9, reading := 5, rate := 0, status := 0, corrs := [], gated := false }
    let m := s.dev.merge
    (m.ringIn = x :: rest) ∧ (List.find? (fun f => f.key == s.dev.nearCycle x.cycLo * 4096 + x.frame) m.frames = some info)) ∧ (
    let s : State := st (gdev 60000 [(Reg.BE_LINK, 0, 1), (Reg.BE_SRC_IP, 0, 5)] { ring := [ringE 1, { ringE 2 with ready := false }, ringE 3] })
    let o : Fin 8 := 0
    let first : RingEntry := ringE 1
    let more : List RingEntry := [ringE 3]
    let n := fragSize (s.dev.get Reg.BE_MTU) / 256
    let out := List.take n (first :: more)
    let e := s.dev.egr o
    (List.filter (fun r => r.ready && !r.queued) s.dev.merge.ring = first :: more) ∧ (s.dev.egressPort (s.dev.route (s.dev.get Reg.SNAP_ROUTE)) = some o) ∧ (n ≤ out.length ∨ first.at_ + 1024 ≤ s.dev.now) ∧ (e.feed = []) ∧ (∀ x ∈ s.dev.merge.ring, List.length x.bytes = 256) ∧ (e.fill + 32 + 256 * out.length ≤ 524288)) := by
  refine ⟨?_, ?_, ?_, ?_, ?_, ?_, ?_, ?_, ?_⟩ <;> decide +kernel

theorem witness_TriggersDecideAndReadOut :
    (
    let s : State := st (mdev 600 [(Reg.TRG_PIN_EN, 0, 1), (Reg.TRG_PIN_CNT, 0, 40), (Reg.TRG_WIDTH, 0, 8)] {})
    let i : Fin 2 := 0
    (s.dev.mode = Mode.gated) ∧ (s.dev.get Reg.TRG_PIN_EN ↑i = 1)) ∧ (
    let s : State := st (mdev 70 [(Reg.CAL_EN + 0x300, 3, 1), (Reg.CAL_ACTION + 0x300, 3, 7), (Reg.CAL_SLOT + 0x300, 3, 60), (Reg.CAL_ARG + 0x300, 3, 40)] {})
    let o : CalOcc := occ7
    (s.dev.windowDue = some o) ∧ (o.action = 7)) ∧ (
    let s : State := st (mdev 70 [(Reg.TRG_HOLD_EFF, 0, 4)] { windows := [win1, { win1 with tag := 9, start := 299 }] } [gk 1])
    let b : Basket := gk 1
    (List.find?
    (fun b => b.mode == Mode.gated && (b.st == BasketSt.open_ || b.st == BasketSt.closed || b.st == BasketSt.held))
    s.dev.merge.baskets =
      some b) ∧ (b.st = BasketSt.held) ∧ (s.dev.mode ≠ Mode.configure) ∧ (s.dev.mode ≠ Mode.safe) ∧ (b.num + s.dev.get Reg.TRG_HOLD_EFF + 1 ≤ s.dev.merge.next) ∧ (∀ w ∈ s.dev.mem.windows, -2 ^ 80 ≤ w.start ∧ w.tag < 2 ^ 32)) ∧ (
    let s : State := st (mdev 70 [] { windows := [win1] } [gk 1, gk 2] .safe)
    let b : Basket := gk 1
    (List.find?
    (fun b => b.mode == Mode.gated && (b.st == BasketSt.open_ || b.st == BasketSt.closed || b.st == BasketSt.held))
    s.dev.merge.baskets =
      some b) ∧ (b.st = BasketSt.held) ∧ (s.dev.mode = Mode.configure ∨ s.dev.mode = Mode.safe)) ∧ (
    let s : State := st (mdev 70 [(Reg.BE_LINK, 0, 1), (Reg.BE_SRC_IP, 0, 5), (Reg.TRG_BACKLOG_NOW, 0, 3)] { pauseFrom := some 60 } [{ gk 1 with st := .selected }])
    let bad : List (ReadWord × BadWord) := []
    let b : Basket := { gk 1 with st := .selected }
    let o : Fin 8 := 0
    let lost := List.map Prod.fst (List.filter (fun x => s.dev.losesWord x.2) bad) ++ s.dev.goneWords b
    let fs := b.frags (b.readBody (s.dev.get Reg.BE_FW_VER) (s.dev.get Reg.COM_NODE) lost) (s.dev.get Reg.COM_NODE)
      (s.dev.get Reg.BE_SRC_UDP ↑o) (s.dev.get Reg.BE_MTU) true
    (List.find? (fun b => b.st == BasketSt.selected) s.dev.merge.baskets = some b) ∧ (s.dev.egressPort b.route = some o) ∧ ((s.dev.egr o).feed = []) ∧ ((s.dev.egr o).fill + (List.map (fun f => List.length f.payload) fs).headD 0 ≤ 524288)) := by
  refine ⟨?_, ?_, ?_, ?_, ?_⟩ <;> decide +kernel

theorem witness_MemoryIsScrubbedAndScaled :
    (
    let s : State := st (mdev 70 [(Reg.CAL_EN + 0x300, 3, 1), (Reg.CAL_ACTION + 0x300, 3, 6), (Reg.CAL_SLOT + 0x300, 3, 60), (Reg.CAL_ARG + 0x300, 3, 40)] {})
    let o : CalOcc := occ6
    (s.dev.windowDue = some o) ∧ (o.action = 6)) ∧ (
    let s : State := st (mdev 70 [(Reg.SCR_STATUS, 0, 3)] { scrubUntil := some 70 })
    let t : ℕ := 70
    (s.dev.mem.scrubUntil = some t)) ∧ (
    let s : State := st (mdev 70 [(Reg.MEM_CH_STATE, 1, 2), (Reg.MEM_CH_SIZE, 1, 8192)] scr0)
    let x : BadWord := word1 0 0
    let m := ↑x.chan
    let addr := x.block.toNat * 2 ^ 18 + x.word.toNat
    (s.dev.mode ≠ Mode.safe) ∧ (s.dev.get Reg.MEM_CH_STATE m = 2) ∧ (addr < s.dev.get Reg.MEM_CH_SIZE m * 2 ^ 17) ∧ (s.dev.mem.scrubPos ≤ m * 2 ^ 32 + addr) ∧ (8 * (s.dev.wordsBefore m addr + 1) * s.dev.get Reg.TB_FNOM ≤
      s.dev.mem.scrubPaid + min s.dev.scrubCap (s.dev.get Reg.GV_SCRUB_PERMIT) * 1000 * (s.dev.now - s.dev.mem.scrubAt))) ∧ (
    let s : State := st (mdev 125000000 [(Reg.SCR_STATUS, 0, 1)] {})
    (8 * s.dev.wordsBefore 8 0 * s.dev.get Reg.TB_FNOM ≤
      s.dev.mem.scrubPaid + min s.dev.scrubCap (s.dev.get Reg.GV_SCRUB_PERMIT) * 1000 * (s.dev.now - s.dev.mem.scrubAt))) ∧ (
    let s : State := st (mdev 12500000000000 [] {})
    (s.dev.get Reg.SCR_LAP_LIMIT * s.dev.second < s.dev.now - s.dev.mem.lapFrom) ∧ (bit (s.dev.get Reg.SCR_STATUS) 0 = false) ∧ (s.dev.ledger.buffer.length < 1024)) ∧ (
    let s : State := st (mdev 70 [(Reg.MEM_USABLE, 0, 10000)] {})
    let w : Sys2Proof.Writer := .core
    let bw : Bool := false
    let k : Fin 64 := 5
    let val : Bytes := [0, 0, 0, 4]
    let a := if bw = true then Reg.ST_BW else Reg.ST_CAP
    (s.dev.Admits w a (↑k) val)) ∧ (
    let s : State := st (mdev 70 [(Reg.MEM_CH_STATE, 1, 2), (Reg.MEM_CH_SIZE, 1, 1102)] { scaleAt := some (70, 1) })
    let t : ℕ := 70
    let cause : ℕ := 1
    (s.dev.mem.scaleAt = some (t, cause)) ∧ (t ≤ s.dev.now) ∧ ((fun s => ∀ k < 64, s.dev.get Reg.ST_PRIO k ≤ 8 ∧ s.dev.get Reg.ST_CAP k < 2 ^ 32) s)) ∧ (
    let s : State := st { mdev 2000070 [(Reg.MEM_CH_STATE, 1, 2), (Reg.MEM_CH_SIZE, 1, 8192)] { restoreAt := some 70 } with grid := { cycleStart := 2000000 } }
    let t : ℕ := 70
    (s.dev.mem.restoreAt = some t) ∧ (t ≤ s.dev.grid.cycleStart) ∧ ((fun s => ∀ k < 64, s.dev.get Reg.ST_PRIO k ≤ 8 ∧ s.dev.get Reg.ST_CAP k < 2 ^ 32) s)) ∧ (
    let s : State := st (mdev 70 [(Reg.MEM_CH_STATE, 1, 2), (Reg.MEM_CH_SIZE, 1, 8192)] {})
    let m : Fin 8 := 1
    let cause : Fin 3 := 2
    (s.dev.get Reg.MEM_CH_STATE ↑m = 2) ∧ (cause ≠ 1) ∧ (s.dev.ledger.buffer.length < 1024)) := by
  refine ⟨?_, ?_, ?_, ?_, ?_, ?_, ?_, ?_, ?_⟩ <;> first | decide +kernel | (unfold Dev.Admits; decide +kernel)

theorem witness_DiagnosticModeAndMemoryCode :
    (
    let s : State := st (withTok (mdev 70 [] {} [] .configure))
    let w : Sys2Proof.Writer := tok
    let val : Bytes := [1]
    (s.dev.Admits w Reg.ECC_DIAG_EN 0 val)) ∧ (
    let s : State := st (mdev 70 [(Reg.ECC_DIAG_EN, 0, 1), (Reg.ECC_DIAG_DATA, 0, 77), (Reg.ECC_DIAG_CH, 0, 8)] {})
    let w : Sys2Proof.Writer := .core
    ((fun s w n =>
    s.dev.get Reg.ECC_DIAG_EN = 1 ∧
      s.dev.Admits w Reg.ECC_DIAG_CMD 0 (beBytes 1 n) ∧
        (s.dev.get Reg.ECC_DIAG_CH = 8 → s.dev.get Reg.ECC_DIAG_ADDR ≤ 8191))
      s w 1)) ∧ (
    let s : State := st (mdev 70 [(Reg.ECC_DIAG_EN, 0, 1), (Reg.ECC_DIAG_ADDR, 0, 3), (Reg.MEM_CH_STATE, 0, 2), (Reg.MEM_CH_SIZE, 0, 8192)] { diag := [(3, { data := 55, check := 6, tag := 1 })] })
    let w : Sys2Proof.Writer := .core
    ((fun s w n =>
    s.dev.get Reg.ECC_DIAG_EN = 1 ∧
      s.dev.Admits w Reg.ECC_DIAG_CMD 0 (beBytes 1 n) ∧
        (s.dev.get Reg.ECC_DIAG_CH = 8 → s.dev.get Reg.ECC_DIAG_ADDR ≤ 8191))
      s w 2)) ∧ (
    let s : State := st (mdev 70 [(Reg.ECC_DIAG_EN, 0, 1), (Reg.ECC_DIAG_ADDR, 0, 3), (Reg.MEM_CH_STATE, 0, 2), (Reg.MEM_CH_SIZE, 0, 8192)] { diag := [(3, { data := 3 + 2 ^ 63, check := 0x0C, tag := 3 })] })
    let w : Sys2Proof.Writer := .core
    let i : Fin 64 := 63
    let v : BitVec 64 := 3
    ((fun s w n =>
    s.dev.get Reg.ECC_DIAG_EN = 1 ∧
      s.dev.Admits w Reg.ECC_DIAG_CMD 0 (beBytes 1 n) ∧
        (s.dev.get Reg.ECC_DIAG_CH = 8 → s.dev.get Reg.ECC_DIAG_ADDR ≤ 8191))
      s w 3) ∧ (s.dev.diagReaches = true) ∧ (s.dev.get Reg.ECC_DIAG_CH ≠ 8) ∧ (s.dev.diagWord.tag = addrParity (s.dev.get Reg.ECC_DIAG_ADDR)) ∧ (s.dev.diagWord.check = secdedCheck v.toNat) ∧ (s.dev.diagWord.data = v.toNat ^^^ 2 ^ (i : Nat))) ∧ (
    let s : State := st (mdev 70 [(Reg.ECC_DIAG_EN, 0, 1), (Reg.ECC_DIAG_ADDR, 0, 3), (Reg.MEM_CH_STATE, 0, 2), (Reg.MEM_CH_SIZE, 0, 8192)] { diag := [(3, { data := 3, check := 0x0C, tag := 1 })] })
    let w : Sys2Proof.Writer := .core
    ((fun s w n =>
    s.dev.get Reg.ECC_DIAG_EN = 1 ∧
      s.dev.Admits w Reg.ECC_DIAG_CMD 0 (beBytes 1 n) ∧
        (s.dev.get Reg.ECC_DIAG_CH = 8 → s.dev.get Reg.ECC_DIAG_ADDR ≤ 8191))
      s w 3) ∧ (s.dev.diagReaches = true) ∧ (s.dev.get Reg.ECC_DIAG_CH ≠ 8) ∧ (s.dev.diagWord.tag ≠ addrParity (s.dev.get Reg.ECC_DIAG_ADDR))) := by
  refine ⟨?_, ?_, ?_, ?_, ?_⟩ <;> first | decide +kernel | (unfold Dev.Admits; decide +kernel)

theorem witness_GovernorGrantsGatesAndFences :
    (
    let s : State := st (gv 100 cal4 {})
    let p : Port := 5
    let o : CalOcc := occ4
    let raise : ℕ := 135
    let g : ℕ := 2
    let req := s.dev.windowRequest p g o
    let dur := o.arg % 2 ^ 16
    (s.dev.nextPrecision p = some (o, raise)) ∧ (bitsOf o.groups 16 = [g]) ∧ ((fun s p g req start from_ stop =>
    s.dev.portUp p = true ∧
      s.dev.modePend = none ∧
        s.dev.raisesOf p g = [] ∧
          (s.dev.caddy ↑p).empty = false ∧
            s.dev.dieState p = 0 ∧
              req ≤ s.dev.get Reg.GV_FENCE_MAX (↑p * 16 + g) ∧
                s.dev.restAt p g start < req ∧
                  s.dev.cost p g req (s.dev.stepsOf p g from_ stop) ≤ (s.dev.caddy ↑p).bal - s.dev.committed p)
      s p g req raise o.at_ (o.at_ + dur)) ∧ (raise < o.at_ + dur) ∧ ((s.dev.port p).cmds = [])) ∧ (
    let s : State := st (gv 100 cal4 { staleCritical := (Vector.replicate 32 true) })
    let p : Port := 5
    let o : CalOcc := occ4
    let raise : ℕ := 135
    let g : ℕ := 2
    (s.dev.nextPrecision p = some (o, raise)) ∧ (bitsOf o.groups 16 = [g]) ∧ (s.dev.portUp p = true) ∧ ((s.dev.caddy ↑p).empty = true ∨ s.dev.dieState p = 3)) ∧ (
    let s : State := st (gv 70 [] {})
    let p : Port := 5
    let groups : BitVec 16 := 16
    let g : ℕ := 4
    let start := s.dev.target p
    let hold := s.dev.get Reg.GV_WAKE_HOLD
    (bitsOf groups.toNat 16 = [g]) ∧ (s.dev.mode = Mode.stream ∨ s.dev.mode = Mode.gated) ∧ (s.dev.nextPrecision p = none) ∧ ((fun s p g req start from_ stop =>
    s.dev.portUp p = true ∧
      s.dev.modePend = none ∧
        s.dev.raisesOf p g = [] ∧
          (s.dev.caddy ↑p).empty = false ∧
            s.dev.dieState p = 0 ∧
              req ≤ s.dev.get Reg.GV_FENCE_MAX (↑p * 16 + g) ∧
                s.dev.restAt p g start < req ∧
                  s.dev.cost p g req (s.dev.stepsOf p g from_ stop) ≤ (s.dev.caddy ↑p).bal - s.dev.committed p)
      s p g 3 start start (start + hold))) ∧ (
    let s : State := st (gv 70 [] { raises := [ras 5 70, ras 5 90, ras 6 70, { ras 5 80 with ended := true }, ras 5 2000000] })
    (s.dev.modePend = none)) ∧ (
    let s : State := st (gv 70 [] {})
    let p : Port := 5
    let l : Fin 4 := 1
    (64 ≤ s.dev.slot) ∧ (s.dev.gov.repeatCycle ≠ some s.dev.grid.cycle) ∧ (s.dev.portUp p = true) ∧ ((s.dev.port p).cmds = []) ∧ (∀ g < 16, s.dev.levelAt p g (s.dev.target p) = ↑l)) ∧ (
    let s : State := st (gv 700000000 [] (setDie32 die3))
    let sensors : List (BitVec 16) := List.replicate 11 800 ++ [1200]
    let t : ℕ := 5
    let x := s.dev.gov.dies[32]
    let temp := (fun sensors => List.foldl max (sensors.headD 0).toInt (List.map BitVec.toInt sensors)) sensors
    (sensors.length = 12) ∧ (s.dev.inReset = false) ∧ (x.evalAt + 1024 ≤ s.dev.now) ∧ (∀ (p : Port), (s.dev.port p).staleFrom = none) ∧ (x.state < 3) ∧ (s.dev.threshold 3 ≤ temp) ∧ (x.rise[2] = some t) ∧ (t + s.dev.ms (s.dev.get Reg.GV_STEEP) ≤ s.dev.now) ∧ (x.changes = []) ∧ (1 < s.dev.get Reg.GV_FLAP_N) ∧ (s.dev.ledger.buffer.length < 1024) ∧ ((s.dev.caddy 32).empty = false) ∧ ((s.dev.caddy 34).empty = false)) ∧ (
    let s : State := st (gv 700000000 [(Reg.GV_MEM_THROTTLE, 0, 50)] (setDie32 die3))
    let sensors : List (BitVec 16) := 800 :: List.replicate 11 (BitVec.ofInt 16 (-40))
    let x := s.dev.gov.dies[32]
    let temp := (fun sensors => List.foldl max (sensors.headD 0).toInt (List.map BitVec.toInt sensors)) sensors
    (sensors.length = 12) ∧ (s.dev.inReset = false) ∧ (x.evalAt + 1024 ≤ s.dev.now) ∧ (∀ (p : Port), (s.dev.port p).staleFrom = none) ∧ (x.state = 0) ∧ (temp < s.dev.threshold 1) ∧ (temp < s.dev.threshold 2) ∧ (temp < s.dev.threshold 3) ∧ ((s.dev.caddy 32).empty = false) ∧ ((s.dev.caddy 34).empty = false)) ∧ (
    let s : State := st (gv 700000000 [] (setDie32 { state := 2, hold := some (700000000, 2), fall := some 9 }))
    let i : Fin 33 := 32
    let t : ℕ := 700000000
    let top : ℕ := 2
    let x := s.dev.gov.dies[↑i]
    (x.hold = some (t, top)) ∧ (t ≤ s.dev.now) ∧ (x.changes = []) ∧ (1 < s.dev.get Reg.GV_FLAP_N)) ∧ (
    let s : State := st (gv 7000 [] {})
    (s.dev.inReset = false) ∧ ((s.dev.caddy 32).at_ + 1024 ≤ s.dev.now)) ∧ (
    let s : State := st (withFe (dev 7000 []) { power := .running, regions := [(7, { level := 3, commanded := 3 })] })
    let p : Port := 5
    let mean : BitVec 16 := 1200
    ((s.dev.fe p).runs = true) ∧ ((s.dev.fe p).tripped = false) ∧ (1200 ≤ mean.toInt)) ∧ (
    let s : State := st (withFe (dev 70000000 []) { power := .running, tripped := true, tripFrom := some 5 })
    let p : Port := 5
    let t : ℕ := 5
    ((s.dev.fe p).tripped = true) ∧ ((s.dev.fe p).tripFrom = some t)) ∧ (
    let s : State := st (gv 70 [] {})
    let w : Sys2Proof.Writer := .core
    let e : BitVec 16 := 9
    let val : Bytes := [2]
    (s.dev.Admits w Reg.GV_FENCE_MAX e.toNat val)) := by
  refine ⟨?_, ?_, ?_, ?_, ?_, ?_, ?_, ?_, ?_, ?_, ?_, ?_⟩ <;> first | decide +kernel | (unfold Dev.Admits; decide +kernel)

theorem witness_JobsArePostedDispatchedAndEnded :
    (
    let s : State := st (sdev 600 [] {})
    let t : Fin 1024 := 7
    let x : Machine.Task := tk false 15
    (s.dev.coresRun = true) ∧ (s.dev.task ↑t = some x)) ∧ (
    let s : State := st (sdev 600 [] {})
    let t : Fin 1024 := 9
    (s.dev.coresRun = true) ∧ (s.dev.task ↑t = none)) ∧ (
    let s : State := st { sdev 600 [] {} with tu := { tim := (Vector.replicate 8 {}).set 2 { gained := 70 } } }
    let i : Fin 8 := 2
    let t : Fin 1024 := 3
    ((fun s src t =>
    s.dev.coresRun = true ∧
      s.dev.srcFull src = false ∧ ∃ x ∈ s.dev.task t, x.data = true ∧ x.source = src ∧ x.faulted = false)
      s 3 ↑t) ∧ (64 ≤ s.dev.tu.tim[↑i].gained)) ∧ (
    let s : State := st { sdev 600 [] {} with keeper := { queue := [req 3 7] } }
    let c : Fin 16 := 3
    let tid : BitVec 16 := 7
    let t : Fin 1024 := 4
    let mine := fun q => q.client = c ∧ q.tid = tid
    ((fun s src t =>
    s.dev.coresRun = true ∧
      s.dev.srcFull src = false ∧ ∃ x ∈ s.dev.task t, x.data = true ∧ x.source = src ∧ x.faulted = false)
      s 0 ↑t) ∧ (s.dev.sched.delegations = []) ∧ (∃ q ∈ s.dev.keeper.queue, mine q ∧ q.delegated = false)) ∧ (
    let s : State := st { sdev 600 [] { delegations := List.replicate 64 ((5, 5), 4, 0) } with keeper := { queue := [req 3 7] } }
    let c : Fin 16 := 3
    let tid : BitVec 16 := 7
    let t : Fin 1024 := 4
    let x : Machine.Task := tk true 0
    (s.dev.coresRun = true) ∧ (s.dev.task ↑t = some x) ∧ (x.data = true) ∧ (x.source = 0) ∧ (∃ q ∈ s.dev.keeper.queue, q.client = c ∧ q.tid = tid ∧ q.delegated = false) ∧ (64 ≤ s.dev.sched.delegations.length)) ∧ (
    let s : State := st { sdev 600 [] {} with cvu := (Vector.replicate 4 {}).set 2 { held := some (5, 88) } }
    let e : Fin 4 := 2
    let t : ℕ := 5
    let arg : ℕ := 88
    (s.dev.cvu[↑e].held = some (t, arg)) ∧ ((fun s src t =>
    s.dev.coresRun = true ∧
      s.dev.srcFull src = false ∧ ∃ x ∈ s.dev.task t, x.data = true ∧ x.source = src ∧ x.faulted = false)
      s 1 t)) ∧ (
    let s : State := st { sdev 600 [] {} with em := { chans := (Vector.replicate 16 {}).set 2 { waiting := some 88 } } }
    let n : Fin 16 := 2
    let t : ℕ := 6
    let arg : ℕ := 88
    (s.dev.em.chans[↑n].waiting = some arg) ∧ (s.dev.envTasks = [t]) ∧ ((fun s src t =>
    s.dev.coresRun = true ∧
      s.dev.srcFull src = false ∧ ∃ x ∈ s.dev.task t, x.data = true ∧ x.source = src ∧ x.faulted = false)
      s 2 t)) ∧ (
    let s : State := st (sdev 600 [] { service := [jb 7 500 1 4] })
    let j : Job := jb 7 500 1 4
    let more : List Job := []
    let c : Fin 16 := 0
    let idle : List (Fin 16) := [1, 2, 3, 4, 5, 6, 7, 8, 9, 10, 11, 12, 13, 14, 15]
    (s.dev.coresRun = true) ∧ (s.dev.sched.dispatchAt ≠ some s.dev.now) ∧ (s.dev.candidates = j :: more) ∧ (List.filter s.dev.coreIdle s.dev.eligible = c :: idle) ∧ (∀ k ∈ s.dev.eligible, ↑k ≠ s.dev.get Reg.SC_TASK_AFF j.task) ∧ (∀ k ∈ s.dev.sched.data ++ s.dev.sched.service, s.dev.now ≤ k.slot + 2 ^ 31)) ∧ (
    let s : State := st (sdev 600 [(Reg.ST_EFF_CAP, 1, 64)] { cores := cores0 { job := some (jb 7 500 1 4, 550) } })
    let c : Fin 16 := 2
    let j : Job := jb 7 500 1 4
    let since : ℕ := 550
    (s.dev.sched.cores[↑c].job = some (j, since)) ∧ (s.dev.coresRun = true) ∧ (j.task < 1024)) ∧ (
    let s : State := st { sdev 600000 [] { cores := cores0 { job := some (jb 7 500 1 4, 550) } } with sched := { cores := cores0 { job := some (jb 7 500 1 4, 550) }, tasks := [(7, { tk false 15 with aborts := [5, 6] })] } }
    let c : Fin 16 := 2
    let j : Job := jb 7 500 1 4
    let since : ℕ := 550
    let x : Machine.Task := { tk false 15 with aborts := [5, 6] }
    (s.dev.sched.cores[↑c].job = some (j, since)) ∧ (s.dev.coresRun = true) ∧ (j.task < 1024) ∧ (s.dev.get Reg.SC_RUN_LIMIT < s.dev.now - since) ∧ (s.dev.task j.task = some x) ∧ (s.dev.ledger.buffer.length < 1024)) ∧ (
    let s : State := st { dev 600 with sched := { tasks := [(7, { tk false 15 with faulted := true })] } }
    let w : Sys2Proof.Writer := .core
    let t : Fin 1024 := 7
    let val : Bytes := [1]
    let x : Machine.Task := { tk false 15 with faulted := true }
    (s.dev.Admits w Reg.SC_TASK_RESTORE (↑t) val) ∧ (s.dev.task ↑t = some x)) ∧ (
    let s : State := st (sdev 600 [] { spilled := [[jb 7 1 1 4], [jb 7 2 2 4]], staging := [jb 7 3 3 4] })
    let seg : List Job := [jb 7 1 1 4]
    let rest : List (List Job) := [[jb 7 2 2 4]]
    (s.dev.sched.spilled = seg :: rest) ∧ (s.dev.coresRun = true) ∧ (s.dev.sched.service.length ≤ 1984) ∧ (s.dev.sched.unspillAt ≤ s.dev.now)) ∧ (
    let s : State := st (sdev 600 [] {})
    let access : CoreAccess := { addr := 0x1FFFF, len := 1, store := false, word := none }
    let a := access.addr.toNat
    let n := 2 ^ ↑access.len
    (s.dev.coresRun = true) ∧ (s.dev.inMap a n = false ∨ access.store = true ∧ ∃ i < n, readOnlyReg (a + i) = true)) ∧ (
    let s : State := st (sdev 600 [(Reg.ST_EFF_CAP, 1, 64)] {})
    let access : CoreAccess := { addr := 0x80000000, len := 2, store := false, word := some wrd }
    let x : BadWord := wrd
    (s.dev.coresRun = true) ∧ (access.store = false) ∧ (access.word = some x) ∧ (s.dev.inSpill access.addr.toNat (2 ^ ↑access.len) = true)) ∧ (
    let s : State := st (sdev 600 [] {})
    let access : CoreAccess := { addr := 0x1FFFC, len := 2, store := true, data := 0x12345678, word := none }
    let a := access.addr.toNat
    let n := 2 ^ ↑access.len
    (s.dev.coresRun = true) ∧ (access.word = none) ∧ (a + n ≤ 131072 ∨ withinMap 805306368 4128768 a n = true ∨ s.dev.inSpill a n = true)) ∧ (
    let s : State := st (sdev 600 [] { cores := cores0 { job := some (jb 7 500 1 4, 550), reloadedAt := some 5 } })
    let c : Fin 16 := 2
    let k := s.dev.sched.cores[↑c]
    (k.failed = false) ∧ (k.reload = false)) ∧ (
    let s : State := st (sdev 600 [] { cores := cores0 { reload := true } })
    let c : Fin 16 := 2
    (s.dev.sched.cores[↑c].reload = true) ∧ (s.dev.ledger.buffer.length < 1024)) ∧ (
    let s : State := st (sdev 600 [] { trace := [5, 6] })
    (s.dev.sched.gap = 0)) := by
  refine ⟨?_, ?_, ?_, ?_, ?_, ?_, ?_, ?_, ?_, ?_, ?_, ?_, ?_, ?_, ?_, ?_, ?_, ?_⟩ <;> first | decide +kernel | (unfold Dev.Admits; decide +kernel)

theorem witness_ImagesWrittenVerifiedAndChosen :
    (
    let s : State := st (withTok (idev [] {}))
    let w : Sys2Proof.Writer := tok
    let i : Fin 2 := 0
    let val : Bytes := [1]
    (s.dev.Admits w Reg.IMG_ERASE (↑i) val)) ∧ (
    let s : State := st (idev [] {})
    let w : Sys2Proof.Writer := .core
    let i : Fin 2 := 0
    let val : Bytes := [1]
    (s.dev.Admits w Reg.IMG_VERIFY (↑i) val)) ∧ (
    let s : State := st (idev [(Reg.IMG_WOFS, 0, 256)] { erased := true })
    let w : Sys2Proof.Writer := .core
    let i : Fin 2 := 0
    let data : Bytes := [1, 2, 255, 4]
    (s.dev.Admits w Reg.IMG_DATA (↑i) data)) ∧ (
    let s : State := st (idev [(Reg.IMG_WOFS, 0, 256)] { busy := some (.program 256 [1, 2, 255, 4]), erased := true })
    let i : Fin 2 := 0
    let off : ℕ := 256
    let data : Bytes := [1, 2, 255, 4]
    ((s.dev.flashDev i).busy = some (ImageOp.program off data)) ∧ (off + List.length data ≤ 8388608)) ∧ (
    let s : State := st (idev [] { busy := some .erase, bytes := [(5, 7)] })
    let i : Fin 2 := 0
    ((s.dev.flashDev i).busy = some ImageOp.erase)) ∧ (
    let s : State := st (idev [] { busy := some .check, erased := true, accepted := true })
    let i : Fin 2 := 0
    ((s.dev.flashDev i).busy = some ImageOp.check)) ∧ (
    let s : State := st (withTok (idev [(Reg.IMG_STATUS, 0, 0)] {}))
    let w : Sys2Proof.Writer := tok
    let val : Bytes := [0]
    (s.dev.Admits w Reg.IMG_TRIAL 0 val)) ∧ (
    let s : State := st (withTok (idev [(Reg.IMG_STATUS, 0, 4)] {} { trialState := 1 }))
    let w : Sys2Proof.Writer := tok
    (s.dev.Admits w Reg.IMG_TRIAL 0 [255])) ∧ (
    let s : State := st (withTok (idev [(Reg.IMG_IN_USE, 0, 1)] {} { trialState := 2 }))
    let w : Sys2Proof.Writer := tok
    let val : Bytes := [1]
    (s.dev.Admits w Reg.IMG_CONFIRM 0 val)) ∧ (
    let s : State := st (withTok (idev [(Reg.IMG_STATUS, 1, 0)] {} {}))
    let w : Sys2Proof.Writer := tok
    let val : Bytes := [1]
    (s.dev.Admits w Reg.IMG_PREFER 0 val)) := by
  refine ⟨?_, ?_, ?_, ?_, ?_, ?_, ?_, ?_, ?_, ?_⟩ <;> first | decide +kernel | (unfold Dev.Admits; decide +kernel)

theorem witness_RequestsAdmittedOnce :
    (
    let s : State := st (kdev 600 [] {})
    let i : Instr := Instr.maroriMessageReceive 0 5 6 7 msg
    let m : Arrival := { id := .udp 5 6, via := .udp 0, mac := 7, bytes := msg }
    let c : Fin 16 := 0
    (s.dev.arrival i = some m) ∧ (messageValid m.bytes = true ∧ bytesAt m.bytes 7 1 = s.dev.get Reg.COM_NODE) ∧ (bytesAt m.bytes 2 1 = 1) ∧ (s.dev.clientEntry m.id = some c) ∧ (((s.dev.keeper.clients[↑c].bind fun k => if k.id = m.id then some k else none).bind fun k =>
      (k.txns.filter fun t => !s.dev.expired t).find? fun (t : Txn) => t.tid == BitVec.ofNat 16 (bytesAt m.bytes 4 2)) = none)) ∧ (
    let s : State := st (kdev 600 [] (k3 (cl (.udp 5 6) 7 [txr (some (List.replicate 30 9))])))
    let i : Instr := Instr.maroriMessageReceive 0 5 6 7 msg
    let m : Arrival := { id := .udp 5 6, via := .udp 0, mac := 7, bytes := msg }
    let c : Fin 16 := 0
    let t : Txn := txr (some (List.replicate 30 9))
    (s.dev.arrival i = some m) ∧ (messageValid m.bytes = true ∧ bytesAt m.bytes 7 1 = s.dev.get Reg.COM_NODE) ∧ (bytesAt m.bytes 2 1 = 1) ∧ (s.dev.clientEntry m.id = some c) ∧ (((s.dev.keeper.clients[↑c].bind fun k => if k.id = m.id then some k else none).bind fun k =>
      (k.txns.filter fun t => !s.dev.expired t).find? fun (t : Txn) => t.tid == BitVec.ofNat 16 (bytesAt m.bytes 4 2)) = some t)) ∧ (
    let s : State := st (kdev 600 [] {})
    let i : Instr := Instr.maroriMessageReceive 0 5 6 7 (List.replicate 30 9)
    let m : Arrival := { id := .udp 5 6, via := .udp 0, mac := 7, bytes := List.replicate 30 9 }
    (s.dev.arrival i = some m) ∧ (messageValid m.bytes = false ∨ bytesAt m.bytes 7 1 ≠ s.dev.get Reg.COM_NODE)) ∧ (
    let s : State := st (kdev 600 [] { clients := Vector.replicate 16 (some (cl (.udp 9 9) 3)) })
    let i : Instr := Instr.maroriMessageReceive 0 5 6 7 msg
    let m : Arrival := { id := .udp 5 6, via := .udp 0, mac := 7, bytes := msg }
    (s.dev.arrival i = some m) ∧ (messageValid m.bytes = true ∧ bytesAt m.bytes 7 1 = s.dev.get Reg.COM_NODE) ∧ (bytesAt m.bytes 2 1 ≠ 1 ∨ s.dev.clientEntry m.id = none)) ∧ (
    let s : State := st (kdev 600 [] {})
    let bus : Fin 2 := 0
    let id : BitVec 29 := canid 1 0
    let data : Bytes := List.replicate 64 9
    (s.dev.serves = true ∧ bit (s.dev.get Reg.COM_CAN_EN) ↑bus = true ∧ bit id.toNat 25 = false
      ∧ field id.toNat 24 17 = s.dev.get Reg.COM_NODE ∧ field id.toNat 8 7 = 1 ∧ field id.toNat 6 1 = 0) ∧ (List.length data = 64)) ∧ (
    let s : State := st (kdev 600 [] { assemblies := [{ bus := 0, client := 9, prio := 3, bytes := msg2.take 64, segNum := 0, at_ := 550 }] })
    let bus : Fin 2 := 0
    let id : BitVec 29 := canid 2 5
    let seg : ℕ := 2
    let num : ℕ := 5
    let a : CanAssembly := { bus := 0, client := 9, prio := 3, bytes := msg2.take 64, segNum := 0, at_ := 550 }
    (s.dev.serves = true ∧ bit (s.dev.get Reg.COM_CAN_EN) ↑bus = true ∧ bit id.toNat 25 = false
      ∧ field id.toNat 24 17 = s.dev.get Reg.COM_NODE ∧ field id.toNat 8 7 = seg ∧ field id.toNat 6 1 = num) ∧ (2 ≤ seg) ∧ ((s.dev.keeper.assemblies.find? fun a => a.bus == ↑bus && a.client == field id.toNat 16 9) = some a)) ∧ (
    let s : State := st (kdev 600 [] {})
    let bus : Fin 2 := 0
    let id : BitVec 29 := canid 2 1
    let seg : ℕ := 2
    let num : ℕ := 1
    (s.dev.serves = true ∧ bit (s.dev.get Reg.COM_CAN_EN) ↑bus = true ∧ bit id.toNat 25 = false
      ∧ field id.toNat 24 17 = s.dev.get Reg.COM_NODE ∧ field id.toNat 8 7 = seg ∧ field id.toNat 6 1 = num) ∧ ((s.dev.keeper.assemblies.find? fun a => a.bus == ↑bus && a.client == field id.toNat 16 9) = none) ∧ (num ≠ 0 ∨ 2 ≤ seg)) ∧ (
    let s : State := st (kdev 6000000 [] { assemblies := [{ bus := 0, client := 9, prio := 3, bytes := msg2.take 64, segNum := 0, at_ := 550 }] })
    let bus : Fin 2 := 0
    let client : BitVec 8 := 9
    let a : CanAssembly := { bus := 0, client := 9, prio := 3, bytes := msg2.take 64, segNum := 0, at_ := 550 }
    let mine := fun (a : CanAssembly) => a.bus == ↑bus && a.client == client.toNat
    (List.find? mine s.dev.keeper.assemblies = some a) ∧ (a.at_ + s.dev.ms 10 < s.dev.now)) := by
  refine ⟨?_, ?_, ?_, ?_, ?_, ?_, ?_, ?_⟩ <;> decide +kernel

theorem witness_RequestsExecutedAndAnswered :
    (
    let p : Port := 5
    let index : BitVec 16 := 0x4100
    let sub : BitVec 8 := 1
    let elem : BitVec 16 := 9
    let r : ObjRow := rowOf Reg.FE_CH_ANA
    (locate (↑p) index.toNat sub.toNat = some r) ∧ (elem.toNat < r.elems) ∧ (writeOnly r = false) ∧ (r.addr ∉ ownRead) ∧ (sub ≠ 0)) ∧ (
    let s : State := st (kdev 600 [] {})
    let w : Sys2Proof.Writer := .core
    let index : BitVec 16 := 0x2C10
    let sub : BitVec 8 := 4
    let elem : BitVec 16 := 0
    let val : Bytes := [0, 0, 0, 0, 0, 0, 0, 9]
    let r : ObjRow := rowOf Reg.ECC_DIAG_DATA
    let e := elem.toNat
    (locate 255 index.toNat sub.toNat = some r) ∧ (sub ≠ 0) ∧ (r.addr ∉ ownWrite) ∧ (roElem r.addr e = false) ∧ (e ≠ 65535) ∧ (s.dev.Admits w r.addr e val)) ∧ (
    let s : State := st (withPort (kdev 600 [] {}) { cfg := some (cfgMsg 2 0 0 [] .rewrite) })
    let w : Sys2Proof.Writer := .core
    let p : Port := 5
    let index : BitVec 16 := 0x4100
    let sub : BitVec 8 := 1
    let elem : BitVec 16 := 9
    let val : Bytes := [1, 2]
    let r : ObjRow := rowOf Reg.FE_CH_ANA
    (locate (↑p) index.toNat sub.toNat = some r) ∧ (sub ≠ 0) ∧ (r.addr ∉ ownWrite) ∧ (roElem r.addr elem.toNat = false) ∧ (s.dev.Admits w r.addr elem.toNat val) ∧ (domainCheck r.addr elem.toNat (List.length val) = none) ∧ (List.length val ≤ 240)) ∧ (
    let payload : Bytes := [0, 0, 0, 7, 0, 0, 0, 0, 1, 0, 0, 9, 0, 0, 0, 5]
    (List.length payload = 16)) ∧ (
    let s : State := st (kdev 600 [] { k3 { cl (.udp 5 6) 7 with challengeRead := some (77, 599) } with challenge := 77 })
    let c : Fin 16 := 0
    let tid : BitVec 16 := 7
    let val : Bytes := [0, 0, 0, 77]
    let k : Client := { cl (.udp 5 6) 7 with challengeRead := some (77, 599) }
    (s.dev.Admits (Writer.client c tid) Reg.COM_GUARD_TOKEN 0 val) ∧ (s.dev.keeper.clients[↑c] = some k)) ∧ (
    let s : State := st (kdev 600000000 [] (k3 { cl (.udp 5 6) 7 with tokenAt := some 5 }))
    let c : Fin 16 := 0
    let k : Client := { cl (.udp 5 6) 7 with tokenAt := some 5 }
    let t : ℕ := 5
    (s.dev.keeper.clients[↑c] = some k) ∧ (k.tokenAt = some t)) ∧ (
    let s : State := st (kdev 6000000000 [] (k3 (cl (.udp 5 6) 7 [{ tid := 0x1A2B, response := some [], status := .accepted, sentAt := 5, unknown := false }])))
    let c : Fin 16 := 0
    let k : Client := cl (.udp 5 6) 7 [{ tid := 0x1A2B, response := some [], status := .accepted, sentAt := 5, unknown := false }]
    (s.dev.keeper.clients[↑c] = some k)) ∧ (
    let s : State := st (withTok (kdev 600 [] {}))
    let w : Sys2Proof.Writer := tok
    let val : Bytes := [1]
    (s.dev.Admits w Reg.BT_RESTART 0 val)) ∧ (
    let s : State := st (kdev 600 [] {})
    let bits : BitVec 72 := 3
    (s.dev.mode ≠ Mode.boot) ∧ (s.dev.ledger.buffer.length < 1024) ∧ (codeFault (bits.toNat / 2 ^ 8) (bits.toNat % 2 ^ 8) = some WordFault.uncorrectable)) := by
  refine ⟨?_, ?_, ?_, ?_, ?_, ?_, ?_, ?_, ?_⟩ <;> first | decide +kernel | (unfold Dev.Admits; decide +kernel)

theorem witness_CheckValuesComputedAndReported :
    (
    let s : State := st (cv {})
    let desc : Bytes := desc 2 1 0 0x1C28
    (s.dev.coresRun = true) ∧ (List.length desc = 48)) ∧ (
    let s : State := st (cv { queue := [(3, 0)], slots := [(3, desc 2 1 0 0x1C28)] } [(Reg.CV_PRESET, 1, 2)])
    let e : Fin 4 := 1
    let q : ℕ × ℕ := (3, 0)
    let rest : List (ℕ × ℕ) := []
    ((s.dev.eng e).queue = q :: rest) ∧ (s.dev.coresRun = true) ∧ ((s.dev.eng e).running = none) ∧ ((s.dev.eng e).held = none)) ∧ (
    let s : State := st (cv { running := some (3, 0), params := p2, slots := [(3, desc 2 1 0 0x1C28)] })
    let e : Fin 4 := 1
    let slot : ℕ := 3
    let core : ℕ := 0
    let data : Bytes := [0x4D, 0x52]
    let x := s.dev.eng e
    let b := x.slot slot
    let ctl := descField b 8 1
    (x.running = some (slot, core)) ∧ (s.dev.coresRun = true) ∧ (x.verdict = 0) ∧ (List.length data = descField b 4 4) ∧ (List.length b = 48) ∧ (bit ctl 4 = false) ∧ (bit ctl 5 = false)) ∧ (
    let s : State := st { cv { running := some (3, 0), params := p2, slots := [(3, desc 2 16 7 0x1C29)] } [(Reg.CV_ALIVE_LAST, 7, 4)] with aliveFresh := 0 }
    let e : Fin 4 := 1
    let slot : ℕ := 3
    let core : ℕ := 0
    let data : Bytes := [0x4D, 0x52]
    let x := s.dev.eng e
    let b := x.slot slot
    let ctl := descField b 8 1
    let a := descField b 9 1 % 64
    (x.running = some (slot, core)) ∧ (s.dev.coresRun = true) ∧ (x.verdict = 0) ∧ (List.length data = descField b 4 4) ∧ (List.length b = 48) ∧ (bit ctl 0 = false) ∧ (bit ctl 4 = true) ∧ (bit ctl 5 = false) ∧ (s.dev.afterHigher a ↑e = false)) ∧ (
    let s : State := st (cv { running := some (3, 0), verdict := 4, params := p2, slots := [(3, desc 2 1 0 0x1C28)] })
    let e : Fin 4 := 1
    let slot : ℕ := 3
    let core : ℕ := 0
    let x := s.dev.eng e
    (x.running = some (slot, core)) ∧ (s.dev.coresRun = true) ∧ (x.verdict = 4 ∨ x.verdict = 5) ∧ (List.length (x.slot slot) = 48) ∧ (bit (descField (x.slot slot) 8 1) 5 = false)) ∧ (
    let s : State := st (cv { running := some (3, 0), params := p2, slots := [(3, desc 2 1 0 0x1C28)] })
    let e : Fin 4 := 1
    let slot : ℕ := 3
    let core : ℕ := 0
    let w : ScrubWord := .sram 3
    let x := s.dev.eng e
    (x.running = some (slot, core)) ∧ (s.dev.coresRun = true) ∧ (x.verdict = 0) ∧ (List.length (x.slot slot) = 48) ∧ (bit (descField (x.slot slot) 8 1) 5 = false) ∧ (wordFits (x.slot slot) w = true) ∧ (s.dev.readFault w = some WordFault.uncorrectable ∨ s.dev.readFault w = some WordFault.tagError)) ∧ (
    let s : State := st { cv {} with aliveFresh := 4 }
    let w : Sys2Proof.Writer := .core
    let e : BitVec 16 := 9
    let val : Bytes := [1]
    (s.dev.Admits w Reg.CV_ALIVE_RESET e.toNat val)) := by
  refine ⟨?_, ?_, ?_, ?_, ?_, ?_, ?_⟩ <;> first | decide +kernel | (unfold Dev.Admits; decide +kernel)

theorem witness_ConversionsStartCompleteAndBlank :
    (
    let s : State := st (emd { running := some 5, valid := true } 600 [])
    let w : Sys2Proof.Writer := .core
    let n : Fin 16 := 3
    let val : Bytes := [1]
    (s.dev.Admits w Reg.EM_TYPE (↑n) val) ∧ ((fun s n =>
    s.mode ≠ Mode.boot ∧
      s.inReset = false ∧ (s.emChan n).waiting = none ∧ s.blanked (s.get Reg.EM_BLANK_SEL ↑n) = false)
      s.dev n)) ∧ (
    let s : State := st (emd {} 600 [(Reg.EM_TYPE, 3, 1)])
    let n : Fin 16 := 3
    ((fun s n =>
    s.mode ≠ Mode.boot ∧
      s.inReset = false ∧ (s.emChan n).waiting = none ∧ s.blanked (s.get Reg.EM_BLANK_SEL ↑n) = false)
      s.dev n) ∧ (s.dev.get Reg.EM_TYPE ↑n ≠ 0) ∧ ((s.dev.emChan n).running = none) ∧ (∀ t ∈ (s.dev.emChan n).startedAt, t + s.dev.ms (s.dev.emChan n).interval ≤ s.dev.now)) ∧ (
    let s : State := st (emd {} 600 [(Reg.EM_TYPE, 3, 1), (Reg.EM_BLANK_SEL, 3, 1)] { high := true })
    let n : Fin 16 := 3
    (s.dev.blanked (s.dev.get Reg.EM_BLANK_SEL ↑n) = true)) ∧ (
    let s : State := st (emd { running := some 5, swap := true } 6000000 [(Reg.EM_TYPE, 3, 3)])
    let n : Fin 16 := 3
    let t : ℕ := 5
    let i : ℕ := 500000
    let c := s.dev.emChan n
    (c.running = some t) ∧ (s.dev.mode ≠ Mode.boot) ∧ (s.dev.inReset = false) ∧ (t + s.dev.emTime n ≤ s.dev.now) ∧ ((fun s => ∀ (i : Fin 2), s.em.blanks[↑i].start = none) s.dev) ∧ (c.spoiled = false) ∧ (i ≠ 0) ∧ (1 ≤ s.dev.emType n) ∧ (s.dev.emType n ≤ 3)) ∧ (
    let s : State := st (emd { running := some 5 } 60000000 [(Reg.EM_TYPE, 3, 4)])
    let n : Fin 16 := 3
    let t : ℕ := 5
    let c := s.dev.emChan n
    (c.running = some t) ∧ (s.dev.mode ≠ Mode.boot) ∧ (s.dev.inReset = false) ∧ (t + s.dev.emTime n ≤ s.dev.now) ∧ ((fun s => ∀ (i : Fin 2), s.em.blanks[↑i].start = none) s.dev) ∧ (c.spoiled = false) ∧ (4 ≤ s.dev.emType n) ∧ (s.dev.emType n ≤ 6)) ∧ (
    let s : State := st (emd { running := some 5, spoiled := true } 60000000 [(Reg.EM_TYPE, 3, 4)])
    let n : Fin 16 := 3
    let t : ℕ := 5
    let meas : EmMeas := .sine 110000 109000 54867 54867350 500000
    ((s.dev.emChan n).running = some t) ∧ (s.dev.mode ≠ Mode.boot) ∧ (s.dev.inReset = false) ∧ (t + s.dev.emTime n ≤ s.dev.now) ∧ ((s.dev.emChan n).spoiled = true) ∧ (measFits (s.dev.emType n) meas = true)) ∧ (
    let s : State := st (emd {} 600 [])
    let i : Fin 2 := 0
    (s.dev.mode ≠ Mode.boot) ∧ (s.dev.inReset = false) ∧ (s.dev.em.blanks[↑i].high = false) ∧ (s.dev.em.blanks[↑i].holdUntil = none)) ∧ (
    let s : State := st (emd {} 600 [] { high := true, start := some 5 })
    let i : Fin 2 := 0
    (s.dev.em.blanks[↑i].high = true)) ∧ (
    let s : State := st (emd { running := some 5, blankSel := 1 } 600000 [(Reg.EM_TYPE, 3, 1)] { start := some 5, holdUntil := some 550000 })
    let i : Fin 2 := 0
    let a : ℕ := 5
    let t : ℕ := 550000
    (s.dev.em.blanks[↑i].start = some a) ∧ (s.dev.em.blanks[↑i].holdUntil = some t) ∧ (t ≤ s.dev.now)) ∧ (
    let s : State := st (emd { running := some 5, blankSel := 1 } 600000 [(Reg.EM_TYPE, 3, 1)])
    let n : Fin 16 := 3
    let current : BitVec 32 := 1000001
    (s.dev.mode ≠ Mode.boot) ∧ (s.dev.inReset = false) ∧ (1 ≤ s.dev.emType n) ∧ (s.dev.emType n ≤ 3) ∧ (1000000 < current.toNat)) := by
  refine ⟨?_, ?_, ?_, ?_, ?_, ?_, ?_, ?_, ?_, ?_⟩ <;> first | decide +kernel | (unfold Dev.Admits; decide +kernel)

theorem witness_ModesChangeAndTheDeviceStarts :
    (
    let s : State := st { dev 600 [] .stream with modePend := pendTo .configure }
    let m : ModePend := { target := .configure, cycle := none, notBefore := 0 }
    ((fun s m =>
    s.modePend = some m ∧
      s.inReset = false ∧ s.noTime = false ∧ s.modeDue = true ∧ s.stepDue = false ∧ s.firstDue = false)
      s.dev m) ∧ (s.dev.modeRefusal m.target = none)) ∧ (
    let s : State := st { dev 600 [] .configure with modePend := pendTo .stream }
    let m : ModePend := { target := .stream, cycle := none, notBefore := 0 }
    ((fun s m =>
    s.modePend = some m ∧
      s.inReset = false ∧ s.noTime = false ∧ s.modeDue = true ∧ s.stepDue = false ∧ s.firstDue = false)
      s.dev m) ∧ (s.dev.mode = Mode.configure) ∧ (sendsMarkers m.target = true) ∧ (s.dev.ledger.buffer.length < 1024) ∧ ((∃ p : Port,
    s.dev.get Reg.WP_EN ↑p = 1 ∧
      ((s.dev.port p).cycLenAcked = false ∨
        s.dev.get Reg.BASKET_TIMEOUT * 256 < s.dev.mir p Reg.FE_FRAME_CLOSE + 256)) ∨
      s.dev.usableMiB < s.dev.stallSum Reg.ST_CAP ∨
    s.dev.bandwidth < s.dev.stallSum Reg.ST_BW ∨
      ∃ k < s.dev.get Reg.ROUTE_SPAN, s.dev.get Reg.RT_MAC k = 0 ∨ s.dev.get Reg.RT_IP k = 0)) ∧ (
    let s : State := st { dev 60000000 [(Reg.BE_LINK, 3, 1), (Reg.BE_LINK, 0, 1)] .safe with draining := true, merge := { baskets := [bk0] } }
    (s.dev.mode = Mode.safe) ∧ (s.dev.draining = true) ∧ (s.dev.safeFrom + (s.dev.get Reg.BASKET_TIMEOUT + 64) * 256 ≤ s.dev.now) ∧ (s.dev.ledger.buffer.length < 1024)) ∧ (
    let s : State := st { dev 600 [(Reg.MD_SEN_PROMOTE, 0, 1)] .sentinel with keeper := { sweep := some { ports := [], counts := 300, at_ := 5 } } }
    let w : RateSweep := { ports := [], counts := 300, at_ := 5 }
    (s.dev.keeper.sweep = some w) ∧ (w.ports = [])) ∧ (
    let s : State := st (withFe (dev 600000) { power := .powerOn })
    let p : Port := 5
    ((s.dev.fe p).power = FePower.powerOn) ∧ ((s.dev.fe p).supplyFrom + s.dev.ms 1 ≤ s.dev.now)) ∧ (
    let s : State := st { dev 600 [(Reg.ROUTE_SPAN, 0, 5)] with inReset := true }
    (s.dev.inReset = true)) ∧ (
    let s : State := st (bd 1250000000 {})
    (s.dev.mode = Mode.boot) ∧ (s.dev.inReset = false) ∧ (10 * s.dev.second ≤ s.dev.now)) ∧ (
    let s : State := st (bd 600 {})
    (s.dev.mode = Mode.boot) ∧ (s.dev.inReset = false) ∧ (s.dev.boot.step = some 1)) ∧ (
    let s : State := st { bd 600 { step := some 2 } with aon := { failedTimes := [0, 0, 0] } }
    (s.dev.mode = Mode.boot) ∧ (s.dev.inReset = false) ∧ (s.dev.boot.step = some 2)) ∧ (
    let s : State := st (bd 600 { step := some 5 })
    (s.dev.mode = Mode.boot) ∧ (s.dev.inReset = false) ∧ (s.dev.boot.step = some 5) ∧ (s.dev.ledger.buffer.length < 1024)) ∧ (
    let s : State := st (bd 600 { step := some 6 })
    (s.dev.mode = Mode.boot) ∧ (s.dev.inReset = false) ∧ (s.dev.boot.step = some 6) ∧ (s.dev.boot.memDone = false)) ∧ (
    let s : State := st (bd 600 { step := some 7 })
    (s.dev.mode = Mode.boot) ∧ (s.dev.inReset = false) ∧ (s.dev.boot.step = some 7 ∨ s.dev.boot.step = some 6 ∧ s.dev.boot.clocksDone = false)) ∧ (
    let s : State := st (bd 600 { step := some 8 })
    (s.dev.mode = Mode.boot) ∧ (s.dev.inReset = false) ∧ (s.dev.boot.step = some 8)) ∧ (
    let s : State := st { dev 600 with confirmAt := some 600 }
    let t : ℕ := 600
    (s.dev.confirmAt = some t) ∧ (t ≤ s.dev.now) ∧ (s.dev.ledger.buffer.length < 1024)) ∧ (
    let s : State := st (bd 600 {})
    (s.dev.inReset = false)) ∧ (
    let s : State := st (dev 600 [] .stream)
    let mean : BitVec 16 := 1200
    (s.dev.inReset = false) ∧ (s.dev.gov.dies[32].trip = false) ∧ (1200 ≤ mean.toInt)) := by
  refine ⟨?_, ?_, ?_, ?_, ?_, ?_, ?_, ?_, ?_, ?_, ?_, ?_, ?_, ?_, ?_, ?_⟩ <;> decide +kernel

theorem witness_KeepersSwapAndTheLedgerIsKept :
    (
    let s : State := st (dev 600)
    let w : Sys2Proof.Writer := .core
    let val : Bytes := [1]
    (s.dev.Admits w Reg.RD_KP_SWAP 0 val)) ∧ (
    let s : State := st (dev 600)
    (s.dev.inReset = false)) ∧ (
    let s : State := st { dev 600 with keeper := { health := #v[0, 3], testFrom := some 500 } }
    let t : ℕ := 500
    (s.dev.keeper.testFrom = some t) ∧ (s.dev.ledger.buffer.length < 1024)) ∧ (
    let s : State := st { dev 600 with keeper := { warmUntil := some 500 } }
    let t : ℕ := 500
    (s.dev.keeper.warmUntil = some t)) ∧ (
    let s : State := st (ldev 600 { buffer := [lrec 0], seq := 65, copies := #v[[lrec 64], [lrec 64]] })
    let r : LedgerRec := lrec 0
    let rest : List LedgerRec := []
    (s.dev.ledger.buffer = r :: rest) ∧ (s.dev.ledgerOpen = true) ∧ (s.dev.ledgerUses 0 = true) ∧ (s.dev.ledgerUses 1 = true)) ∧ (
    let s : State := st (ldev 600 { seq := 65, readPos := 64, copies := #v[[lrec 64], [lrec 63]] })
    let w : Sys2Proof.Writer := .core
    let val : Bytes := [1]
    (s.dev.Admits w Reg.LG_REWIND 0 val)) := by
  refine ⟨?_, ?_, ?_, ?_, ?_, ?_⟩ <;> first | decide +kernel | (unfold Dev.Admits; decide +kernel)

end Sys2Proof.Tests
end

section
/-! The answer to a client over UDP, and the statement on refused writes (O8). A response is a datagram, and every datagram
takes an Identification of its port (R299, R412): so an answer changes a transmitter, which is no part of the Keeper's account
of the request. -/

namespace Sys2Proof.Machine

variable (d : Dev)

/-! ### Identifications (R299) -/

@[simp] theorem Dev.netPort_setNet_same (b : Fin 8) (n : NetPort) : (d.setNet b n).netPort b = n := by
  simp [Dev.setNet, Dev.netPort]

@[simp] theorem Dev.netPort_sendFrame (b c : Fin 8) (bytes : Bytes) : (d.sendFrame b bytes).netPort c = d.netPort c := rfl

/-- A frame of the management traffic is sent, waits or is lost with the Identification it has. -/
@[simp] theorem Dev.ident_sendManaged (b : Fin 8) (bytes : Bytes) :
    ((d.sendManaged b bytes).netPort b).ident = (d.netPort b).ident := by
  unfold Dev.sendManaged
  dsimp only
  split
  · rfl
  · split
    · simp
    · simp

/-- Each message takes one Identification of its port, with link and pause as they may be. -/
theorem Dev.ident_sendMessage (b : Fin 8) (mac ip udp : Nat) (msg : Bytes) :
    ((d.sendMessage b mac ip udp msg).netPort b).ident = ((d.netPort b).ident + 1) % 65536 := by
  simp [Dev.sendMessage, Dev.takeIdent]

/-- So does the answer to a request that a client sent over UDP, whatever its status. -/
theorem Dev.ident_answer_udp {c : Fin 16} {tid : BitVec 16} {cl : Client} {q : Request} {b : Fin 8} {ip udp : Nat}
    (hc : d.keeper.clients[c.val] = some cl)
    (hq : d.keeper.queue.find? (fun q => q.client == c && q.tid == tid) = some q)
    (hid : cl.id = .udp ip udp) (hv : q.via = .udp b) (st : Status) (value : Bytes) :
    ((d.answer (.client c tid) st value).netPort b).ident = ((d.netPort b).ident + 1) % 65536 := by
  have hk : (if st = .accepted then d.bump Reg.COM_EXEC else d).keeper = d.keeper := by split <;> rfl
  have hn : (if st = .accepted then d.bump Reg.COM_EXEC else d).netPort b = d.netPort b := by split <;> rfl
  unfold Dev.answer
  dsimp only
  rw [hk, hc, hq]
  simp only [Dev.reply, hid, hv]
  refine (Dev.ident_sendMessage _ b _ _ _ _).trans ?_
  rw [← hn]
  rfl

/-! ### A write of an object that does not exist -/

/-- A write at an address without an object is answered NOT_PRESENT (R421, step 7). -/
theorem exec_maroriWrite_absent {port : BitVec 8} {index : BitVec 16} {sub : BitVec 8}
    (h : locate port.toNat index.toNat sub.toNat = none) (w : Writer) (elem : BitVec 16) (val : Bytes) (s : State) :
    exec (.maroriWrite w port index sub elem val) s = .next { s with dev := s.dev.answer w .notPresent } := by
  change execMaroriWrite w port index sub elem val s = _
  simp [execMaroriWrite, h]

/-! ### The counterexample -/

/-- A client at 10.0.0.2, port 5000, heard on back-end port 0. -/
def udpClient : Client :=
  { id := .udp 0x0A000002 5000, via := .udp 0, alive := some 1, heardAt := 600
    txns := [{ tid := 7, response := none, status := .accepted, sentAt := 600, unknown := false }] }

/-- Its request: a WRITE of 1 to index 0x4142, subindex 0, at port 0xFF, where no index from 0x4000 on lies (R402). -/
def absentWrite : Request :=
  { arrived := 600, client := 0, tid := 7, alive := 1, op := 2, node := 1, port := 0xFF, index := 0x4142, sub := 0, elem := 0
    value := [1], via := .udp 0 }

/-- A device in CONFIGURE with link and address 10.0.0.1 on back-end port 0, and the request at the front of the Keeper's queue. -/
def absentWriteDev : Dev :=
  let d : Dev :=
    { now := 600, mode := .configure, boot := { step := none }
      keeper := { clients := (Vector.replicate 16 none).set 0 (some udpClient), queue := [absentWrite] } }
  (d.set Reg.BE_LINK 0 1).set Reg.BE_SRC_IP 0 0x0A000001

/-- The first datagram of back-end port 0 has the Identification 0; after the answer the next is 1. -/
theorem ident_answer_absentWriteDev :
    (absentWriteDev.netPort 0).ident = 0 ∧ ((absentWriteDev.answer (.client 0 7) .notPresent).netPort 0).ident = 1 :=
  ⟨rfl, absentWriteDev.ident_answer_udp (cl := udpClient) (q := absentWrite) rfl rfl rfl rfl _ _⟩

end Sys2Proof.Machine

open Sys2Proof.Machine

/-- Refutes O8: a refused write changes more than the Keeper's account of it when its client is reached over UDP. The response
is a datagram, which takes an Identification of the back-end port (R299, R412) and with link is counted in BE_TX_FRAMES and
BE_TX_BYTES; `unchanged` keeps both `net` and `regs`. The counterexample is a write that is answered NOT_PRESENT. -/
theorem not_dictionaryChecksWritesWhole : ¬ Obligations.DictionaryChecksWritesWhole := by
  unfold Obligations.DictionaryChecksWritesWhole
  rintro ⟨-, -, absent, -⟩
  have hloc : locate 0xFF (0x4142 : BitVec 16).toNat (0 : BitVec 8).toNat = none := rfl
  obtain ⟨t, ht, -, -, same⟩ := absent { dev := absentWriteDev, pending := [] } (.client 0 7) 0x4142 0 0 [1] hloc
  rw [exec_maroriWrite_absent (port := 0xFF) hloc] at ht
  cases ht
  obtain ⟨before, after⟩ := ident_answer_absentWriteDev
  have kept := congrArg (fun d : Dev => (d.netPort 0).ident) same
  exact absurd (after.symm.trans (kept.trans before)) Nat.one_ne_zero
end

section
/-! The receipt of a fast command at a front end (O20). -/

namespace Sys2Proof.Machine

/-- What a command makes of the device, said in other words. -/
theorem exec_next_congr {c : Instr} {s : State} {d d' : Dev} (run : exec c s = .next { s with dev := d }) (h : d = d') :
    exec c s = .next { s with dev := d' } := h ▸ run

variable {s : State} {p : Port} {id : BitVec 8} {op : FcmdOp} {cyc : BitVec 8} {slot : BitVec 20}

/-- Whether a target lies ahead of a front end (R44): in a later cycle, or in a later slot of the present one. -/
def Dev.liesAhead (d : Dev) (p : Port) (cyc slot : Nat) : Prop :=
  (1 ≤ (d.fe p).cycleDelta cyc ∧ (d.fe p).cycleDelta cyc ≤ 127) ∨ ((d.fe p).cycleDelta cyc = 0 ∧ d.feSlot p < slot)

/-- A copy of a command already taken changes nothing (R199). -/
theorem fcmdReceive_known (known : id.toNat ∈ (s.dev.fe p).history) : exec (.fcmdReceive p id op cyc slot) s = .next s := by
  have h : (!(s.dev.fe p).hears || (s.dev.fe p).history.contains id.toNat) = true := by simp [known]
  exact exec_next_congr rfl (if_pos h)

/-- The entries of a CAL command. -/
def entriesOf : FcmdOp → List (Fin 64)
  | .cal es => es
  | .bias _ _ | .mode _ | .cycleEnd | .inject | .tickPhase _ => []

/-- A received fast command as a front end holds it. -/
def FrontEnd.received (f : FrontEnd) (id : Nat) (op : FcmdOp) (cyc slot : Nat) : FeCmd :=
  { id := id, op := op, cyc := cyc, slot := slot, order := f.cmdOrder, left := entriesOf op }

/-- A new command whose target lies ahead is held pending (R199). -/
theorem fcmdReceive_ahead (hears : (s.dev.fe p).hears = true) (new : id.toNat ∉ (s.dev.fe p).history)
    (ahead : s.dev.liesAhead p cyc.toNat slot.toNat) :
    exec (.fcmdReceive p id op cyc slot) s = .next { s with dev := s.dev.setFe p { s.dev.fe p with
      history := (id.toNat :: (s.dev.fe p).history).take 32
      cmds := (s.dev.fe p).cmds ++ [(s.dev.fe p).received id.toNat op cyc.toNat slot.toNat]
      cmdOrder := (s.dev.fe p).cmdOrder + 1 } } := by
  have h : ¬ (!(s.dev.fe p).hears || (s.dev.fe p).history.contains id.toNat) = true := by simp [hears, new]
  exact exec_next_congr rfl ((if_neg h).trans (if_pos ahead))

/-- Another is counted late (R201). -/
theorem fcmdReceive_late (hears : (s.dev.fe p).hears = true) (new : id.toNat ∉ (s.dev.fe p).history)
    (late : ¬ s.dev.liesAhead p cyc.toNat slot.toNat) :
    exec (.fcmdReceive p id op cyc slot) s = .next { s with dev := s.dev.setFe p { s.dev.fe p with
      history := (id.toNat :: (s.dev.fe p).history).take 32, late := (s.dev.fe p).late + feCount op } } := by
  have h : ¬ (!(s.dev.fe p).hears || (s.dev.fe p).history.contains id.toNat) = true := by simp [hears, new]
  exact exec_next_congr rfl ((if_neg h).trans (if_neg late))

end Sys2Proof.Machine

open Sys2Proof.Machine

/-- Settles O20: by whether the CMD_ID is in the history, and then by whether the target lies ahead. -/
theorem fastCommandReceivedOnce : Obligations.FastCommandReceivedOnce := by
  unfold Obligations.FastCommandReceivedOnce
  intro s p id op cyc slot f delta hears
  by_cases known : id.toNat ∈ f.history
  · exact ⟨s, fcmdReceive_known known, rfl, by simp only [if_pos known]⟩
  · by_cases ahead : s.dev.liesAhead p cyc.toNat slot.toNat
    · refine ⟨_, fcmdReceive_ahead hears known ahead, rfl, ?_⟩
      simp only [if_neg known, Dev.fe_setFe_same]
      exact ⟨rfl, (if_pos ahead).mpr ⟨rfl, _, rfl, rfl, rfl, rfl, rfl⟩⟩
    · refine ⟨_, fcmdReceive_late hears known ahead, rfl, ?_⟩
      simp only [if_neg known, Dev.fe_setFe_same]
      exact ⟨rfl, (if_neg ahead).mpr ⟨rfl, rfl⟩⟩
end

section
/-! A Time Preset that the offset O cannot hold (O44). O has 64 integer bits with its sign (R229), and wraps above (log entry 192); the
TIME96 value of a Time Preset has 48 bits of seconds, and R247 puts no bound on it. At the boundary of such a preset the readings do
not move to it. -/

namespace Sys2Proof.Machine

/-- A reading of 2³⁵ s, as a TIME96 value gives it. -/
def farPreset : Int := ofTime96 (2 ^ 35 * 2 ^ 48)

/-- A device in FREE at the cycle boundary at slot 8,192, where that preset is due. -/
def farPresetDev : Dev :=
  { now := 8192, mode := .configure, grid := { cycleStart := 8192 }
    tb := { state := .free, step := some (.preset farPreset, 8192) } }

/-- Whether an outcome is a next state that passes a test. -/
def nextIs (o : Result) (test : State → Bool) : Bool :=
  match o with
  | .next t => test t
  | .fault _ | .refused _ => false

/-- The reading after the boundary: O has wrapped, and the reading lies far below the preset. -/
theorem reading_of_farPreset {t : State} (run : exec .firstTimeSetApply { dev := farPresetDev, pending := [] } = .next t) :
    t.dev.reading < farPreset - 1 := by
  have wrapped : nextIs (exec .firstTimeSetApply { dev := farPresetDev, pending := [] })
      (fun t => decide (t.dev.reading < farPreset - 1)) = true := by decide +kernel
  rw [run] at wrapped
  exact of_decide_eq_true wrapped

end Sys2Proof.Machine

open Sys2Proof.Machine

/-- Refutes O44: a Time Preset of 2³⁵ s wraps O, so that the readings do not move to the preset within a unit. -/
theorem not_stepsAndReferencesApplyAtBoundaries : ¬ Obligations.StepsAndReferencesApplyAtBoundaries := by
  unfold Obligations.StepsAndReferencesApplyAtBoundaries
  rintro ⟨-, -, -, -, preset, -⟩
  obtain ⟨t, run, -, ⟨-, -, low, -⟩, -⟩ :=
    preset { dev := farPresetDev, pending := [] } 8192 farPreset rfl (Nat.le_refl 8192) (by decide +kernel) (by decide +kernel)
  have below := reading_of_farPreset run
  dsimp only at low
  omega
end

section
/-! The scaling of R321 (O50): what it takes from the values of the stalls. -/

namespace Sys2Proof.Machine

/-! ### Sums and rounding up -/

theorem sumBy_eq_sum {α : Type} (f : α → Nat) (l : List α) : sumBy f l = (l.map f).sum := by
  have h : ∀ (acc : Nat), l.foldl (fun a x => a + f x) acc = acc + (l.map f).sum := by
    induction l with
    | nil => simp
    | cons x l ih => intro acc; simp [ih, Nat.add_assoc]
  simpa [sumBy] using h 0

theorem ceilDiv_eq (n d : Nat) : ceilDiv n d = n ⌈/⌉ d := (Nat.ceilDiv_eq_add_pred_div n d).symm

/-- A part of the level's excess, rounded up, is at most the value it is taken from. -/
theorem ceilDiv_share_le {cut level v : Nat} (pos : 0 < level) (h : cut ≤ level) : ceilDiv (cut * v) level ≤ v := by
  rw [ceilDiv_eq, ceilDiv_le_iff_le_mul pos]
  exact Nat.mul_le_mul_right v h

/-- It is at least the part itself. -/
theorem le_ceilDiv_mul {n level : Nat} (pos : 0 < level) : n ≤ level * ceilDiv n level := by
  rw [ceilDiv_eq, ← ceilDiv_le_iff_le_mul pos]

/-! ### One priority level -/

/-- The value a stall keeps of `v` at its level, of which `cut` is taken away in all. -/
def keptOf (prio cut level : Nat) (v : Nat × Nat × Nat) : Nat :=
  if v.2.1 = prio ∧ level ≠ 0 then v.2.2 - ceilDiv (cut * v.2.2) level else v.2.2

/-- The sum of the values at a priority. -/
def levelSum (prio : Nat) (vals : List (Nat × Nat × Nat)) : Nat := sumBy (fun v => if v.2.1 = prio then v.2.2 else 0) vals

theorem scaleLevel_eq (prio excess : Nat) (vals : List (Nat × Nat × Nat)) :
    scaleLevel prio excess vals = (excess - min excess (levelSum prio vals),
      vals.map fun v => (v.1, v.2.1, keptOf prio (min excess (levelSum prio vals)) (levelSum prio vals) v)) := by
  refine Prod.ext rfl (List.map_congr_left fun v _ => ?_)
  by_cases h : v.2.1 = prio ∧ levelSum prio vals ≠ 0
  · rw [keptOf, if_pos h]
    exact if_pos h
  · rw [keptOf, if_neg h]
    exact if_neg h

theorem keptOf_le (prio cut level : Nat) (v : Nat × Nat × Nat) : keptOf prio cut level v ≤ v.2.2 := by
  unfold keptOf
  split
  · exact Nat.sub_le _ _
  · exact le_rfl

theorem keptOf_other {prio cut level : Nat} {v : Nat × Nat × Nat} (h : v.2.1 ≠ prio) : keptOf prio cut level v = v.2.2 :=
  if_neg fun h' => h h'.1

theorem keptOf_none (prio level : Nat) (v : Nat × Nat × Nat) : keptOf prio 0 level v = v.2.2 := by
  unfold keptOf
  split
  · rename_i h
    have : ceilDiv (0 * v.2.2) level = 0 := by
      rw [Nat.zero_mul, ceilDiv_eq, zero_ceilDiv]
    rw [this, Nat.sub_zero]
  · rfl

/-- A level that is cut whole keeps nothing. -/
theorem keptOf_whole {prio : Nat} {vals : List (Nat × Nat × Nat)} {v : Nat × Nat × Nat} (mem : v ∈ vals) (at_ : v.2.1 = prio) :
    keptOf prio (levelSum prio vals) (levelSum prio vals) v = 0 := by
  have part : v.2.2 ≤ levelSum prio vals := by
    rw [levelSum, sumBy_eq_sum]
    have := List.single_le_sum (l := vals.map fun v => if v.2.1 = prio then v.2.2 else 0) (by simp) _ (List.mem_map_of_mem mem)
    simpa [at_] using this
  unfold keptOf
  split
  · rename_i h
    have : v.2.2 ≤ ceilDiv (levelSum prio vals * v.2.2) (levelSum prio vals) :=
      Nat.le_of_mul_le_mul_left (le_ceilDiv_mul (Nat.pos_of_ne_zero h.2)) (Nat.pos_of_ne_zero h.2)
    exact Nat.sub_eq_zero_of_le this
  · rename_i h
    have : levelSum prio vals = 0 := by simpa [at_] using h
    omega

/-- At least `cut` leaves a level. -/
theorem sum_keptOf_le (prio excess : Nat) (vals : List (Nat × Nat × Nat)) :
    (vals.map (keptOf prio (min excess (levelSum prio vals)) (levelSum prio vals))).sum + min excess (levelSum prio vals)
      ≤ (vals.map fun v => v.2.2).sum := by
  generalize hL : levelSum prio vals = L
  generalize hc : min excess L = cut
  have cut_le : cut ≤ L := hc ▸ min_le_right _ _
  rcases Nat.eq_zero_or_pos L with zero | pos
  · have : cut = 0 := by omega
    rw [this, Nat.add_zero]
    exact List.sum_le_sum fun v _ => keptOf_le _ _ _ v
  · have one : ∀ v : Nat × Nat × Nat, L * keptOf prio cut L v + cut * (if v.2.1 = prio then v.2.2 else 0) ≤ L * v.2.2 := by
      intro v
      by_cases at_ : v.2.1 = prio
      · have h1 := ceilDiv_share_le (v := v.2.2) pos cut_le
        have h2 := le_ceilDiv_mul (n := cut * v.2.2) pos
        rw [keptOf, if_pos ⟨at_, pos.ne'⟩, if_pos at_, Nat.mul_sub]
        have := Nat.mul_le_mul_left L h1
        omega
      · simp [keptOf_other at_, at_]
    have all := List.sum_le_sum (l := vals) fun v _ => one v
    rw [List.sum_map_add, List.sum_map_mul_left, List.sum_map_mul_left, List.sum_map_mul_left,
      ← sumBy_eq_sum (fun v : Nat × Nat × Nat => if v.2.1 = prio then v.2.2 else 0)] at all
    change _ + cut * levelSum prio vals ≤ _ at all
    rw [hL, Nat.mul_comm cut L, ← Nat.mul_add] at all
    exact Nat.le_of_mul_le_mul_left all pos

/-! ### The levels one after another -/

/-- A value and what is left of it. -/
def withValue (g : Nat × Nat × Nat → Nat) (v : Nat × Nat × Nat) : Nat × Nat × Nat := (v.1, v.2.1, g v)

/-- What the scaling has done to the values `vals` once the priorities below `n` have had their turn: `excess` was to be taken
away, `left` of it is, and `g` is what is left of a value. -/
structure ScaledBelow (vals : List (Nat × Nat × Nat)) (n excess left : Nat) (g : Nat × Nat × Nat → Nat) : Prop where
  le : ∀ v, g v ≤ v.2.2
  above : ∀ v, n ≤ v.2.1 → g v = v.2.2
  sum : (vals.map g).sum + excess ≤ (vals.map fun v => v.2.2).sum + left
  spent : left = 0 ∨ ∀ v ∈ vals, v.2.1 < n → g v = 0
  order : ∀ v, ∀ w ∈ vals, w.2.1 < v.2.1 → g v < v.2.2 → g w = 0
  kept : excess = 0 → left = 0 ∧ ∀ v, g v = v.2.2

theorem ScaledBelow.start (vals : List (Nat × Nat × Nat)) (excess : Nat) :
    ScaledBelow vals 0 excess excess fun v => v.2.2 where
  le _ := le_rfl
  above _ _ := rfl
  sum := le_rfl
  spent := .inr fun _ _ h => absurd h (Nat.not_lt_zero _)
  order _ _ _ _ h := absurd h (lt_irrefl _)
  kept h := ⟨h, fun _ => rfl⟩

/-- A level's turn. -/
theorem ScaledBelow.level {vals : List (Nat × Nat × Nat)} {n excess left : Nat} {g : Nat × Nat × Nat → Nat}
    (h : ScaledBelow vals n excess left g) :
    ∃ g', (scaleLevel n left (vals.map (withValue g))).2 = vals.map (withValue g')
      ∧ ScaledBelow vals (n + 1) excess (scaleLevel n left (vals.map (withValue g))).1 g' := by
  rw [scaleLevel_eq]
  generalize hL : levelSum n (vals.map (withValue g)) = L
  refine ⟨fun v => keptOf n (min left L) L (withValue g v), by simp [withValue, Function.comp_def], ?_⟩
  have le (v) : keptOf n (min left L) L (withValue g v) ≤ g v := keptOf_le _ _ _ (withValue g v)
  refine ⟨fun v => (le v).trans (h.le v), fun v hv => ?_, ?_, ?_, fun v w hw lower less => ?_, fun none => ?_⟩
  · exact (keptOf_other (v := withValue g v) (Nat.ne_of_gt hv)).trans (h.above v (Nat.le_of_succ_le hv))
  · have sum := h.sum
    have cut := sum_keptOf_le n left (vals.map (withValue g))
    rw [hL, List.map_map, List.map_map] at cut
    change (vals.map fun v => keptOf n (min left L) L (withValue g v)).sum + min left L ≤ (vals.map g).sum at cut
    omega
  · rcases Nat.lt_or_ge L left with more | enough
    · refine .inr fun v hv below => ?_
      rcases Nat.lt_succ_iff_lt_or_eq.1 below with lower | at_
      · have := (h.spent.resolve_left (by omega)) v hv lower
        have := le v
        omega
      · rw [min_eq_right more.le, ← hL]
        exact keptOf_whole (List.mem_map_of_mem hv) at_
    · exact .inl (by simp [enough])
  · have lower_zero : g w = 0 := by
      by_cases at_ : v.2.1 = n
      · have cut : left ≠ 0 := by
          rintro rfl
          rw [Nat.zero_min, keptOf_none] at less
          exact absurd less (by simp [withValue, h.above v at_.ge])
        exact h.spent.resolve_left cut w hw (at_ ▸ lower)
      · rw [keptOf_other (v := withValue g v) at_] at less
        exact h.order v w hw lower less
    have := le w
    omega
  · obtain ⟨rfl, same⟩ := h.kept none
    refine ⟨Nat.zero_sub _, fun v => ?_⟩
    rw [Nat.zero_min, keptOf_none]
    exact same v

/-- What the scaling leaves: at most what is available when every priority has its turn, from the lowest up, and all of it when
there is no excess. -/
theorem scaleVals_scaled (vals : List (Nat × Nat × Nat)) (available : Nat) : ∃ left g,
    scaleVals vals available = vals.map (withValue g)
      ∧ ScaledBelow vals 9 ((vals.map fun v => v.2.2).sum - available) left g := by
  have turns : ∀ n, ∃ g,
      ((List.range n).foldl (fun (st : Nat × List (Nat × Nat × Nat)) p => scaleLevel p st.1 st.2)
        (sumBy (fun v => v.2.2) vals - available, vals)).2 = vals.map (withValue g)
      ∧ ScaledBelow vals n (sumBy (fun v => v.2.2) vals - available)
        ((List.range n).foldl (fun (st : Nat × List (Nat × Nat × Nat)) p => scaleLevel p st.1 st.2)
          (sumBy (fun v => v.2.2) vals - available, vals)).1 g := by
    intro n
    induction n with
    | zero => exact ⟨fun v => v.2.2, (List.map_id vals).symm, ScaledBelow.start _ _⟩
    | succ n ih =>
      obtain ⟨g, hg, inv⟩ := ih
      rw [List.range_succ, List.foldl_concat, hg]
      exact inv.level
  obtain ⟨g, hg, inv⟩ := turns 9
  rw [sumBy_eq_sum] at inv
  exact ⟨_, g, hg, inv⟩

end Sys2Proof.Machine
end

section
/-! Objects at different addresses, and updates that leave the objects alone. -/

namespace Sys2Proof.Machine

variable (d : Dev)

theorem regKey_ne_of_addr {a a' : Nat} (h : a % 2 ^ 24 ≠ a' % 2 ^ 24) (p e p' e' : Nat) : regKey p a e ≠ regKey p' a' e' := by
  unfold regKey; omega

theorem regKey_ne_of_elem {e e' : Nat} (h : e % 2 ^ 16 ≠ e' % 2 ^ 16) (p a p' a' : Nat) : regKey p a e ≠ regKey p' a' e' := by
  unfold regKey; omega

/-- A write leaves the objects at other addresses. -/
theorem Dev.get_set_addr {a a' : Nat} (h : a' % 2 ^ 24 ≠ a % 2 ^ 24) (e v e' : Nat) : (d.set a e v).get a' e' = d.get a' e' :=
  d.get_set_other a e v a' e' (regKey_ne_of_addr h _ _ _ _)

theorem Dev.get_bump_addr {a a' : Nat} (h : a' % 2 ^ 24 ≠ a % 2 ^ 24) (e n e' : Nat) : (d.bump a e n).get a' e' = d.get a' e' :=
  d.get_set_addr h e _ e'

/-- What leaves the store leaves every object. -/
theorem Dev.get_of_regs {d d' : Dev} (h : d'.regs = d.regs) (a e : Nat) : d'.get a e = d.get a e := by
  unfold Dev.get; rw [h]

end Sys2Proof.Machine
end

section
/-! The stalls after a scaling (R321, O50). -/

namespace Sys2Proof.Machine

variable (d : Dev)

/-! ### What a scaling writes -/

/-- A value written for each of a list of elements. -/
theorem Dev.get_putEff (a : Nat) (prio val : Nat → Nat) (ks : List Nat) (small : ∀ k ∈ ks, k < 2 ^ 16) {k : Nat} (hk : k < 2 ^ 16) :
    (d.putEff a (ks.map fun k => (k, prio k, val k))).get a k = if k ∈ ks then val k % 2 ^ regBits a else d.get a k := by
  induction ks generalizing d with
  | nil => simp [Dev.putEff, forEach]
  | cons j ks ih =>
    have step := ih (d.set a j (val j)) fun k hk => small k (List.mem_cons_of_mem _ hk)
    change ((d.set a j (val j)).putEff a _).get a k = _
    rw [step]
    by_cases here : k = j
    · simp [here]
    · have other : (d.set a j (val j)).get a k = d.get a k :=
        d.get_set_other a j _ a k (regKey_ne_of_elem (by
          have := small j List.mem_cons_self
          omega) _ _ _ _)
      simp [here, other]

theorem Dev.get_putEff_addr {a a' : Nat} (h : a' % 2 ^ 24 ≠ a % 2 ^ 24) (vals : List (Nat × Nat × Nat)) (e : Nat) :
    (d.putEff a vals).get a' e = d.get a' e :=
  forEach_same (fun d : Dev => d.get a' e) vals _ (fun v _ d => d.get_set_addr h v.1 v.2.2 e) d

@[simp] theorem Dev.putEff_mem (a : Nat) (vals : List (Nat × Nat × Nat)) : (d.putEff a vals).mem = d.mem := by
  unfold Dev.putEff
  exact forEach_same Dev.mem vals (fun v d => d.set a v.1 v.2.2) (fun _ _ _ => rfl) d

/-- The device with other stalls in its memory manager. -/
def Dev.withStalls (t : Tbl Stall) : Dev := { d with mem := { d.mem with stalls := t } }

/-- The marks of OVER_PITCH change the stalls and nothing else. -/
theorem Dev.markOver_eq (was : Nat → Nat) : ∃ t, d.markOver was = d.withStalls t := by
  unfold Dev.markOver
  refine forRange_keeps (fun x : Dev => ∃ t, x = d.withStalls t) 64 _ (fun k _ x hx => ?_) d ⟨d.mem.stalls, rfl⟩
  obtain ⟨t, rfl⟩ := hx
  split
  · exact ⟨_, rfl⟩
  · exact ⟨t, rfl⟩

theorem Dev.clearOver_eq (k : Nat) : ∃ t, d.clearOver k = d.withStalls t := by
  unfold Dev.clearOver
  split
  · exact ⟨_, rfl⟩
  · exact ⟨d.mem.stalls, rfl⟩

theorem Dev.clearOvers_eq : ∃ t, forRange 64 (fun k d => d.clearOver k) d = d.withStalls t := by
  refine forRange_keeps (fun x : Dev => ∃ t, x = d.withStalls t) 64 _ (fun k _ x hx => ?_) d ⟨d.mem.stalls, rfl⟩
  obtain ⟨t, rfl⟩ := hx
  exact (d.withStalls t).clearOver_eq k

end Sys2Proof.Machine
end

section
namespace Sys2Proof.Machine

variable (d : Dev)

/-! ### A rescale -/

/-- The memory objects that tell what is available. -/
def Dev.withAvailable (usable bandwidth online : Nat) : Dev :=
  ((d.set Reg.MEM_USABLE 0 usable).set Reg.MEM_BW_AVAIL 0 bandwidth).set Reg.MEM_ONLINE 0 online

theorem Dev.get_withAvailable {a : Nat} (h1 : a % 2 ^ 24 ≠ Reg.MEM_USABLE % 2 ^ 24) (h2 : a % 2 ^ 24 ≠ Reg.MEM_BW_AVAIL % 2 ^ 24)
    (h3 : a % 2 ^ 24 ≠ Reg.MEM_ONLINE % 2 ^ 24) (x y z e : Nat) : (d.withAvailable x y z).get a e = d.get a e := by
  rw [Dev.withAvailable, Dev.get_set_addr _ h3, Dev.get_set_addr _ h2, Dev.get_set_addr _ h1]

theorem Dev.onlineChans_congr {d d' : Dev} (state : ∀ m, d'.get Reg.MEM_CH_STATE m = d.get Reg.MEM_CH_STATE m) :
    d'.onlineChans = d.onlineChans := by
  unfold Dev.onlineChans; simp only [state]

/-- The usable capacity hangs on the channels and on the retired blocks. -/
theorem Dev.usableMiB_congr {d d' : Dev} (state : ∀ m, d'.get Reg.MEM_CH_STATE m = d.get Reg.MEM_CH_STATE m)
    (size : ∀ m, d'.get Reg.MEM_CH_SIZE m = d.get Reg.MEM_CH_SIZE m) (retired : d'.mem.retired = d.mem.retired) :
    d'.usableMiB = d.usableMiB := by
  unfold Dev.usableMiB; simp only [Dev.onlineChans_congr state, size, retired]

theorem Dev.usableMiB_withAvailable (x y z : Nat) : (d.withAvailable x y z).usableMiB = d.usableMiB :=
  Dev.usableMiB_congr (fun m => d.get_withAvailable (by decide) (by decide) (by decide) x y z m)
    (fun m => d.get_withAvailable (by decide) (by decide) (by decide) x y z m) rfl

theorem Dev.stallVals_congr {d d' : Dev} {a : Nat} (prio : ∀ k, d'.get Reg.ST_PRIO k = d.get Reg.ST_PRIO k)
    (val : ∀ k, d'.get a k = d.get a k) (sel : Nat → Bool) : d'.stallVals a sel = d.stallVals a sel := by
  unfold Dev.stallVals; simp only [prio, val]

theorem Dev.marks_eq (was : Nat → Nat) : ∃ t, forRange 64 (fun k d => d.clearOver k) (d.markOver was) = d.withStalls t := by
  obtain ⟨t, ht⟩ := d.markOver_eq was
  obtain ⟨t', ht'⟩ := (d.withStalls t).clearOvers_eq
  exact ⟨t', by rw [ht, ht']; rfl⟩

/-- The first half of a rescale: what is available, and the scaled capacities. -/
def Dev.scaleCaps : Dev :=
  let d1 := d.set Reg.MEM_USABLE 0 d.usableMiB
  let d2 := d.withAvailable d.usableMiB d1.bandwidth (maskOf d1.onlineChans)
  d2.putEff Reg.ST_EFF_CAP (scaleVals (d2.stallVals Reg.ST_CAP fun _ => true) d2.usableMiB)

/-- The second half: the scaled bandwidths and the hold time. -/
def Dev.scaleRest : Dev :=
  let bwIdx := d.get Reg.ST_BW 2
  let d1 := d.putEff Reg.ST_EFF_BW (scaleVals (d.stallVals Reg.ST_BW fun k => k != 2) (d.bandwidth - bwIdx))
  let d2 := d1.set Reg.ST_EFF_BW 2 (min bwIdx d1.bandwidth)
  let hold := d2.get Reg.TRG_HOLD
  d2.set Reg.TRG_HOLD_EFF 0
    (if d2.get Reg.ST_EFF_CAP 2 < d2.get Reg.ST_CAP 2 then min hold (d2.get Reg.ST_EFF_CAP 2 / 4 * 2048 - d2.get Reg.TRG_BACKLOG)
      else hold)

/-- A rescale is its two halves, and marks of OVER_PITCH. -/
theorem Dev.rescale_eq : ∃ t, d.rescale = d.scaleCaps.scaleRest.withStalls t := by
  obtain ⟨t, ht⟩ := d.scaleCaps.scaleRest.marks_eq d.effBytes
  exact ⟨t, ht⟩

@[simp] theorem Dev.get_withStalls (t : Tbl Stall) (a e : Nat) : (d.withStalls t).get a e = d.get a e := rfl

@[simp] theorem Dev.withStalls_mem (t : Tbl Stall) : (d.withStalls t).mem = { d.mem with stalls := t } := rfl

/-- The addresses of the objects that a rescale writes. -/
def rescaleObjs : List Nat :=
  [Reg.MEM_USABLE, Reg.MEM_BW_AVAIL, Reg.MEM_ONLINE, Reg.ST_EFF_CAP, Reg.ST_EFF_BW, Reg.TRG_HOLD_EFF]

theorem Dev.get_scaleRest {a : Nat} (h1 : a % 2 ^ 24 ≠ Reg.ST_EFF_BW % 2 ^ 24) (h2 : a % 2 ^ 24 ≠ Reg.TRG_HOLD_EFF % 2 ^ 24) (e : Nat) :
    d.scaleRest.get a e = d.get a e := by
  unfold Dev.scaleRest
  exact (Dev.get_set_addr _ h2 _ _ _).trans ((Dev.get_set_addr _ h1 _ _ _).trans (d.get_putEff_addr h1 _ _))

/-- A rescale leaves every other object. -/
theorem Dev.get_rescale {a : Nat} (h : ∀ b ∈ rescaleObjs, a % 2 ^ 24 ≠ b % 2 ^ 24) (e : Nat) : d.rescale.get a e = d.get a e := by
  simp only [rescaleObjs, List.forall_mem_cons] at h
  obtain ⟨usable, bandwidth, online, caps, bws, hold, -⟩ := h
  obtain ⟨t, ht⟩ := d.rescale_eq
  rw [ht]
  rw [Dev.get_withStalls, Dev.get_scaleRest _ bws hold]
  unfold Dev.scaleCaps
  exact (Dev.get_putEff_addr _ caps _ _).trans (d.get_withAvailable usable bandwidth online _ _ _ _)

@[simp] theorem Dev.scaleCaps_mem : d.scaleCaps.mem = d.mem := by
  simp [Dev.scaleCaps, Dev.withAvailable]

@[simp] theorem Dev.scaleRest_mem : d.scaleRest.mem = d.mem := by
  simp [Dev.scaleRest]

theorem Dev.rescale_mem : ∃ t, d.rescale.mem = { d.mem with stalls := t } := by
  obtain ⟨t, ht⟩ := d.rescale_eq
  exact ⟨t, by rw [ht, Dev.withStalls_mem, Dev.scaleRest_mem, Dev.scaleCaps_mem]⟩

theorem Dev.usable_rescale : d.rescale.get Reg.MEM_USABLE = d.usableMiB % 2 ^ 32 := by
  obtain ⟨t, ht⟩ := d.rescale_eq
  rw [ht]
  rw [Dev.get_withStalls, Dev.get_scaleRest _ (by decide) (by decide)]
  unfold Dev.scaleCaps Dev.withAvailable
  dsimp only
  rw [Dev.get_putEff_addr _ (by decide), Dev.get_set_addr _ (by decide), Dev.get_set_addr _ (by decide), Dev.get_set_same]
  rfl

/-- The stalls' configured capacities, with their priorities. -/
def Dev.stallCaps : List (Nat × Nat × Nat) := (List.range 64).map fun k => (k, d.get Reg.ST_PRIO k, d.get Reg.ST_CAP k)

theorem Dev.stallVals_all : (d.stallVals Reg.ST_CAP fun _ => true) = d.stallCaps := by
  simp [Dev.stallVals, Dev.stallCaps]

/-- The effective capacities after a rescale are what the scaling leaves of the configured ones. -/
theorem Dev.effCap_rescale (small : ∀ k < 64, d.get Reg.ST_CAP k < 2 ^ 32) : ∃ left g,
    ScaledBelow d.stallCaps 9 ((d.stallCaps.map fun v => v.2.2).sum - d.usableMiB) left g
      ∧ ∀ k < 64, d.rescale.get Reg.ST_EFF_CAP k = g (k, d.get Reg.ST_PRIO k, d.get Reg.ST_CAP k) := by
  obtain ⟨left, g, hg, inv⟩ := scaleVals_scaled d.stallCaps d.usableMiB
  refine ⟨left, g, inv, fun k hk => ?_⟩
  obtain ⟨t, ht⟩ := d.rescale_eq
  rw [ht]
  rw [Dev.get_withStalls, Dev.get_scaleRest _ (by decide) (by decide)]
  have vals (x y z) : (d.withAvailable x y z).stallVals Reg.ST_CAP (fun _ => true) = d.stallCaps :=
    (Dev.stallVals_congr (fun m => d.get_withAvailable (by decide) (by decide) (by decide) x y z m)
      (fun m => d.get_withAvailable (by decide) (by decide) (by decide) x y z m) _).trans d.stallVals_all
  unfold Dev.scaleCaps
  dsimp only
  rw [vals, Dev.usableMiB_withAvailable, hg, Dev.stallCaps, List.map_map]
  change (Dev.putEff _ _ ((List.range 64).map fun k => (k, d.get Reg.ST_PRIO k, g (k, d.get Reg.ST_PRIO k, d.get Reg.ST_CAP k)))).get _ _ = _
  rw [Dev.get_putEff _ _ _ (fun k => g (k, d.get Reg.ST_PRIO k, d.get Reg.ST_CAP k)) _
    (fun k hk => by have := List.mem_range.1 hk; omega) (by omega), if_pos (List.mem_range.2 hk)]
  exact Nat.mod_eq_of_lt (lt_of_le_of_lt (inv.le _) (small k hk))

/-- What R321 asks of the effective capacities `d` has, given the configured ones of `s`. -/
def ScaledFrom (s d : Dev) : Prop :=
  d.get Reg.MEM_USABLE = s.usableMiB % 2 ^ 32 ∧ sumBy (fun k => d.get Reg.ST_EFF_CAP k) (List.range 64) ≤ s.usableMiB
    ∧ (∀ k < 64, d.get Reg.ST_EFF_CAP k ≤ s.get Reg.ST_CAP k ∧ d.get Reg.ST_CAP k = s.get Reg.ST_CAP k)
    ∧ (sumBy (fun k => s.get Reg.ST_CAP k) (List.range 64) ≤ s.usableMiB →
      ∀ k < 64, d.get Reg.ST_EFF_CAP k = s.get Reg.ST_CAP k)
    ∧ ∀ k < 64, ∀ j < 64, s.get Reg.ST_PRIO j < s.get Reg.ST_PRIO k → d.get Reg.ST_EFF_CAP k < s.get Reg.ST_CAP k →
      d.get Reg.ST_EFF_CAP j = 0

theorem Dev.rescale_scaled (fair : ∀ k < 64, d.get Reg.ST_PRIO k ≤ 8 ∧ d.get Reg.ST_CAP k < 2 ^ 32) : ScaledFrom d d.rescale := by
  obtain ⟨left, g, inv, eff⟩ := d.effCap_rescale fun k hk => (fair k hk).2
  have mem {k : Nat} (hk : k < 64) : (k, d.get Reg.ST_PRIO k, d.get Reg.ST_CAP k) ∈ d.stallCaps :=
    List.mem_map_of_mem (List.mem_range.2 hk)
  have caps : (d.stallCaps.map fun v => v.2.2).sum = sumBy (fun k => d.get Reg.ST_CAP k) (List.range 64) := by
    rw [sumBy_eq_sum, Dev.stallCaps, List.map_map]; rfl
  have effs : sumBy (fun k => d.rescale.get Reg.ST_EFF_CAP k) (List.range 64) = (d.stallCaps.map g).sum := by
    rw [sumBy_eq_sum, Dev.stallCaps, List.map_map]
    exact congrArg List.sum (List.map_congr_left fun k hk => eff k (List.mem_range.1 hk))
  have sum := inv.sum
  rw [caps, ← effs] at sum
  refine ⟨d.usable_rescale, ?_, fun k hk => ⟨?_, ?_⟩, fun fits k hk => ?_, fun k hk j hj lower less => ?_⟩
  · rcases inv.spent with none | zero
    · omega
    · rw [effs]
      have : (d.stallCaps.map g).sum = 0 := by
        refine List.sum_eq_zero fun x hx => ?_
        obtain ⟨v, hv, rfl⟩ := List.mem_map.1 hx
        obtain ⟨k, hk, rfl⟩ := List.mem_map.1 hv
        exact zero _ hv (Nat.lt_succ_of_le (fair k (List.mem_range.1 hk)).1)
      omega
  · rw [eff k hk]; exact inv.le _
  · exact d.get_rescale (by decide) k
  · rw [eff k hk]
    exact (inv.kept (by rw [caps]; exact Nat.sub_eq_zero_of_le fits)).2 _
  · rw [eff k hk] at less
    rw [eff j hj]
    exact inv.order _ _ (mem hj) lower less

end Sys2Proof.Machine
end

section
/-! The commands of the memory manager (R320 to R323, R336 to R344): scaling, scrubbing, pitches, and a channel that goes OFFLINE (O50). -/

namespace Sys2Proof.Machine

variable (d : Dev)

/-! ### Scaling -/

/-- Where a device agrees with `s` on what the scaling is made from, being scaled from it is being scaled from `s`. -/
theorem ScaledFrom.congr {s s' d : Dev} (h : ScaledFrom s d) (usable : s'.usableMiB = s.usableMiB)
    (cap : ∀ k, s'.get Reg.ST_CAP k = s.get Reg.ST_CAP k) (prio : ∀ k, s'.get Reg.ST_PRIO k = s.get Reg.ST_PRIO k) :
    ScaledFrom s' d := by
  simpa only [ScaledFrom, usable, cap, prio] using h

theorem ScaledFrom.of_regs {s d d' : Dev} (h : ScaledFrom s d) (same : d'.regs = d.regs) : ScaledFrom s d' := by
  simpa only [ScaledFrom, Dev.get_of_regs same] using h

@[simp] theorem Dev.log_mem (source code : Nat) (v1 v2 v3 : Int) : (d.log source code v1 v2 v3).mem = d.mem := by
  obtain ⟨b, n, h⟩ := d.log_eq source code v1 v2 v3; rw [h]

/-- The device with the note whether it is scaled. -/
def Dev.noteScaled (b : Bool) : Dev := { d with mem := { d.mem with scaled := b } }

theorem Dev.noteScaled_regs (b : Bool) : (d.noteScaled b).regs = d.regs := rfl

/-- A scaling recomputed is a rescale, and a record where the stalls are or were scaled. -/
theorem Dev.scaleNow_eq (cause : Nat) : ∃ b, d.scaleNow cause = d.rescale.noteScaled b
    ∨ ∃ v1 v2 v3, d.scaleNow cause = (d.rescale.noteScaled b).log 0xFF 0x0701 v1 v2 v3 := by
  unfold Dev.scaleNow
  generalize d.rescale = x
  dsimp only
  generalize x.anyScaled = b
  refine ⟨b, ?_⟩
  split
  · exact .inr ⟨_, _, _, rfl⟩
  · exact .inl rfl

theorem Dev.scaleNow_regs (cause : Nat) : (d.scaleNow cause).regs = d.rescale.regs := by
  obtain ⟨b, h | ⟨v1, v2, v3, h⟩⟩ := d.scaleNow_eq cause
  · rw [h, Dev.noteScaled_regs]
  · rw [h, Dev.log_regs, Dev.noteScaled_regs]

theorem Dev.scaleNow_mem (cause : Nat) : ∃ t b, (d.scaleNow cause).mem = { d.mem with stalls := t, scaled := b } := by
  obtain ⟨t, ht⟩ := d.rescale_mem
  obtain ⟨b, h | ⟨v1, v2, v3, h⟩⟩ := d.scaleNow_eq cause
  · exact ⟨t, b, by rw [h, Dev.noteScaled, ht]⟩
  · exact ⟨t, b, by rw [h, Dev.log_mem, Dev.noteScaled, ht]⟩

theorem Dev.scaleNow_scaled {s d : Dev} (regs : d.regs = s.regs) (retired : d.mem.retired = s.mem.retired)
    (fair : ∀ k < 64, s.get Reg.ST_PRIO k ≤ 8 ∧ s.get Reg.ST_CAP k < 2 ^ 32) (cause : Nat) : ScaledFrom s (d.scaleNow cause) := by
  have same := Dev.get_of_regs regs
  have fair' : ∀ k < 64, d.get Reg.ST_PRIO k ≤ 8 ∧ d.get Reg.ST_CAP k < 2 ^ 32 := by simpa only [same] using fair
  exact ((d.rescale_scaled fair').congr (Dev.usableMiB_congr (fun m => (same _ m).symm) (fun m => (same _ m).symm) retired.symm)
    (fun k => (same _ k).symm) (fun k => (same _ k).symm)).of_regs (d.scaleNow_regs cause)

/-- PITCH_SCALING at the slot it waits for (R321). -/
theorem exec_pitchScaling {s : State} {t cause : Nat} (waits : s.dev.mem.scaleAt = some (t, cause)) (due : t ≤ s.dev.now) :
    exec .pitchScaling s = .next { s with dev := Dev.scaleNow { s.dev with mem := { s.dev.mem with scaleAt := none } } cause } := by
  change execPitchScaling s = _
  unfold execPitchScaling
  simp only [State.on_eq, waits, if_pos due]

theorem exec_pitchRestore {s : State} {t : Nat} (waits : s.dev.mem.restoreAt = some t) (due : t ≤ s.dev.grid.cycleStart) :
    exec .pitchRestore s = .next { s with dev := Dev.scaleNow { s.dev with mem := { s.dev.mem with restoreAt := none } } 3 } := by
  change execPitchRestore s = _
  unfold execPitchRestore
  simp only [State.on_eq, waits, if_pos due]

end Sys2Proof.Machine
end

section
namespace Sys2Proof.Machine

variable (d : Dev)

/-! ### Bits -/

@[simp] theorem bit_setBit (v i : Nat) (b : Bool) : bit (setBit v i b) i = b := by
  have set : (v ||| 2 ^ i) / 2 ^ i % 2 = 1 := by
    have : (v ||| 2 ^ i).testBit i = true := by simp
    rwa [Nat.testBit_eq_decide_div_mod_eq, decide_eq_true_eq] at this
  have split : v ||| 2 ^ i = 2 ^ i * ((v ||| 2 ^ i) / 2 ^ i) + (v ||| 2 ^ i) % 2 ^ i := (Nat.div_add_mod _ _).symm
  obtain ⟨k, hk⟩ : ∃ k, (v ||| 2 ^ i) / 2 ^ i = 2 * k + 1 := ⟨(v ||| 2 ^ i) / 2 ^ i / 2, by omega⟩
  have low := Nat.mod_lt (v ||| 2 ^ i) (Nat.two_pow_pos i)
  have value : setBit v i b = 2 ^ i * (2 * k + b.toNat) + (v ||| 2 ^ i) % 2 ^ i := by
    rw [hk, Nat.mul_add_one] at split
    simp only [setBit, setField, Nat.add_sub_cancel_left, pow_one, Nat.add_one_sub_one, Nat.shiftLeft_eq, one_mul,
      Nat.mod_eq_of_lt b.toNat_lt]
    rw [Nat.mul_add, Nat.mul_comm (2 ^ i) b.toNat]
    omega
  rw [bit, Nat.testBit_eq_decide_div_mod_eq, value, Nat.mul_add_div (Nat.two_pow_pos i), Nat.div_eq_of_lt low]
  cases b <;> simp

theorem bit_mod {v i n : Nat} (h : i < n) : bit (v % 2 ^ n) i = bit v i := by
  simp [bit, Nat.testBit_mod_two_pow, h]

theorem bit_maskOf (l : List Nat) (i : Nat) : bit (maskOf l) i = decide (i ∈ l) := by
  have h : ∀ acc, (l.foldl (fun a i => a ||| 2 ^ i) acc).testBit i = (acc.testBit i || decide (i ∈ l)) := by
    induction l with
    | nil => simp
    | cons j l ih =>
      intro acc
      rw [List.foldl_cons, ih, Nat.testBit_or, Nat.testBit_two_pow, Bool.or_assoc]
      congr 1
      by_cases hj : j = i <;> simp [hj, eq_comm (a := i)]
  simpa [bit, maskOf] using h 0

/-! ### Blocks (R343) -/

/-- A block is marked for retirement or has left the free list. -/
def Memory.gone (m : Memory) (b : Nat) : Prop := (∃ y ∈ m.marked, y.1 = b) ∨ b ∈ m.retired

/-- A marked block that is freed is retired; the objects but the count of retired blocks and the usable capacity stay. -/
theorem Dev.retireFreed_marked {b : Nat} (h : ∃ y ∈ d.mem.marked, y.1 = b) :
    b ∈ (d.retireFreed b).mem.retired := by
  unfold Dev.retireFreed
  split
  · simp
  · rename_i none
    obtain ⟨y, hy, rfl⟩ := h
    exact absurd (List.find?_eq_none.1 none y hy) (by simp)

/-- What a retirement leaves. -/
theorem Dev.retireFreed_frame (b : Nat) :
    (d.retireFreed b).mem.scrubPos = d.mem.scrubPos ∧ (d.retireFreed b).mem.scrubPaid = d.mem.scrubPaid
      ∧ ∀ a e, a % 2 ^ 24 ≠ Reg.MEM_RETIRED % 2 ^ 24 → a % 2 ^ 24 ≠ Reg.MEM_USABLE % 2 ^ 24 →
        (d.retireFreed b).get a e = d.get a e := by
  unfold Dev.retireFreed
  split
  · refine ⟨by simp, by simp, fun a e h1 h2 => ?_⟩
    rw [Dev.get_set_addr _ h2, Dev.log_get, Dev.get_bump_addr _ h1]
    rfl
  · exact ⟨rfl, rfl, fun _ _ _ _ => rfl⟩

theorem Dev.markBlock_gone (b why : Nat) : (d.markBlock b why).mem.gone b := by
  unfold Dev.markBlock
  split
  · rename_i known
    simp only [Bool.or_eq_true, List.contains_iff_mem, List.any_eq_true, beq_iff_eq] at known
    exact known.symm
  · dsimp only
    split
    · exact .inl ⟨(b, why), by simp, rfl⟩
    · exact .inr (Dev.retireFreed_marked _ ⟨(b, why), by simp, rfl⟩)

theorem Dev.markBlock_frame (b why : Nat) :
    (d.markBlock b why).mem.scrubPos = d.mem.scrubPos ∧ (d.markBlock b why).mem.scrubPaid = d.mem.scrubPaid
      ∧ ∀ a e, a % 2 ^ 24 ≠ Reg.MEM_RETIRED % 2 ^ 24 → a % 2 ^ 24 ≠ Reg.MEM_USABLE % 2 ^ 24 →
        (d.markBlock b why).get a e = d.get a e := by
  unfold Dev.markBlock
  split
  · exact ⟨rfl, rfl, fun _ _ _ _ => rfl⟩
  · dsimp only
    split
    · exact ⟨rfl, rfl, fun _ _ _ _ => rfl⟩
    · exact Dev.retireFreed_frame _ b

/-! ### A word read (R335, R336) -/

/-- What a read finds hangs on the objects, and on which blocks are held, lost, and of which epoch. -/
theorem Dev.wordFault_congr {d d' : Dev} (regs : d'.regs = d.regs) (lost : d'.mem.lost = d.mem.lost)
    (stalls : d'.mem.stalls = d.mem.stalls) (epochs : d'.mem.epochs = d.mem.epochs) (x : BadWord) :
    d'.wordFault x = d.wordFault x := by
  unfold Dev.wordFault Dev.blockLost Memory.holds
  simp only [lost, stalls, epochs, Dev.get_of_regs regs]

/-- The device with the corrections of its blocks, and the uncorrectable words of its channels, noted. -/
def Dev.noteCorrections (t : Tbl (List Nat)) : Dev := { d with mem := { d.mem with corrections := t } }

def Dev.noteUncorrectable (t : Vector (List Nat) 8) : Dev := { d with mem := { d.mem with uncTimes := t } }

/-- The block of a word. -/
def blockOfWord (x : BadWord) : Nat := x.chan.val * 2 ^ 20 + x.block.toNat

/-- A corrected word is counted, and its block marked when that is one correction too many. -/
theorem Dev.memFault_corrected {x : BadWord} (online : d.get Reg.MEM_CH_STATE x.chan.val = 2) (h : d.wordFault x = some .corrected) :
    ∃ t n, d.memFault x = if ((d.noteCorrections t).bump Reg.ECC_COR x.chan.val).get Reg.MEM_RETIRE_THR ≤ n + 1
      then ((d.noteCorrections t).bump Reg.ECC_COR x.chan.val).markBlock (blockOfWord x) 0
      else (d.noteCorrections t).bump Reg.ECC_COR x.chan.val := by
  unfold Dev.memFault
  rw [if_neg (not_not.2 online), h]
  exact ⟨_, _, rfl⟩

/-- An uncorrectable word is counted, and its block marked. -/
theorem Dev.memFault_uncorrectable {x : BadWord} (online : d.get Reg.MEM_CH_STATE x.chan.val = 2)
    (h : d.wordFault x = some .uncorrectable) :
    ∃ t, d.memFault x = ((d.noteUncorrectable t).bump Reg.ECC_UNC x.chan.val).markBlock (blockOfWord x) 1 := by
  unfold Dev.memFault
  rw [if_neg (not_not.2 online), h]
  exact ⟨_, rfl⟩

/-- A wrong tag is counted. -/
theorem Dev.memFault_tagError {x : BadWord} (online : d.get Reg.MEM_CH_STATE x.chan.val = 2) (h : d.wordFault x = some .tagError) :
    ∃ t, d.memFault x = (d.noteUncorrectable t).bump Reg.ECC_TAG x.chan.val := by
  unfold Dev.memFault
  rw [if_neg (not_not.2 online), h]
  exact ⟨_, rfl⟩

theorem Dev.memFault_none {x : BadWord} (h : d.wordFault x = none) : d.memFault x = d := by
  unfold Dev.memFault
  rw [h]
  exact ite_self d

/-- What a read leaves of the scrubber's place. -/
theorem Dev.memFault_place {x : BadWord} (online : d.get Reg.MEM_CH_STATE x.chan.val = 2) :
    (d.memFault x).mem.scrubPos = d.mem.scrubPos ∧ (d.memFault x).mem.scrubPaid = d.mem.scrubPaid := by
  cases fault : d.wordFault x with
  | none => rw [d.memFault_none fault]; exact ⟨rfl, rfl⟩
  | some kind =>
    cases kind with
    | corrected =>
      obtain ⟨t, n, h⟩ := d.memFault_corrected online fault
      rw [h]
      split
      · obtain ⟨pos, paid, -⟩ := ((d.noteCorrections t).bump Reg.ECC_COR x.chan.val).markBlock_frame (blockOfWord x) 0
        exact ⟨pos, paid⟩
      · exact ⟨rfl, rfl⟩
    | uncorrectable =>
      obtain ⟨t, h⟩ := d.memFault_uncorrectable online fault
      obtain ⟨pos, paid, -⟩ := ((d.noteUncorrectable t).bump Reg.ECC_UNC x.chan.val).markBlock_frame (blockOfWord x) 1
      rw [h]
      exact ⟨pos, paid⟩
    | tagError =>
      obtain ⟨t, h⟩ := d.memFault_tagError online fault
      rw [h]
      exact ⟨rfl, rfl⟩

/-- The counter of a fault after the word was handled. -/
theorem Dev.get_markBlock_bump {a : Nat} (h1 : a % 2 ^ 24 ≠ Reg.MEM_RETIRED % 2 ^ 24) (h2 : a % 2 ^ 24 ≠ Reg.MEM_USABLE % 2 ^ 24)
    (m b why : Nat) : ((d.bump a m).markBlock b why).get a m = min (d.get a m + 1) (2 ^ regBits a - 1) := by
  obtain ⟨-, -, get⟩ := (d.bump a m).markBlock_frame b why
  rw [get a m h1 h2, Dev.get_bump_same]

end Sys2Proof.Machine
end

section
namespace Sys2Proof.Machine

variable (d : Dev)

/-! ### Scrubbing (R13, R336 to R339) -/

/-- The scrubber's bytes read by now, in units of 1 / TB_FNOM byte (R13, R338). -/
def Dev.scrubBytes : Nat := d.mem.scrubPaid + min d.scrubCap (d.get Reg.GV_SCRUB_PERMIT) * 1000 * (d.now - d.mem.scrubAt)

theorem Dev.wordsBefore_congr {d d' : Dev} (regs : d'.regs = d.regs) (c addr : Nat) : d'.wordsBefore c addr = d.wordsBefore c addr := by
  have same := Dev.get_of_regs regs
  unfold Dev.wordsBefore
  simp only [Dev.onlineChans_congr (same _), same]

@[simp] theorem Dev.payScrub_wordsBefore (c addr : Nat) : d.payScrub.wordsBefore c addr = d.wordsBefore c addr :=
  Dev.wordsBefore_congr rfl c addr

variable {s : State}

/-- A scrub window opens in its place among the calendar's actions (R338). -/
theorem exec_scrubWindowOpen {o : CalOcc} (due : s.dev.windowDue = some o) (scrub : o.action = 6) :
    exec .scrubWindowOpen s = .next { s with
      dev := Dev.set { (s.dev.passWindow o).payScrub with mem := { (s.dev.passWindow o).payScrub.mem with
        scrubUntil := some (max (s.dev.mem.scrubUntil.getD 0) (o.at_ + o.arg)) } } Reg.SCR_STATUS 0
        (setBit (s.dev.get Reg.SCR_STATUS) 1 true) } := by
  change execScrubWindowOpen s = _
  unfold execScrubWindowOpen
  simp only [State.on_eq, due, if_pos scrub]
  rfl

/-- A scrub window ends once its time has passed (R338). -/
theorem exec_scrubWindowEnd {t : Nat} (open_ : s.dev.mem.scrubUntil = some t) :
    exec .scrubWindowEnd s = .next { s with dev := if t ≤ s.dev.now then s.dev.endScrub else s.dev } := by
  change execScrubWindowEnd s = _
  unfold execScrubWindowEnd
  simp only [State.on_eq, open_]

/-- The scrubber comes to a word that it may have reached (R13, R338). -/
theorem exec_scrubRead_external {x : BadWord} (awake : s.dev.mode ≠ .safe) (online : s.dev.get Reg.MEM_CH_STATE x.chan.val = 2)
    (within : x.block.toNat * 2 ^ 18 + x.word.toNat < s.dev.get Reg.MEM_CH_SIZE x.chan.val * 2 ^ 17)
    (ahead : s.dev.mem.scrubPos ≤ x.chan.val * 2 ^ 32 + (x.block.toNat * 2 ^ 18 + x.word.toNat))
    (paid : 8 * (s.dev.wordsBefore x.chan.val (x.block.toNat * 2 ^ 18 + x.word.toNat) + 1) * s.dev.get Reg.TB_FNOM ≤ s.dev.scrubBytes) :
    exec (.scrubRead (.external x)) s = .next { s with dev := Dev.memFault { s.dev.payScrub with mem := { s.dev.payScrub.mem with
      scrubPos := x.chan.val * 2 ^ 32 + (x.block.toNat * 2 ^ 18 + x.word.toNat) + 1 } } x } := by
  change execScrubRead (.external x) s = _
  unfold execScrubRead
  have reached : s.dev.payScrub.scrubReached
      (s.dev.payScrub.wordsBefore x.chan.val (x.block.toNat * 2 ^ 18 + x.word.toNat) + 1) = true := by
    rw [Dev.payScrub_wordsBefore]
    exact decide_eq_true paid
  simp only [State.on_eq]
  rw [if_neg]
  rintro (h | h | h | h | h)
  · exact awake h
  · exact h online
  · exact absurd within (Nat.not_lt.2 h)
  · exact absurd ahead (Nat.not_le.2 h)
  · exact h reached

/-- The device once a lap of external memory that took `n` slots has ended. -/
def Dev.lapDone : Dev :=
  (Dev.set { d.payScrub with mem := { d.payScrub.mem with lapFrom := d.now, scrubPos := 0, scrubPaid := 0 } } Reg.SCR_LAP 0
    ((d.now - d.mem.lapFrom) / d.second)).bump Reg.SCR_LAPS

/-- A lap of external memory ends once the scrubber may have read it whole (R339). -/
theorem exec_scrubLapEnd_external (paid : 8 * s.dev.wordsBefore 8 0 * s.dev.get Reg.TB_FNOM ≤ s.dev.scrubBytes) :
    exec (.scrubLapEnd false) s = .next { s with
      dev := if s.dev.now - s.dev.mem.lapFrom ≤ s.dev.lapDone.get Reg.SCR_LAP_LIMIT * s.dev.lapDone.second then
        s.dev.lapDone.set Reg.SCR_STATUS 0 (setBit (s.dev.lapDone.get Reg.SCR_STATUS) 0 false)
      else s.dev.lapDone } := by
  have reached : s.dev.payScrub.scrubReached (s.dev.wordsBefore 8 0) = true := decide_eq_true paid
  exact exec_next_congr rfl ((if_neg Bool.false_ne_true).trans (if_neg (by rw [reached]; decide)))

/-- The lap limit runs out for the first time in a lap (R339). -/
theorem exec_lapLimitExceeded (late : s.dev.get Reg.SCR_LAP_LIMIT * s.dev.second < s.dev.now - s.dev.mem.lapFrom)
    (first : bit (s.dev.get Reg.SCR_STATUS) 0 = false) :
    exec .lapLimitExceeded s = .next { s with
      dev := (s.dev.set Reg.SCR_STATUS 0 (setBit (s.dev.get Reg.SCR_STATUS) 0 true)).log 0xFF 0x0704
        ((s.dev.now - s.dev.mem.lapFrom) / s.dev.second : Nat) } := by
  refine exec_next_congr rfl (if_neg ?_)
  rw [first, Bool.or_false, decide_eq_true_eq]
  exact Nat.not_le.2 late

/-! ### Writes that the dictionary lets through (R421) -/

/-- The value of bytes fits their number. -/
theorem beNat_lt (bs : Bytes) : beNat bs < 2 ^ (8 * bs.length) := by
  have h : ∀ acc n, acc < 2 ^ (8 * n) → bs.foldl (fun a b => a * 256 + b.toNat) acc < 2 ^ (8 * (n + bs.length)) := by
    induction bs with
    | nil => intro acc n h; simpa using h
    | cons b bs ih =>
      intro acc n h
      have step : acc * 256 + b.toNat < 2 ^ (8 * (n + 1)) := by
        have := b.isLt
        rw [Nat.mul_add_one 8 n, Nat.pow_add]
        omega
      simpa [Nat.add_assoc, Nat.add_comm 1] using ih _ (n + 1) step
  simpa [beNat] using h 0 0 (by simp)

/-- A write that is let through has passed the check of its value. -/
theorem Dev.Admits.value {d : Dev} {w : Writer} {a e : Nat} {val : Bytes} {r : ObjRow} (h : d.Admits w a e val) (row : objRow a = some r) :
    valueCheck r val = none := by
  unfold Dev.Admits Dev.gate at h
  rw [row] at h
  dsimp only at h
  split at h
  · exact nomatch h
  · split at h
    · exact nomatch h
    · exact h

/-- In SAFE only the objects of R492 let a write through. -/
theorem Dev.Admits.not_safe {d : Dev} {w : Writer} {a e : Nat} {val : Bytes} {r : ObjRow} (h : d.Admits w a e val) (row : objRow a = some r)
    (closed : writableInSafe r = false) : d.mode ≠ .safe := by
  intro safe
  unfold Dev.Admits Dev.gate at h
  rw [row] at h
  dsimp only at h
  split at h
  · exact nomatch h
  · simp [Dev.accessCheck, safe, closed] at h

/-- An integer value that passed its check fits its object. -/
theorem valueCheck_lt {r : ObjRow} {val : Bytes} (h : valueCheck r val = none) (word : r.ty.bytes ≠ 0) :
    beNat val < 2 ^ (8 * r.ty.bytes) := by
  have len : val.length = r.ty.bytes := by
    unfold valueCheck at h
    split at h
    · rename_i ty; simp [ty, ObjTy.bytes] at word
    · rename_i ty; simp [ty, ObjTy.bytes] at word
    · rename_i ty
      rw [ty]
      by_contra no
      simp [if_neg (show ¬ val.length = 12 from no)] at h
    all_goals
      by_contra no
      rw [if_pos no] at h
      exact nomatch h
  rw [← len]
  exact beNat_lt val

/-- An answer leaves the objects but the counts of requests and of what is sent. -/
theorem Dev.get_answer_addr {a : Nat} (h1 : a % 2 ^ 24 ≠ Reg.COM_EXEC % 2 ^ 24) (h2 : a % 2 ^ 24 ≠ Reg.BE_TX_FRAMES % 2 ^ 24)
    (h3 : a % 2 ^ 24 ≠ Reg.BE_TX_BYTES % 2 ^ 24) (w : Writer) (st : Status) (value : Bytes) (e : Nat) :
    (d.answer w st value).get a e = d.get a e :=
  d.answer_get w st value a e (fun _ => regKey_ne_of_addr h1 _ _ _ _) (fun _ => regKey_ne_of_addr h2 _ _ _ _)
    fun _ => regKey_ne_of_addr h3 _ _ _ _

/-! ### Pitches (R320) -/

/-- The pitch object written: bandwidth or capacity. -/
abbrev pitchObj (bw : Bool) : Nat := if bw then Reg.ST_BW else Reg.ST_CAP

/-- Outcome and effect of a pitch written for one stall (R320, R323). -/
def Dev.putPitch (bw : Bool) (k : Nat) (d : Dev) (v : Nat) : Status × Dev :=
  if !bw && v % 2 == 1 then refuse .range d
  else if (if bw then 307000 else d.get Reg.MEM_USABLE) < (d.set (pitchObj bw) k v).stallSum (pitchObj bw) then refuse .pitchOvercommit d
  else (.accepted, (d.set (pitchObj bw) k v).rescale)

theorem exec_stallPitchWrite_index (w : Writer) (bw : Bool) (val : Bytes) (s : State) :
    exec (.stallPitchWrite w bw 2 val) s
      = .next { s with dev := s.dev.answer w (if s.dev.mode = .safe then .wrongMode else .access) } := rfl

theorem exec_stallPitchWrite {k : Fin 64} (other : k.val ≠ 2) (w : Writer) (bw : Bool) (val : Bytes) (s : State) :
    exec (.stallPitchWrite w bw (BitVec.ofNat 16 k.val) val) s
      = .next { s with dev := s.dev.write w (pitchObj bw) k.val val (Dev.putPitch bw k.val) } := by
  have toNat : (BitVec.ofNat 16 k.val).toNat = k.val := by
    rw [BitVec.toNat_ofNat, Nat.mod_eq_of_lt (by omega)]
  have one : k.val ≠ 0xFFFF := by omega
  change execStallPitchWrite w bw (BitVec.ofNat 16 k.val) val s = _
  unfold execStallPitchWrite
  simp only [State.on_eq, toNat, if_neg other, if_neg one]
  rfl

/-- The sum of the pitches with one of them written. -/
theorem Dev.stallSum_set (a : Nat) (k : Fin 64) {v : Nat} (fits : v < 2 ^ regBits a) :
    (d.set a k.val v).stallSum a = sumBy (fun j => if j = k.val then v else d.get a j) (List.range 64) := by
  rw [Dev.stallSum, sumBy_eq_sum, sumBy_eq_sum]
  refine congrArg List.sum (List.map_congr_left fun j hj => ?_)
  have := List.mem_range.1 hj
  by_cases here : j = k.val
  · rw [here, Dev.get_set_same, Nat.mod_eq_of_lt fits, if_pos rfl]
  · rw [if_neg here, Dev.get_set_other _ _ _ _ _ _ (regKey_ne_of_elem (by omega) _ _ _ _)]

end Sys2Proof.Machine
end

section
namespace Sys2Proof.Machine

variable (d : Dev)

/-- The device once the scrubber has come to a word: its place in the lap, and what it may have read. -/
def Dev.scrubTo (place : Nat) : Dev := { d.payScrub with mem := { d.payScrub.mem with scrubPos := place } }

/-- What a scrubbed word leaves, by what the read finds of it (R335, R336, R343). -/
theorem Dev.memFault_scrubTo {x : BadWord} (place : Nat) (online : d.get Reg.MEM_CH_STATE x.chan.val = 2) :
    match d.wordFault x with
    | none => ((d.scrubTo place).memFault x).mem.marked = d.mem.marked ∧ ((d.scrubTo place).memFault x).mem.retired = d.mem.retired
        ∧ ((d.scrubTo place).memFault x).regs = d.regs
    | some .corrected => ((d.scrubTo place).memFault x).get Reg.ECC_COR x.chan.val = min (d.get Reg.ECC_COR x.chan.val + 1) (2 ^ 64 - 1)
        ∧ (d.get Reg.MEM_RETIRE_THR ≤ 1 → ((d.scrubTo place).memFault x).mem.gone (blockOfWord x))
    | some .uncorrectable => ((d.scrubTo place).memFault x).get Reg.ECC_UNC x.chan.val = min (d.get Reg.ECC_UNC x.chan.val + 1) (2 ^ 64 - 1)
        ∧ ((d.scrubTo place).memFault x).mem.gone (blockOfWord x)
    | some .tagError => ((d.scrubTo place).memFault x).get Reg.ECC_TAG x.chan.val = min (d.get Reg.ECC_TAG x.chan.val + 1) (2 ^ 64 - 1)
        ∧ ((d.scrubTo place).memFault x).mem.marked = d.mem.marked ∧ ((d.scrubTo place).memFault x).mem.retired = d.mem.retired := by
  have same : (d.scrubTo place).wordFault x = d.wordFault x := Dev.wordFault_congr rfl rfl rfl rfl x
  cases fault : d.wordFault x with
  | none =>
    rw [Dev.memFault_none _ (same.trans fault)]
    exact ⟨rfl, rfl, rfl⟩
  | some kind =>
    cases kind with
    | corrected =>
      obtain ⟨t, n, h⟩ := (d.scrubTo place).memFault_corrected online (same.trans fault)
      dsimp only
      rw [h]
      split
      · exact ⟨by rw [Dev.get_markBlock_bump _ (by decide) (by decide)]; rfl, fun _ => Dev.markBlock_gone _ _ _⟩
      · rename_i few
        refine ⟨by rw [Dev.get_bump_same]; rfl, fun thr => absurd ?_ few⟩
        rw [Dev.get_bump_addr _ (by decide)]
        exact Nat.le_trans thr (Nat.le_add_left 1 n)
    | uncorrectable =>
      obtain ⟨t, h⟩ := (d.scrubTo place).memFault_uncorrectable online (same.trans fault)
      dsimp only
      rw [h]
      exact ⟨by rw [Dev.get_markBlock_bump _ (by decide) (by decide)]; rfl, Dev.markBlock_gone _ _ _⟩
    | tagError =>
      obtain ⟨t, h⟩ := (d.scrubTo place).memFault_tagError online (same.trans fault)
      dsimp only
      rw [h]
      exact ⟨by rw [Dev.get_bump_same]; rfl, rfl, rfl⟩

/-- What the end of a lap leaves. -/
theorem Dev.lapDone_facts :
    d.lapDone.mem.lapFrom = d.now ∧ d.lapDone.mem.scrubPos = 0
      ∧ d.lapDone.get Reg.SCR_LAP = (d.now - d.mem.lapFrom) / d.second % 2 ^ 32
      ∧ d.lapDone.get Reg.SCR_LAPS = min (d.get Reg.SCR_LAPS + 1) (2 ^ 32 - 1)
      ∧ d.lapDone.get Reg.SCR_LAP_LIMIT = d.get Reg.SCR_LAP_LIMIT ∧ d.lapDone.second = d.second := by
  refine ⟨rfl, rfl, ?_, ?_, ?_, ?_⟩
  · rw [Dev.lapDone, Dev.get_bump_addr _ (by decide), Dev.get_set_same]; rfl
  · rw [Dev.lapDone, Dev.get_bump_same, Dev.get_set_addr _ (by decide)]; rfl
  · rw [Dev.lapDone, Dev.get_bump_addr _ (by decide), Dev.get_set_addr _ (by decide)]; rfl
  · rw [Dev.second, Dev.ms, Dev.lapDone, Dev.get_bump_addr _ (by decide), Dev.get_set_addr _ (by decide)]; rfl

/-- What a pitch write does, over the other pitches as they are (R320, R323). -/
theorem Dev.putPitch_eq (bw : Bool) (k : Fin 64) {v : Nat} (fits : v < 2 ^ regBits (pitchObj bw)) :
    Dev.putPitch bw k.val d v =
      if bw = false ∧ v % 2 = 1 then (.range, d)
      else if (if bw then 307000 else d.get Reg.MEM_USABLE)
          < sumBy (fun j => if j = k.val then v else d.get (pitchObj bw) j) (List.range 64) then (.pitchOvercommit, d)
      else (.accepted, (d.set (pitchObj bw) k.val v).rescale) := by
  rw [Dev.putPitch, Dev.stallSum_set _ _ k fits]
  cases bw <;> simp [refuse]

/-- What the dictionary says of the pitches (R320). -/
theorem pitch_row (bw : Bool) : objRow (pitchObj bw) = some ⟨pitchObj bw, .u32, .rw, 64, 0, 0, if bw then 307000 else 262144⟩ := by
  cases bw <;> rfl

/-- A pitch that passes the checks of its object fits it. -/
theorem Dev.Admits.pitch_lt {w : Writer} {bw : Bool} {e : Nat} {val : Bytes} (h : d.Admits w (pitchObj bw) e val) :
    beNat val < 2 ^ regBits (pitchObj bw) := by
  rw [regBits, pitch_row]
  exact valueCheck_lt (h.value (pitch_row bw)) (show ObjTy.u32.bytes ≠ 0 by decide)

/-- A pitch is not written in SAFE (R492). -/
theorem Dev.Admits.pitch_awake {w : Writer} {bw : Bool} {e : Nat} {val : Bytes} (h : d.Admits w (pitchObj bw) e val) : d.mode ≠ .safe :=
  h.not_safe (pitch_row bw) (by cases bw <;> decide)

/-- An answer leaves the pitches. -/
theorem Dev.answer_pitch (w : Writer) (st : Status) (bw : Bool) (k : Nat) :
    (d.answer w st).get (pitchObj bw) k = d.get (pitchObj bw) k :=
  d.get_answer_addr (by cases bw <;> decide) (by cases bw <;> decide) (by cases bw <;> decide) w st _ _

/-- A rescale leaves the configured pitches. -/
theorem Dev.rescale_pitch (bw : Bool) (k : Nat) : d.rescale.get (pitchObj bw) k = d.get (pitchObj bw) k :=
  d.get_rescale (by cases bw <;> decide) k

/-- The outcome of a pitch written for a stall other than INDEX (R320, R323). -/
theorem stallPitchWrite_outcome {s : State} {w : Writer} {bw : Bool} {k : Fin 64} {val : Bytes}
    (admits : s.dev.Admits w (pitchObj bw) k.val val) (other : k.val ≠ 2) :
    Completes (.stallPitchWrite w bw (BitVec.ofNat 16 k.val) val) s fun d =>
      if bw = false ∧ beNat val % 2 = 1 then d.Answered w .range ∧ d.get (pitchObj bw) k.val = s.dev.get (pitchObj bw) k.val
      else if (if bw then 307000 else s.dev.get Reg.MEM_USABLE)
          < sumBy (fun j => if j = k.val then beNat val else s.dev.get (pitchObj bw) j) (List.range 64) then
        d.Answered w .pitchOvercommit ∧ d.get (pitchObj bw) k.val = s.dev.get (pitchObj bw) k.val
      else d.Answered w .accepted ∧ d.get (pitchObj bw) k.val = beNat val := by
  have fits := admits.pitch_lt
  refine ⟨_, exec_stallPitchWrite other w bw val s, rfl, ?_⟩
  dsimp only
  obtain ⟨c, kept⟩ := s.dev.gate_eq w (pitchObj bw) k.val val
  have regs : (s.dev.gate w (pitchObj bw) k.val val).2.regs = s.dev.regs := by rw [kept]
  rw [Dev.write_admitted _ _ admits, ← Dev.get_of_regs regs Reg.MEM_USABLE, ← funext fun j => Dev.get_of_regs regs (pitchObj bw) j]
  generalize (s.dev.gate w (pitchObj bw) k.val val).2 = d
  rw [Dev.putPitch_eq _ _ _ fits]
  by_cases odd : bw = false ∧ beNat val % 2 = 1
  · simp only [if_pos odd]
    exact ⟨Dev.answer_out _ _ _ _, Dev.answer_pitch _ _ _ _ _⟩
  by_cases exceeds : (if bw then 307000 else d.get Reg.MEM_USABLE)
      < sumBy (fun j => if j = k.val then beNat val else d.get (pitchObj bw) j) (List.range 64)
  · simp only [if_neg odd, if_pos exceeds]
    exact ⟨Dev.answer_out _ _ _ _, Dev.answer_pitch _ _ _ _ _⟩
  · simp only [if_neg odd, if_neg exceeds]
    refine ⟨Dev.answer_out _ _ _ _, ?_⟩
    rw [Dev.answer_pitch, Dev.rescale_pitch, Dev.get_set_same, Nat.mod_eq_of_lt fits]

end Sys2Proof.Machine
end

section
namespace Sys2Proof.Machine

variable (d : Dev)

theorem pitchScaling_scales {s : State} {t cause : Nat} (waits : s.dev.mem.scaleAt = some (t, cause)) (due : t ≤ s.dev.now)
    (fair : ∀ k < 64, s.dev.get Reg.ST_PRIO k ≤ 8 ∧ s.dev.get Reg.ST_CAP k < 2 ^ 32) :
    Completes .pitchScaling s fun d => d.mem.scaleAt = none ∧ ScaledFrom s.dev d := by
  refine ⟨_, exec_pitchScaling waits due, rfl, ?_⟩
  dsimp only
  have scaled := Dev.scaleNow_scaled (s := s.dev) (d := { s.dev with mem := { s.dev.mem with scaleAt := none } }) rfl rfl fair cause
  obtain ⟨u, b, mem⟩ := Dev.scaleNow_mem { s.dev with mem := { s.dev.mem with scaleAt := none } } cause
  exact ⟨by rw [mem], scaled⟩

theorem pitchRestore_scales {s : State} {t : Nat} (waits : s.dev.mem.restoreAt = some t) (due : t ≤ s.dev.grid.cycleStart)
    (fair : ∀ k < 64, s.dev.get Reg.ST_PRIO k ≤ 8 ∧ s.dev.get Reg.ST_CAP k < 2 ^ 32) :
    Completes .pitchRestore s fun d => d.mem.restoreAt = none ∧ ScaledFrom s.dev d := by
  refine ⟨_, exec_pitchRestore waits due, rfl, ?_⟩
  dsimp only
  have scaled := Dev.scaleNow_scaled (s := s.dev) (d := { s.dev with mem := { s.dev.mem with restoreAt := none } }) rfl rfl fair 3
  obtain ⟨u, b, mem⟩ := Dev.scaleNow_mem { s.dev with mem := { s.dev.mem with restoreAt := none } } 3
  exact ⟨by rw [mem], scaled⟩

/-- A lap of SRAM ends (R339). -/
theorem exec_scrubLapEnd_sram (s : State) :
    exec (.scrubLapEnd true) s = .next { s with
      dev := Dev.set { s.dev with mem := { s.dev.mem with sramLapFrom := s.dev.now } } Reg.SCR_SRAM_LAP 0
        (min ((s.dev.now - s.dev.mem.sramLapFrom) / s.dev.get Reg.TB_FNOM) (2 ^ 32 - 1)) } := rfl

/-- A memory channel gone OFFLINE, with the record of it (R344). -/
def Dev.loseChannel (m cause : Nat) : Dev := (d.set Reg.MEM_CH_STATE m 3).log 0xFF 0x0706 m cause

/-- What there is of memory shown anew, and a scaling that follows at the next slot (R344). -/
def Dev.scaleSoon (d : Dev) : Dev :=
  let t := (d.set Reg.MEM_ONLINE 0 (maskOf d.onlineChans)).set Reg.MEM_USABLE 0 d.usableMiB
  { t with mem := { t.mem with scaleAt := some (t.now + 1, 0) } }

theorem Dev.scaleSoon_facts :
    (∀ m, d.scaleSoon.get Reg.MEM_CH_STATE m = d.get Reg.MEM_CH_STATE m)
      ∧ (∀ m < 8, bit (d.scaleSoon.get Reg.MEM_ONLINE) m = decide (m ∈ d.onlineChans))
      ∧ d.scaleSoon.mem.scaleAt = some (d.now + 1, 0) ∧ d.scaleSoon.ledger = d.ledger := by
  refine ⟨fun m => ?_, fun m hm => ?_, rfl, rfl⟩
  · exact (Dev.get_set_addr _ (by decide) _ _ _).trans (Dev.get_set_addr _ (by decide) _ _ _)
  · have mask : d.scaleSoon.get Reg.MEM_ONLINE = maskOf d.onlineChans % 2 ^ 8 :=
      (Dev.get_set_addr _ (by decide) _ _ _).trans (Dev.get_set_same _ _ _ _)
    rw [mask, bit_mod hm, bit_maskOf]

/-- A memory channel goes OFFLINE, for a cause other than too many uncorrectable words (R344). -/
theorem exec_memoryChannelOffline {s : State} {m : Fin 8} {cause : Fin 3} (online : s.dev.get Reg.MEM_CH_STATE m.val = 2)
    (other : cause ≠ 1) :
    exec (.memoryChannelOffline m cause) s = .next { s with dev := (s.dev.loseChannel m.val cause.val).scaleSoon } := by
  refine exec_next_congr rfl (if_neg ?_)
  simp [online, other]

theorem Dev.loseChannel_now (m cause : Nat) : (d.loseChannel m cause).now = d.now := by
  obtain ⟨b, n, h⟩ := (d.set Reg.MEM_CH_STATE m 3).log_eq 0xFF 0x0706 m cause 0
  rw [Dev.loseChannel, h]; rfl

/-- The objects after a channel has gone OFFLINE: its state, and the channels that are in use. -/
theorem Dev.loseChannel_get (m : Fin 8) (cause : Nat) :
    (d.loseChannel m.val cause).get Reg.MEM_CH_STATE m.val = 3
      ∧ m.val ∉ (d.loseChannel m.val cause).onlineChans := by
  have state : (d.loseChannel m.val cause).get Reg.MEM_CH_STATE m.val = 3 := by
    rw [Dev.loseChannel, Dev.log_get, Dev.get_set_same]; rfl
  exact ⟨state, by simp [Dev.onlineChans, state]⟩

end Sys2Proof.Machine

open Sys2Proof.Machine

/-- Settles O50: each command of the memory manager by its equation, the scaling by `Dev.rescale_scaled`, what a scrubbed word leaves
by `Dev.memFault_scrubTo`. -/
theorem memoryIsScrubbedAndScaled : Obligations.MemoryIsScrubbedAndScaled := by
  unfold Obligations.MemoryIsScrubbedAndScaled
  intro scaled paid fair
  refine ⟨?windowOpen, ?windowEnd, ?sram, ?external, ?sramLap, ?lap, ?lapLimit, ?pitch, ?scaling, ?restore, ?offline⟩
  case windowOpen =>
    intro s o due scrub
    refine ⟨_, exec_scrubWindowOpen due scrub, rfl, rfl, rfl, ?_⟩
    rw [Dev.get_set_same, show regBits Reg.SCR_STATUS = 8 from rfl, bit_mod (by decide), bit_setBit]
  case windowEnd =>
    intro s t open_
    refine ⟨_, exec_scrubWindowEnd open_, rfl, ?_⟩
    dsimp only
    by_cases ended : t ≤ s.dev.now
    · simp only [if_pos ended]
      refine ⟨rfl, ?_⟩
      rw [Dev.endScrub, Dev.get_set_same, show regBits Reg.SCR_STATUS = 8 from rfl, bit_mod (by decide), bit_setBit]
    · simp only [if_neg ended]
  case sram =>
    intro s bits
    refine ⟨_, rfl, rfl, ?_⟩
    dsimp only
    split
    · exact ⟨rfl, by rw [Dev.get_bump_same]; rfl⟩
    · exact ⟨rfl, rfl⟩
  case external =>
    intro s x m addr awake online within ahead reached
    refine ⟨_, exec_scrubRead_external awake online within ahead reached, rfl, ?_⟩
    obtain ⟨pos, read⟩ := (s.dev.scrubTo (m * 2 ^ 32 + addr + 1)).memFault_place online
    exact ⟨pos, read, s.dev.memFault_scrubTo _ online⟩
  case sramLap =>
    intro s
    refine ⟨_, exec_scrubLapEnd_sram s, rfl, rfl, ?_⟩
    rw [Dev.get_set_same]
    exact Nat.mod_eq_of_lt (lt_of_le_of_lt (min_le_right _ _) (by decide))
  case lap =>
    intro s reached
    refine ⟨_, exec_scrubLapEnd_external reached, rfl, ?_⟩
    obtain ⟨since, pos, lap, laps, limit, second⟩ := s.dev.lapDone_facts
    dsimp only
    rw [limit, second]
    by_cases soon : s.dev.now - s.dev.mem.lapFrom ≤ s.dev.get Reg.SCR_LAP_LIMIT * s.dev.second
    · rw [if_pos soon]
      refine ⟨since, pos, ?_, ?_, fun _ => ?_⟩
      · rw [Dev.get_set_addr _ (by decide), lap]
      · rw [Dev.get_set_addr _ (by decide), laps]
      · rw [Dev.get_set_same, show regBits Reg.SCR_STATUS = 8 from rfl, bit_mod (by decide), bit_setBit]
    · rw [if_neg soon]
      exact ⟨since, pos, lap, laps, fun h => absurd h soon⟩
  case lapLimit =>
    intro s late first room
    refine ⟨_, exec_lapLimitExceeded late first, rfl, ?_, Dev.log_recorded _ _ _ _ _ _ room⟩
    rw [Dev.log_get, Dev.get_set_same, show regBits Reg.SCR_STATUS = 8 from rfl, bit_mod (by decide), bit_setBit]
  case pitch =>
    intro s w bw k val a admits
    by_cases index : k.val = 2
    · obtain rfl : k = 2 := Fin.ext index
      refine ⟨_, exec_stallPitchWrite_index w bw val s, rfl, ?_⟩
      dsimp only
      rw [if_neg admits.pitch_awake, if_pos index]
      exact ⟨Dev.answer_out _ _ _ _, Dev.answer_pitch _ _ _ _ _⟩
    · simp only [if_neg index]
      exact stallPitchWrite_outcome admits index
  case scaling =>
    intro s t cause waits due even
    exact pitchScaling_scales waits due even
  case restore =>
    intro s t waits due even
    exact pitchRestore_scales waits due even
  case offline =>
    intro s m cause online other room
    obtain ⟨state, unused⟩ := s.dev.loseChannel_get m cause.val
    have recorded : (s.dev.loseChannel m.val cause.val).Recorded 0xFF 0x0706 := Dev.log_recorded _ _ _ _ _ _ room
    obtain ⟨states, used, scaleAt, ledger⟩ := (s.dev.loseChannel m.val cause.val).scaleSoon_facts
    rw [s.dev.loseChannel_now] at scaleAt
    refine ⟨_, exec_memoryChannelOffline online other, rfl, (states m.val).trans state, ?_, scaleAt, ?_⟩
    · exact (used m.val m.isLt).trans (decide_eq_false unused)
    · dsimp only
      rw [Dev.Recorded, ledger]
      exact recorded
end

section
/-! A front end's view of the device, and what dead time counted up to the present slot changes of it (R108). -/

namespace Sys2Proof.Machine

variable (d : Dev)

/-! ### Objects and state of a front end -/

theorem Dev.fget_of_regs {d d' : Dev} (h : d'.regs = d.regs) (p : Port) (a e : Nat) : d'.fget p a e = d.fget p a e := by
  unfold Dev.fget; rw [h]

theorem Dev.fget_fset_addr {a a' : Nat} (h : a' % 2 ^ 24 ≠ a % 2 ^ 24) (p q : Port) (e v e' : Nat) :
    (d.fset p a e v).fget q a' e' = d.fget q a' e' := by
  rw [Dev.fget_fset, if_neg (regKey_ne_of_addr h _ _ _ _)]

theorem Dev.fget_fbump_addr {a a' : Nat} (h : a' % 2 ^ 24 ≠ a % 2 ^ 24) (p q : Port) (e n e' : Nat) :
    (d.fbump p a e n).fget q a' e' = d.fget q a' e' :=
  d.fget_fset_addr h p q e _ e'

@[simp] theorem Dev.fe_updFe_same (p : Port) (g : FrontEnd → FrontEnd) : (d.updFe p g).fe p = g (d.fe p) := Dev.fe_setFe_same _ _ _

@[simp] theorem Dev.fe_fset (p q : Port) (a e v : Nat) : (d.fset p a e v).fe q = d.fe q := rfl

@[simp] theorem Dev.setFe_fe (p : Port) : d.setFe p (d.fe p) = d := by
  simp [Dev.setFe, Dev.fe]

@[simp] theorem Dev.setFe_setFe (p : Port) (f g : FrontEnd) : (d.setFe p f).setFe p g = d.setFe p g := by
  simp [Dev.setFe, Vector.set_set]

/-! ### Devices that a front end cannot tell apart -/

/-- Two devices with the same front ends, and the same objects of the front end on port `p`. -/
structure FeAlike (p : Port) (d d' : Dev) : Prop where
  fes : d'.fes = d.fes
  applied : d'.applied = d.applied
  now : d'.now = d.now
  fget : ∀ a e, d'.fget p a e = d.fget p a e

theorem FeAlike.refl (p : Port) : FeAlike p d d := ⟨rfl, rfl, rfl, fun _ _ => rfl⟩

section
variable {d : Dev} {p : Port} {d' : Dev} (h : FeAlike p d d')
include h

theorem FeAlike.fe (q : Port) : d'.fe q = d.fe q := by unfold Dev.fe; simp only [h.fes]

theorem FeAlike.ap (a e : Nat) : d'.ap p a e = d.ap p a e := by unfold Dev.ap; rw [h.applied]

theorem FeAlike.setFe (f : FrontEnd) : FeAlike p (d.setFe p f) (d'.setFe p f) :=
  ⟨by rw [Dev.setFe_fes, Dev.setFe_fes, h.fes], h.applied, h.now, h.fget⟩

theorem FeAlike.updFe (g : FrontEnd → FrontEnd) : FeAlike p (d.updFe p g) (d'.updFe p g) := by
  unfold Dev.updFe; rw [h.fe]; exact h.setFe _

theorem FeAlike.fset (a e v : Nat) : FeAlike p (d.fset p a e v) (d'.fset p a e v) :=
  ⟨h.fes, h.applied, h.now, fun a' e' => by rw [Dev.fget_fset, Dev.fget_fset, h.fget]⟩

theorem FeAlike.fbump (a e n : Nat) : FeAlike p (d.fbump p a e n) (d'.fbump p a e n) := by
  unfold Dev.fbump; rw [h.fget]; exact h.fset _ _ _

theorem FeAlike.accrues (c : Nat) : d'.accrues p c = d.accrues p c := by
  unfold Dev.accrues Dev.masked; rw [h.fe, h.ap]

theorem FeAlike.countDead (c t : Nat) : FeAlike p (d.countDead p c t) (d'.countDead p c t) := by
  unfold Dev.countDead
  dsimp only
  rw [h.fe, h.accrues]
  split
  · exact h
  · split
    · exact (((h.setFe _).fbump _ _ _).fbump _ _ _).fbump _ _ _
    · exact h.setFe _

theorem FeAlike.advanceChan (c t : Nat) : FeAlike p (d.advanceChan p c t) (d'.advanceChan p c t) := by
  unfold Dev.advanceChan
  rw [h.fe]
  split
  · split
    · exact (h.countDead _ _).updFe _
    · exact h
  · exact h

theorem FeAlike.settleDead (c t : Nat) : FeAlike p (d.settleDead p c t) (d'.settleDead p c t) :=
  ((h.advanceChan c t).advanceChan c t).countDead c t

theorem FeAlike.settleAll (cs : List Nat) (t : Nat) : FeAlike p (d.settleAll p cs t) (d'.settleAll p cs t) := by
  unfold Dev.settleAll
  induction cs generalizing d d' with
  | nil => exact h
  | cons c cs ih => exact ih (h.settleDead c t)

theorem FeAlike.settleFor (a e : Nat) : FeAlike p (d.settleFor p a e) (d'.settleFor p a e) := by
  unfold Dev.settleFor
  dsimp only
  rw [h.now, h.fe]
  split
  · exact h.settleDead _ _
  · split
    · exact h.settleAll _ _
    · split
      · exact h.settleAll _ _
      · exact h

theorem FeAlike.biasStatus (r : Nat) : d'.biasStatus p r = d.biasStatus p r := by
  unfold Dev.biasStatus Dev.groupOf Dev.rgWord; rw [h.fe, h.ap, h.now]

/-- They answer a READ alike. -/
theorem FeAlike.feRead (a e : Nat) : d'.feRead p a e = d.feRead p a e := by
  unfold Dev.feRead
  simp only [h.fe, h.fget, h.biasStatus]

theorem FeAlike.feCondition (a e v : Nat) : d'.feCondition p a e v = d.feCondition p a e v := by
  unfold Dev.feCondition
  simp only [h.fe, h.fget]

end

/-! ### Dead time -/

/-- The counters of dead time (R108). -/
def deadObjs : List Nat := [Reg.FE_CH_DT_BUSY, Reg.FE_CH_DT_BLK, Reg.FE_RG_DT, Reg.FE_CHIP_DT]

/-- `d'` is `d` but for dead time counted on port `p`: channels, frames and counters. -/
def DeadOnly (p : Port) (d d' : Dev) : Prop :=
  ∃ r cs fs, d' = { d.setFe p { d.fe p with chans := cs, frames := fs } with regs := r }
    ∧ ∀ a e, (∀ b ∈ deadObjs, a % 2 ^ 24 ≠ b % 2 ^ 24) → d'.fget p a e = d.fget p a e

theorem DeadOnly.refl (p : Port) : DeadOnly p d d :=
  ⟨d.regs, (d.fe p).chans, (d.fe p).frames, by rw [Dev.setFe_fe], fun _ _ _ => rfl⟩

theorem DeadOnly.trans {d d' d'' : Dev} {p : Port} (h : DeadOnly p d d') (h' : DeadOnly p d' d'') : DeadOnly p d d'' := by
  obtain ⟨r, cs, fs, eq, keeps⟩ := h
  obtain ⟨r', cs', fs', eq', keeps'⟩ := h'
  refine ⟨r', cs', fs', ?_, fun a e other => (keeps' a e other).trans (keeps a e other)⟩
  rw [eq', eq]
  simp [Dev.setFe, Dev.fe, Vector.set_set]

theorem DeadOnly.setFe {d d' : Dev} {p : Port} (h : DeadOnly p d d') (cs : Tbl Chan) (fs : List FeFrame) :
    DeadOnly p d (d'.setFe p { d'.fe p with chans := cs, frames := fs }) :=
  h.trans ⟨_, cs, fs, rfl, fun _ _ _ => rfl⟩

theorem DeadOnly.fbump {d d' : Dev} {p : Port} (h : DeadOnly p d d') {a : Nat} (dead : a ∈ deadObjs) (e n : Nat) :
    DeadOnly p d (d'.fbump p a e n) :=
  h.trans ⟨_, (d'.fe p).chans, (d'.fe p).frames, by rw [Dev.setFe_fe]; rfl,
    fun _ _ other => d'.fget_fbump_addr (other _ dead) _ _ _ _ _⟩

variable (p : Port)

theorem Dev.countDead_only (c t : Nat) : DeadOnly p d (d.countDead p c t) := by
  unfold Dev.countDead
  dsimp only
  split
  · exact .refl d p
  · split
    · exact ((((DeadOnly.refl d p).setFe _ _).fbump (by split <;> decide) _ _).fbump (by decide) _ _).fbump (by decide) _ _
    · exact (DeadOnly.refl d p).setFe _ _

theorem Dev.advanceChan_only (c t : Nat) : DeadOnly p d (d.advanceChan p c t) := by
  unfold Dev.advanceChan
  split
  · split
    · exact (d.countDead_only p c _).setFe _ _
    · exact .refl d p
  · exact .refl d p

theorem Dev.settleDead_only (c t : Nat) : DeadOnly p d (d.settleDead p c t) :=
  ((d.advanceChan_only p c t).trans (Dev.advanceChan_only _ p c t)).trans (Dev.countDead_only _ p c t)

theorem Dev.settleAll_only (cs : List Nat) (t : Nat) : DeadOnly p d (d.settleAll p cs t) :=
  forEach_keeps (DeadOnly p d) cs _ (fun c _ d' h => h.trans (d'.settleDead_only p c t)) d (.refl d p)

/-- Dead time counted for a READ. -/
theorem Dev.settleFor_only (a e : Nat) : DeadOnly p d (d.settleFor p a e) := by
  unfold Dev.settleFor
  dsimp only
  split
  · exact d.settleDead_only p _ _
  · split
    · exact d.settleAll_only p _ _
    · split
      · exact d.settleAll_only p _ _
      · exact .refl d p

end Sys2Proof.Machine
end

section
/-! Configuration messages at a front end (R219, R220): what their blocks change, the alive counter, and the answer. -/

namespace Sys2Proof.Machine

variable {d : Dev} {p : Port}

/-! ### Bad blocks on a downlink (R178, R179) -/

/-- `d'` is `d` but for what the concentrator's port counts of its downlinks. -/
structure DownlinkCounted (p : Port) (d d' : Dev) : Prop extends FeAlike p d d' where
  out : d'.out = d.out
  uls : (d'.port p).uls = (d.port p).uls

theorem DownlinkCounted.trans {d d' d'' : Dev} (h : DownlinkCounted p d d') (h' : DownlinkCounted p d' d'') :
    DownlinkCounted p d d'' where
  fes := h'.fes.trans h.fes
  applied := h'.applied.trans h.applied
  now := h'.now.trans h.now
  fget a e := (h'.fget a e).trans (h.fget a e)
  out := h'.out.trans h.out
  uls := h'.uls.trans h.uls

theorem Dev.countBad_downlink (d : Dev) (p : Port) (dl : Fin 2) (why : BadBlock) :
    DownlinkCounted p d (d.countBad p (.down dl) why) := by
  have bumped : DownlinkCounted p d (d.bump Reg.WP_CTL_ERR p.val) := ⟨⟨rfl, rfl, rfl, fun a e => Dev.fget_set _ _ _ _ _ _ _⟩, rfl, rfl⟩
  have counted (d : Dev) (g : CPort → CPort) (keeps : ∀ c, (g c).uls = c.uls) : DownlinkCounted p d (d.updPort p g) :=
    ⟨⟨rfl, rfl, rfl, fun _ _ => rfl⟩, rfl, by simpa [Dev.port] using keeps _⟩
  unfold Dev.countBad
  dsimp only
  have bump : DownlinkCounted p d (if (why == .crc || why == .unknownType) = true then d.bump Reg.WP_CTL_ERR p.val else d) := by
    split
    · exact bumped
    · exact ⟨.refl d p, rfl, rfl⟩
  exact bump.trans (counted _ _ fun c => (apply_ite CPort.uls _ _ _).trans (ite_self c.uls))

theorem Dev.countBadBlocks_downlink (d : Dev) (p : Port) (dl : Fin 2) (bad : List BadBlock) :
    DownlinkCounted p d (d.countBadBlocks p (.down dl) bad) :=
  forEach_keeps (DownlinkCounted p d) bad _ (fun why _ d' h => h.trans (d'.countBad_downlink p dl why)) d ⟨.refl d p, rfl, rfl⟩

/-! ### The alive counter (R220) -/

/-- An alive counter that the front end executes: 1 to 7 ahead of the last one, or the first. -/
def FrontEnd.aliveFits (f : FrontEnd) (alive : Nat) : Prop := ∀ l ∈ f.alive, 1 ≤ (alive + 16 - l) % 16 ∧ (alive + 16 - l) % 16 ≤ 7

/-- The device with a message taken: its alive counter, what a repeat is answered with, and the count. -/
def Dev.takeMessage (d : Dev) (p : Port) (alive skips : Nat) (prev value : Bytes) : Dev :=
  (d.updFe p fun fe => { fe with alive := some alive, aliveSkips := fe.aliveSkips + skips, prevMsg := prev, prevValue := value }).fset p
    Reg.FE_CFG_ACC 0 (d.fget p Reg.FE_CFG_ACC + 1)

/-- The value of a response: none unless the message was accepted. -/
def answerValue (st : Status) (value : Bytes) : Bytes := if st = .accepted then value.take 240 else []

/-- A message with a fitting alive counter is executed and answered. -/
theorem Dev.feMessage_taken {alive : Nat} (hears : (d.fe p).hears = true) (fits : (d.fe p).aliveFits alive) (type a elem : Nat)
    (f : Dev → Status × Bytes × Dev) : ∃ skips prev, d.feMessage p alive type a elem f
      = ((f d).2.2.takeMessage p alive skips prev (answerValue (f d).1 (f d).2.1)).feRespond p
          (configResponse type alive (statusCode (f d).1) (a % 256) elem (answerValue (f d).1 (f d).2.1)) := by
  unfold Dev.feMessage
  dsimp only
  rw [if_neg (by rw [hears]; decide)]
  cases was : (d.fe p).alive with
  | none => exact ⟨_, _, rfl⟩
  | some l =>
    obtain ⟨ahead, near⟩ := fits l was
    dsimp only
    rw [if_neg (by omega), if_neg (by omega)]
    exact ⟨_, _, rfl⟩

/-! ### Responses (R195) -/

/-- A response that leaves or waits changes nothing of the front end but its lanes and what it has to send. -/
theorem Dev.nextResponse_eq (d : Dev) (p : Port) : ∃ ls rs fs fr ln o, d.nextResponse p
    = { d.setFe p { d.fe p with lanes := ls, responses := rs, floorSent := fs, floorReport := fr } with lines := ln, out := o } := by
  have same : d = { d.setFe p { d.fe p with lanes := (d.fe p).lanes } with lines := d.lines, out := d.out } := (Dev.setFe_fe d p).symm
  unfold Dev.nextResponse
  dsimp only
  split
  · exact ⟨_, _, _, _, _, _, same⟩
  · split
    · exact ⟨_, _, _, _, _, _, same⟩
    · exact ⟨_, _, _, _, _, _, rfl⟩

/-- What the answer to a message leaves as it is. -/
theorem Dev.feRespond_keeps (d : Dev) (p : Port) (msg : Bytes) :
    ∃ ls rs fs fr, (d.feRespond p msg).fe p = { d.fe p with lanes := ls, responses := rs, floorSent := fs, floorReport := fr }
      ∧ (d.feRespond p msg).regs = d.regs ∧ (d.feRespond p msg).applied = d.applied := by
  obtain ⟨ls, rs, fs, fr, ln, o, eq⟩ := (d.updFe p fun f => { f with responses := f.responses ++ [msg] }).nextResponse_eq p
  refine ⟨ls, rs, fs, fr, ?_, ?_, ?_⟩
  · rw [Dev.feRespond, eq]; simp [Dev.fe, Dev.updFe]
  · rw [Dev.feRespond, eq]; rfl
  · rw [Dev.feRespond, eq]; rfl

/-- With nothing before it and room on lane 0, an answer leaves at once. -/
theorem Dev.feRespond_sends {msg : Bytes} (none : (d.fe p).responses = []) (open_ : d.laneOpen p 0 = true)
    (room : (d.fe p).lanes[0].replay.length < 64) (alone : ∀ k ∈ (d.fe p).lanes[0].replay, k.kind ≠ 3) :
    ((d.feRespond p msg).fe p).responses = []
      ∧ (d.feRespond p msg).out = .packet p.val 0 (d.fe p).lanes[0].nextSeq 3 0 0 (.response msg) :: d.out := by
  have waits : ((d.updFe p fun f => { f with responses := f.responses ++ [msg] }).fe p).responses = [msg] := by
    rw [Dev.fe_updFe_same, none]; rfl
  have lanes : ((d.updFe p fun f => { f with responses := f.responses ++ [msg] }).fe p).lanes = (d.fe p).lanes := by
    rw [Dev.fe_updFe_same]
  have still : (d.updFe p fun f => { f with responses := f.responses ++ [msg] }).laneOpen p 0 = true := by
    rw [← open_]; unfold Dev.laneOpen; rw [Dev.fe_updFe_same]; rfl
  have free : ((d.fe p).lanes[0].replay.any fun k => k.kind == 3) = false := by
    rw [List.any_eq_false]; exact fun k hk => by simpa using alone k hk
  unfold Dev.feRespond Dev.nextResponse
  dsimp only
  rw [waits]
  dsimp only
  rw [if_neg (by rw [lanes, still, free]; simpa using room), lanes]
  exact ⟨by simp [Dev.fe], rfl⟩

/-! ### What a message taken leaves -/

/-- A message taken: the alive counter and the count, and what its execution left. -/
theorem Dev.takeMessage_fe (d : Dev) (p : Port) (alive skips : Nat) (prev value : Bytes) :
    (d.takeMessage p alive skips prev value).fe p
      = { d.fe p with alive := some alive, aliveSkips := (d.fe p).aliveSkips + skips, prevMsg := prev, prevValue := value } := by
  rw [Dev.takeMessage, Dev.fe_fset, Dev.fe_updFe_same]

theorem Dev.takeMessage_count (d : Dev) (p : Port) (alive skips : Nat) (prev value : Bytes) :
    (d.takeMessage p alive skips prev value).fget p Reg.FE_CFG_ACC = (d.fget p Reg.FE_CFG_ACC + 1) % 2 ^ 32 := by
  rw [Dev.takeMessage, Dev.fget_fset_same]; rfl

theorem Dev.takeMessage_fget (d : Dev) {p : Port} {a : Nat} (other : a % 2 ^ 24 ≠ Reg.FE_CFG_ACC % 2 ^ 24) (e alive skips : Nat)
    (prev value : Bytes) : (d.takeMessage p alive skips prev value).fget p a e = d.fget p a e := by
  rw [Dev.takeMessage, Dev.fget_fset_addr _ other]; rfl

/-- A message that arrives as R220 takes it: on the downlink the front end follows, intact, of a type, its alive counter fitting. -/
structure ConfigArrives (d : Dev) (p : Port) (dl : Fin 2) (blocks : List Block) (type : Nat) (m : ConfigIn) : Prop where
  hears : (d.fe p).hears = true
  active : (d.fe p).activeDl = dl.val
  intact : ∃ k, readPacket blocks = some k ∧ k.kind = 2 ∧ k.bytes.bind readConfig = some m
  type : m.type = type
  alive : (d.fe p).aliveFits m.alive

/-- A message that arrives so is executed and answered. -/
theorem ConfigArrives.feConfig {dl : Fin 2} {blocks : List Block} {type : Nat} {m : ConfigIn} (h : ConfigArrives d p dl blocks type m)
    (f : ConfigIn → Dev → Status × Bytes × Dev) : ∃ b skips prev, DownlinkCounted p d b ∧ d.feConfig p dl type blocks f
      = ((f m b).2.2.takeMessage p m.alive skips prev (answerValue (f m b).1 (f m b).2.1)).feRespond p
          (configResponse type m.alive (statusCode (f m b).1) (m.addr % 256) m.elem (answerValue (f m b).1 (f m b).2.1)) := by
  obtain ⟨k, packet, kind, msg⟩ := h.intact
  have counted := d.countBadBlocks_downlink p dl (badInside blocks.tail)
  have hears : ((d.countBadBlocks p (.down dl) (badInside blocks.tail)).fe p).hears = true := by rw [counted.fe]; exact h.hears
  have fits : ((d.countBadBlocks p (.down dl) (badInside blocks.tail)).fe p).aliveFits m.alive := by rw [counted.fe]; exact h.alive
  obtain ⟨skips, prev, eq⟩ := Dev.feMessage_taken hears fits type m.addr m.elem (f m)
  refine ⟨_, skips, prev, counted, ?_⟩
  rw [← eq]
  unfold Dev.feConfig
  dsimp only
  rw [if_neg (by simp [h.hears, h.active]), packet]
  dsimp only
  rw [if_neg (not_not.2 kind), msg]
  dsimp only
  rw [if_neg (not_not.2 h.type)]

/-- A packet that fails R186 or its CRC is discarded and counted (R220). -/
theorem Dev.feConfig_bad {dl : Fin 2} {blocks : List Block} {k : PacketIn} (hears : (d.fe p).hears = true)
    (active : (d.fe p).activeDl = dl.val) (packet : readPacket blocks = some k) (kind : k.kind = 2)
    (bad : k.bytes.bind readConfig = none) (type : Nat) (f : ConfigIn → Dev → Status × Bytes × Dev) :
    ∃ b, DownlinkCounted p d b ∧ d.feConfig p dl type blocks f = b.fbump p Reg.FE_CFG_REJ := by
  have counted := d.countBadBlocks_downlink p dl (badInside blocks.tail)
  refine ⟨_, counted, ?_⟩
  unfold Dev.feConfig
  dsimp only
  rw [if_neg (by simp [hears, active]), packet]
  dsimp only
  rw [if_neg (not_not.2 kind), bad]
  have runs : (d.fe p).runs = true := (Bool.and_eq_true_iff.1 hears).1
  exact if_pos (by rw [counted.fe]; exact runs)

end Sys2Proof.Machine
end

section
/-! What the messages of R220 do: settings, READs, mirror entries, and blocks that are not used (O40). -/

namespace Sys2Proof.Machine

variable {d : Dev} {p : Port}

/-! ### Settings (R76) -/

/-- What the dictionary says of a setting of a front end. -/
def isSettingRow (a : Nat) : Bool :=
  match objRow a with
  | none => false
  | some r => r.access == .rw && decide (r.ty.bytes ≠ 0) && decide (r.elems < 0xFFFF)

/-- Settings are words of a front end's own objects, of access RW, none of them with a meaning of its own in a WRITE. -/
theorem feSettings_rows : (feSettings.all fun a => isSettingRow a && decide (0x400000 ≤ a) && (toldObjects.find? fun x => x.1 == a).isNone
    && !([Reg.GV_FENCE_MAX, Reg.FE_INJECT, Reg.FE_CYCLE_LEN, Reg.FE_STAGE, Reg.FE_SNAP_COEF, Reg.FE_CH_STAT, Reg.FE_RG_TSTAT].contains a)
    && decide (a % 2 ^ 24 ≠ Reg.FE_CFG_ACC % 2 ^ 24)) = true := by
  decide +kernel

/-- The facts of one setting. -/
theorem setting_facts {a : Nat} {r : ObjRow} (setting : a ∈ feSettings) (row : objRow a = some r) :
    (r.access = .rw ∧ r.ty.bytes ≠ 0 ∧ r.elems < 0xFFFF) ∧ 0x400000 ≤ a ∧ (toldObjects.find? fun x => x.1 == a) = none
      ∧ a ∉ [Reg.GV_FENCE_MAX, Reg.FE_INJECT, Reg.FE_CYCLE_LEN, Reg.FE_STAGE, Reg.FE_SNAP_COEF, Reg.FE_CH_STAT, Reg.FE_RG_TSTAT]
      ∧ a % 2 ^ 24 ≠ Reg.FE_CFG_ACC % 2 ^ 24 := by
  have h := List.all_eq_true.1 feSettings_rows a setting
  rw [isSettingRow, row] at h
  simp only [Bool.and_eq_true, Bool.not_eq_true', decide_eq_true_eq, beq_iff_eq, Option.isNone_iff_eq_none, List.contains_eq_mem,
    decide_eq_false_iff_not] at h
  obtain ⟨⟨⟨⟨⟨⟨access, word⟩, elems⟩, own⟩, told⟩, plain⟩, count⟩ := h
  exact ⟨⟨access, word, elems⟩, own, told, plain, count⟩

/-- A WRITE of one element of a setting that passes the checks goes into the shadow copy and is to be applied (R76, R220). -/
theorem Dev.feWrite_setting {a e : Nat} {r : ObjRow} {val : Bytes} (setting : a ∈ feSettings) (row : objRow a = some r)
    (elem : e < r.elems) (value : valueCheck r val = none) (fits : d.feCondition p a e (beNat val) = none) :
    d.feWrite p a e val = (.accepted, (d.fePut p a (beNat val) e).feScheduleApply p) := by
  obtain ⟨⟨access, -, small⟩, own, told, plain, -⟩ := setting_facts setting row
  simp only [List.mem_cons, List.not_mem_nil, or_false, not_or] at plain
  obtain ⟨fence, inject, cycle, stage, coef, -, -⟩ := plain
  have one : elemsOf r e = [e] := if_neg fun h => by omega
  unfold Dev.feWrite
  rw [row]
  dsimp only
  rw [if_neg fence]
  simp only [told]
  rw [if_neg (by omega), elemCheck, if_pos elem]
  dsimp only
  rw [if_neg cycle, if_neg stage, if_neg coef, if_neg (by rw [access]; decide), value]
  dsimp only
  rw [if_neg (by rw [access]; decide), one]
  simp only [List.findSome?_cons, List.findSome?_nil, fits]
  rfl

/-- The front end with the word of a region written again after a configuration fault (R151). -/
def FrontEnd.rewritten (f : FrontEnd) (e : Nat) : FrontEnd := f.updRegion e fun g => { g with cfgRewritten := true }

/-- A setting placed in the shadow copy. -/
theorem Dev.fePut_setting {a : Nat} {r : ObjRow} (setting : a ∈ feSettings) (row : objRow a = some r) (v e : Nat) :
    d.fePut p a v e = d.fset p a e v ∨ d.fePut p a v e = (d.fset p a e v).updFe p fun f => f.rewritten e := by
  obtain ⟨-, -, -, plain, -⟩ := setting_facts setting row
  simp only [List.mem_cons, List.not_mem_nil, or_false, not_or] at plain
  obtain ⟨-, -, -, -, -, status, timing⟩ := plain
  unfold Dev.fePut
  rw [if_neg status, if_neg timing]
  dsimp only
  split
  · exact .inr rfl
  · exact .inl rfl

/-- Whether settings wait for a cycle in a mode (R76). -/
theorem waits_cycle (m : Mode) :
    (m == .sentinel || m == .stream || m == .gated || m == .snapshot) = decide (m ∈ [Mode.sentinel, .stream, .gated, .snapshot]) := by
  cases m <;> rfl

/-- What a setting written leaves: its word, what is applied, and when it is applied. -/
theorem Dev.settingWritten {a : Nat} {r : ObjRow} {v : Nat} (setting : a ∈ feSettings) (row : objRow a = some r) (e : Nat)
    (fits : v < 2 ^ regBits a) :
    ((d.fePut p a v e).feScheduleApply p).fget p a e = v
      ∧ ((d.fePut p a v e).feScheduleApply p).fget p Reg.FE_CFG_ACC = d.fget p Reg.FE_CFG_ACC
      ∧ ((d.fePut p a v e).feScheduleApply p).applied = d.applied
      ∧ (((d.fePut p a v e).feScheduleApply p).fe p).applyAt
        = some (if (d.fe p).mode ∈ [Mode.sentinel, .stream, .gated, .snapshot] then d.now else d.now + 1) := by
  obtain ⟨-, -, -, -, count⟩ := setting_facts setting row
  have word : (d.fset p a e v).fget p a e = v := by rw [Dev.fget_fset_same, Nat.mod_eq_of_lt fits]
  have counted : (d.fset p a e v).fget p Reg.FE_CFG_ACC = d.fget p Reg.FE_CFG_ACC := d.fget_fset_addr (Ne.symm count) _ _ _ _ _
  obtain h | h := d.fePut_setting (p := p) setting row v e
  · refine ⟨h ▸ word, h ▸ counted, by rw [h]; rfl, ?_⟩
    rw [h, Dev.feScheduleApply, Dev.fe_updFe_same]
    dsimp only
    rw [Dev.fe_fset, waits_cycle]
    simp only [decide_eq_true_eq]
    rfl
  · refine ⟨h ▸ word, h ▸ counted, by rw [h]; rfl, ?_⟩
    rw [h, Dev.feScheduleApply, Dev.fe_updFe_same]
    dsimp only
    rw [Dev.fe_updFe_same, waits_cycle]
    simp only [decide_eq_true_eq]
    rfl

/-- A value that passes the check of a setting fits its word. -/
theorem setting_lt {a : Nat} {r : ObjRow} {val : Bytes} (setting : a ∈ feSettings) (row : objRow a = some r)
    (value : valueCheck r val = none) : beNat val < 2 ^ regBits a := by
  obtain ⟨⟨-, word, -⟩, -⟩ := setting_facts setting row
  rw [regBits, row]
  exact valueCheck_lt value word

end Sys2Proof.Machine
end

section
namespace Sys2Proof.Machine

variable {s : State} {p : Port} {dl : Fin 2} {blocks : List Block} {m : ConfigIn}

/-- A message counted as taken, with its alive counter (R220). -/
def Took (p : Port) (s d : Dev) (alive : Nat) : Prop :=
  (d.fe p).alive = some alive ∧ d.fget p Reg.FE_CFG_ACC = (s.fget p Reg.FE_CFG_ACC + 1) % 2 ^ 32

/-- A message whose execution left `x` is counted as taken, when the execution left the count. -/
theorem Took.of_respond {s x : Dev} (count : x.fget p Reg.FE_CFG_ACC = s.fget p Reg.FE_CFG_ACC) (alive skips : Nat) (prev value msg : Bytes) :
    Took p s ((x.takeMessage p alive skips prev value).feRespond p msg) alive := by
  obtain ⟨ls, rs, fs, fr, fe, regs, -⟩ := (x.takeMessage p alive skips prev value).feRespond_keeps p msg
  refine ⟨?_, ?_⟩
  · rw [fe, Dev.takeMessage_fe]
  · rw [Dev.fget_of_regs regs, Dev.takeMessage_count, count]

/-- What a WRITE does (R428). -/
def writeMessage (p : Port) (m : ConfigIn) (d : Dev) : Status × Bytes × Dev :=
  ((d.feWrite p m.addr m.elem m.value).1, [], (d.feWrite p m.addr m.elem m.value).2)

theorem exec_configWriteMessage (s : State) (p : Port) (dl : Fin 2) (blocks : List Block) :
    exec (.configWriteMessage p dl blocks) s = .next { s with dev := s.dev.feConfig p dl 1 blocks (writeMessage p) } := rfl

/-- What a READ does (R428). -/
def readMessage (p : Port) (m : ConfigIn) (d : Dev) : Status × Bytes × Dev :=
  match (d.settleFor p m.addr m.elem).feRead p m.addr m.elem with
  | .error st => (st, [], d.settleFor p m.addr m.elem)
  | .ok v => (.accepted, v, if 240 < v.length then (d.settleFor p m.addr m.elem).updFe p fun f => f.stage 0 v
      else d.settleFor p m.addr m.elem)

theorem exec_configReadMessage (s : State) (p : Port) (dl : Fin 2) (blocks : List Block) :
    exec (.configReadMessage p dl blocks) s = .next { s with dev := s.dev.feConfig p dl 2 blocks (readMessage p) } := rfl

/-- A READ that returns a value leaves the front end as it was, but for dead time counted and the staging buffer. -/
theorem readMessage_ok {d : Dev} {v : Bytes} (read : (d.settleFor p m.addr m.elem).feRead p m.addr m.elem = .ok v) :
    ∃ x cs fs g, readMessage p m d = (.accepted, v, x) ∧ x.fe p = { d.fe p with chans := cs, frames := fs, staging := g }
      ∧ x.ports = d.ports ∧ x.out = d.out ∧ x.fget p Reg.FE_CFG_ACC = d.fget p Reg.FE_CFG_ACC := by
  obtain ⟨r, cs, fs, settled, keeps⟩ := d.settleFor_only p m.addr m.elem
  have fe : (d.settleFor p m.addr m.elem).fe p = { d.fe p with chans := cs, frames := fs } := by
    rw [settled]; exact Dev.fe_setFe_same _ _ _
  have ports : (d.settleFor p m.addr m.elem).ports = d.ports := by rw [settled]; rfl
  have out : (d.settleFor p m.addr m.elem).out = d.out := by rw [settled]; rfl
  have count := keeps Reg.FE_CFG_ACC 0 (by decide)
  unfold readMessage
  rw [read]
  dsimp only
  split
  · exact ⟨_, cs, fs, _, rfl, by rw [Dev.fe_updFe_same, fe]; rfl, ports, out, count⟩
  · exact ⟨_, cs, fs, (d.fe p).staging, rfl, fe, ports, out, count⟩

/-- The entry that a MIRROR message carries (R200; log entry 12). -/
def mirrorEntry (m : ConfigIn) : MirrorEntry :=
  { action := beNat (m.value.take 1), groups := beNat ((m.value.drop 1).take 2), arg := beNat (m.value.drop 3) }

/-- What a MIRROR message does (R200; log entry 12). -/
def mirrorMessage (p : Port) (m : ConfigIn) (d : Dev) : Status × Bytes × Dev :=
  if m.elem < 64 ∧ m.value.length = 7 then
    (.accepted, [], d.updFe p fun f => { f with mirrorNext := tblWrite (fun _ => {}) f.mirrorNext m.elem (mirrorEntry m) })
  else if m.elem = 0xFFFF ∧ m.value.length = 1 then
    (.accepted, [], d.updFe p fun f => { f with mirrorNextCyc := some (beNat m.value) })
  else (.range, [], d)

theorem exec_configMirrorMessage (s : State) (p : Port) (dl : Fin 2) (blocks : List Block) :
    exec (.configMirrorMessage p dl blocks) s = .next { s with dev := s.dev.feConfig p dl 3 blocks (mirrorMessage p) } := rfl

/-- What a MIRROR message leaves: its entry, or the cycle it names. -/
theorem mirrorMessage_facts (p : Port) (m : ConfigIn) (d : Dev) :
    (m.elem < 64 → m.value.length = 7 → tblRead (fun _ => {}) ((mirrorMessage p m d).2.2.fe p).mirrorNext m.elem = mirrorEntry m)
      ∧ (m.elem = 0xFFFF → m.value.length = 1 → ((mirrorMessage p m d).2.2.fe p).mirrorNextCyc = some (beNat m.value))
      ∧ ((mirrorMessage p m d).2.2.fe p).mirror = (d.fe p).mirror ∧ (mirrorMessage p m d).2.2.regs = d.regs := by
  unfold mirrorMessage
  by_cases entry : m.elem < 64 ∧ m.value.length = 7
  · rw [if_pos entry, Dev.fe_updFe_same]
    exact ⟨fun _ _ => tblRead_tblWrite_same _ _ _ _, fun h => absurd entry.1 (by omega), rfl, rfl⟩
  · rw [if_neg entry]
    by_cases cycle : m.elem = 0xFFFF ∧ m.value.length = 1
    · rw [if_pos cycle, Dev.fe_updFe_same]
      exact ⟨fun h h' => absurd ⟨h, h'⟩ entry, fun _ _ => rfl, rfl, rfl⟩
    · rw [if_neg cycle]
      exact ⟨fun h h' => absurd ⟨h, h'⟩ entry, fun h h' => absurd ⟨h, h'⟩ cycle, rfl, rfl⟩

/-- A packet that fails R186 or its CRC (R220). -/
theorem configWriteMessage_bad {k : PacketIn} (hears : (s.dev.fe p).hears = true) (active : (s.dev.fe p).activeDl = dl.val)
    (packet : readPacket blocks = some k) (kind : k.kind = 2) (bad : k.bytes.bind readConfig = none) :
    Completes (.configWriteMessage p dl blocks) s fun d =>
      d.fget p Reg.FE_CFG_REJ = min (s.dev.fget p Reg.FE_CFG_REJ + 1) (2 ^ 32 - 1) ∧ d.out = s.dev.out ∧ d.fes = s.dev.fes := by
  refine ⟨_, exec_configWriteMessage _ _ _ _, rfl, ?_⟩
  dsimp only
  obtain ⟨b, counted, eq⟩ := Dev.feConfig_bad hears active packet kind bad 1 (writeMessage p)
  rw [eq, Dev.fget_fbump_same, counted.fget]
  exact ⟨rfl, counted.out, counted.fes⟩

/-- A setting that is written (R76, R220). -/
theorem configWriteMessage_setting {r : ObjRow} (arrives : ConfigArrives s.dev p dl blocks 1 m) (setting : m.addr ∈ feSettings)
    (row : objRow m.addr = some r) (elem : m.elem < r.elems) (value : valueCheck r m.value = none)
    (fits : s.dev.feCondition p m.addr m.elem (beNat m.value) = none) :
    Completes (.configWriteMessage p dl blocks) s fun d =>
      Took p s.dev d m.alive ∧ d.fget p m.addr m.elem = beNat m.value ∧ d.ap p m.addr m.elem = s.dev.ap p m.addr m.elem
        ∧ (d.fe p).applyAt
          = some (if (s.dev.fe p).mode ∈ [Mode.sentinel, .stream, .gated, .snapshot] then s.dev.now else s.dev.now + 1) := by
  refine ⟨_, exec_configWriteMessage _ _ _ _, rfl, ?_⟩
  dsimp only
  obtain ⟨b, skips, prev, counted, eq⟩ := arrives.feConfig (writeMessage p)
  obtain ⟨-, -, -, -, other⟩ := setting_facts setting row
  obtain ⟨word, count, applied, at_⟩ :=
    b.settingWritten (p := p) setting row m.elem (setting_lt setting row value)
  rw [eq, writeMessage, Dev.feWrite_setting setting row elem value (by rw [counted.feCondition]; exact fits)]
  generalize (b.fePut p m.addr (beNat m.value) m.elem).feScheduleApply p = x at word count applied at_
  refine ⟨.of_respond (count.trans (counted.fget _ _)) _ _ _ _ _, ?_⟩
  obtain ⟨ls, rs, fs, fr, fe, regs, keeps⟩ := (x.takeMessage p m.alive skips prev (answerValue .accepted [])).feRespond_keeps p
    (configResponse 1 m.alive (statusCode .accepted) (m.addr % 256) m.elem (answerValue .accepted []))
  refine ⟨?_, ?_, ?_⟩
  · rw [Dev.fget_of_regs regs, Dev.takeMessage_fget _ other, word]
  · unfold Dev.ap; rw [keeps]; exact congrArg (tblRead regDflt · _) (applied.trans counted.applied)
  · rw [fe, Dev.takeMessage_fe, at_, counted.fe, counted.now]

/-- Whether a lane can send, from the lane map and the uplinks. -/
theorem Dev.laneOpen_congr {d d' : Dev} (map : (d'.fe p).laneMap = (d.fe p).laneMap) (uls : (d'.port p).uls = (d.port p).uls) (l : Lane) :
    d'.laneOpen p l = d.laneOpen p l := by
  unfold Dev.laneOpen CPort.ul; rw [map, uls]

/-- With nothing before it and room on lane 0, the answer to a message taken leaves at once. -/
theorem Dev.takeMessage_sends {d : Dev} (idle : (d.fe p).responses = []) (open_ : d.laneOpen p 0 = true)
    (room : (d.fe p).lanes[0].replay.length < 64) (alone : ∀ k ∈ (d.fe p).lanes[0].replay, k.kind ≠ 3) (alive skips : Nat)
    (prev value msg : Bytes) :
    (((d.takeMessage p alive skips prev value).feRespond p msg).fe p).responses = []
      ∧ (((d.takeMessage p alive skips prev value).feRespond p msg).fe p).prevValue = value
      ∧ ((d.takeMessage p alive skips prev value).feRespond p msg).out
        = .packet p.val 0 (d.fe p).lanes[0].nextSeq 3 0 0 (.response msg) :: d.out := by
  have fe := d.takeMessage_fe p alive skips prev value
  have outs : (d.takeMessage p alive skips prev value).out = d.out := rfl
  have still : (d.takeMessage p alive skips prev value).laneOpen p 0 = true := by
    have map : ((d.takeMessage p alive skips prev value).fe p).laneMap = (d.fe p).laneMap := by rw [fe]
    exact (Dev.laneOpen_congr map rfl 0).trans open_
  generalize d.takeMessage p alive skips prev value = y at fe outs still
  have lanes : (y.fe p).lanes = (d.fe p).lanes := by rw [fe]
  obtain ⟨sent, out⟩ := Dev.feRespond_sends (msg := msg) (by rw [fe]; exact idle) still (by rw [lanes]; exact room)
    (by rw [lanes]; exact alone)
  obtain ⟨ls, rs, fs, fr, kept, -, -⟩ := y.feRespond_keeps p msg
  exact ⟨sent, by rw [kept, fe], by rw [out, lanes, outs]⟩

/-- A READ of an object that there is (R195, R220). -/
theorem configReadMessage_answers {v : Bytes} (arrives : ConfigArrives s.dev p dl blocks 2 m)
    (read : (s.dev.settleFor p m.addr m.elem).feRead p m.addr m.elem = .ok v) (idle : (s.dev.fe p).responses = [])
    (open_ : s.dev.laneOpen p 0 = true) (room : (s.dev.fe p).lanes[0].replay.length < 64)
    (alone : ∀ k ∈ (s.dev.fe p).lanes[0].replay, k.kind ≠ 3) :
    Completes (.configReadMessage p dl blocks) s fun d =>
      Took p s.dev d m.alive ∧ (d.fe p).responses = [] ∧ (d.fe p).prevValue = v.take 240
        ∧ d.out = .packet p.val 0 (s.dev.fe p).lanes[0].nextSeq 3 0 0
          (.response (configResponse 2 m.alive 0 (m.addr % 256) m.elem (v.take 240))) :: s.dev.out := by
  refine ⟨_, exec_configReadMessage _ _ _ _, rfl, ?_⟩
  dsimp only
  obtain ⟨b, skips, prev, counted, eq⟩ := arrives.feConfig (readMessage p)
  obtain ⟨x, cs, fs, g, done, fe, ports, out, count⟩ := readMessage_ok (p := p) (m := m) (d := b) (v := v)
    (by rw [(counted.settleFor _ _).feRead]; exact read)
  rw [counted.fe] at fe
  rw [eq, done]
  have lanes : (x.fe p).lanes = (s.dev.fe p).lanes := by rw [fe]
  have uls : (x.port p).uls = (s.dev.port p).uls := by rw [← counted.uls]; unfold Dev.port; simp only [ports]
  have still := (Dev.laneOpen_congr (d := s.dev) (d' := x) (p := p) (by rw [fe]) uls 0).trans open_
  obtain ⟨sent, value, outs⟩ := Dev.takeMessage_sends (by rw [fe]; exact idle) still (by rw [lanes]; exact room)
    (by rw [lanes]; exact alone) m.alive skips prev (v.take 240) (configResponse 2 m.alive 0 (m.addr % 256) m.elem (v.take 240))
  rw [lanes, out, counted.out] at outs
  exact ⟨.of_respond (count.trans (counted.fget _ _)) _ _ _ _ _, sent, value, outs⟩

/-- A MIRROR message (R200). -/
theorem configMirrorMessage_taken (arrives : ConfigArrives s.dev p dl blocks 3 m) :
    Completes (.configMirrorMessage p dl blocks) s fun d =>
      Took p s.dev d m.alive
        ∧ (m.elem < 64 → m.value.length = 7 → tblRead (fun _ => {}) (d.fe p).mirrorNext m.elem = mirrorEntry m)
        ∧ (m.elem = 0xFFFF → m.value.length = 1 → (d.fe p).mirrorNextCyc = some (beNat m.value))
        ∧ (d.fe p).mirror = (s.dev.fe p).mirror := by
  refine ⟨_, exec_configMirrorMessage _ _ _ _, rfl, ?_⟩
  dsimp only
  obtain ⟨b, skips, prev, counted, eq⟩ := arrives.feConfig (mirrorMessage p)
  obtain ⟨entry, cycle, mirror, regs⟩ := mirrorMessage_facts p m b
  rw [eq]
  refine ⟨.of_respond ((Dev.fget_of_regs regs _ _ _).trans (counted.fget _ _)) _ _ _ _ _, ?_⟩
  obtain ⟨ls, rs, fs, fr, kept, -, -⟩ := ((mirrorMessage p m b).2.2.takeMessage p m.alive skips prev
    (answerValue (mirrorMessage p m b).1 (mirrorMessage p m b).2.1)).feRespond_keeps p (configResponse 3 m.alive
    (statusCode (mirrorMessage p m b).1) (m.addr % 256) m.elem (answerValue (mirrorMessage p m b).1 (mirrorMessage p m b).2.1))
  rw [kept, Dev.takeMessage_fe]
  exact ⟨entry, cycle, mirror.trans (congrArg FrontEnd.mirror (counted.fe p))⟩

end Sys2Proof.Machine
end

section
/-! Blocks that are not used (R178 to R183, R187, R222), and the statement on configuration messages (O40). -/

namespace Sys2Proof.Machine

variable {d : Dev} {p : Port}

/-! ### A port's links -/

theorem CPort.ul_updUl (c : CPort) (n : Fin 5) (g : LinkState → LinkState) : (c.updUl n.val g).ul n.val = g (c.ul n.val) := by
  simp [CPort.ul, CPort.updUl, List.getD_eq_getElem?_getD]

theorem CPort.dl_updDl (c : CPort) (n : Fin 2) (g : LinkState → LinkState) : (c.updDl n.val g).dl n.val = g (c.dl n.val) := by
  have := n.isLt
  simp [CPort.dl, CPort.updDl, List.getD_eq_getElem?_getD, Nat.le_of_lt_succ this]

/-- The link of a port that a block came on. -/
def CPort.link (c : CPort) : Rx → LinkState
  | .up l => c.ul l.val
  | .down l => c.dl l.val

/-- The port with that link changed. -/
def CPort.updLink (c : CPort) (rx : Rx) (g : LinkState → LinkState) : CPort :=
  match rx with
  | .up l => c.updUl l.val g
  | .down l => c.updDl l.val g

theorem CPort.link_updLink (c : CPort) (rx : Rx) (g : LinkState → LinkState) : (c.updLink rx g).link rx = g (c.link rx) := by
  cases rx with
  | up l => exact c.ul_updUl l g
  | down l => exact c.dl_updDl l g

/-- What a block that is not used counts on its link. -/
theorem CPort.link_counted (c : CPort) (rx : Rx) (ctl : Bool) (count : LinkState → LinkState) :
    (match rx with
      | .up l => c.updUl l.val count
      | .down dl =>
        if ctl && dl.val != (c.updDl dl.val count).activeDl && (c.updDl dl.val count).dlSwapAt.isNone then
          { c.updDl dl.val count with swapSent := none }
        else c.updDl dl.val count).link rx = count (c.link rx) := by
  cases rx with
  | up l => exact c.ul_updUl l count
  | down l =>
    dsimp only
    split <;> exact c.dl_updDl l count

@[simp] theorem Dev.port_updPort (d : Dev) (p : Port) (g : CPort → CPort) : (d.updPort p g).port p = g (d.port p) := by
  simp [Dev.port]

/-- What a block that is not used leaves (R178, R179). -/
theorem Dev.countBad_facts (d : Dev) (p : Port) (rx : Rx) (why : BadBlock) :
    (((d.countBad p rx why).port p).link rx).bad = ((d.port p).link rx).bad + 1
      ∧ (d.countBad p rx why).get Reg.WP_CTL_ERR p.val = (if why = .crc ∨ why = .unknownType then
          min (d.get Reg.WP_CTL_ERR p.val + 1) (2 ^ 32 - 1) else d.get Reg.WP_CTL_ERR p.val)
      ∧ (d.countBad p rx why).get Reg.WP_TEST_ERR p.val = d.get Reg.WP_TEST_ERR p.val := by
  generalize ctl : (why == .crc || why == .unknownType) = k
  have control : (why = .crc ∨ why = .unknownType) ↔ k = true := by rw [← ctl]; simp
  refine ⟨?_, ?_⟩
  · unfold Dev.countBad
    dsimp only
    rw [Dev.port_updPort, ctl]
    refine (congrArg LinkState.bad (CPort.link_counted _ rx k _)).trans ?_
    cases k <;> rfl
  · have regs : (d.countBad p rx why).regs = (if k then d.bump Reg.WP_CTL_ERR p.val else d).regs := by rw [← ctl]; rfl
    rw [Dev.get_of_regs regs, Dev.get_of_regs regs]
    simp only [control]
    cases k with
    | false => exact ⟨rfl, rfl⟩
    | true => exact ⟨Dev.get_bump_same _ _ _ _, Dev.get_bump_addr _ (by decide) _ _ _⟩

/-- Test blocks that a front end sends on change no object and no port. -/
theorem Dev.testsSent_keeps (d : Dev) (p : Port) (n : Nat) (payload : BitVec 128) :
    (forRange n (fun k d => d.emit (.test p.val (ulKey p.val k) payload)) d).regs = d.regs
      ∧ (forRange n (fun k d => d.emit (.test p.val (ulKey p.val k) payload)) d).ports = d.ports :=
  ⟨forRange_same Dev.regs n (fun k d => d.emit (.test p.val (ulKey p.val k) payload)) (fun _ _ _ => rfl) d,
    forRange_same Dev.ports n (fun k d => d.emit (.test p.val (ulKey p.val k) payload)) (fun _ _ _ => rfl) d⟩

/-- A block of a pattern test, but for what the front end sends of it (R222). -/
def Dev.testCounted (d : Dev) (p : Port) (rx : Rx) (b : Block) (stuffing : Bool) : Dev :=
  let (errors, prbs) := testCheck (d.get Reg.WP_TEST) b stuffing ((d.port p).link rx).prbs
  (d.setPort p ((d.port p).updLink rx fun l => { l with prbs := prbs })).bump Reg.WP_TEST_ERR p.val errors

theorem Dev.testBlock_keeps (d : Dev) (p : Port) (rx : Rx) (b : Block) (stuffing : Bool) :
    (d.testBlock p rx b stuffing).regs = (d.testCounted p rx b stuffing).regs
      ∧ (d.testBlock p rx b stuffing).ports = (d.testCounted p rx b stuffing).ports := by
  cases rx with
  | up n => exact ⟨rfl, rfl⟩
  | down n =>
    unfold Dev.testBlock
    dsimp only
    split
    · exact Dev.testsSent_keeps _ p 5 _
    · exact ⟨rfl, rfl⟩

/-- What a block of a pattern test leaves (R222). -/
theorem Dev.testBlock_facts (d : Dev) (p : Port) (rx : Rx) (b : Block) (stuffing : Bool) :
    (((d.testBlock p rx b stuffing).port p).link rx).bad = ((d.port p).link rx).bad
      ∧ (d.testBlock p rx b stuffing).get Reg.WP_CTL_ERR p.val = d.get Reg.WP_CTL_ERR p.val
      ∧ (d.testBlock p rx b stuffing).get Reg.WP_TEST_ERR p.val
        = min (d.get Reg.WP_TEST_ERR p.val + (testCheck (d.get Reg.WP_TEST) b stuffing ((d.port p).link rx).prbs).1) (2 ^ 64 - 1) := by
  obtain ⟨regs, ports⟩ := d.testBlock_keeps p rx b stuffing
  refine ⟨?_, ?_, ?_⟩
  · have link : ((d.testCounted p rx b stuffing).port p).link rx
        = { (d.port p).link rx with prbs := (testCheck (d.get Reg.WP_TEST) b stuffing ((d.port p).link rx).prbs).2 } :=
      (congrArg (CPort.link · rx) (d.port_setPort_same p _)).trans (CPort.link_updLink _ _ _)
    unfold Dev.port at link ⊢
    simp only [ports, link]
  · rw [Dev.get_of_regs regs]
    exact Dev.get_bump_addr _ (by decide) _ _ _
  · rw [Dev.get_of_regs regs]
    exact Dev.get_bump_same _ _ _ _

/-- The device after a block that is not part of a packet: a pattern test's count, and what is not used. -/
def Dev.blockSeen (d : Dev) (p : Port) (rx : Rx) (test : Bool) (b : Block) (stuffing : Bool) (bad : Option BadBlock) : Dev :=
  match bad with
  | none => if test then d.testBlock p rx b stuffing else d
  | some why => (if test then d.testBlock p rx b stuffing else d).countBad p rx why

theorem Dev.blockSeen_facts (d : Dev) (p : Port) (rx : Rx) (test : Bool) (b : Block) (stuffing : Bool) (bad : Option BadBlock) :
    (((d.blockSeen p rx test b stuffing bad).port p).link rx).bad = ((d.port p).link rx).bad + (if bad = none then 0 else 1)
      ∧ (d.blockSeen p rx test b stuffing bad).get Reg.WP_CTL_ERR p.val = (if bad = some .crc ∨ bad = some .unknownType then
          min (d.get Reg.WP_CTL_ERR p.val + 1) (2 ^ 32 - 1) else d.get Reg.WP_CTL_ERR p.val)
      ∧ (d.blockSeen p rx test b stuffing bad).get Reg.WP_TEST_ERR p.val = (if test then
          min (d.get Reg.WP_TEST_ERR p.val + (testCheck (d.get Reg.WP_TEST) b stuffing ((d.port p).link rx).prbs).1) (2 ^ 64 - 1)
        else d.get Reg.WP_TEST_ERR p.val) := by
  have tested : (((if test then d.testBlock p rx b stuffing else d).port p).link rx).bad = ((d.port p).link rx).bad
      ∧ (if test then d.testBlock p rx b stuffing else d).get Reg.WP_CTL_ERR p.val = d.get Reg.WP_CTL_ERR p.val
      ∧ (if test then d.testBlock p rx b stuffing else d).get Reg.WP_TEST_ERR p.val = (if test then
          min (d.get Reg.WP_TEST_ERR p.val + (testCheck (d.get Reg.WP_TEST) b stuffing ((d.port p).link rx).prbs).1) (2 ^ 64 - 1)
        else d.get Reg.WP_TEST_ERR p.val) := by
    cases test with
    | false => exact ⟨rfl, rfl, rfl⟩
    | true => exact d.testBlock_facts p rx b stuffing
  obtain ⟨link, ctl, err⟩ := tested
  cases bad with
  | none => exact ⟨link, by simpa [Dev.blockSeen] using ctl, err⟩
  | some why =>
    obtain ⟨link', ctl', err'⟩ := (if test then d.testBlock p rx b stuffing else d).countBad_facts p rx why
    refine ⟨?_, ?_, err'.trans err⟩
    · exact link'.trans (congrArg (· + 1) link)
    · simp only [Option.some.injEq]
      exact ctl'.trans (by rw [ctl])

/-- INVALID_BLOCK of a block off the line. -/
theorem exec_invalidBlock {s : State} {rx : Rx} {at_ : LinePlace} {line : List Bool} {b : Block} {stuffing : Bool}
    (read : readBlock (rxKey p.val rx) (s.dev.mode == .loopback && s.dev.get Reg.WP_STATE p.val == 6) at_ line = some (b, stuffing)) :
    exec (.invalidBlock p rx at_ line) s = .next { s with
      dev := s.dev.blockSeen p rx (s.dev.mode == .loopback && s.dev.get Reg.WP_STATE p.val == 6) b stuffing
        (if (s.dev.mode == .loopback && s.dev.get Reg.WP_STATE p.val == 6) && !stuffing && headerOk b.header then none
          else badBlock b stuffing) } := by
  change execInvalidBlock p rx at_ line s = _
  unfold execInvalidBlock
  simp only [State.on_eq, read]
  rfl

end Sys2Proof.Machine

open Sys2Proof Sys2Proof.Machine

/-- Settles O40: each kind of message through `ConfigArrives.feConfig`, which says once what R220 does with one that is taken, and a
block that is not used through `Dev.blockSeen_facts`. -/
theorem configurationMessagesExecuted : Obligations.ConfigurationMessagesExecuted := by
  unfold Obligations.ConfigurationMessagesExecuted
  intro arrives taken
  have fits {s : State} {p : Port} {dl : Fin 2} {blocks : List Block} {type : Nat} {m : ConfigIn}
      (h : arrives s p dl blocks type m) : ConfigArrives s.dev p dl blocks type m := by
    obtain ⟨⟨hears, active⟩, intact, type, alive⟩ := h
    exact ⟨hears, active, intact, type, alive⟩
  refine ⟨?bad, ?setting, ?read, ?mirror, ?block⟩
  case bad =>
    intro s p dl blocks k hears active packet kind bad
    exact configWriteMessage_bad hears active packet kind bad
  case setting =>
    intro s p dl blocks m r h setting row elem value free
    exact configWriteMessage_setting (fits h) setting row elem value free
  case read =>
    intro s p dl blocks m v h read idle open_ room alone
    exact configReadMessage_answers (fits h) read idle open_ room alone
  case mirror =>
    intro s p dl blocks m h
    exact configMirrorMessage_taken (fits h)
  case block =>
    intro s p rx at_ line b stuffing test bad l errors read
    refine ⟨_, exec_invalidBlock read, rfl, ?_⟩
    obtain ⟨link, ctl, err⟩ := s.dev.blockSeen_facts p rx test b stuffing bad
    cases rx with
    | up n => exact ⟨link, ctl, err⟩
    | down n => exact ⟨link, ctl, err⟩
end

section
/-! What a change of a region's bias level, a queue reset and a missed trigger leave of a front end (R66 to R70, R150, R159). -/

namespace Sys2Proof.Machine

variable {d : Dev} {p : Port} {K : Nat → Prop}

/-! ### What is kept -/

/-- A region's level, commanded level and queue. -/
def Region.core (g : Region) : Nat × Nat × List QRec := (g.level, g.commanded, g.queue)

/-- `f'` is in the mode of `f`, under its caps, with its column and lane queues, and the regions in `K` as they were. -/
structure FrontEnd.Keeps (K : Nat → Prop) (f f' : FrontEnd) : Prop where
  mode : f'.mode = f.mode
  fence : f'.fence = f.fence
  tripped : f'.tripped = f.tripped
  columns : f'.columns = f.columns
  lanes : f'.lanes = f.lanes
  region : ∀ r, K r → (f'.region r).core = (f.region r).core

theorem FrontEnd.Keeps.refl (f : FrontEnd) : f.Keeps K f := ⟨rfl, rfl, rfl, rfl, rfl, fun _ _ => rfl⟩

theorem FrontEnd.Keeps.trans {f f' f'' : FrontEnd} (h : f.Keeps K f') (h' : f'.Keeps K f'') : f.Keeps K f'' where
  mode := h'.mode.trans h.mode
  fence := h'.fence.trans h.fence
  tripped := h'.tripped.trans h.tripped
  columns := h'.columns.trans h.columns
  lanes := h'.lanes.trans h.lanes
  region r hr := (h'.region r hr).trans (h.region r hr)

theorem FrontEnd.Keeps.mono {K' : Nat → Prop} {f f' : FrontEnd} (h : f.Keeps K f') (sub : ∀ r, K' r → K r) : f.Keeps K' f' :=
  { h with region := fun r hr => h.region r (sub r hr) }

theorem FrontEnd.region_setRegion (f : FrontEnd) (r : Nat) (g : Region) (j : Nat) :
    (f.setRegion r g).region j = if j = r then g else f.region j := by
  rw [FrontEnd.setRegion, FrontEnd.region]; exact tblRead_tblWrite _ _ _ _ _

/-- A region replaced by one of the same core, or not among the regions that count. -/
theorem FrontEnd.setRegion_keeps (f : FrontEnd) {r : Nat} {g : Region} (same : K r → g.core = (f.region r).core) :
    f.Keeps K (f.setRegion r g) := by
  refine ⟨rfl, rfl, rfl, rfl, rfl, fun j hj => ?_⟩
  rw [FrontEnd.region_setRegion]
  split
  · rename_i here; subst here; exact same hj
  · rfl

theorem FrontEnd.setChan_keeps (f : FrontEnd) (c : Nat) (ch : Chan) : f.Keeps K (f.setChan c ch) :=
  ⟨rfl, rfl, rfl, rfl, rfl, fun _ _ => rfl⟩

theorem FrontEnd.setSampler_keeps (f : FrontEnd) (e : Nat) (sm : Sampler) : f.Keeps K (f.setSampler e sm) :=
  ⟨rfl, rfl, rfl, rfl, rfl, fun _ _ => rfl⟩

theorem FrontEnd.updFrame_keeps (f : FrontEnd) (start : Nat) (g : FeFrame → FeFrame) : f.Keeps K (f.updFrame start g) :=
  ⟨rfl, rfl, rfl, rfl, rfl, fun _ _ => rfl⟩

theorem FrontEnd.letGo_keeps (f : FrontEnd) (now : Nat) (frames : List Nat) : f.Keeps K (f.letGo now frames) :=
  forEach_keeps (f.Keeps K) _ _ (fun _ _ _ h => h.trans (FrontEnd.updFrame_keeps _ _ _)) f (.refl f)

/-- `d'` is `d` in what is applied, in time, in the Mode object of port `p`, and in what `FrontEnd.Keeps` says of its front end. -/
structure FeKeeps (p : Port) (K : Nat → Prop) (d d' : Dev) : Prop where
  applied : d'.applied = d.applied
  now : d'.now = d.now
  word : d'.fget p Reg.FE_MODE = d.fget p Reg.FE_MODE
  fe : (d.fe p).Keeps K (d'.fe p)

theorem FeKeeps.refl (d : Dev) : FeKeeps p K d d := ⟨rfl, rfl, rfl, .refl _⟩

theorem FeKeeps.trans {d d' d'' : Dev} (h : FeKeeps p K d d') (h' : FeKeeps p K d' d'') : FeKeeps p K d d'' :=
  ⟨h'.applied.trans h.applied, h'.now.trans h.now, h'.word.trans h.word, h.fe.trans h'.fe⟩

theorem FeKeeps.mono {K' : Nat → Prop} {d d' : Dev} (h : FeKeeps p K d d') (sub : ∀ r, K' r → K r) : FeKeeps p K' d d' :=
  { h with fe := h.fe.mono sub }

theorem Dev.setFe_keeps {f : FrontEnd} (h : (d.fe p).Keeps K f) : FeKeeps p K d (d.setFe p f) :=
  ⟨rfl, rfl, rfl, by rw [Dev.fe_setFe_same]; exact h⟩

theorem Dev.fset_keeps {a : Nat} (other : Reg.FE_MODE % 2 ^ 24 ≠ a % 2 ^ 24) (e v : Nat) : FeKeeps p K d (d.fset p a e v) :=
  ⟨rfl, rfl, d.fget_fset_addr other _ _ _ _ _, .refl _⟩

theorem Dev.fbump_keeps {a : Nat} (other : Reg.FE_MODE % 2 ^ 24 ≠ a % 2 ^ 24) (e n : Nat) : FeKeeps p K d (d.fbump p a e n) :=
  Dev.fset_keeps other _ _

theorem DeadOnly.keeps {d' : Dev} (h : DeadOnly p d d') : FeKeeps p K d d' := by
  obtain ⟨r, cs, fs, eq, keeps⟩ := h
  have fe : d'.fe p = { d.fe p with chans := cs, frames := fs } := by rw [eq]; exact Dev.fe_setFe_same _ _ _
  exact ⟨by rw [eq]; rfl, by rw [eq]; rfl, keeps _ _ (by decide), by rw [fe]; exact ⟨rfl, rfl, rfl, rfl, rfl, fun _ _ => rfl⟩⟩

theorem forEach_feKeeps {α : Type} (l : List α) (f : α → Dev → Dev) (h : ∀ a d, FeKeeps p K d (f a d)) (d : Dev) :
    FeKeeps p K d (forEach l f d) :=
  forEach_keeps (FeKeeps p K d) l f (fun a _ d' hd => hd.trans (h a d')) d (.refl d)

theorem forEach_frontEndKeeps {α : Type} (l : List α) (f : α → FrontEnd → FrontEnd) (h : ∀ a (x : FrontEnd), x.Keeps K (f a x))
    (x : FrontEnd) :
    x.Keeps K (forEach l f x) :=
  forEach_keeps (x.Keeps K) l f (fun a _ y hy => hy.trans (h a y)) x (.refl x)

/-! ### Records and misses -/

theorem Dev.feRecord_keeps (d : Dev) (p : Port) (bits : Record) (region frame : Nat) : FeKeeps p K d (d.feRecord p bits region frame) := by
  unfold Dev.feRecord
  dsimp only
  split
  · exact .refl d
  · split
    · exact Dev.setFe_keeps ⟨rfl, rfl, rfl, rfl, rfl, fun _ _ => rfl⟩
    · exact (Dev.setFe_keeps (FrontEnd.updFrame_keeps _ _ _)).trans (Dev.fbump_keeps (by decide) _ _)

theorem Dev.resetRecords_keeps (d : Dev) (p : Port) (queue index cause : Nat) (lost : List Lost) :
    FeKeeps p K d (d.resetRecords p queue index cause lost) := by
  unfold Dev.resetRecords
  dsimp only
  refine FeKeeps.trans ?_ ((Dev.fbump_keeps (by decide) _ _).trans (Dev.fbump_keeps (by decide) _ _))
  have letGo : FeKeeps p K d (if queue = 3 then d else d.updFe p fun f => f.letGo d.now (lost.map Prod.fst)) := by
    split
    · exact .refl d
    · exact Dev.setFe_keeps (FrontEnd.letGo_keeps _ _ _)
  have dealt := letGo.trans (forEach_feKeeps (p := p) (K := K) (lost.filter fun x => x.2.2).dedup
    (fun x e => e.feRecord p (queueResetRecord queue index cause (lost.any fun x => !x.2.2) ((lost.filter fun x => x.2.2).count x) x.2.1) 0
      ((d.fe p).frameStart d.now)) (fun _ _ => Dev.feRecord_keeps _ _ _ _ _) _)
  split
  · exact dealt.trans (Dev.feRecord_keeps _ _ _ _ _)
  · exact dealt

theorem Dev.noteFlood_keeps (d : Dev) (p : Port) (r : Nat) : FeKeeps p K d (d.noteFlood p r) := by
  unfold Dev.noteFlood
  split
  · exact Dev.setFe_keeps (FrontEnd.setRegion_keeps _ fun _ => rfl)
  · exact .refl d

theorem Dev.missSampler_keeps (d : Dev) (p : Port) (r s n : Nat) : FeKeeps p K d (d.missSampler p r s n) := by
  unfold Dev.missSampler
  split
  · exact .refl d
  · exact (Dev.fbump_keeps (by decide) _ _).trans (Dev.setFe_keeps (FrontEnd.setSampler_keeps _ _ _))

theorem Dev.missTrigger_keeps (d : Dev) (p : Port) (z : Freeze) : FeKeeps p K d (d.missTrigger p z) :=
  forEach_feKeeps _ _ (fun _ _ => forEach_feKeeps _ _ (fun _ _ => Dev.missSampler_keeps _ _ _ _ _) _) d

/-! ### Bias levels -/

theorem Dev.rearmTo_keeps (d : Dev) (p : Port) (c t : Nat) : FeKeeps p K d (d.rearmTo p c t) :=
  (d.settleDead_only p c t).keeps.trans (Dev.setFe_keeps (FrontEnd.setChan_keeps _ _ _))

theorem Dev.cutPulse_keeps (d : Dev) (p : Port) (c : Nat) : FeKeeps p K d (d.cutPulse p c) := by
  unfold Dev.cutPulse
  dsimp only
  have cut (f : FrontEnd) (h : (d.fe p).Keeps K f) (ch : Chan) : FeKeeps p K d (d.setFe p (f.setChan c ch)) :=
    Dev.setFe_keeps (h.trans (FrontEnd.setChan_keeps _ _ _))
  have going : (d.fe p).Keeps K (if ((d.fe p).chan c).st = .pulse then (d.fe p).letGo d.now [(d.fe p).pulsePlace c ((d.fe p).chan c)]
      else d.fe p) := by
    split
    · exact FrontEnd.letGo_keeps _ _ _
    · exact .refl _
  split
  · exact (cut _ going _).trans (Dev.rearmTo_keeps _ _ _ _)
  · exact cut _ going _

theorem Dev.leaveOff_keeps (d : Dev) (p : Port) (r : Nat) : FeKeeps p K d (d.leaveOff p r) := by
  unfold Dev.leaveOff
  dsimp only
  refine (forEach_feKeeps _ _ (fun _ _ => Dev.fset_keeps (by decide) _ _) d).trans (Dev.setFe_keeps ?_)
  beta_reduce
  have unpaired (cs : List Nat) (f : FrontEnd) :
      f.Keeps K (forEach cs (fun c f => f.setChan c { f.chan c with pairValid := false }) f) :=
    forEach_frontEndKeeps _ _ (fun _ _ => FrontEnd.setChan_keeps _ _ _) f
  refine forRange_keeps (FrontEnd.Keeps K _) 4 _ (fun s _ y hy => hy.trans ?_) _ ?_
  · split
    · exact FrontEnd.setSampler_keeps _ _ _
    · exact .refl _
  · exact (unpaired _ _).trans (FrontEnd.setRegion_keeps _ fun _ => rfl)

/-- A region's channels brought to the present slot, their pulses cut by a change to OFF (R70). -/
def Dev.levelReady (d : Dev) (p : Port) (r l : Nat) : Dev :=
  if l = 0 then forEach (channelsOf r) (fun c d => d.cutPulse p c) (d.settleAll p (channelsOf r) (8 * d.now))
  else d.settleAll p (channelsOf r) (8 * d.now)

theorem Dev.levelReady_keeps (d : Dev) (p : Port) (r l : Nat) : FeKeeps p K d (d.levelReady p r l) := by
  have settled : FeKeeps p K d (d.settleAll p (channelsOf r) (8 * d.now)) := (d.settleAll_only p _ _).keeps
  unfold Dev.levelReady
  split
  · exact settled.trans (forEach_feKeeps _ _ (fun _ _ => Dev.cutPulse_keeps _ _ _) _)
  · exact settled

/-- A region that takes level `l` at slot `now` (R67 to R69). -/
def Region.atLevel (g : Region) (now l : Nat) : Region :=
  let until_ := max g.settleUntil (now + settleTime g.level l)
  { g with level := l, settleFrom := if g.settling now then g.settleFrom else now, settleUntil := until_
           outFrom := if l = 0 then none else if g.level = 0 then some until_ else g.outFrom.map fun _ => until_ }

/-- The device with the region written so. -/
def Dev.writeLevel (d : Dev) (p : Port) (r l : Nat) : Dev :=
  d.setFe p ((d.fe p).setRegion r (((d.fe p).region r).atLevel d.now l))

/-- The change of a level is a region written, and one that leaves OFF. -/
theorem Dev.setLevel_eq (d : Dev) (p : Port) (r l : Nat) (change : ((d.fe p).region r).level ≠ l) :
    d.setLevel p r l = if (((d.levelReady p r l).fe p).region r).level = 0 then ((d.levelReady p r l).writeLevel p r l).leaveOff p r
      else (d.levelReady p r l).writeLevel p r l := by
  unfold Dev.setLevel
  exact if_neg change

theorem FeKeeps.core {d d' : Dev} (h : FeKeeps p K d d') {r : Nat} (hr : K r) : ((d'.fe p).region r).core = ((d.fe p).region r).core :=
  h.fe.region r hr

/-- A region takes a level: no other region changes, and of its own neither the commanded level nor the queue. -/
theorem Dev.setLevel_facts (d : Dev) (p : Port) (r l : Nat) :
    FeKeeps p (· ≠ r) d (d.setLevel p r l)
      ∧ (((d.setLevel p r l).fe p).region r).core = (l, ((d.fe p).region r).commanded, ((d.fe p).region r).queue) := by
  by_cases same : ((d.fe p).region r).level = l
  · have eq : d.setLevel p r l = d := if_pos same
    rw [eq, ← same]
    exact ⟨.refl d, rfl⟩
  · have ready : FeKeeps p (fun _ => True) d (d.levelReady p r l) := d.levelReady_keeps p r l
    have rest : (((d.levelReady p r l).fe p).region r).core.2 = ((d.fe p).region r).core.2 := congrArg Prod.snd (ready.core trivial)
    rw [d.setLevel_eq p r l same]
    generalize d.levelReady p r l = x at ready rest
    have written : FeKeeps p (· ≠ r) x (x.writeLevel p r l) :=
      Dev.setFe_keeps (FrontEnd.setRegion_keeps _ fun other => absurd rfl other)
    have core : (((x.writeLevel p r l).fe p).region r).core = (l, ((d.fe p).region r).commanded, ((d.fe p).region r).queue) := by
      rw [Dev.writeLevel, Dev.fe_setFe_same, FrontEnd.region_setRegion, if_pos rfl]
      exact congrArg (Prod.mk l) rest
    have before := (ready.mono fun _ _ => trivial).trans written
    split
    · exact ⟨before.trans (Dev.leaveOff_keeps _ _ _), ((Dev.leaveOff_keeps (K := fun _ => True) _ _ _).core trivial).trans core⟩
    · exact ⟨before, core⟩

/-- The cap of a region's level, from what it is made of. -/
theorem FeKeeps.regionCap {d d' : Dev} (h : FeKeeps p K d d') (r l : Nat) : d'.regionCap p r l = d.regionCap p r l := by
  unfold Dev.regionCap FrontEnd.fenceOf Dev.groupOf Dev.rgWord Dev.ap
  rw [h.applied, h.fe.fence, h.fe.tripped]

theorem FeKeeps.groupOf {d d' : Dev} (h : FeKeeps p K d d') (r : Nat) : d'.groupOf p r = d.groupOf p r := by
  unfold Dev.groupOf Dev.rgWord Dev.ap; rw [h.applied]

/-- A commanded level is taken as far as the region's cap allows (R66). -/
theorem Dev.commandLevel_facts (d : Dev) (p : Port) (r l : Nat) :
    FeKeeps p (· ≠ r) d (d.commandLevel p r l)
      ∧ (((d.commandLevel p r l).fe p).region r).commanded = l
      ∧ (((d.commandLevel p r l).fe p).region r).level = d.regionCap p r l := by
  have commanded : FeKeeps p (· ≠ r) d (d.updFe p fun f => f.updRegion r fun g => { g with commanded := l }) :=
    Dev.setFe_keeps (FrontEnd.setRegion_keeps _ fun other => absurd rfl other)
  have here : ((d.updFe p fun f => f.updRegion r fun g => { g with commanded := l }).fe p).region r
      = { (d.fe p).region r with commanded := l } := by
    rw [Dev.fe_updFe_same, FrontEnd.updRegion, FrontEnd.region_setRegion, if_pos rfl]
  unfold Dev.commandLevel
  dsimp only
  rw [commanded.regionCap]
  generalize (d.updFe p fun f => f.updRegion r fun g => { g with commanded := l }) = x at *
  obtain ⟨keeps, core⟩ := x.setLevel_facts p r (d.regionCap p r l)
  rw [here] at core
  refine ⟨commanded.trans keeps, ?_, ?_⟩
  · exact congrArg (fun c => c.2.1) core
  · exact congrArg Prod.fst core

end Sys2Proof.Machine
end

section
/-! The fast command that is due at a front end, and what each kind of it does (R19, R35, R66, R71, R199, R212; O21). -/

namespace Sys2Proof.Machine

variable {d : Dev} {p : Port} {i : DueItem}

/-! ### What is due -/

/-- Idle items passed over change the list of commands and their count, and nothing else. -/
theorem Dev.passIdle_eq (d : Dev) (p : Port) (n : Nat) :
    ∃ cs m, d.passIdle p n = d.setFe p { d.fe p with cmds := cs, executed := m } := by
  induction n generalizing d with
  | zero => exact ⟨(d.fe p).cmds, (d.fe p).executed, (Dev.setFe_fe d p).symm⟩
  | succ n ih =>
    unfold Dev.passIdle
    split
    · exact ⟨(d.fe p).cmds, (d.fe p).executed, (Dev.setFe_fe d p).symm⟩
    · rename_i i _
      split
      · obtain ⟨cs, m, h⟩ := ih (d.setFe p ((d.fe p).finish i))
        exact ⟨cs, m, by rw [h, Dev.fe_setFe_same, Dev.setFe_setFe]; rfl⟩
      · exact ⟨(d.fe p).cmds, (d.fe p).executed, (Dev.setFe_fe d p).symm⟩

theorem Dev.due_eq (d : Dev) (p : Port) : ∃ cs m, (d.due p).1 = d.setFe p { d.fe p with cmds := cs, executed := m } :=
  d.passIdle_eq p _

/-- The front end as a due item finds it: idle items passed over, the item taken off and counted, and step 1 of R141 taken. -/
def Dev.started (d : Dev) (p : Port) (i : DueItem) : Dev :=
  ((d.due p).1.setFe p (((d.due p).1.fe p).finish i)).atStep p 1

/-- Nothing has changed in it but the commands, their count, and the step. -/
theorem Dev.started_eq (d : Dev) (p : Port) (i : DueItem) : ∃ m, d.started p i = d.setFe p { d.fe p with
    cmds := (((d.due p).1.fe p).finish i).cmds, executed := m, stepSlot := d.now, step := 1 } := by
  obtain ⟨cs, m, h⟩ := d.due_eq p
  refine ⟨m + 1, ?_⟩
  rw [Dev.started, h]
  simp [Dev.atStep, Dev.updFe, FrontEnd.finish]

/-- The item that is due runs, when it is of the kind asked for. -/
theorem Dev.runDue_due (order : d.inOrder p 1 = true) (due : (d.due p).2 = some i) {k : DueItem → Bool} (kind : k i = true)
    (g : DueItem → Dev → Dev) : d.runDue p k g = g i (d.started p i) := by
  unfold Dev.runDue
  rw [order, if_neg (by decide)]
  rw [show d.due p = ((d.due p).1, some i) from Prod.ext rfl due]
  exact if_pos kind

theorem Dev.started_keeps (d : Dev) (p : Port) (i : DueItem) {K : Nat → Prop} : FeKeeps p K d (d.started p i) := by
  obtain ⟨m, h⟩ := d.started_eq p i
  rw [h]
  exact Dev.setFe_keeps ⟨rfl, rfl, rfl, rfl, rfl, fun _ _ => rfl⟩

/-- The front end of `started`, but for its commands and step. -/
theorem Dev.started_fe (d : Dev) (p : Port) (i : DueItem) : ∃ m, (d.started p i).fe p = { d.fe p with
    cmds := (((d.due p).1.fe p).finish i).cmds, executed := m, stepSlot := d.now, step := 1 } := by
  obtain ⟨m, h⟩ := d.started_eq p i
  exact ⟨m, by rw [h, Dev.fe_setFe_same]⟩

/-! ### Modes (R19) -/

/-- `d'` is `d` in the mode of the front end on `p` and its Mode object. -/
def ModeKept (p : Port) (d d' : Dev) : Prop := d'.fget p Reg.FE_MODE = d.fget p Reg.FE_MODE ∧ (d'.fe p).mode = (d.fe p).mode

theorem ModeKept.trans {d d' d'' : Dev} (h : ModeKept p d d') (h' : ModeKept p d' d'') : ModeKept p d d'' :=
  ⟨h'.1.trans h.1, h'.2.trans h.2⟩

theorem FeKeeps.modeKept {K : Nat → Prop} {d d' : Dev} (h : FeKeeps p K d d') : ModeKept p d d' := ⟨h.word, h.fe.mode⟩

theorem forEach_modeKept {α : Type} (l : List α) (f : α → Dev → Dev) (h : ∀ a d, ModeKept p d (f a d)) (d : Dev) :
    ModeKept p d (forEach l f d) :=
  forEach_keeps (ModeKept p d) l f (fun a _ d' hd => hd.trans (h a d')) d ⟨rfl, rfl⟩

theorem Dev.cancelFreezes_mode (d : Dev) (p : Port) : ModeKept p d (d.cancelFreezes p) := by
  have dropped : ModeKept p d (d.setFe p { d.fe p with freezes := (d.fe p).freezes.filter fun z => z.inst < 40 * d.now }) :=
    ⟨rfl, by rw [Dev.fe_setFe_same]⟩
  exact dropped.trans (forEach_modeKept _ (fun z d => d.missTrigger p z)
    (fun z d => (Dev.missTrigger_keeps (K := fun _ => True) d p z).modeKept) _)

theorem Dev.clearHolds_mode (d : Dev) (p : Port) : ModeKept p d (d.clearHolds p) := by
  have applied (e v : Nat) (d : Dev) : ModeKept p d (d.setAp p Reg.FE_RG_TIME e v) := ⟨rfl, rfl⟩
  have shadow (e v : Nat) (d : Dev) : ModeKept p d (d.fset p Reg.FE_RG_TIME e v) :=
    (Dev.fset_keeps (K := fun _ => True) (by decide) e v).modeKept
  exact (forEach_modeKept _ _ (fun e d => applied e _ d) d).trans (forEach_modeKept _ _ (fun e d => shadow e _ d) _)

/-- A mode other than BOOT and SAFE, as the front end takes it before what the mode cancels. -/
def Dev.takeMode (d : Dev) (p : Port) (m : Mode) : Dev :=
  d.updFe p fun f =>
    let f := { f with mode := m }
    f.updFrame (f.frameStart d.now) fun fr => { fr with marks := sendsMarkers m, hits := producesHits m }

/-- What a mode cancels and clears (R105, R172). -/
def Dev.afterMode (d : Dev) (p : Port) (m : Mode) : Dev :=
  let d := if d.snapshotsIn p m then d else d.cancelFreezes p
  if m = .sentinel ∨ m = .stream ∨ m = .gated ∨ m = .snapshot then d.clearHolds p else d

theorem Dev.afterMode_mode (d : Dev) (p : Port) (m : Mode) : ModeKept p d (d.afterMode p m) := by
  have cancelled : ModeKept p d (if d.snapshotsIn p m then d else d.cancelFreezes p) := by
    split
    · exact ⟨rfl, rfl⟩
    · exact d.cancelFreezes_mode p
  unfold Dev.afterMode
  dsimp only
  split
  · exact cancelled.trans (Dev.clearHolds_mode _ p)
  · exact cancelled

/-- The regions of a front end that leaves BOOT or SAFE brought to SENTINEL (R66). -/
def Dev.wakeRegions (d : Dev) (p : Port) (asleep : Prop) [Decidable asleep] : Dev :=
  if asleep then forRange 256 (fun r d => d.commandLevel p r 1) d else d

theorem Dev.wakeRegions_mode (d : Dev) (p : Port) (asleep : Prop) [Decidable asleep] : ModeKept p d (d.wakeRegions p asleep) := by
  unfold Dev.wakeRegions
  split
  · exact forEach_modeKept _ _ (fun r d => (d.commandLevel_facts p r 1).1.modeKept) d
  · exact ⟨rfl, rfl⟩

/-- A mode other than BOOT and SAFE, step by step. -/
theorem Dev.feEnterMode_eq (d : Dev) (p : Port) {m : Mode} (on : ¬ (m = .boot ∨ m = .safe)) :
    d.feEnterMode p m = (((d.fset p Reg.FE_MODE 0 (modeCode m)).wakeRegions p
      ((d.fe p).mode = .boot ∨ (d.fe p).mode = .safe)).takeMode p m).afterMode p m :=
  if_neg on

theorem modeCode_lt (m : Mode) : modeCode m % 2 ^ regBits Reg.FE_MODE = modeCode m := by
  cases m <;> rfl

/-- A mode is taken, and shown (R19). -/
theorem Dev.feEnterMode_facts (d : Dev) (p : Port) (m : Mode) : (d.feEnterMode p m).fget p Reg.FE_MODE = modeCode m
    ∧ if m = .boot ∨ m = .safe then ((d.feEnterMode p m).fe p).power = .lowPower else ((d.feEnterMode p m).fe p).mode = m := by
  by_cases off : m = .boot ∨ m = .safe
  · rw [if_pos off, show d.feEnterMode p m = (d.feReset p .lowPower).fset p Reg.FE_MODE 0 (modeCode m) from if_pos off]
    refine ⟨by rw [Dev.fget_fset_same, modeCode_lt], ?_⟩
    rw [Dev.fe_fset, Dev.feReset, Dev.fe_setFe_same]
  · rw [if_neg off]
    rw [d.feEnterMode_eq p off]
    obtain ⟨word, -⟩ := (d.fset p Reg.FE_MODE 0 (modeCode m)).wakeRegions_mode p ((d.fe p).mode = .boot ∨ (d.fe p).mode = .safe)
    rw [Dev.fget_fset_same, modeCode_lt] at word
    generalize (d.fset p Reg.FE_MODE 0 (modeCode m)).wakeRegions p ((d.fe p).mode = .boot ∨ (d.fe p).mode = .safe) = x at word ⊢
    obtain ⟨shown, mode⟩ := (x.takeMode p m).afterMode_mode p m
    refine ⟨shown.trans word, mode.trans ?_⟩
    rw [Dev.takeMode, Dev.fe_updFe_same]
    rfl

end Sys2Proof.Machine
end

section
namespace Sys2Proof.Machine

variable {d : Dev} {p : Port} {i : DueItem}

/-- What one pass brings about and every pass keeps, an iteration over a list with that pass in it brings about. -/
theorem forEach_establishes {α σ : Type} {I Q : σ → Prop} {l : List α} {f : α → σ → σ} {a : α} (mem : a ∈ l)
    (inv : ∀ x s, I s → I (f x s)) (hit : ∀ s, I s → Q (f a s)) (keep : ∀ x s, I s → Q s → Q (f x s)) {s : σ} (start : I s) :
    Q (forEach l f s) := by
  obtain ⟨before, after, rfl⟩ := List.append_of_mem mem
  have split : forEach (before ++ a :: after) f s = forEach after f (f a (forEach before f s)) := by
    simp [forEach, List.foldl_append]
  have reached : I (forEach before f s) := forEach_keeps I before f (fun x _ t ht => inv x t ht) s start
  rw [split]
  exact (forEach_keeps (fun t => I t ∧ Q t) after f (fun x _ t ht => ⟨inv x t ht.1, keep x t ht.1 ht.2⟩) _
    ⟨inv a _ reached, hit _ reached⟩).2

/-! ### Queue resets (R35, R150) -/

/-- A region queue reset empties the region's queue and leaves the others. -/
theorem Dev.resetRegion_facts (d : Dev) (p : Port) (r cause : Nat) :
    FeKeeps p (· ≠ r) d (d.resetRegion p r cause) ∧ (((d.resetRegion p r cause).fe p).region r).queue = [] := by
  have noted : FeKeeps p (· ≠ r) d (d.noteFlood p r) := d.noteFlood_keeps p r
  have emptied (g : Region) (now : Nat) : (g.setQueue now []).queue = [] := by
    unfold Region.setQueue
    dsimp only
    split
    · rfl
    · split <;> rfl
  unfold Dev.resetRegion
  dsimp only
  generalize d.noteFlood p r = x at noted
  have written : FeKeeps p (· ≠ r) x (x.setFe p ((x.fe p).setRegion r (((x.fe p).region r).setQueue x.now []))) :=
    Dev.setFe_keeps (FrontEnd.setRegion_keeps _ fun other => absurd rfl other)
  refine ⟨(noted.trans written).trans (Dev.resetRecords_keeps _ _ _ _ _ _), ?_⟩
  have core := (Dev.resetRecords_keeps (K := fun _ => True) (x.setFe p ((x.fe p).setRegion r (((x.fe p).region r).setQueue x.now [])))
    p 1 r cause (lostOf ((x.fe p).region r).queue)).core (r := r) trivial
  refine (congrArg (fun c => c.2.2) core).trans ?_
  rw [Dev.fe_setFe_same, FrontEnd.region_setRegion, if_pos rfl]
  exact emptied _ _

theorem Dev.resetColumn_facts (d : Dev) (p : Port) (c : Fin 16) (cause : Nat) :
    ((d.resetColumn p c cause).fe p).columns = (d.fe p).columns.set c.val []
      ∧ ∀ r, (((d.resetColumn p c cause).fe p).region r).core = ((d.fe p).region r).core := by
  have kept := Dev.resetRecords_keeps (K := fun _ => True) (d.setFe p { d.fe p with columns := (d.fe p).columns.set c.val [] })
    p 2 c.val cause (lostOf (d.fe p).columns[c.val])
  exact ⟨kept.fe.columns.trans (by rw [Dev.fe_setFe_same]), fun r => (kept.core trivial).trans (by rw [Dev.fe_setFe_same]; rfl)⟩

theorem laneRecords_laneMarkers (q : List LaneItem) : laneRecords (laneMarkers q) = [] := by
  induction q with
  | nil => rfl
  | cons x q ih => cases x <;> simpa [laneRecords, laneMarkers] using ih

/-- A lane with its output queue reset: only markers stay. -/
def FeLane.flushed (l : FeLane) (now : Nat) : FeLane := { l with queue := laneMarkers l.queue, since := now, due := false }

theorem Dev.resetLane_facts (d : Dev) (p : Port) (l : Lane) (cause : Nat) :
    (∃ x, ((d.resetLane p l cause).fe p).lanes = (d.fe p).lanes.set l.val x ∧ laneRecords x.queue = [])
      ∧ ((d.resetLane p l cause).fe p).columns = (d.fe p).columns
      ∧ ∀ r, (((d.resetLane p l cause).fe p).region r).core = ((d.fe p).region r).core := by
  have kept := Dev.resetRecords_keeps (K := fun _ => True) (d.setFe p
    { d.fe p with lanes := (d.fe p).lanes.set l.val ((d.fe p).lanes[l.val].flushed d.now) }) p 3 l.val cause (lostItems (d.fe p).lanes[l.val].queue)
  exact ⟨⟨_, kept.fe.lanes.trans (by rw [Dev.fe_setFe_same]), laneRecords_laneMarkers _⟩,
    kept.fe.columns.trans (by rw [Dev.fe_setFe_same]), fun r => (kept.core trivial).trans (by rw [Dev.fe_setFe_same]; rfl)⟩

/-- The region queues that a queue reset flushes. -/
def Dev.flushRegions (d : Dev) (p : Port) (e : MirrorEntry) : Dev :=
  if bit e.arg 0 then forEach (d.regionsIn p e.groups) (fun r d => d.resetRegion p r 1) d else d

/-- The column and lane queues that it flushes. -/
def Dev.flushLanes (d : Dev) (p : Port) (e : MirrorEntry) : Dev :=
  if bit e.arg 1 then
    forEach (List.finRange 4) (fun l d => d.resetLane p l 1) (forEach (List.finRange 16) (fun c d => d.resetColumn p c 1) d)
  else d

theorem Dev.flushRegions_empty {e : MirrorEntry} (set : bit e.arg 0 = true) {r : Nat} (mem : r ∈ d.regionsIn p e.groups) :
    (((d.flushRegions p e).fe p).region r).queue = [] := by
  rw [Dev.flushRegions, if_pos set]
  refine forEach_establishes (I := fun _ => True) (Q := fun d : Dev => ((d.fe p).region r).queue = [])
    (f := fun r d => d.resetRegion p r 1) mem (fun _ _ _ => trivial) (fun d _ => (d.resetRegion_facts p r 1).2) (fun x d _ empty => ?_) trivial
  obtain ⟨keeps, emptied⟩ := d.resetRegion_facts p x 1
  by_cases here : r = x
  · rw [here]; exact emptied
  · have core := keeps.core here
    exact (congrArg (fun c => c.2.2) core).trans empty

/-- The flush of the columns and lanes leaves the regions. -/
theorem Dev.flushLanes_region (d : Dev) (p : Port) (e : MirrorEntry) (r : Nat) :
    (((d.flushLanes p e).fe p).region r).core = ((d.fe p).region r).core := by
  unfold Dev.flushLanes
  split
  · refine (forEach_same (fun d : Dev => ((d.fe p).region r).core) _ _ (fun l _ d => (d.resetLane_facts p l 1).2.2 r) _).trans ?_
    exact forEach_same (fun d : Dev => ((d.fe p).region r).core) _ _ (fun c _ d => (d.resetColumn_facts p c 1).2 r) d
  · rfl

theorem Dev.flushLanes_empty {e : MirrorEntry} (set : bit e.arg 1 = true) :
    (∀ c : Fin 16, ((d.flushLanes p e).fe p).columns[c.val] = [])
      ∧ ∀ l : Lane, laneRecords ((d.flushLanes p e).fe p).lanes[l.val].queue = [] := by
  rw [Dev.flushLanes, if_pos set]
  have columns (c : Fin 16) : ((forEach (List.finRange 16) (fun c d => d.resetColumn p c 1) d).fe p).columns[c.val] = [] := by
    refine forEach_establishes (I := fun _ => True) (Q := fun d : Dev => (d.fe p).columns[c.val] = []) (List.mem_finRange c)
      (fun _ _ _ => trivial) (fun d _ => ?_) (fun x d _ empty => ?_) trivial
    · simp [(d.resetColumn_facts p c 1).1]
    · simp [(d.resetColumn_facts p x 1).1, Vector.getElem_set, empty]
  generalize forEach (List.finRange 16) (fun c d => d.resetColumn p c 1) d = x at columns
  refine ⟨fun c => ?_, fun l => ?_⟩
  · have kept : ((forEach (List.finRange 4) (fun l d => d.resetLane p l 1) x).fe p).columns = (x.fe p).columns :=
      forEach_same (fun d : Dev => (d.fe p).columns) _ _ (fun l _ d => (d.resetLane_facts p l 1).2.1) x
    simp only [kept, columns]
  · refine forEach_establishes (I := fun _ => True) (Q := fun d : Dev => laneRecords (d.fe p).lanes[l.val].queue = []) (List.mem_finRange l)
      (fun _ _ _ => trivial) (fun d _ => ?_) (fun x d _ empty => ?_) trivial
    · obtain ⟨⟨y, lanes, none⟩, -⟩ := d.resetLane_facts p l 1
      simp [lanes, none]
    · obtain ⟨⟨y, lanes, none⟩, -⟩ := d.resetLane_facts p x 1
      simp only [lanes, Vector.getElem_set]
      split
      · exact none
      · exact empty

end Sys2Proof.Machine
end

section
namespace Sys2Proof.Machine

variable {d : Dev} {p : Port} {i : DueItem}

/-! ### BIAS commands (R66, R541) -/

/-- The BIAS commands that execute with an item: its own and those with the same target, as group mask and level. -/
def FrontEnd.biasesDue (f : FrontEnd) (now : Nat) (i : DueItem) : List (Nat × Nat) :=
  (i.cmd :: f.cmds.filter fun c => (opBias c.op).isSome && f.reached now c == f.reached now i.cmd).filterMap fun c => opBias c.op

/-- The level that a list of BIAS commands asks of a group, the one received last. -/
def biasOf (all : List (Nat × Nat)) (g : Nat) : Option Nat := ((all.filter fun b => bit b.1 g).getLast?).map Prod.snd

/-- The front end with the BIAS commands that execute taken off, and the wake requests of their groups ended (R361, R541). -/
def FrontEnd.takeBiases (f : FrontEnd) (now : Nat) (i : DueItem) : FrontEnd :=
  let others := f.cmds.filter fun c => (opBias c.op).isSome && f.reached now c == f.reached now i.cmd
  FrontEnd.endWakes { f with cmds := f.cmds.filter (fun c => !others.contains c), executed := f.executed + others.length }
    (maskOf ((List.range 16).filter fun g => (biasOf (f.biasesDue now i) g).isSome))

theorem FrontEnd.takeBiases_keeps (f : FrontEnd) (now : Nat) (i : DueItem) {K : Nat → Prop} : f.Keeps K (f.takeBiases now i) :=
  ⟨rfl, rfl, rfl, rfl, rfl, fun _ _ => rfl⟩

/-- One region under the levels asked of its group. -/
def Dev.biasRegion (d : Dev) (p : Port) (levels : Nat → Option Nat) (r : Nat) : Dev :=
  match levels (d.groupOf p r) with
  | some l =>
    if decide ((d.fe p).fenceOf (d.groupOf p r) < l) then (d.commandLevel p r l).updFe p fun f => { f with fenceActed := true }
    else d.commandLevel p r l
  | none => d

/-- A region whose group is asked for no level stays; another takes its level, and no other region changes. -/
theorem Dev.biasRegion_facts (d : Dev) (p : Port) (levels : Nat → Option Nat) (r : Nat) :
    FeKeeps p (· ≠ r) d (d.biasRegion p levels r)
      ∧ ∀ l, levels (d.groupOf p r) = some l → (((d.biasRegion p levels r).fe p).region r).commanded = l
        ∧ (((d.biasRegion p levels r).fe p).region r).level = d.regionCap p r l := by
  cases asked : levels (d.groupOf p r) with
  | none =>
    have eq : d.biasRegion p levels r = d := by unfold Dev.biasRegion; rw [asked]
    rw [eq]
    exact ⟨.refl d, fun l h => nomatch h⟩
  | some l =>
    obtain ⟨keeps, commanded, level⟩ := d.commandLevel_facts p r l
    have eq : d.biasRegion p levels r = d.commandLevel p r l
        ∨ d.biasRegion p levels r = (d.commandLevel p r l).updFe p fun f => { f with fenceActed := true } := by
      unfold Dev.biasRegion
      rw [asked]
      dsimp only
      split
      · exact .inr rfl
      · exact .inl rfl
    generalize d.commandLevel p r l = x at keeps commanded level eq
    have taken : ∀ l', some l = some l' → ((x.fe p).region r).commanded = l' ∧ ((x.fe p).region r).level = d.regionCap p r l' := by
      rintro l' ⟨⟩; exact ⟨commanded, level⟩
    rcases eq with eq | eq
    · rw [eq]; exact ⟨keeps, taken⟩
    · rw [eq]
      refine ⟨keeps.trans (Dev.setFe_keeps ⟨rfl, rfl, rfl, rfl, rfl, fun _ _ => rfl⟩), ?_⟩
      rw [Dev.fe_updFe_same]
      exact taken

/-- Every region takes the level asked of its group, as far as its cap allows. -/
theorem Dev.biasRegions_level (s : Dev) (levels : Nat → Option Nat) {r l : Nat} (hr : r < 256)
    (asked : levels (s.groupOf p r) = some l) (start : FeKeeps p (fun _ => False) s d) :
    ((((forEach (List.range 256) (fun r d => d.biasRegion p levels r) d).fe p).region r).commanded = l
      ∧ (((forEach (List.range 256) (fun r d => d.biasRegion p levels r) d).fe p).region r).level = s.regionCap p r l) := by
  have hit (d : Dev) (h : FeKeeps p (fun _ => False) s d) : (((d.biasRegion p levels r).fe p).region r).commanded = l
      ∧ (((d.biasRegion p levels r).fe p).region r).level = s.regionCap p r l := by
    rw [← h.regionCap]
    exact (d.biasRegion_facts p levels r).2 l (by rw [h.groupOf]; exact asked)
  refine forEach_establishes (I := FeKeeps p (fun _ => False) s)
    (Q := fun d : Dev => ((d.fe p).region r).commanded = l ∧ ((d.fe p).region r).level = s.regionCap p r l)
    (f := fun r d => d.biasRegion p levels r) (List.mem_range.2 hr)
    (fun x d h => h.trans ((d.biasRegion_facts p levels x).1.mono fun _ no => no.elim)) hit (fun x d h taken => ?_) start
  by_cases here : r = x
  · exact here ▸ hit d h
  · have core := (d.biasRegion_facts p levels x).1.core here
    exact ⟨(congrArg (fun c => c.2.1) core).trans taken.1, (congrArg Prod.fst core).trans taken.2⟩

/-- The BIAS commands due executed. -/
def Dev.runBiases (d : Dev) (p : Port) (i : DueItem) : Dev :=
  forEach (List.range 256) (fun r d' => d'.biasRegion p (biasOf ((d.fe p).biasesDue d.now i)) r)
    (d.setFe p ((d.fe p).takeBiases d.now i))

/-- The front end as the due item finds it. -/
theorem Dev.started_finish (d : Dev) (p : Port) (i : DueItem) :
    (d.started p i).fe p = { ((d.due p).1.fe p).finish i with stepSlot := d.now, step := 1 } := by
  obtain ⟨cs, m, h⟩ := d.due_eq p
  rw [Dev.started, Dev.atStep, Dev.fe_updFe_same, Dev.fe_setFe_same, h]
  rfl

/-- The BIAS commands that execute, as the front end sees them before it begins. -/
theorem Dev.started_biases (d : Dev) (p : Port) (i : DueItem) :
    ((d.started p i).fe p).biasesDue (d.started p i).now i = (((d.due p).1.fe p).finish i).biasesDue d.now i := by
  rw [Dev.started_finish, (d.started_keeps p i (K := fun _ => True)).now]
  rfl

/-! ### The test charge (R71, R72) -/

/-- The entries of a canonical store are what it holds apart from the defaults. -/
theorem mem_iff_tblRead {t : Tbl Nat} (wf : tblWf regDflt t = true) (k v : Nat) :
    (k, v) ∈ t ↔ tblRead regDflt t k = v ∧ v ≠ regDflt k := by
  induction t with
  | nil => simp only [List.not_mem_nil, tblRead_nil, false_iff, not_and, not_not]; exact fun h => h.symm
  | cons x t ih =>
    obtain ⟨j, w⟩ := x
    simp only [tblWf, Bool.and_eq_true, decide_eq_true_eq, List.all_eq_true] at wf
    obtain ⟨⟨own, after⟩, wf⟩ := wf
    rw [List.mem_cons, Prod.mk.injEq, tblRead]
    by_cases here : j = k
    · subst here
      rw [if_pos rfl]
      constructor
      · rintro (⟨-, rfl⟩ | mem)
        · exact ⟨rfl, own⟩
        · exact absurd (after _ mem) (lt_irrefl _)
      · rintro ⟨rfl, -⟩; exact .inl ⟨rfl, rfl⟩
    · rw [if_neg here, ih wf]
      exact ⟨fun h => h.resolve_left fun e => here e.1.symm, .inr⟩

/-- The entries of one object of a port. -/
theorem mem_objEntries {t : Tbl Nat} (wf : tblWf regDflt t = true) (p : Port) {a c : Nat} (ha : a < 2 ^ 24) (hc : c < 2 ^ 16) (v : Nat) :
    (c, v) ∈ objEntries t p.val a ↔ tblRead regDflt t (regKey p.val a c) = v ∧ v ≠ regDflt (regKey p.val a c) := by
  have hp := p.isLt
  have key : regKey p.val a c = (p.val * 2 ^ 24 + a) * 2 ^ 16 + c := by
    rw [regKey, Nat.mod_eq_of_lt ha, Nat.mod_eq_of_lt hc, Nat.mod_eq_of_lt (by omega)]
  rw [← mem_iff_tblRead wf, key, objEntries, List.mem_map]
  constructor
  · rintro ⟨⟨k, w⟩, mem, eq⟩
    obtain ⟨mem, addr⟩ := List.mem_filter.1 mem
    simp only [beq_iff_eq] at addr
    obtain ⟨rfl, rfl⟩ := Prod.mk.injEq _ _ _ _ |>.mp eq
    rwa [show (p.val * 2 ^ 24 + a) * 2 ^ 16 + k % 2 ^ 16 = k by omega]
  · intro mem
    exact ⟨_, List.mem_filter.2 ⟨mem, by simp only [beq_iff_eq]; omega⟩, by simp only [Prod.mk.injEq, and_true]; omega⟩

/-- Without a setting, a channel has no INJ_EN (R82). -/
theorem channel_dflt (p : Port) {c : Nat} (hc : c < 2 ^ 16) : regDflt (regKey p.val Reg.FE_CH_ANA c) = 256 := by
  have hp := p.isLt
  have elem : regKey p.val Reg.FE_CH_ANA c % 2 ^ 16 = c := by rw [regKey]; omega
  have addr : regKey p.val Reg.FE_CH_ANA c / 2 ^ 16 % 2 ^ 24 = Reg.FE_CH_ANA := by
    rw [regKey, show Reg.FE_CH_ANA % 2 ^ 24 = Reg.FE_CH_ANA from rfl]
    have : Reg.FE_CH_ANA < 2 ^ 24 := by decide
    omega
  unfold regDflt
  simp only [elem, addr]
  rfl

/-- The channels that take a test charge, and the charges (R71). -/
def Dev.charges (d : Dev) (p : Port) : List (Nat × Nat × Int) :=
  ((objEntries d.applied p.val Reg.FE_CH_ANA).filter fun ev => bit ev.2 6 && ((d.fe p).region (regionOf ev.1)).level != 0).map
    fun ev => d.testCharge p ev.1

/-- The charge is INJ_AMP steps of the gain range with the sign of SLOPE (R71, R82). -/
theorem testCharge_eq (d : Dev) (p : Port) (c : Nat) : d.testCharge p c = (c, field (d.ap p Reg.FE_RG_ANA (regionOf c)) 28 26,
    (if bit (d.ap p Reg.FE_RG_ANA (regionOf c)) 11 then (1 : Int) else -1)
      * (field (d.ap p Reg.FE_RG_ANA (regionOf c)) 25 16 * (if bit (d.ap p Reg.FE_RG_ANA (regionOf c)) 10 then 200 else 25))) := by
  unfold Dev.testCharge Dev.rgWord
  generalize d.ap p Reg.FE_RG_ANA (regionOf c) = w
  have steps : ((field w 25 16 * (if bit w 10 then 200 else 25) : Nat) : Int) = field w 25 16 * (if bit w 10 then (200 : Int) else 25) := by
    split <;> push_cast <;> rfl
  simp only [steps]
  split
  · rw [one_mul]
  · rw [neg_one_mul]

theorem Dev.mem_charges (wf : tblWf regDflt d.applied = true) {c : Nat} (hc : c < 4096) (tick : Nat) (q : Int) :
    (c, tick, q) ∈ d.charges p ↔ bit (d.ap p Reg.FE_CH_ANA c) 6 = true ∧ ((d.fe p).region (regionOf c)).level ≠ 0
      ∧ (c, tick, q) = d.testCharge p c := by
  have entry (v : Nat) := mem_objEntries wf p (a := Reg.FE_CH_ANA) (by decide) (show c < 2 ^ 16 by omega) v
  unfold Dev.charges
  rw [List.mem_map]
  constructor
  · rintro ⟨⟨e, v⟩, mem, eq⟩
    obtain ⟨mem, on⟩ := List.mem_filter.1 mem
    simp only [Bool.and_eq_true, bne_iff_ne] at on
    have same : e = c := congrArg Prod.fst ((testCharge_eq d p e).symm.trans eq)
    subst same
    obtain ⟨rfl, -⟩ := (entry v).1 mem
    exact ⟨on.1, on.2, eq.symm⟩
  · rintro ⟨on, level, eq⟩
    refine ⟨(c, d.ap p Reg.FE_CH_ANA c), List.mem_filter.2 ⟨(entry _).2 ⟨rfl, fun dflt => ?_⟩, by simp [on, level]⟩, eq.symm⟩
    rw [dflt, channel_dflt p (by omega)] at on
    exact absurd on (by decide)

end Sys2Proof.Machine
end

section
namespace Sys2Proof.Machine

variable {s : State} {p : Port} {i : DueItem}

/-! ### The commands (O21) -/

/-- A MODE command is due. -/
theorem exec_modeCommand {m : Mode} (order : s.dev.inOrder p 1 = true) (due : (s.dev.due p).2 = some i) (op : opMode i.cmd.op = some m) :
    exec (.modeCommand p) s = .next { s with dev := (s.dev.started p i).feEnterMode p m } := by
  change execModeCommand p s = _
  unfold execModeCommand
  simp only [State.on_eq, Dev.runDue_due order due (k := fun i => (opMode i.cmd.op).isSome) (by rw [op]; rfl), op]

/-- A QUEUE_RESET entry is due. -/
theorem exec_queueReset (order : s.dev.inOrder p 1 = true) (due : (s.dev.due p).2 = some i) (kind : isAction 1 i = true) :
    exec (.queueReset p) s = .next { s with
      dev := ((s.dev.started p i).flushRegions p ((s.dev.started p i).itemEntry p i)).flushLanes p ((s.dev.started p i).itemEntry p i) } :=
  exec_next_congr rfl (Dev.runDue_due order due kind _)

/-- A BIAS command is due. -/
theorem exec_biasCommand (order : s.dev.inOrder p 1 = true) (due : (s.dev.due p).2 = some i) (kind : (opBias i.cmd.op).isSome = true) :
    exec (.biasCommand p) s = .next { s with dev := (s.dev.started p i).runBiases p i } :=
  exec_next_congr rfl (Dev.runDue_due order due (k := fun i => (opBias i.cmd.op).isSome) kind _)

/-- The front end after an INJECT command (R72, R74). -/
def Dev.injected (d : Dev) (p : Port) (i : DueItem) : Dev :=
  if (d.fe p).mode = .calibrate then d.emit (.injection p.val (((d.fe p).reached d.now i.cmd).getD d.now) (d.charges p))
  else d.setFe p { d.fe p with executed := (d.fe p).executed - 1, late := (d.fe p).late + 1 }

/-- An INJECT command is due. -/
theorem exec_injectCommand (order : s.dev.inOrder p 1 = true) (due : (s.dev.due p).2 = some i) (op : i.cmd.op = .inject) :
    exec (.injectCommand p) s = .next { s with dev := (s.dev.started p i).injected p i } :=
  exec_next_congr rfl (Dev.runDue_due order due (k := fun i => i.cmd.op == .inject) (by rw [op]; rfl) _)

/-- A TICK_PHASE command is due. -/
theorem exec_tickPhaseCommand {h : Int} (order : s.dev.inOrder p 1 = true) (due : (s.dev.due p).2 = some i)
    (op : i.cmd.op = .tickPhase h) : exec (.tickPhaseCommand p) s = .next { s with
      dev := (s.dev.started p i).updFe p fun f => { f with tickPhase := f.tickPhase + h } } := by
  change execTickPhaseCommand p s = _
  unfold execTickPhaseCommand
  simp only [State.on_eq, Dev.runDue_due order due (k := fun i => opRank i.cmd.op == 7) (by rw [op]; rfl), op]

/-- The entry a CAL item names is the mirror's, which passing idle items over leaves. -/
theorem Dev.started_itemEntry (d : Dev) (p : Port) (i : DueItem) : (d.started p i).itemEntry p i = (d.due p).1.itemEntry p i := by
  unfold Dev.itemEntry
  rw [Dev.started_finish]
  rfl

/-- The regions of a group mask, from what is applied. -/
theorem FeKeeps.regionsIn {K : Nat → Prop} {d d' : Dev} (h : FeKeeps p K d d') (groups : Nat) : d'.regionsIn p groups = d.regionsIn p groups := by
  unfold Dev.regionsIn
  simp only [h.groupOf]

theorem Dev.started_out (d : Dev) (p : Port) (i : DueItem) : (d.started p i).out = d.out := by
  obtain ⟨m, h⟩ := d.started_eq p i
  rw [h]; rfl

end Sys2Proof.Machine

open Sys2Proof Sys2Proof.Machine

/-- Settles O21: `Dev.runDue_due` gives the item that is due to each command; then a mode by `Dev.feEnterMode_facts`, the flushes by
`Dev.flushRegions_empty` and `Dev.flushLanes_empty`, the levels by `Dev.biasRegions_level`, and the charges by `Dev.mem_charges`. -/
theorem dueFastCommandExecutes : Obligations.DueFastCommandExecutes := by
  unfold Obligations.DueFastCommandExecutes
  refine ⟨?mode, ?reset, ?bias, ?inject, ?tick⟩
  case mode =>
    intro s p i m order due op
    exact ⟨_, exec_modeCommand order due op, rfl, Dev.feEnterMode_facts _ p m⟩
  case reset =>
    intro s p i order due kind e
    refine ⟨_, exec_queueReset order due kind, rfl, ?_, ?_⟩
    · intro set r mem
      rw [Dev.started_itemEntry]
      have kept := ((s.dev.started p i).flushRegions p e).flushLanes_region p e r
      have empty : ((((s.dev.started p i).flushRegions p e).fe p).region r).queue = [] :=
        Dev.flushRegions_empty set (by rw [(s.dev.started_keeps p i (K := fun _ => True)).regionsIn]; exact mem)
      exact (congrArg (fun c => c.2.2) kept).trans empty
    · intro set
      rw [Dev.started_itemEntry]
      exact Dev.flushLanes_empty set
  case bias =>
    intro s p i r l order due kind f all hr asked
    refine ⟨_, exec_biasCommand order due kind, rfl, ?_⟩
    have start : FeKeeps p (fun _ => False) s.dev
        ((s.dev.started p i).setFe p (((s.dev.started p i).fe p).takeBiases (s.dev.started p i).now i)) :=
      (s.dev.started_keeps p i).trans (Dev.setFe_keeps (FrontEnd.takeBiases_keeps _ _ _))
    dsimp only
    rw [Dev.runBiases, Dev.started_biases]
    exact Dev.biasRegions_level s.dev (biasOf (f.biasesDue s.dev.now i)) hr asked start
  case inject =>
    intro s p i order due op
    refine ⟨_, exec_injectCommand order due op, rfl, ?_⟩
    have keeps : FeKeeps p (fun _ => True) s.dev (s.dev.started p i) := s.dev.started_keeps p i
    obtain ⟨m, fe⟩ := s.dev.started_fe p i
    have out := s.dev.started_out p i
    dsimp only [Dev.injected]
    rw [keeps.fe.mode]
    by_cases calibrate : (s.dev.fe p).mode = .calibrate
    · rw [if_pos calibrate, if_pos calibrate]
      refine ⟨(s.dev.started p i).charges p, ?_, fun wf c hc tick q => ?_⟩
      · rw [Dev.emit_out, out, fe, keeps.now]; rfl
      · rw [Dev.mem_charges (by rw [keeps.applied]; exact wf) hc, testCharge_eq, fe]
        unfold Dev.ap
        rw [keeps.applied, Prod.mk.injEq, Prod.mk.injEq, eq_self, true_and]
        exact Iff.rfl
    · rw [if_neg calibrate, if_neg calibrate]
      refine ⟨out, ?_⟩
      rw [Dev.fe_setFe_same, fe]
  case tick =>
    intro s p i h order due op
    refine ⟨_, exec_tickPhaseCommand order due op, rfl, ?_⟩
    obtain ⟨m, fe⟩ := s.dev.started_fe p i
    dsimp only
    rw [Dev.fe_updFe_same, fe]
end

section
/-! The cycle-end command at a front end (R28; O22). -/

namespace Sys2Proof.Machine

variable {s : State} {p : Port} {i : DueItem}

/-- A frame cut where its cycle ends. -/
def FeFrame.cutAt (stop : Nat) (fr : FeFrame) : FeFrame :=
  if !fr.ended && decide (stop < fr.stop) then { fr with stop := stop, short := true } else fr

/-- No open frame goes beyond the cut. -/
theorem FeFrame.cutAt_stop (stop : Nat) (fr : FeFrame) (open_ : (fr.cutAt stop).ended = false) : (fr.cutAt stop).stop ≤ stop := by
  unfold FeFrame.cutAt at open_ ⊢
  split
  · exact Nat.le_refl stop
  · rename_i whole
    rw [if_neg whole] at open_
    simpa [open_] using whole

/-- The front end with its cycle ended at slot `stop` (R28). -/
def FrontEnd.endCycle (f : FrontEnd) (stop : Nat) : FrontEnd :=
  { f with
    endAt := some stop
    cmds := f.cmds.filter fun c => f.cycleDelta c.cyc != 0
    discarded := f.discarded
      + sumBy (fun c => if c.left.isEmpty then 1 else c.left.length) (f.cmds.filter fun c => f.cycleDelta c.cyc == 0)
    frames := f.frames.map (FeFrame.cutAt stop) }

@[simp] theorem FrontEnd.endCycle_cycleStop (f : FrontEnd) (stop : Nat) : (f.endCycle stop).cycleStop = stop := rfl

/-- The slot at which a due command's target lies. -/
def FrontEnd.targetOf (f : FrontEnd) (now : Nat) (i : DueItem) : Nat := (f.reached now i.cmd).getD now

/-- Taking a step of R141 leaves the target. -/
theorem Dev.started_targetOf (d : Dev) (p : Port) (i : DueItem) :
    ((d.started p i).fe p).targetOf (d.started p i).now i = (((d.due p).1.fe p).finish i).targetOf d.now i := by
  rw [Dev.started_finish, (d.started_keeps p i (K := fun _ => True)).now]
  rfl

/-- A cycle-end command is due. -/
theorem exec_cycleEndCommand (order : s.dev.inOrder p 1 = true) (due : (s.dev.due p).2 = some i) (op : i.cmd.op = .cycleEnd) :
    exec (.cycleEndCommand p) s = .next { s with
      dev := (s.dev.started p i).setFe p
        (((s.dev.started p i).fe p).endCycle ((((s.dev.due p).1.fe p).finish i).targetOf s.dev.now i)) } := by
  rw [← Dev.started_targetOf]
  exact exec_next_congr rfl (Dev.runDue_due order due (k := fun i => i.cmd.op == .cycleEnd) (by rw [op]; rfl) _)

end Sys2Proof.Machine

open Sys2Proof.Machine

/-- Settles O22: what the command leaves is `FrontEnd.endCycle` of the front end that the due item finds. -/
theorem cycleEndCommandEndsTheCycle : Obligations.CycleEndCommandEndsTheCycle := by
  unfold Obligations.CycleEndCommandEndsTheCycle
  intro s p i order due op f stop
  refine ⟨_, exec_cycleEndCommand order due op, rfl, ?_⟩
  rw [show (f.targetOf s.dev.now i) = stop from rfl]
  clear_value stop
  dsimp only
  rw [Dev.fe_setFe_same, Dev.started_finish]
  refine ⟨rfl, rfl, rfl, rfl, rfl, fun fr mem open_ => ?_⟩
  obtain ⟨was, -, rfl⟩ := List.mem_map.1 mem
  exact was.cutAt_stop stop open_
end

section
/-! Records dealt at a front end, and the queues that reset (R120, R126, R150, R151; O27). -/

namespace Sys2Proof.Machine

variable {d d' d'' : Dev} {p : Port}

/-! ### Records -/

/-- What a frame is named by: where it lies, and whether it has ended. -/
def FeFrame.place (fr : FeFrame) : Nat × Nat × Nat × Bool × Bool := (fr.start, fr.stop, fr.idx, fr.short, fr.ended)

/-- `d'` is `d` to the front end on port `p` but for records dealt: its record queue, marks on its frames, and the count of records
that found the queue full (R126). -/
structure RecOnly (p : Port) (d d' : Dev) : Prop where
  fe : ∃ rs fs, d'.fe p = { d.fe p with records := rs, frames := fs } ∧ fs.map FeFrame.place = (d.fe p).frames.map FeFrame.place
  fget : ∀ {a}, a % 2 ^ 24 ≠ Reg.FE_REC_OVF % 2 ^ 24 → ∀ e, d'.fget p a e = d.fget p a e

theorem RecOnly.refl (d : Dev) (p : Port) : RecOnly p d d := ⟨⟨_, _, rfl, rfl⟩, fun _ _ => rfl⟩

theorem RecOnly.trans (h : RecOnly p d d') (h' : RecOnly p d' d'') : RecOnly p d d'' := by
  obtain ⟨rs, fs, fe, places⟩ := h.fe
  obtain ⟨rs', fs', fe', places'⟩ := h'.fe
  rw [fe] at fe' places'
  exact ⟨⟨rs', fs', fe', places'.trans places⟩, fun other e => (h'.fget other e).trans (h.fget other e)⟩

theorem forEach_recOnly {α : Type} (l : List α) (f : α → Dev → Dev) (h : ∀ a d, RecOnly p d (f a d)) (d : Dev) :
    RecOnly p d (forEach l f d) :=
  forEach_keeps (RecOnly p d) l f (fun a _ d' hd => hd.trans (h a d')) d (.refl d p)

@[simp] theorem Dev.fget_setFe (d : Dev) (p q : Port) (f : FrontEnd) (a e : Nat) : (d.setFe p f).fget q a e = d.fget q a e :=
  Dev.fget_of_regs (Dev.setFe_regs d p f) q a e

@[simp] theorem Dev.fget_updFe (d : Dev) (p q : Port) (g : FrontEnd → FrontEnd) (a e : Nat) :
    (d.updFe p g).fget q a e = d.fget q a e := Dev.fget_setFe _ _ _ _ _ _

@[simp] theorem Dev.fe_fbump (d : Dev) (p q : Port) (a e n : Nat) : (d.fbump p a e n).fe q = d.fe q := rfl

/-- Frames changed in their marks alone keep their places. -/
theorem FrontEnd.updFrame_place (f : FrontEnd) (start : Nat) (g : FeFrame → FeFrame) (same : ∀ fr, (g fr).place = fr.place) :
    (f.updFrame start g).frames.map FeFrame.place = f.frames.map FeFrame.place := by
  rw [FrontEnd.updFrame, List.map_map]
  refine List.map_congr_left fun fr _ => ?_
  rw [Function.comp_apply]
  split
  · exact same fr
  · rfl

theorem Dev.feRecord_recOnly (d : Dev) (p : Port) (bits : Record) (region frame : Nat) :
    RecOnly p d (d.feRecord p bits region frame) := by
  unfold Dev.feRecord
  dsimp only
  split
  · exact .refl d p
  · split
    · exact ⟨⟨_, (d.fe p).frames, by rw [Dev.fe_setFe_same], rfl⟩, fun _ e => Dev.fget_of_regs rfl _ _ e⟩
    · have places := (d.fe p).updFrame_place frame (fun fr => { fr with ovf := true }) fun _ => rfl
      exact ⟨⟨(d.fe p).records, _, by rw [Dev.fe_fbump, Dev.fe_setFe_same]; rfl, places⟩,
        fun other e => Dev.fget_fbump_addr _ other _ _ _ _ _⟩

theorem Dev.feRecord_length (d : Dev) (p : Port) (bits : Record) (region frame : Nat) :
    ((d.feRecord p bits region frame).fe p).records.length ≤ (d.fe p).records.length + 1 := by
  unfold Dev.feRecord
  dsimp only
  split
  · exact Nat.le_succ _
  · split
    · rw [Dev.fe_setFe_same, List.length_append]; exact Nat.le_refl _
    · rw [Dev.fe_fbump, Dev.fe_setFe_same]; exact Nat.le_succ _

/-- Frames held back by a queue that lets go of their records. -/
theorem FrontEnd.letGo_frames (f : FrontEnd) (now : Nat) (l : List Nat) :
    ∃ fs, f.letGo now l = { f with frames := fs } ∧ fs.map FeFrame.place = f.frames.map FeFrame.place := by
  refine forEach_keeps (fun x => ∃ fs, x = { f with frames := fs } ∧ fs.map FeFrame.place = f.frames.map FeFrame.place) l.dedup
    (fun s x => x.updFrame s fun fr => { fr with heldAt := some now }) (fun s _ x h => ?_) f ⟨f.frames, rfl, rfl⟩
  obtain ⟨fs, eq, places⟩ := h
  have kept := x.updFrame_place s (fun fr => { fr with heldAt := some now }) fun _ => rfl
  refine ⟨_, by rw [eq]; rfl, ?_⟩
  rw [eq] at kept
  exact kept.trans places

theorem Dev.letGo_recOnly (d : Dev) (p : Port) (frames : List Nat) : RecOnly p d (d.updFe p fun f => f.letGo d.now frames) := by
  obtain ⟨fs, eq, places⟩ := (d.fe p).letGo_frames d.now frames
  exact ⟨⟨(d.fe p).records, fs, by rw [Dev.fe_updFe_same, eq], places⟩, fun _ e => Dev.fget_of_regs rfl _ _ e⟩

/-! ### The records of a reset (R150) -/

/-- The records of a reset queue dealt with, before they are counted. -/
def Dev.dealLost (d : Dev) (p : Port) (queue index cause : Nat) (lost : List Lost) : Dev :=
  let here := (d.fe p).frameStart d.now
  let d := if queue = 3 then d else d.updFe p fun f => f.letGo d.now (lost.map Prod.fst)
  let hits := lost.filter fun x => x.2.2
  let nonHit := lost.any fun x => !x.2.2
  let d := forEach hits.dedup (fun x d => d.feRecord p (queueResetRecord queue index cause nonHit (hits.count x) x.2.1) 0 here) d
  match hits, lost with
  | [], x :: _ => d.feRecord p (queueResetRecord queue index cause true 0 x.2.1) 0 here
  | _, _ => d

theorem Dev.resetRecords_eq (d : Dev) (p : Port) (queue index cause : Nat) (lost : List Lost) :
    d.resetRecords p queue index cause lost = ((d.dealLost p queue index cause lost).fbump p Reg.FE_QRST_LOSS 0
      (lost.filter fun x => x.2.2).length).fbump p Reg.FE_QRST_CNT := rfl

theorem Dev.dealLost_recOnly (d : Dev) (p : Port) (queue index cause : Nat) (lost : List Lost) :
    RecOnly p d (d.dealLost p queue index cause lost) := by
  have letGo : RecOnly p d (if queue = 3 then d else d.updFe p fun f => f.letGo d.now (lost.map Prod.fst)) := by
    split
    · exact .refl d p
    · exact d.letGo_recOnly p _
  unfold Dev.dealLost
  dsimp only
  split
  · exact (letGo.trans (forEach_recOnly _ _ (fun _ _ => Dev.feRecord_recOnly _ _ _ _ _) _)).trans (Dev.feRecord_recOnly _ _ _ _ _)
  · exact letGo.trans (forEach_recOnly _ _ (fun _ _ => Dev.feRecord_recOnly _ _ _ _ _) _)

/-- A reset is counted once. -/
theorem Dev.resetRecords_count (d : Dev) (p : Port) (queue index cause : Nat) (lost : List Lost) :
    (d.resetRecords p queue index cause lost).fget p Reg.FE_QRST_CNT = min (d.fget p Reg.FE_QRST_CNT + 1) (2 ^ 32 - 1) := by
  rw [Dev.resetRecords_eq, Dev.fget_fbump_same, Dev.fget_fbump_addr _ (by decide),
    (d.dealLost_recOnly p queue index cause lost).fget (by decide), show regBits Reg.FE_QRST_CNT = 32 from rfl]

/-- The records of a reset leave the channels. -/
theorem Dev.resetRecords_chan (d : Dev) (p : Port) (queue index cause : Nat) (lost : List Lost) (c : Nat) :
    ((d.resetRecords p queue index cause lost).fe p).chan c = (d.fe p).chan c := by
  obtain ⟨rs, fs, fe, -⟩ := (d.dealLost_recOnly p queue index cause lost).fe
  rw [Dev.resetRecords_eq, Dev.fe_fbump, Dev.fe_fbump, fe]
  rfl

/-- Without hit records among them, one record at most takes the place of those lost. -/
theorem Dev.resetRecords_length (d : Dev) (p : Port) (queue index cause : Nat) {lost : List Lost} (none : ∀ x ∈ lost, x.2.2 = false) :
    ((d.resetRecords p queue index cause lost).fe p).records.length ≤ (d.fe p).records.length + 1 := by
  have noHits : (lost.filter fun x => x.2.2) = [] := List.filter_eq_nil_iff.2 fun x mem => by simp [none x mem]
  have letGo : ((if queue = 3 then d else d.updFe p fun f => f.letGo d.now (lost.map Prod.fst)).fe p).records = (d.fe p).records := by
    split
    · rfl
    · obtain ⟨fs, eq, -⟩ := (d.fe p).letGo_frames d.now (lost.map Prod.fst)
      rw [Dev.fe_updFe_same, eq]
  rw [Dev.resetRecords_eq, Dev.fe_fbump, Dev.fe_fbump]
  unfold Dev.dealLost
  simp only [noHits]
  rw [← letGo]
  cases lost with
  | nil => exact Nat.le_succ _
  | cons x rest => exact Dev.feRecord_length _ _ _ _ _

/-! ### The queues of a front end (R120) -/

theorem Chan.setQueue_queue (ch : Chan) (g : Region) (now : Nat) (q : List HitEntry) : (ch.setQueue g now q).queue = q := by
  unfold Chan.setQueue
  split
  · split <;> rfl
  · rfl

theorem Dev.noteFlood_fget (d : Dev) (p : Port) (r a e : Nat) : (d.noteFlood p r).fget p a e = d.fget p a e := by
  unfold Dev.noteFlood
  split <;> rfl

theorem FrontEnd.chan_setChan (f : FrontEnd) (c : Nat) (ch : Chan) (j : Nat) :
    (f.setChan c ch).chan j = if j = c then ch else f.chan j := by
  rw [FrontEnd.setChan, FrontEnd.chan]; exact tblRead_tblWrite _ _ _ _ _

theorem DeadOnly.fget {d d' : Dev} (h : DeadOnly p d d') {a : Nat} (other : ∀ b ∈ deadObjs, a % 2 ^ 24 ≠ b % 2 ^ 24) (e : Nat) :
    d'.fget p a e = d.fget p a e := by
  obtain ⟨r, cs, fs, -, keeps⟩ := h
  exact keeps a e other

/-- A channel queue reset empties the queue and is counted. -/
theorem Dev.resetChannel_facts (d : Dev) (p : Port) (c cause : Nat) :
    (((d.resetChannel p c cause).fe p).chan c).queue = []
      ∧ (d.resetChannel p c cause).fget p Reg.FE_QRST_CNT = min (d.fget p Reg.FE_QRST_CNT + 1) (2 ^ 32 - 1) := by
  have settled := ((d.noteFlood p (regionOf c)).settleDead_only p c (8 * d.now)).fget (a := Reg.FE_QRST_CNT) (by decide) 0
  rw [Dev.noteFlood_fget] at settled
  unfold Dev.resetChannel
  extract_lets x f ch lost unqueued emptied
  have empty : emptied.queue = [] := Chan.setQueue_queue _ _ _ _
  clear_value emptied lost
  refine ⟨?_, ?_⟩
  · rw [Dev.resetRecords_chan, Dev.fe_setFe_same, FrontEnd.chan_setChan, if_pos rfl, empty]
  · rw [Dev.resetRecords_count, Dev.fget_setFe, settled]

theorem Dev.resetRegion_count (d : Dev) (p : Port) (r cause : Nat) :
    (d.resetRegion p r cause).fget p Reg.FE_QRST_CNT = min (d.fget p Reg.FE_QRST_CNT + 1) (2 ^ 32 - 1) :=
  (Dev.resetRecords_count _ _ _ _ _ _).trans
    (congrArg (fun n => min (n + 1) (2 ^ 32 - 1)) (d.noteFlood_fget p r Reg.FE_QRST_CNT 0))

theorem Dev.resetColumn_count (d : Dev) (p : Port) (c : Fin 16) (cause : Nat) :
    (d.resetColumn p c cause).fget p Reg.FE_QRST_CNT = min (d.fget p Reg.FE_QRST_CNT + 1) (2 ^ 32 - 1) :=
  Dev.resetRecords_count _ _ _ _ _ _

theorem Dev.resetLane_count (d : Dev) (p : Port) (l : Lane) (cause : Nat) :
    (d.resetLane p l cause).fget p Reg.FE_QRST_CNT = min (d.fget p Reg.FE_QRST_CNT + 1) (2 ^ 32 - 1) :=
  Dev.resetRecords_count _ _ _ _ _ _

/-- A record queue reset leaves at most its own record, where no hit was lost. -/
theorem Dev.resetRecordQueue_facts (d : Dev) (p : Port) :
    ((∀ x ∈ (d.fe p).records, x.hit = false) → ((d.resetRecordQueue p).fe p).records.length ≤ 1)
      ∧ (d.resetRecordQueue p).fget p Reg.FE_QRST_CNT = min (d.fget p Reg.FE_QRST_CNT + 1) (2 ^ 32 - 1) := by
  unfold Dev.resetRecordQueue
  dsimp only
  refine ⟨fun noHit => ?_, Dev.resetRecords_count _ _ _ _ _ _⟩
  refine (Dev.resetRecords_length _ p 4 0 0 fun x mem => ?_).trans ?_
  · obtain ⟨q, hq, rfl⟩ := List.mem_map.1 mem
    exact noHit q hq
  · rw [Dev.fe_setFe_same]; exact Nat.le_refl _

/-- A snapshot queue reset empties the queue and counts the samplers lost with it (R167). -/
theorem Dev.resetSnapQueue_facts (d : Dev) (p : Port) :
    ((d.resetSnapQueue p).fe p).snapQueue = []
      ∧ (d.resetSnapQueue p).fget p Reg.FE_SNAP_QLOSS
        = min (d.fget p Reg.FE_SNAP_QLOSS + (d.fe p).snapQueue.length) (2 ^ 32 - 1) := by
  unfold Dev.resetSnapQueue
  dsimp only
  refine ⟨?_, ?_⟩
  · rw [Dev.fe_fbump, Dev.fe_fbump, Dev.fe_setFe_same]
    refine forEach_keeps (fun f : FrontEnd => f.snapQueue = []) _ _ (fun _ _ f h => ?_) _ ?_
    · exact h
    · rfl
  · rw [Dev.fget_fbump_addr _ (by decide), Dev.fget_fbump_same, show regBits Reg.FE_SNAP_QLOSS = 32 from rfl]
    rfl

/-! ### Configuration words (R151) -/

theorem Dev.rearmTo_fget (d : Dev) (p : Port) (c t : Nat) {a : Nat} (other : ∀ b ∈ deadObjs, a % 2 ^ 24 ≠ b % 2 ^ 24) (e : Nat) :
    (d.rearmTo p c t).fget p a e = d.fget p a e :=
  (Dev.fget_setFe _ _ _ _ _ _).trans ((d.settleDead_only p c t).fget other e)

theorem Dev.cutPulse_fget (d : Dev) (p : Port) (c : Nat) {a : Nat} (other : ∀ b ∈ deadObjs, a % 2 ^ 24 ≠ b % 2 ^ 24) (e : Nat) :
    (d.cutPulse p c).fget p a e = d.fget p a e := by
  unfold Dev.cutPulse
  extract_lets f ch done cut held x
  have same : x.fget p a e = d.fget p a e := Dev.fget_setFe _ _ _ _ _ _
  split
  · exact (x.rearmTo_fget p c _ other e).trans same
  · exact same

end Sys2Proof.Machine
end

section
/-! Configuration messages queued for a port (R221), and the faults of a front end (R51, R120, R150, R151, R167; O27). -/

namespace Sys2Proof.Machine

/-- `d'` is `d` but for the ports of the concentrator and what is sent. -/
def PortsSent (d d' : Dev) : Prop := ∃ ps o l, d' = { d with ports := ps, out := o, lines := l }

theorem PortsSent.refl (d : Dev) : PortsSent d d := ⟨_, _, _, rfl⟩

theorem PortsSent.trans {d d' d'' : Dev} (h : PortsSent d d') (h' : PortsSent d' d'') : PortsSent d d'' := by
  obtain ⟨_, _, _, rfl⟩ := h
  obtain ⟨_, _, _, rfl⟩ := h'
  exact ⟨_, _, _, rfl⟩

theorem Dev.setPort_portsSent (d : Dev) (p : Port) (c : CPort) : PortsSent d (d.setPort p c) := ⟨_, _, _, rfl⟩

theorem Dev.emit_portsSent (d : Dev) (o : Out) : PortsSent d (d.emit o) := ⟨_, _, _, rfl⟩

theorem Dev.cfgPump_portsSent (d : Dev) (p : Port) : PortsSent d (d.cfgPump p) := by
  unfold Dev.cfgPump
  dsimp only
  split
  · exact .refl d
  · split
    · exact .refl d
    · exact ((d.setPort_portsSent p _).trans (Dev.setPort_portsSent _ p _)).trans (Dev.emit_portsSent _ _)

theorem Dev.cfgQueue_portsSent (d : Dev) (p : Port) (ms : List CfgMsg) : PortsSent d (d.cfgQueue p ms) :=
  (d.setPort_portsSent p _).trans (Dev.cfgPump_portsSent _ p)

theorem PortsSent.fget {d d' : Dev} (h : PortsSent d d') (q : Port) (a e : Nat) : d'.fget q a e = d.fget q a e := by
  obtain ⟨_, _, _, rfl⟩ := h; rfl

theorem PortsSent.fe {d d' : Dev} (h : PortsSent d d') (q : Port) : d'.fe q = d.fe q := by
  obtain ⟨_, _, _, rfl⟩ := h; rfl

@[simp] theorem Dev.log_fe (d : Dev) (source code : Nat) (v1 v2 v3 : Int) (q : Port) : (d.log source code v1 v2 v3).fe q = d.fe q := by
  obtain ⟨b, n, h⟩ := d.log_eq source code v1 v2 v3; rw [h]; rfl

/-! ### Configuration words (R151) -/

/-- A region whose configuration word cannot be corrected, as its front end leaves it before anything is counted. -/
def Dev.blockRegion (d : Dev) (p : Port) (r : Nat) : Dev :=
  (forEach (channelsOf r) (fun c d => d.cutPulse p c) (d.settleAll p (channelsOf r) (8 * d.now))).updFe p fun f =>
    f.updRegion r fun g => { g with cfgFault := true, cfgRewritten := false }

theorem Dev.blockRegion_facts (d : Dev) (p : Port) (r : Nat) :
    (((d.blockRegion p r).fe p).region r).cfgFault = true
      ∧ (d.blockRegion p r).fget p Reg.FE_RG_CFG_FLT r = d.fget p Reg.FE_RG_CFG_FLT r := by
  unfold Dev.blockRegion
  constructor
  · rw [Dev.fe_updFe_same, FrontEnd.updRegion, FrontEnd.region_setRegion, if_pos rfl]
  · have cut := forEach_same (fun d : Dev => d.fget p Reg.FE_RG_CFG_FLT r) (channelsOf r) (fun c d => d.cutPulse p c)
      (fun c _ d => d.cutPulse_fget p c (by decide) r) (d.settleAll p (channelsOf r) (8 * d.now))
    rw [Dev.fget_updFe]
    exact cut.trans ((d.settleAll_only p (channelsOf r) (8 * d.now)).fget (by decide) r)

variable {s : State} {p : Port}

theorem exec_configFault {r : RegionNo} (runs : (s.dev.fe p).runs = true) : exec (.configFault p r) s = .next { s with
    dev := ((((s.dev.blockRegion p r.val).feStatusRecord p .configFault r.val 0 0).fbump p Reg.FE_RG_CFG_FLT r.val).log p.val 0x0504
      r.val).cfgQueue p
        (Dev.regionRewrite (((s.dev.blockRegion p r.val).feStatusRecord p .configFault r.val 0 0).fbump p Reg.FE_RG_CFG_FLT r.val) p
          r.val) } :=
  exec_next_congr rfl (if_neg (by rw [runs]; decide))

/-- A region with a configuration fault senses nothing. -/
theorem Region.senses_fault {g : Region} (fault : g.cfgFault = true) : g.senses = false := by simp [Region.senses, fault]

/-- An uncorrectable configuration word blocks the region and is counted (R151). -/
theorem configFault_contained {r : RegionNo} (runs : (s.dev.fe p).runs = true) : Completes (.configFault p r) s fun d =>
    ((d.fe p).region r.val).cfgFault = true ∧ ((d.fe p).region r.val).senses = false
      ∧ d.fget p Reg.FE_RG_CFG_FLT r.val = min (s.dev.fget p Reg.FE_RG_CFG_FLT r.val + 1) (2 ^ 32 - 1) := by
  refine ⟨_, exec_configFault runs, rfl, ?_⟩
  obtain ⟨blocked, count⟩ := s.dev.blockRegion_facts p r.val
  dsimp only
  generalize s.dev.blockRegion p r.val = x at blocked count
  have told : RecOnly p x (x.feStatusRecord p .configFault r.val 0 0) := Dev.feRecord_recOnly _ _ _ _ _
  generalize x.feStatusRecord p .configFault r.val 0 0 = y at told
  have queued := ((y.fbump p Reg.FE_RG_CFG_FLT r.val).log p.val 0x0504 r.val).cfgQueue_portsSent p
    ((y.fbump p Reg.FE_RG_CFG_FLT r.val).regionRewrite p r.val)
  have fault : ((y.fe p).region r.val).cfgFault = true := by
    obtain ⟨rs, fs, fe, -⟩ := told.fe
    rw [fe]
    exact blocked
  rw [queued.fe, queued.fget, Dev.log_fe, Dev.log_fget, Dev.fe_fbump, Dev.fget_fbump_same, told.fget (by decide), count,
    show regBits Reg.FE_RG_CFG_FLT = 32 from rfl]
  exact ⟨fault, Region.senses_fault fault, rfl⟩

/-! ### Queue pointers (R51, R120) -/

/-- The queue named resets. -/
def Dev.resetQueue (d : Dev) (p : Port) (q : FeQueue) : Dev :=
  match q with
  | .channel c => d.resetChannel p c.val 0
  | .region r => d.resetRegion p r.val 0
  | .column c => d.resetColumn p c 0
  | .lane l => d.resetLane p l 0
  | .record => d.resetRecordQueue p
  | .snapshot => d.resetSnapQueue p

theorem exec_queuePointerMismatch (q : FeQueue) (runs : (s.dev.fe p).runs = true) (order : s.dev.inOrder p 2 = true) :
    exec (.queuePointerMismatch p q) s = .next { s with dev := (s.dev.atStep p 2).resetQueue p q } := by
  have h : ¬ (!(s.dev.fe p).runs || !s.dev.inOrder p 2) = true := by rw [runs, order]; decide
  exact exec_next_congr rfl (if_neg h)

end Sys2Proof.Machine

open Sys2Proof.Machine

/-- Settles O27: each queue by the lemma that says what its reset leaves, the configuration words by `configFault_contained`. -/
theorem frontEndFaultsAreContained : Obligations.FrontEndFaultsAreContained := by
  unfold Obligations.FrontEndFaultsAreContained
  refine ⟨?queues, ?fault, ?correction⟩
  case queues =>
    intro s p q runs order
    refine ⟨_, exec_queuePointerMismatch q runs order, rfl, ?_⟩
    have count (a : Nat) : (s.dev.atStep p 2).fget p a = s.dev.fget p a := Dev.fget_updFe _ _ _ _ _ _
    have fe : (s.dev.atStep p 2).fe p = { s.dev.fe p with stepSlot := s.dev.now, step := 2 } := Dev.fe_updFe_same _ _ _
    rw [← count Reg.FE_QRST_CNT, ← count Reg.FE_SNAP_QLOSS]
    have records : (s.dev.fe p).records = ((s.dev.atStep p 2).fe p).records := by rw [fe]
    have snaps : (s.dev.fe p).snapQueue = ((s.dev.atStep p 2).fe p).snapQueue := by rw [fe]
    rw [records, snaps]
    generalize s.dev.atStep p 2 = d
    cases q with
    | channel c => exact d.resetChannel_facts p c.val 0
    | region r => exact ⟨(d.resetRegion_facts p r.val 0).2, d.resetRegion_count p r.val 0⟩
    | column c =>
      refine ⟨?_, d.resetColumn_count p c 0⟩
      obtain ⟨columns, -⟩ := d.resetColumn_facts p c 0
      simp only [Dev.resetQueue, columns, Vector.getElem_set_self]
    | lane l =>
      refine ⟨?_, d.resetLane_count p l 0⟩
      obtain ⟨⟨x, lanes, empty⟩, -⟩ := d.resetLane_facts p l 0
      simp only [Dev.resetQueue, lanes, Vector.getElem_set_self, empty]
    | record => exact d.resetRecordQueue_facts p
    | snapshot => exact d.resetSnapQueue_facts p
  case fault =>
    intro s p r runs
    exact configFault_contained runs
  case correction =>
    intro s p r runs
    refine ⟨_, exec_next_congr rfl (if_pos runs), rfl, ?_⟩
    dsimp only
    rw [Dev.fget_fbump_same, show regBits Reg.FE_RG_CFG_COR = 32 from rfl]
end

section
/-! The cycle of a front end: where it lies, and what leaves that as it is (R22, R24, R28; O18). -/

namespace Sys2Proof.Machine

variable {d d' d'' : Dev} {p : Port}

/-- `f'` is `f` in where its cycle in progress lies: its number, its first slot and that of the cycle before, its length and a
commanded end. -/
structure FrontEnd.SameSpan (f f' : FrontEnd) : Prop where
  cycLo : f'.cycLo = f.cycLo
  cycleStart : f'.cycleStart = f.cycleStart
  prevStart : f'.prevStart = f.prevStart
  cycleLen : f'.cycleLen = f.cycleLen
  endAt : f'.endAt = f.endAt

theorem FrontEnd.SameSpan.refl (f : FrontEnd) : f.SameSpan f := ⟨rfl, rfl, rfl, rfl, rfl⟩

theorem FrontEnd.SameSpan.trans {f f' f'' : FrontEnd} (h : f.SameSpan f') (h' : f'.SameSpan f'') : f.SameSpan f'' :=
  ⟨h'.cycLo.trans h.cycLo, h'.cycleStart.trans h.cycleStart, h'.prevStart.trans h.prevStart, h'.cycleLen.trans h.cycleLen,
    h'.endAt.trans h.endAt⟩

theorem FrontEnd.SameSpan.cycleStop {f f' : FrontEnd} (h : f.SameSpan f') : f'.cycleStop = f.cycleStop := by
  rw [FrontEnd.cycleStop, FrontEnd.cycleStop, h.cycleStart, h.cycleLen, h.endAt]

theorem forEach_span {α : Type} (l : List α) (g : α → FrontEnd → FrontEnd) (h : ∀ a (f : FrontEnd), f.SameSpan (g a f)) (f : FrontEnd) :
    f.SameSpan (forEach l g f) :=
  forEach_keeps f.SameSpan l g (fun a _ f' hf => hf.trans (h a f')) f (.refl f)

theorem FrontEnd.setChan_span (f : FrontEnd) (c : Nat) (ch : Chan) : f.SameSpan (f.setChan c ch) := ⟨rfl, rfl, rfl, rfl, rfl⟩

theorem FrontEnd.setRegion_span (f : FrontEnd) (r : Nat) (g : Region) : f.SameSpan (f.setRegion r g) := ⟨rfl, rfl, rfl, rfl, rfl⟩

theorem FrontEnd.setSampler_span (f : FrontEnd) (e : Nat) (sm : Sampler) : f.SameSpan (f.setSampler e sm) := ⟨rfl, rfl, rfl, rfl, rfl⟩

theorem FrontEnd.updFrame_span (f : FrontEnd) (start : Nat) (g : FeFrame → FeFrame) : f.SameSpan (f.updFrame start g) :=
  ⟨rfl, rfl, rfl, rfl, rfl⟩

/-- `d'` is `d` in the cycle of the front end on port `p` and in the length written for the next. -/
structure CycleKept (p : Port) (d d' : Dev) : Prop where
  span : (d.fe p).SameSpan (d'.fe p)
  len : d'.fget p Reg.FE_CYCLE_LEN = d.fget p Reg.FE_CYCLE_LEN

theorem CycleKept.refl (d : Dev) : CycleKept p d d := ⟨.refl _, rfl⟩

theorem CycleKept.trans (h : CycleKept p d d') (h' : CycleKept p d' d'') : CycleKept p d d'' :=
  ⟨h.span.trans h'.span, h'.len.trans h.len⟩

theorem forEach_cycle {α : Type} (l : List α) (f : α → Dev → Dev) (h : ∀ a d, CycleKept p d (f a d)) (d : Dev) :
    CycleKept p d (forEach l f d) :=
  forEach_keeps (CycleKept p d) l f (fun a _ d' hd => hd.trans (h a d')) d (.refl d)

theorem Dev.setFe_cycle {f : FrontEnd} (h : (d.fe p).SameSpan f) : CycleKept p d (d.setFe p f) :=
  ⟨by rw [Dev.fe_setFe_same]; exact h, Dev.fget_setFe _ _ _ _ _ _⟩

theorem Dev.updFe_cycle {g : FrontEnd → FrontEnd} (h : ∀ f : FrontEnd, f.SameSpan (g f)) : CycleKept p d (d.updFe p g) :=
  Dev.setFe_cycle (h _)

theorem Dev.fset_cycle {a : Nat} (other : Reg.FE_CYCLE_LEN % 2 ^ 24 ≠ a % 2 ^ 24) (e v : Nat) : CycleKept p d (d.fset p a e v) :=
  ⟨.refl _, d.fget_fset_addr other _ _ _ _ _⟩

theorem Dev.fbump_cycle {a : Nat} (other : Reg.FE_CYCLE_LEN % 2 ^ 24 ≠ a % 2 ^ 24) (e n : Nat) : CycleKept p d (d.fbump p a e n) :=
  Dev.fset_cycle other _ _

theorem Dev.setAp_cycle (d : Dev) (p : Port) (a e v : Nat) : CycleKept p d (d.setAp p a e v) := ⟨.refl _, rfl⟩

theorem DeadOnly.cycle (h : DeadOnly p d d') : CycleKept p d d' := by
  have len := h.fget (a := Reg.FE_CYCLE_LEN) (by decide) 0
  obtain ⟨r, cs, fs, eq, -⟩ := h
  have fe : d'.fe p = { d.fe p with chans := cs, frames := fs } := by rw [eq]; exact Dev.fe_setFe_same _ _ _
  exact ⟨by rw [fe]; exact ⟨rfl, rfl, rfl, rfl, rfl⟩, len⟩

theorem RecOnly.cycle (h : RecOnly p d d') : CycleKept p d d' := by
  obtain ⟨rs, fs, fe, -⟩ := h.fe
  exact ⟨by rw [fe]; exact ⟨rfl, rfl, rfl, rfl, rfl⟩, h.fget (by decide) 0⟩

theorem Dev.settleAll_cycle (d : Dev) (p : Port) (cs : List Nat) (t : Nat) : CycleKept p d (d.settleAll p cs t) :=
  (d.settleAll_only p cs t).cycle

theorem Dev.feRecord_cycle (d : Dev) (p : Port) (bits : Record) (region frame : Nat) : CycleKept p d (d.feRecord p bits region frame) :=
  (d.feRecord_recOnly p bits region frame).cycle

theorem Dev.feStatusRecord_cycle (d : Dev) (p : Port) (e : CalEvent) (region chan cause : Nat) :
    CycleKept p d (d.feStatusRecord p e region chan cause) := Dev.feRecord_cycle _ _ _ _ _

theorem Dev.log_cycle (d : Dev) (source code : Nat) (v1 v2 v3 : Int) : CycleKept p d (d.log source code v1 v2 v3) :=
  ⟨by rw [Dev.log_fe]; exact .refl _, Dev.log_fget _ _ _ _ _ _ _ _ _⟩

theorem Dev.noteFlood_cycle (d : Dev) (p : Port) (r : Nat) : CycleKept p d (d.noteFlood p r) := by
  unfold Dev.noteFlood
  split
  · exact Dev.updFe_cycle fun _ => ⟨rfl, rfl, rfl, rfl, rfl⟩
  · exact .refl d

/-! ### Frames (R22) -/

theorem Dev.closeDead_cycle (d : Dev) (p : Port) (fr : FeFrame) : CycleKept p d (d.closeDead p fr) := by
  unfold Dev.closeDead
  extract_lets f total sat f' x
  have set : CycleKept p d x := Dev.setFe_cycle ⟨rfl, rfl, rfl, rfl, rfl⟩
  split
  · exact set.trans (forEach_cycle _ _ (fun _ _ => Dev.feRecord_cycle _ _ _ _ _) x)
  · exact set

theorem Dev.feFrameEnd_cycle (d : Dev) (p : Port) (fr : FeFrame) : CycleKept p d (d.feFrameEnd p fr) := by
  unfold Dev.feFrameEnd
  extract_lets settled floods split_ records f chip openFlood ended
  have hSettled : CycleKept p d settled := d.settleAll_cycle p _ _
  have one (r : Nat) (x : Dev) : CycleKept p x (split_ r x) := by
    unfold split_
    extract_lets g started cut
    have hStarted : CycleKept p x started := by
      unfold started
      split
      · exact .refl x
      · exact x.feRecord_cycle p _ _ _
    exact (hStarted.trans (started.feRecord_cycle p _ _ _)).trans (Dev.updFe_cycle fun _ => ⟨rfl, rfl, rfl, rfl, rfl⟩)
  have hRecords : CycleKept p d records := hSettled.trans (forEach_cycle _ _ one settled)
  have hChip : CycleKept p d chip := by
    unfold chip
    split
    · exact (hRecords.trans (records.feRecord_cycle p _ _ _)).trans (Dev.updFe_cycle fun _ => ⟨rfl, rfl, rfl, rfl, rfl⟩)
    · exact hRecords
  have hEnded : CycleKept p d ended := hChip.trans (Dev.updFe_cycle fun _ => ⟨rfl, rfl, rfl, rfl, rfl⟩)
  split
  · exact hEnded.trans (ended.closeDead_cycle p _)
  · exact hEnded

/-- The frame that begins at slot `start` (R22, R31). -/
def FrontEnd.newFrame (f : FrontEnd) (start idx : Nat) : FeFrame :=
  { start := start, stop := min (start + 256) f.cycleStop, idx := idx, cyc := f.cycLo
    short := decide (min (start + 256) f.cycleStop < start + 256)
    marks := sendsMarkers (f.modeFrom start), hits := producesHits (f.modeFrom start) }

/-- A frame that begins joins the frames, and records of floods that go on follow. -/
theorem Dev.feFrameOpen_recOnly (d : Dev) (p : Port) (start idx : Nat) :
    RecOnly p (d.setFe p { d.fe p with frames := (d.fe p).frames ++ [(d.fe p).newFrame start idx] }) (d.feFrameOpen p start idx) := by
  unfold Dev.feFrameOpen
  extract_lets f mode stop fr opened floods dealt
  have hDealt : RecOnly p opened dealt := forEach_recOnly _ _ (fun _ _ => Dev.feRecord_recOnly _ _ _ _ _) opened
  split
  · exact hDealt.trans (dealt.feRecord_recOnly p _ _ _)
  · exact hDealt

theorem Dev.feFrameOpen_cycle (d : Dev) (p : Port) (start idx : Nat) : CycleKept p d (d.feFrameOpen p start idx) := by
  have opened : CycleKept p d (d.setFe p { d.fe p with frames := (d.fe p).frames ++ [(d.fe p).newFrame start idx] }) :=
    Dev.setFe_cycle ⟨rfl, rfl, rfl, rfl, rfl⟩
  exact opened.trans (d.feFrameOpen_recOnly p start idx).cycle

/-- The last frame is the one that has begun. -/
theorem Dev.feFrameOpen_last (d : Dev) (p : Port) (start idx : Nat) :
    ∃ n, ((d.feFrameOpen p start idx).fe p).frames.getLast? = some n ∧ n.place = ((d.fe p).newFrame start idx).place := by
  obtain ⟨rs, fs, fe, places⟩ := (d.feFrameOpen_recOnly p start idx).fe
  rw [Dev.fe_setFe_same, List.map_append, List.map_singleton] at places
  have last := congrArg List.getLast? places
  rw [List.getLast?_concat, List.getLast?_map] at last
  obtain ⟨n, found, same⟩ := Option.map_eq_some_iff.1 last
  exact ⟨n, by rw [fe]; exact found, same⟩

variable {s : State}

/-- The frame in progress ends, and the next begins inside the cycle. -/
theorem exec_feFrameBoundary {fr : FeFrame} (runs : (s.dev.fe p).runs = true) (last : (s.dev.fe p).frames.getLast? = some fr)
    (open_ : fr.ended = false) (past : fr.stop ≤ s.dev.now) (inside : fr.stop < (s.dev.fe p).cycleStop) :
    exec (.feFrameBoundary p) s = .next { s with dev := (s.dev.feFrameEnd p fr).feFrameOpen p fr.stop (fr.idx + 1) } := by
  change execFeFrameBoundary p s = _
  unfold execFeFrameBoundary
  simp only [State.on_eq, last, runs, open_, past, inside, decide_true, Bool.not_false, Bool.and_true, if_true]

/-! ### Settings that apply at a cycle boundary (R76) -/

theorem Dev.rearmTo_cycle (d : Dev) (p : Port) (c t : Nat) : CycleKept p d (d.rearmTo p c t) :=
  (d.settleDead_only p c t).cycle.trans (Dev.setFe_cycle (FrontEnd.setChan_span _ _ _))

theorem FrontEnd.letGo_span (f : FrontEnd) (now : Nat) (l : List Nat) : f.SameSpan (f.letGo now l) :=
  forEach_span _ _ (fun _ _ => FrontEnd.updFrame_span _ _ _) f

theorem Dev.cutPulse_cycle (d : Dev) (p : Port) (c : Nat) : CycleKept p d (d.cutPulse p c) := by
  unfold Dev.cutPulse
  extract_lets f ch done cut held x
  have hHeld : f.SameSpan held := by
    unfold held
    split
    · exact f.letGo_span _ _
    · exact .refl f
  have set : CycleKept p d x := Dev.setFe_cycle ⟨hHeld.1, hHeld.2, hHeld.3, hHeld.4, hHeld.5⟩
  split
  · exact set.trans (x.rearmTo_cycle p c _)
  · exact set

theorem Dev.chipWatch_cycle (d : Dev) (p : Port) : CycleKept p d (d.chipWatch p) := by
  refine Dev.updFe_cycle fun f => ?_
  dsimp only
  split
  · exact .refl f
  · split <;> exact ⟨rfl, rfl, rfl, rfl, rfl⟩

theorem Dev.leaveOff_cycle (d : Dev) (p : Port) (r : Nat) : CycleKept p d (d.leaveOff p r) := by
  unfold Dev.leaveOff
  extract_lets paired unpaired
  have hUnpaired : CycleKept p d unpaired := forEach_cycle _ _ (fun _ _ => Dev.fset_cycle (by decide) _ _) d
  refine hUnpaired.trans (Dev.updFe_cycle fun f => ?_)
  extract_lets unpaired' stamped
  have hStamped : f.SameSpan stamped := (forEach_span _ _ (fun _ _ => FrontEnd.setChan_span _ _ _) f).trans (FrontEnd.setRegion_span _ _ _)
  refine hStamped.trans (forEach_span _ _ (fun e f => ?_) stamped)
  dsimp only
  split
  · exact ⟨rfl, rfl, rfl, rfl, rfl⟩
  · exact .refl f

theorem Dev.levelReady_cycle (d : Dev) (p : Port) (r l : Nat) : CycleKept p d (d.levelReady p r l) := by
  unfold Dev.levelReady
  split
  · exact (d.settleAll_cycle p _ _).trans (forEach_cycle _ _ (fun _ _ => Dev.cutPulse_cycle _ _ _) _)
  · exact d.settleAll_cycle p _ _

theorem Dev.setLevel_cycle (d : Dev) (p : Port) (r l : Nat) : CycleKept p d (d.setLevel p r l) := by
  by_cases same : ((d.fe p).region r).level = l
  · rw [show d.setLevel p r l = d from if_pos same]; exact .refl d
  · rw [d.setLevel_eq p r l same]
    have written : CycleKept p d ((d.levelReady p r l).writeLevel p r l) :=
      (d.levelReady_cycle p r l).trans (Dev.setFe_cycle (FrontEnd.setRegion_span _ _ _))
    split
    · exact written.trans (Dev.leaveOff_cycle _ _ _)
    · exact written

theorem Dev.applyChannel_cycle (d : Dev) (p : Port) (ev : Nat × Nat) : CycleKept p d (d.applyChannel p ev) := by
  unfold Dev.applyChannel
  extract_lets old settled marked
  have hSettled : CycleKept p d settled := (d.settleDead_only p ev.1 _).cycle
  have hMarked : CycleKept p d marked := by
    unfold marked
    split
    · exact hSettled
    · exact hSettled.trans (Dev.updFe_cycle fun _ => ⟨rfl, rfl, rfl, rfl, rfl⟩)
  split
  · exact hMarked
  · exact hMarked.trans (marked.feStatusRecord_cycle p _ _ _ _)

theorem Dev.applyRegion_cycle (d : Dev) (p : Port) (old r new : Nat) : CycleKept p d (d.applyRegion p old r new) := by
  unfold Dev.applyRegion
  extract_lets settling told c
  have hSettling : CycleKept p d settling := by
    unfold settling
    split
    · exact .refl d
    · exact Dev.updFe_cycle fun f => forEach_span _ _ (fun _ _ => FrontEnd.setChan_span _ _ _) f
  have hTold : CycleKept p d told := by
    unfold told
    split
    · exact hSettling
    · exact hSettling.trans (Dev.feStatusRecord_cycle _ _ _ _ _ _)
  exact hTold.trans (told.setLevel_cycle p r _)

theorem Dev.applySnap_cycle (d : Dev) (p : Port) (r new : Nat) : CycleKept p d (d.applySnap p r new) := by
  refine Dev.updFe_cycle fun f => forEach_span _ _ (fun e f => ?_) f
  dsimp only
  split
  · split
    · exact ⟨rfl, rfl, rfl, rfl, rfl⟩
    · exact .refl f
  · split <;> exact ⟨rfl, rfl, rfl, rfl, rfl⟩
  · exact .refl f
  · exact .refl f

theorem Dev.floodStart_cycle (d : Dev) (p : Port) (r time : Nat) : CycleKept p d (d.floodStart p r time) := by
  unfold Dev.floodStart
  extract_lets f recorded
  have hRecorded : CycleKept p d recorded := d.feRecord_cycle p _ _ _
  exact hRecorded.trans (Dev.updFe_cycle fun f => FrontEnd.setRegion_span f r _)

theorem Dev.floodLeave_cycle (d : Dev) (p : Port) (r : Nat) : CycleKept p d (d.floodLeave p r) := by
  unfold Dev.floodLeave
  extract_lets g started f told settled left
  have hStarted : CycleKept p d started := by
    unfold started
    split
    · exact .refl d
    · exact d.floodStart_cycle p r _
  have hSettled : CycleKept p d settled := (hStarted.trans (started.feRecord_cycle p _ _ _)).trans (Dev.settleAll_cycle _ _ _ _)
  have hLeft : CycleKept p d left := by
    refine hSettled.trans (Dev.updFe_cycle fun f => ?_)
    refine (FrontEnd.setRegion_span f r _).trans (forEach_span _ _ (fun c f => ?_) _)
    dsimp only
    split
    · exact ⟨rfl, rfl, rfl, rfl, rfl⟩
    · exact .refl f
  exact (hLeft.trans (Dev.fset_cycle (by decide) _ _)).trans (Dev.chipWatch_cycle _ p)

/-- One region's floored channels marked, and the report of the region queued (R80). -/
def Dev.floorMark (d : Dev) (p : Port) (x : Nat × List Nat) : Dev :=
  (forEach x.2 (fun c d => d.fset p Reg.FE_CH_STAT c (setBit (d.fget p Reg.FE_CH_STAT c) 1 true)) d).updFe p fun f =>
    { f with fenceActed := true, floorReport := f.floorReport ++ [(x.1, x.2.length)] }

theorem Dev.floorMark_cycle (d : Dev) (p : Port) (x : Nat × List Nat) : CycleKept p d (d.floorMark p x) :=
  (forEach_cycle x.2 (fun c d => d.fset p Reg.FE_CH_STAT c (setBit (d.fget p Reg.FE_CH_STAT c) 1 true))
    (fun _ _ => Dev.fset_cycle (by decide) _ _) d).trans (Dev.updFe_cycle fun _ => ⟨rfl, rfl, rfl, rfl, rfl⟩)

theorem Dev.applyFloor_cycle (d : Dev) (p : Port) : CycleKept p d (d.applyFloor p) := by
  unfold Dev.applyFloor
  extract_lets was clear cleared per one told
  have hClear (c : Nat) (x : Dev) : CycleKept p x (clear c x) := by
    unfold clear
    split
    · exact .refl x
    · exact Dev.fset_cycle (by decide) _ _
  have hCleared : CycleKept p d cleared := forEach_cycle _ _ hClear d
  have hTold : CycleKept p d told := hCleared.trans (forEach_cycle per one (fun y x => x.floorMark_cycle p y) cleared)
  exact hTold.trans (Dev.fset_cycle (by decide) _ _)

theorem Dev.feApply_cycle (d : Dev) (p : Port) : CycleKept p d (d.feApply p) := by
  unfold Dev.feApply
  extract_lets chs rgs old snaps floods noted channels copy copied regions sampled quiet faults restore restored watched
  have hNoted : CycleKept p d noted := forEach_cycle _ _ (fun _ _ => Dev.noteFlood_cycle _ _ _) d
  have hChannels : CycleKept p d channels := hNoted.trans (forEach_cycle _ _ (fun _ _ => Dev.applyChannel_cycle _ _ _) noted)
  have hCopied : CycleKept p d copied := hChannels.trans (forEach_cycle _ _ (fun a x =>
    forEach_cycle _ _ (fun _ _ => Dev.setAp_cycle _ _ _ _ _) x) channels)
  have hRegions : CycleKept p d regions := hCopied.trans (forEach_cycle _ _ (fun _ _ => Dev.applyRegion_cycle _ _ _ _ _) copied)
  have hSampled : CycleKept p d sampled := hRegions.trans (forEach_cycle _ _ (fun _ _ => Dev.applySnap_cycle _ _ _ _) regions)
  have hLeft (ev : Nat × Nat) (x : Dev) : CycleKept p x (if ((x.fe p).region ev.1).flood then x.floodLeave p ev.1 else x) := by
    split
    · exact x.floodLeave_cycle p _
    · exact .refl x
  have hQuiet : CycleKept p d quiet := hSampled.trans (forEach_cycle _ _ hLeft sampled)
  have hRestore (r : Nat) (x : Dev) : CycleKept p x (restore r x) :=
    ((x.settleAll_cycle p _ _).trans (Dev.updFe_cycle fun f => FrontEnd.setRegion_span f r _)).trans (Dev.feStatusRecord_cycle _ _ _ _ _ _)
  have hRestored : CycleKept p d restored := hQuiet.trans (forEach_cycle _ _ hRestore quiet)
  exact ((hRestored.trans (restored.applyFloor_cycle p)).trans (Dev.chipWatch_cycle _ p)).trans (Dev.updFe_cycle fun _ => ⟨rfl, rfl, rfl, rfl, rfl⟩)

/-! ### The cycle boundary (R24, R103 to R107) -/

theorem Dev.takeMeas_cycle (d : Dev) (p : Port) (m : RegionMeas) : CycleKept p d (d.takeMeas p m) := by
  unfold Dev.takeMeas
  extract_lets r stamped warm
  have hStamped : CycleKept p d stamped := Dev.updFe_cycle fun f => FrontEnd.setRegion_span f r _
  exact ((hStamped.trans (Dev.fset_cycle (by decide) _ _)).trans (Dev.fset_cycle (by decide) _ _)).trans (Dev.fset_cycle (by decide) _ _)

theorem Dev.latchPhase_cycle (d : Dev) (p : Port) (r : Nat) : CycleKept p d (d.latchPhase p r) := by
  unfold Dev.latchPhase
  extract_lets g phase corr latched w
  have hLatched : CycleKept p d latched := Dev.updFe_cycle fun f => FrontEnd.setRegion_span f r _
  split
  · exact Dev.updFe_cycle fun f => FrontEnd.setRegion_span f r _
  · exact hLatched.trans (Dev.fset_cycle (by decide) _ _)

theorem Dev.checkEnvelope_cycle (d : Dev) (p : Port) (r : Nat) : CycleKept p d (d.checkEnvelope p r) := by
  have noted (w code : Nat) (v1 v2 v3 : Int) (e : CalEvent) (cause : Nat) :
      CycleKept p d (((d.fset p Reg.FE_RG_TSTAT r w).feStatusRecord p e r 0 cause).log p.val code v1 v2 v3) :=
    ((Dev.fset_cycle (by decide) _ _).trans (Dev.feStatusRecord_cycle _ _ _ _ _ _)).trans (Dev.log_cycle _ _ _ _ _ _)
  unfold Dev.checkEnvelope
  extract_lets w causes stay
  split
  · exact noted _ _ _ _ _ _ _
  · split
    · exact noted _ _ _ _ _ _ _
    · exact .refl d

/-- The frame in progress ended, where it has not. -/
def Dev.endOpenFrame (d : Dev) (p : Port) : Dev :=
  match (d.fe p).frames.getLast? with
  | some fr => if fr.ended then d else d.feFrameEnd p fr
  | none => d

theorem Dev.endOpenFrame_cycle (d : Dev) (p : Port) : CycleKept p d (d.endOpenFrame p) := by
  unfold Dev.endOpenFrame
  split
  · split
    · exact .refl d
    · exact d.feFrameEnd_cycle p _
  · exact .refl d

/-- The next cycle of a front end begun at slot `stop` (R24). -/
def Dev.beginCycle (d : Dev) (p : Port) (stop cyc : Nat) : Dev :=
  d.updFe p fun f =>
    { f with cycLo := cyc, prevStart := f.cycleStart, cycleStart := stop, endAt := none, cycleLen := d.fget p Reg.FE_CYCLE_LEN }

/-- What follows the start of a cycle: its first frame, the measurements of the cycle before, and what applies at the boundary. -/
def Dev.cycleBegun (d : Dev) (p : Port) (meas : List RegionMeas) (stop cyc : Nat) : Dev :=
  let d := d.feFrameOpen p stop 0
  let d := forEach meas (fun m d => d.takeMeas p m) d
  let d := forRange 256 (fun r d => d.latchPhase p r) d
  let d := forEach (d.envelopeRegions p) (fun r d => d.checkEnvelope p r) d
  let d : Dev := d.fset p Reg.FE_ENV_CNT 0 (((objEntries d.regs p.val Reg.FE_RG_TSTAT).filter fun ev => bit ev.2 12).length)
  let f := d.fe p
  let d := if f.mirrorNextCyc = some cyc then
      (d.setFe p { f with mirror := f.mirrorNext, mirrorNextCyc := none }).fset p Reg.FE_MIRROR_CYC 0 cyc
    else d
  if f.applyAt.isSome && f.applyAtCycle then d.feApply p else d

theorem Dev.cycleBegun_cycle (d : Dev) (p : Port) (meas : List RegionMeas) (stop cyc : Nat) :
    CycleKept p d (d.cycleBegun p meas stop cyc) := by
  unfold Dev.cycleBegun
  extract_lets opened taken latched checked counted f mirrored
  have hTaken : CycleKept p d taken :=
    (d.feFrameOpen_cycle p stop 0).trans (forEach_cycle _ _ (fun _ _ => Dev.takeMeas_cycle _ _ _) opened)
  have hLatched : CycleKept p d latched := hTaken.trans (forEach_cycle _ _ (fun _ _ => Dev.latchPhase_cycle _ _ _) taken)
  have hChecked : CycleKept p d checked := hLatched.trans (forEach_cycle _ _ (fun _ _ => Dev.checkEnvelope_cycle _ _ _) latched)
  have hCounted : CycleKept p d counted := hChecked.trans (Dev.fset_cycle (by decide) _ _)
  have hMirrored : CycleKept p d mirrored := by
    unfold mirrored f
    clear_value counted
    split
    · refine hCounted.trans (.trans (Dev.setFe_cycle ?_) (Dev.fset_cycle (by decide) _ _))
      exact ⟨rfl, rfl, rfl, rfl, rfl⟩
    · exact hCounted
  split
  · exact hMirrored.trans (mirrored.feApply_cycle p)
  · exact hMirrored

/-- The cycle of a front end ends (R24). -/
theorem exec_feCycleBoundary (meas : List RegionMeas) (runs : (s.dev.fe p).runs = true) (set : (s.dev.fe p).gridSet = true)
    (past : (s.dev.fe p).cycleStop ≤ s.dev.now) : exec (.feCycleBoundary p meas) s = .next { s with
      dev := ((s.dev.endOpenFrame p).beginCycle p (s.dev.fe p).cycleStop (((s.dev.fe p).cycLo + 1) % 256)).cycleBegun p meas
        (s.dev.fe p).cycleStop (((s.dev.fe p).cycLo + 1) % 256) } := by
  have h : ¬ (!(s.dev.fe p).runs || !(s.dev.fe p).gridSet || decide (s.dev.now < (s.dev.fe p).cycleStop)) = true := by
    simp [runs, set, past]
  exact exec_next_congr rfl (if_neg h)

/-! ### Counter clears (R118, R152) -/

theorem regKey_addr (p : Port) (a e : Nat) : regKey p.val a e / 2 ^ 16 = p.val * 2 ^ 24 + a % 2 ^ 24 := by
  have := p.isLt
  unfold regKey; omega

/-- Entries of other keys taken out of a table, a read is what it was. -/
theorem tblRead_filter_keep {α : Type} (dflt : Nat → α) (t : Tbl α) (keep : Nat × α → Bool) {k : Nat} (h : ∀ v, keep (k, v) = true) :
    tblRead dflt (t.filter keep) k = tblRead dflt t k := by
  induction t with
  | nil => rfl
  | cons x t ih =>
    obtain ⟨j, v⟩ := x
    by_cases here : j = k
    · subst here; simp [h v, tblRead]
    · by_cases kept : keep (j, v) = true <;> simp [kept, tblRead, here, ih]

/-- The entries of a key taken out of a table, a read is the default. -/
theorem tblRead_filter_drop {α : Type} (dflt : Nat → α) (t : Tbl α) (keep : Nat × α → Bool) {k : Nat} (h : ∀ v, keep (k, v) = false) :
    tblRead dflt (t.filter keep) k = dflt k := by
  induction t with
  | nil => rfl
  | cons x t ih =>
    obtain ⟨j, v⟩ := x
    by_cases kept : keep (j, v) = true
    · have other : j ≠ k := fun e => by rw [e, h v] at kept; exact absurd kept (by decide)
      simp [kept, tblRead, other, ih]
    · simp [kept, ih]

/-- An object after one has been cleared. -/
theorem Dev.fget_clearObj (d : Dev) (p : Port) (a : Nat) (a' e : Nat) :
    (d.clearObj p a).fget p a' e = if a' % 2 ^ 24 = a then regDflt (regKey p.val a' e) else d.fget p a' e := by
  have key := regKey_addr p a' e
  unfold Dev.clearObj Dev.fget
  split
  · exact tblRead_filter_drop _ _ _ fun _ => bne_eq_false_iff_eq.2 (by rw [key]; omega)
  · exact tblRead_filter_keep _ _ _ fun _ => bne_iff_ne.2 (by rw [key]; omega)

/-- The objects whose defaults are not those of their rows. -/
def dealtDefaults : List Nat :=
  [Reg.FE_RG_ANA, Reg.FE_RG_PHASE_OFS, Reg.FE_SERIAL, Reg.ID_SERIAL, Reg.BE_SRC_MAC, Reg.ST_CAP, Reg.ST_EFF_CAP, Reg.ST_BW, Reg.ST_EFF_BW,
    Reg.ST_PRIO, Reg.ST_RSV, Reg.TRG_HOLD_EFF, Reg.MD_REQUEST, Reg.IMG_STATUS, Reg.IMG_IN_USE, Reg.GV_FE_BAL, Reg.GV_DOM_BAL, Reg.GV_DOM_BUDGET]

theorem counter_row : ∀ a ∈ timingCounters ++ readoutCounters,
    a < 2 ^ 24 ∧ a ∉ dealtDefaults ∧ (objRow a).map (fun r => r.dflt) = some 0 := by decide +kernel

theorem counter_lt (a : Nat) (h : a ∈ timingCounters ++ readoutCounters) : a < 2 ^ 24 := (counter_row a h).1

/-- The counters have no default. -/
theorem regDflt_counter {a : Nat} (counter : a ∈ timingCounters ++ readoutCounters) (p : Port) (e : Nat) :
    regDflt (regKey p.val a e) = 0 := by
  obtain ⟨lt, own, row⟩ := counter_row a counter
  obtain ⟨r, found, zero⟩ := Option.map_eq_some_iff.1 row
  have addr : regKey p.val a e / 2 ^ 16 % 2 ^ 24 = a := by rw [regKey_addr]; omega
  simp only [dealtDefaults, List.mem_cons, List.not_mem_nil, or_false, not_or] at own
  simp only [regDflt, addr, beq_iff_eq, own, found, zero, if_false, or_self]

/-- The counters of a list cleared. -/
def Dev.clearAll (d : Dev) (p : Port) (l : List Nat) : Dev := forEach l (fun a d => d.clearObj p a) d

/-- A counter that reads 0 reads 0 after others have been cleared. -/
theorem Dev.fget_clearAll_zero {l : List Nat} {a : Nat}
    (counter : a ∈ timingCounters ++ readoutCounters) {e : Nat} (zero : d.fget p a e = 0) : (d.clearAll p l).fget p a e = 0 := by
  refine forEach_keeps (fun d : Dev => d.fget p a e = 0) l _ (fun b _ x hx => ?_) d zero
  rw [Dev.fget_clearObj, regDflt_counter counter, hx, ite_self]

/-- The counters of the list read 0 after it has been cleared. -/
theorem Dev.fget_clearAll {l : List Nat} (sub : ∀ a ∈ l, a ∈ timingCounters ++ readoutCounters) {a : Nat} (mem : a ∈ l) (e : Nat) :
    (d.clearAll p l).fget p a e = 0 := by
  induction l generalizing d with
  | nil => cases mem
  | cons b l ih =>
    rcases List.mem_cons.1 mem with rfl | later
    · have lt := counter_lt a (sub a mem)
      have cleared : (d.clearObj p a).fget p a e = 0 := by
        rw [Dev.fget_clearObj, Nat.mod_eq_of_lt lt, if_pos rfl, regDflt_counter (sub a mem)]
      exact Dev.fget_clearAll_zero (d := d.clearObj p a) (sub a mem) cleared
    · exact ih (d := d.clearObj p b) (fun c h => sub c (List.mem_cons_of_mem b h)) later

/-- Whether a counter clear written at `t` takes effect: the next cycle of the front end has begun (R118, R152). -/
def FrontEnd.clearDue (f : FrontEnd) : Option Nat → Bool
  | some t => f.runs && decide (t < f.cycleStart)
  | none => false

theorem FrontEnd.clearDue_of {f : FrontEnd} (runs : f.runs = true) {t : Option Nat} (due : ∃ n, t = some n ∧ n < f.cycleStart) :
    f.clearDue t = true := by
  obtain ⟨n, rfl, past⟩ := due
  simp [FrontEnd.clearDue, runs, past]

/-- The clear of the timing counters, where it is due. -/
def Dev.clearedTiming (d : Dev) (p : Port) : Dev :=
  if (d.fe p).clearDue (d.fe p).clearTiming then (d.clearAll p timingCounters).updFe p fun f => { f with clearTiming := none } else d

/-- The clear of the readout counters, where `f` has it due. -/
def Dev.clearedReadout (d : Dev) (p : Port) (f : FrontEnd) : Dev :=
  if f.clearDue f.clearReadout then (d.clearAll p readoutCounters).updFe p fun f => { f with clearReadout := none } else d

theorem exec_feCounterClearApply :
    exec (.feCounterClearApply p) s = .next { s with dev := (s.dev.clearedTiming p).clearedReadout p (s.dev.fe p) } := rfl

theorem Dev.fe_clearAll (d : Dev) (p : Port) (l : List Nat) : (d.clearAll p l).fe p = d.fe p :=
  forEach_same (fun d : Dev => d.fe p) l (fun a d => d.clearObj p a) (fun _ _ _ => rfl) d

theorem Dev.clearedTiming_spec (due : (d.fe p).clearDue (d.fe p).clearTiming = true) :
    ((d.clearedTiming p).fe p).clearTiming = none ∧ ∀ a ∈ timingCounters, ∀ e, (d.clearedTiming p).fget p a e = 0 := by
  rw [Dev.clearedTiming, if_pos due]
  refine ⟨by rw [Dev.fe_updFe_same], fun a mem e => ?_⟩
  rw [Dev.fget_updFe]
  exact Dev.fget_clearAll (fun b h => List.mem_append_left _ h) mem e

/-- What the clear of the timing counters left stays when the readout counters follow. -/
theorem Dev.clearedReadout_keeps {f : FrontEnd} (unset : (d.fe p).clearTiming = none)
    (zero : ∀ a ∈ timingCounters, ∀ e, d.fget p a e = 0) :
    ((d.clearedReadout p f).fe p).clearTiming = none ∧ ∀ a ∈ timingCounters, ∀ e, (d.clearedReadout p f).fget p a e = 0 := by
  unfold Dev.clearedReadout
  split
  · refine ⟨by rw [Dev.fe_updFe_same, Dev.fe_clearAll]; exact unset, fun a mem e => ?_⟩
    rw [Dev.fget_updFe]
    exact Dev.fget_clearAll_zero (List.mem_append_left _ mem) (zero a mem e)
  · exact ⟨unset, zero⟩

theorem Dev.clearedReadout_spec {f : FrontEnd} (due : f.clearDue f.clearReadout = true) :
    ((d.clearedReadout p f).fe p).clearReadout = none ∧ ∀ a ∈ readoutCounters, ∀ e, (d.clearedReadout p f).fget p a e = 0 := by
  rw [Dev.clearedReadout, if_pos due]
  refine ⟨by rw [Dev.fe_updFe_same], fun a mem e => ?_⟩
  rw [Dev.fget_updFe]
  exact Dev.fget_clearAll (fun b h => List.mem_append_right _ h) mem e

/-! ### O18 -/

theorem Completes.of_next {c : Instr} {P : Dev → Prop} (runs : exec c s = .next { s with dev := d }) (holds : P d) : Completes c s P :=
  ⟨_, runs, rfl, holds⟩

/-- The frame that follows one whose end lies inside the cycle. -/
theorem exec_feFrameBoundary_last {fr : FeFrame} (runs : (s.dev.fe p).runs = true) (last : (s.dev.fe p).frames.getLast? = some fr)
    (open_ : fr.ended = false) (past : fr.stop ≤ s.dev.now) (inside : fr.stop < (s.dev.fe p).cycleStop) :
    Completes (.feFrameBoundary p) s fun d =>
      ∃ n, (d.fe p).frames.getLast? = some n ∧ n.start = fr.stop ∧ n.idx = fr.idx + 1 ∧ n.ended = false
        ∧ n.stop = min (fr.stop + 256) (s.dev.fe p).cycleStop ∧ n.short = decide ((s.dev.fe p).cycleStop < fr.stop + 256) := by
  refine .of_next (exec_feFrameBoundary runs last open_ past inside) ?_
  obtain ⟨n, found, place⟩ := (s.dev.feFrameEnd p fr).feFrameOpen_last p fr.stop (fr.idx + 1)
  have stop : ((s.dev.feFrameEnd p fr).fe p).cycleStop = (s.dev.fe p).cycleStop := (s.dev.feFrameEnd_cycle p fr).span.cycleStop
  obtain ⟨start, stop', idx, short, ended⟩ : _ ∧ _ ∧ _ ∧ _ ∧ _ := by
    simpa only [FeFrame.place, Prod.mk.injEq, FrontEnd.newFrame, stop] using place
  refine ⟨n, found, start, idx, ended, stop', short.trans ?_⟩
  simp

/-- The cycle that follows. -/
theorem exec_feCycleBoundary_cycle (meas : List RegionMeas) (runs : (s.dev.fe p).runs = true) (set : (s.dev.fe p).gridSet = true)
    (past : (s.dev.fe p).cycleStop ≤ s.dev.now) :
    Completes (.feCycleBoundary p meas) s fun d =>
      (d.fe p).cycLo = ((s.dev.fe p).cycLo + 1) % 256 ∧ (d.fe p).cycleStart = (s.dev.fe p).cycleStop
        ∧ (d.fe p).prevStart = (s.dev.fe p).cycleStart ∧ (d.fe p).endAt = none
        ∧ (d.fe p).cycleLen = s.dev.fget p Reg.FE_CYCLE_LEN := by
  refine .of_next (exec_feCycleBoundary meas runs set past) ?_
  obtain ⟨ended, len⟩ := s.dev.endOpenFrame_cycle p
  obtain ⟨begun, -⟩ := ((s.dev.endOpenFrame p).beginCycle p (s.dev.fe p).cycleStop (((s.dev.fe p).cycLo + 1) % 256)).cycleBegun_cycle p meas
    (s.dev.fe p).cycleStop (((s.dev.fe p).cycLo + 1) % 256)
  rw [Dev.beginCycle, Dev.fe_updFe_same] at begun
  exact ⟨begun.cycLo, begun.cycleStart, begun.prevStart.trans ended.cycleStart, begun.endAt, begun.cycleLen.trans len⟩

/-- Settles O18. -/
theorem frontEndFramesAndCyclesFollow : Obligations.FrontEndFramesAndCyclesFollow := by
  unfold Obligations.FrontEndFramesAndCyclesFollow
  refine ⟨⟨fun s p fr => ?_, fun s p meas => ?_⟩, fun s p => ?_⟩
  · exact exec_feFrameBoundary_last
  · exact exec_feCycleBoundary_cycle meas
  · intro f due runs
    refine .of_next exec_feCounterClearApply ⟨fun timing => ?_, fun readout => ?_⟩
    · obtain ⟨unset, zero⟩ := Dev.clearedTiming_spec (FrontEnd.clearDue_of runs timing)
      obtain ⟨unset', zero'⟩ := Dev.clearedReadout_keeps (f := f) unset zero
      exact ⟨unset', fun a mem e _ => zero' a mem e⟩
    · obtain ⟨unset, zero⟩ := Dev.clearedReadout_spec (d := s.dev.clearedTiming p) (FrontEnd.clearDue_of runs readout)
      exact ⟨unset, fun a mem e _ => zero a mem e⟩

end Sys2Proof.Machine
end

section
/-! Writes that wait for a boundary: CYCLE_LEN and the calendar bank (R40, R41, R45, R47; O12, O13). -/

namespace Sys2Proof.Machine

variable {d d' : Dev} {s : State} {p q : Port} {w : Writer} {val : Bytes}

/-! ### Answers and configuration messages -/

/-- An answer leaves everything but the counts, the command module, the back-end ports and what is sent. -/
theorem Dev.answer_keeps (d : Dev) (w : Writer) (st : Status) (value : Bytes) :
    ∃ r k n o, d.answer w st value = { d with regs := r, keeper := k, net := n, out := o } := by
  obtain ⟨k, e, ⟨r, n, o, rfl, -⟩, eq⟩ := d.answer_eq w st value
  refine ⟨r, k, n, .answer w st value :: o, ?_⟩
  rw [eq]
  split <;> rfl

@[simp] theorem Dev.answer_grid (d : Dev) (w : Writer) (st : Status) (value : Bytes) : (d.answer w st value).grid = d.grid := by
  obtain ⟨r, k, n, o, eq⟩ := d.answer_keeps w st value; rw [eq]

@[simp] theorem Dev.answer_ports (d : Dev) (w : Writer) (st : Status) (value : Bytes) : (d.answer w st value).ports = d.ports := by
  obtain ⟨r, k, n, o, eq⟩ := d.answer_keeps w st value; rw [eq]

@[simp] theorem Dev.answer_port (d : Dev) (w : Writer) (st : Status) (value : Bytes) : (d.answer w st value).port p = d.port p := by
  rw [Dev.port, Dev.port, Dev.answer_ports]

theorem Dev.answer_answered (d : Dev) (w : Writer) (st : Status) : (d.answer w st).Answered w st := Dev.answer_out _ _ _ _

theorem PortsSent.get (h : PortsSent d d') (a e : Nat) : d'.get a e = d.get a e := by
  obtain ⟨_, _, _, rfl⟩ := h; rfl

theorem PortsSent.grid (h : PortsSent d d') : d'.grid = d.grid := by
  obtain ⟨_, _, _, rfl⟩ := h; rfl

theorem forEach_portsSent {α : Type} (l : List α) (f : α → Dev → Dev) (h : ∀ a d, PortsSent d (f a d)) (d : Dev) :
    PortsSent d (forEach l f d) :=
  forEach_keeps (PortsSent d) l f (fun a _ d' hd => hd.trans (h a d')) d (.refl d)

theorem Dev.port_of_ports (h : d'.ports = d.ports) (q : Port) : d'.port q = d.port q := by rw [Dev.port, Dev.port, h]

/-- A part of the ports that a change of one leaves. -/
theorem Dev.setPort_part {β : Type} (g : CPort → β) {c : CPort} (same : g c = g (d.port p)) (q : Port) :
    g ((d.setPort p c).port q) = g (d.port q) := by
  by_cases here : q = p
  · subst here; rw [Dev.port_setPort_same, same]
  · rw [Dev.port_setPort_other _ _ _ _ here]

theorem Dev.cfgStart_cycLenAcked (d : Dev) (p : Port) (m : CfgMsg) (q : Port) :
    ((d.cfgStart p m).port q).cycLenAcked = (d.port q).cycLenAcked := by
  unfold Dev.cfgStart
  dsimp only
  rw [Dev.port_of_ports (Dev.emit_ports _ _)]
  exact Dev.setPort_part CPort.cycLenAcked (by rfl) q

theorem Dev.cfgPump_cycLenAcked (d : Dev) (p q : Port) : ((d.cfgPump p).port q).cycLenAcked = (d.port q).cycLenAcked := by
  unfold Dev.cfgPump
  dsimp only
  split
  · rfl
  · split
    · rfl
    · rw [Dev.cfgStart_cycLenAcked]
      exact Dev.setPort_part CPort.cycLenAcked (by rfl) q

theorem Dev.cfgQueue_cycLenAcked (d : Dev) (p : Port) (ms : List CfgMsg) (q : Port) :
    ((d.cfgQueue p ms).port q).cycLenAcked = (d.port q).cycLenAcked := by
  rw [Dev.cfgQueue, Dev.cfgPump_cycLenAcked]
  exact Dev.setPort_part (d := d) (p := p) CPort.cycLenAcked (by rfl) q

/-- A write that is let through does what its own rule says, and the answer follows. -/
theorem Completes.of_write {c : Instr} {a e : Nat} {f : Dev → Nat → Status × Dev} {P : Dev → Prop}
    (runs : exec c s = .next { s with dev := s.dev.write w a e val f }) (admits : s.dev.Admits w a e val)
    (holds : ∀ k, P ((f { s.dev with keeper := k } (beNat val)).2.answer w (f { s.dev with keeper := k } (beNat val)).1)) :
    Completes c s P := by
  obtain ⟨k, kept⟩ := s.dev.gate_eq w a e val
  refine .of_next runs ?_
  rw [Dev.write_admitted _ f admits, kept]
  exact holds k

/-! ### CYCLE_LEN (R45, R47, R258) -/

/-- What the dictionary says of CYCLE_LEN (R45). -/
theorem cycleLen_row : objRow Reg.CYCLE_LEN = some ⟨Reg.CYCLE_LEN, .u32, .rwc, 1, 1000000, 1, 1048576⟩ := by decide +kernel

theorem Dev.Admits.cycleLen_lt (h : d.Admits w Reg.CYCLE_LEN 0 val) : beNat val < 2 ^ regBits Reg.CYCLE_LEN := by
  rw [regBits, cycleLen_row]
  exact valueCheck_lt (h.value cycleLen_row) (show ObjTy.u32.bytes ≠ 0 by decide)

/-- What is written in CONFIGURE alone is let through there alone (R402). -/
theorem Dev.Admits.configure {a e : Nat} {r : ObjRow} (h : d.Admits w a e val) (row : objRow a = some r) (rwc : r.access = .rwc)
    (closed : writableInSafe r = false) : d.mode = .configure := by
  have awake := h.not_safe row closed
  unfold Dev.Admits Dev.gate at h
  rw [row] at h
  dsimp only at h
  split at h
  · exact nomatch h
  · simp only [Dev.accessCheck, rwc, closed, Bool.not_false, Bool.and_true, beq_iff_eq, awake, if_false] at h
    by_cases open_ : d.rwcOpen = true
    · have both : d.mode = .configure ∧ d.modePend.isNone = true := by simpa [Dev.rwcOpen] using open_
      exact both.1
    · rw [if_neg open_] at h
      exact nomatch h

/-- The message that tells a port the new CYCLE_LEN, its acknowledgement awaited. -/
def Dev.sendCycleLen (d : Dev) (p : Port) : Dev :=
  if d.get Reg.WP_EN p.val = 0 then d
  else (d.updPort p fun c => { c with cycLenAcked := false }).cfgQueue p [d.cycleLenMsg]

theorem Dev.sendCycleLen_portsSent (d : Dev) (p : Port) : PortsSent d (d.sendCycleLen p) := by
  unfold Dev.sendCycleLen
  split
  · exact .refl d
  · exact (d.setPort_portsSent p _).trans (Dev.cfgQueue_portsSent _ p _)

theorem Dev.sendCycleLen_awaits (enabled : d.get Reg.WP_EN p.val ≠ 0) : ((d.sendCycleLen p).port p).cycLenAcked = false := by
  rw [Dev.sendCycleLen, if_neg enabled, Dev.cfgQueue_cycLenAcked, Dev.port_updPort]

theorem Dev.sendCycleLen_awaits_still (waits : (d.port p).cycLenAcked = false) (q : Port) :
    ((d.sendCycleLen q).port p).cycLenAcked = false := by
  unfold Dev.sendCycleLen
  split
  · exact waits
  · rw [Dev.cfgQueue_cycLenAcked]
    by_cases here : p = q
    · subst here; rw [Dev.port_updPort]
    · exact (congrArg CPort.cycLenAcked (Dev.port_setPort_other _ _ _ _ here)).trans waits

/-- Every enabled port is told, and its acknowledgement awaited. -/
theorem Dev.sendCycleLens_awaits (d : Dev) {p : Port} (enabled : d.get Reg.WP_EN p.val ≠ 0) :
    ((forEach allPorts (fun p d => d.sendCycleLen p) d).port p).cycLenAcked = false :=
  forEach_establishes (I := fun x : Dev => x.get Reg.WP_EN p.val ≠ 0) (Q := fun x : Dev => (x.port p).cycLenAcked = false)
    (List.mem_finRange p) (fun q x h => by rwa [PortsSent.get (Dev.sendCycleLen_portsSent x q)])
    (fun _ h => Dev.sendCycleLen_awaits h) (fun q _ _ h => Dev.sendCycleLen_awaits_still h q) enabled

/-- What a write of CYCLE_LEN does that the dictionary lets through. -/
def Dev.putCycleLen (d : Dev) (v : Nat) : Status × Dev :=
  if 127 * v < d.get Reg.CAL_LEAD ∨ !(d.set Reg.CYCLE_LEN 0 v).pulsesFit then refuse .range d
  else (.accepted, forEach allPorts (fun p d => d.sendCycleLen p) (d.set Reg.CYCLE_LEN 0 v))

theorem exec_cycleLengthWrite (w : Writer) (val : Bytes) (s : State) :
    exec (.cycleLengthWrite w val) s = .next { s with dev := s.dev.write w Reg.CYCLE_LEN 0 val Dev.putCycleLen } := rfl

/-- What a CYCLE_LEN that is taken leaves. -/
theorem Dev.putCycleLen_taken {v : Nat} (lead : d.get Reg.CAL_LEAD ≤ 127 * v) (fit : (d.set Reg.CYCLE_LEN 0 v).pulsesFit = true)
    (width : v < 2 ^ regBits Reg.CYCLE_LEN) : (d.putCycleLen v).1 = .accepted ∧ (d.putCycleLen v).2.grid = d.grid
      ∧ (d.putCycleLen v).2.get Reg.CYCLE_LEN = v
      ∧ ∀ p : Port, d.get Reg.WP_EN p.val ≠ 0 → ((d.putCycleLen v).2.port p).cycLenAcked = false := by
  have free : ¬ (127 * v < d.get Reg.CAL_LEAD ∨ (!(d.set Reg.CYCLE_LEN 0 v).pulsesFit) = true) := by
    rw [fit]; simpa using lead
  rw [Dev.putCycleLen, if_neg free]
  dsimp only
  have sent := forEach_portsSent allPorts (fun p d => d.sendCycleLen p) (fun p d => d.sendCycleLen_portsSent p)
    (d.set Reg.CYCLE_LEN 0 v)
  refine ⟨rfl, sent.grid.trans (Dev.set_grid _ _ _ _), ?_, fun p enabled => ?_⟩
  · rw [sent.get, Dev.get_set_same, Nat.mod_eq_of_lt width]
  · refine Dev.sendCycleLens_awaits _ ?_
    rwa [Dev.get_set_addr _ (by decide)]

/-- Another is refused, and leaves the device as it was. -/
theorem Dev.putCycleLen_refused {v : Nat} (misfit : ¬ (d.get Reg.CAL_LEAD ≤ 127 * v ∧ (d.set Reg.CYCLE_LEN 0 v).pulsesFit = true)) :
    d.putCycleLen v = (.range, d) := by
  refine if_pos ?_
  rw [Bool.not_eq_true']
  by_cases lead : d.get Reg.CAL_LEAD ≤ 127 * v
  · exact .inr (by simpa [lead] using misfit)
  · exact .inl (by omega)

end Sys2Proof.Machine

open Sys2Proof.Machine

/-- Settles O13: `Dev.putCycleLen` on what the dictionary lets through. -/
theorem cycleLengthWriteGovernsNextCycle : Obligations.CycleLengthWriteGovernsNextCycle := by
  unfold Obligations.CycleLengthWriteGovernsNextCycle
  intro s w val admits
  refine .of_write (exec_cycleLengthWrite w val s) admits fun k => ⟨admits.configure cycleLen_row rfl (by decide), ?_⟩
  by_cases taken : s.dev.get Reg.CAL_LEAD ≤ 127 * beNat val ∧ (s.dev.set Reg.CYCLE_LEN 0 (beNat val)).pulsesFit = true
  · obtain ⟨status, grid, len, waits⟩ := Dev.putCycleLen_taken (d := { s.dev with keeper := k }) taken.1 taken.2 admits.cycleLen_lt
    rw [if_pos taken, status, Dev.answer_grid, Dev.get_answer_addr _ (by decide) (by decide) (by decide)]
    exact ⟨grid, len, Dev.answer_answered _ _ _, fun p enabled => by rw [Dev.answer_port]; exact waits p enabled⟩
  · rw [if_neg taken, Dev.putCycleLen_refused (d := { s.dev with keeper := k }) taken]
    exact ⟨Dev.answer_grid _ _ _ _, Dev.get_answer_addr _ (by decide) (by decide) (by decide) _ _ _ _, Dev.answer_answered _ _ _⟩
end

section
/-! The calendar: commits, the mirror and its lag, and the bank that becomes the active one (R40, R41, R200; O12). -/

namespace Sys2Proof.Machine

variable {d : Dev} {s : State} {p : Port} {w : Writer} {val : Bytes}

theorem Dev.queueMirror_portsSent (d : Dev) (p : Port) (b : Bank) (cyc at_ : Nat) : PortsSent d (d.queueMirror p b cyc at_) :=
  (d.setPort_portsSent p _).trans (Dev.cfgQueue_portsSent _ p _)

/-- The mirror sent to a port that is enabled. -/
def Dev.mirrorTo (d : Dev) (p : Port) (b : Bank) (cyc at_ : Nat) : Dev :=
  if d.get Reg.WP_EN p.val = 0 then d else d.queueMirror p b cyc at_

theorem Dev.mirrorTo_portsSent (d : Dev) (p : Port) (b : Bank) (cyc at_ : Nat) : PortsSent d (d.mirrorTo p b cyc at_) := by
  unfold Dev.mirrorTo
  split
  · exact .refl d
  · exact d.queueMirror_portsSent p b cyc at_

theorem Dev.sendMirror_portsSent (d : Dev) (b : Bank) (cyc : Nat) : PortsSent d (d.sendMirror b cyc) :=
  forEach_portsSent allPorts (fun p x => x.mirrorTo p b cyc (d.startOf cyc)) (fun p x => x.mirrorTo_portsSent p b cyc _) d

/-! ### A commit (R40) -/

/-- A commit of a bank without conflict, which waits for its boundary. -/
def Dev.commitWaits (d : Dev) : Dev :=
  Dev.set { d with grid := { d.grid with bankPend := some (d.now + modeLead, d.saveBank) } } Reg.CAL_STATUS 0 1

/-- What a write of Calendar Commit does that the dictionary lets through. -/
def Dev.putCommit (d : Dev) (_ : Nat) : Status × Dev :=
  match d.shadowBank.conflict d.cycleLen with
  | some e =>
    let d := d.set Reg.CAL_REFUSED_AT 0 e
    (.calConflict, if d.grid.bankPend.isSome then d else d.set Reg.CAL_STATUS 0 2)
  | none => (.accepted, d.commitWaits.sendMirror d.commitWaits.shadowBank (d.commitWaits.cyclePlus (d.commitWaits.boundaryAfter (d.now + modeLead))))

theorem exec_calendarCommit (w : Writer) (val : Bytes) (s : State) :
    exec (.calendarCommit w val) s = .next { s with dev := s.dev.write w Reg.CAL_COMMIT 0 val Dev.putCommit } := rfl

/-- The entry that a conflict names is one of the bank's. -/
theorem Bank.conflict_lt {b : Bank} {len e : Nat} (found : b.conflict len = some e) : e < 64 :=
  List.mem_range.1 (List.mem_of_find?_eq_some found)

theorem Dev.putCommit_waits {v : Nat} (clean : d.shadowBank.conflict d.cycleLen = none) : (d.putCommit v).1 = .accepted
    ∧ (d.putCommit v).2.grid.bankPend = some (d.now + 4096, d.saveBank) ∧ (d.putCommit v).2.get Reg.CAL_STATUS = 1 := by
  unfold Dev.putCommit
  rw [clean]
  dsimp only
  have sent := d.commitWaits.sendMirror_portsSent d.commitWaits.shadowBank (d.commitWaits.cyclePlus (d.commitWaits.boundaryAfter (d.now + modeLead)))
  refine ⟨rfl, ?_, ?_⟩
  · rw [sent.grid]; rfl
  · rw [sent.get, Dev.commitWaits, Dev.get_set_same, show regBits Reg.CAL_STATUS = 8 from rfl, Nat.mod_eq_of_lt (by decide)]

theorem Dev.putCommit_refused {v e : Nat} (found : d.shadowBank.conflict d.cycleLen = some e) : (d.putCommit v).1 = .calConflict
    ∧ (d.putCommit v).2.grid.bankPend = d.grid.bankPend ∧ (d.putCommit v).2.get Reg.CAL_REFUSED_AT = e
    ∧ (d.grid.bankPend = none → (d.putCommit v).2.get Reg.CAL_STATUS = 2) := by
  have named : (d.set Reg.CAL_REFUSED_AT 0 e).get Reg.CAL_REFUSED_AT = e := by
    have := Bank.conflict_lt found
    rw [Dev.get_set_same, show regBits Reg.CAL_REFUSED_AT = 8 from rfl, Nat.mod_eq_of_lt (by omega)]
  unfold Dev.putCommit
  rw [found]
  dsimp only
  rw [Dev.set_grid]
  cases pend : d.grid.bankPend with
  | some b => exact ⟨rfl, pend, named, nofun⟩
  | none =>
    refine ⟨rfl, pend, ?_, fun _ => ?_⟩
    · exact (Dev.get_set_addr _ (by decide) _ _ _).trans named
    · exact (Dev.get_set_same _ _ _ _).trans rfl

/-! ### The mirror lags (R200) -/

theorem exec_mirrorLagDetect (waits : (s.dev.port p).mirrorAcked = false) (unmarked : bit (s.dev.get Reg.WP_STATUS p.val) 11 = false)
    (near : (s.dev.port p).mirrorBoundary ≤ s.dev.now + 256) : exec (.mirrorLagDetect p) s = .next { s with
      dev := (s.dev.set Reg.WP_STATUS p.val (setBit (s.dev.get Reg.WP_STATUS p.val) 11 true)).log p.val 0x0402
        (s.dev.port p).mirrorCycle } :=
  exec_next_congr rfl (if_neg (by simp [waits, unmarked, near]))

/-! ### The bank becomes the active one (R41) -/

/-- A bank that waited become the active one. -/
def Dev.applyBank (d : Dev) (b : Tbl Nat) : Dev :=
  let d := Dev.setBank { d with grid := { d.grid with bankPend := none } } (bankOf b)
  (d.set Reg.CAL_STATUS 0 0).set Reg.CAL_COMMIT_CYC 0 d.grid.cycle

theorem exec_calendarCommitApply {t : Nat} {b : Tbl Nat} (pend : s.dev.grid.bankPend = some (t, b)) (due : t ≤ s.dev.grid.cycleStart)
    (commits : s.dev.beforeCommits = false) (routes : s.dev.routeDue = false) :
    exec .calendarCommitApply s = .next { s with dev := s.dev.applyBank b } := by
  change execCalendarCommitApply s = _
  unfold execCalendarCommitApply
  simp only [State.on_eq, pend]
  rw [if_neg (by simp [commits, routes, due])]
  rfl

/-- What one step of a pass establishes and the others leave holds after the pass. -/
theorem forEach_reaches {α σ : Type} {Q : σ → Prop} {l : List α} {f : α → σ → σ} {a : α} (mem : a ∈ l) (hit : ∀ s, Q (f a s))
    (keep : ∀ x ∈ l, ∀ s, Q s → Q (f x s)) (s : σ) : Q (forEach l f s) := by
  obtain ⟨before, after, rfl⟩ := List.append_of_mem mem
  have cut : forEach (before ++ a :: after) f s = forEach after f (f a (forEach before f s)) := by
    simp [forEach, List.foldl_append]
  rw [cut]
  exact forEach_keeps Q after f (fun x hx => keep x (List.mem_append_right _ (List.mem_cons_of_mem a hx))) _ (hit _)

/-- The active copies of one object written, entry by entry. -/
def Dev.setBankObj (d : Dev) (b : Bank) (a : Nat) : Dev := forRange 64 (fun e d => d.set (a + 0x300) e (b a e)) d

theorem Dev.setBank_eq (d : Dev) (b : Bank) : d.setBank b = forEach calObjects (fun a d => d.setBankObj b a) d := rfl

theorem Dev.setBank_grid (d : Dev) (b : Bank) : (d.setBank b).grid = d.grid := by
  rw [Dev.setBank_eq]
  refine forEach_same (fun d : Dev => d.grid) _ _ (fun a _ d => ?_) d
  exact forEach_same (fun d : Dev => d.grid) (List.range 64) (fun e d => d.set (a + 0x300) e (b a e)) (fun _ _ _ => Dev.set_grid _ _ _ _) d

/-- An entry of an object other than the one written stays. -/
theorem Dev.setBankObj_other {a a' : Nat} (b : Bank) (other : (a' + 0x300) % 2 ^ 24 ≠ (a + 0x300) % 2 ^ 24) (e : Nat) :
    (d.setBankObj b a).get (a' + 0x300) e = d.get (a' + 0x300) e :=
  forEach_same (fun d : Dev => d.get (a' + 0x300) e) (List.range 64) (fun e d => d.set (a + 0x300) e (b a e))
    (fun _ _ _ => Dev.get_set_addr _ other _ _ _) d

/-- The entries of the object written are the bank's. -/
theorem Dev.setBankObj_same (d : Dev) (b : Bank) (a : Nat) {e : Nat} (he : e < 64) :
    (d.setBankObj b a).get (a + 0x300) e = b a e % 2 ^ regBits (a + 0x300) := by
  rw [Dev.setBankObj, forRange_eq]
  refine forEach_reaches (Q := fun d : Dev => d.get (a + 0x300) e = b a e % 2 ^ regBits (a + 0x300)) (List.mem_range.2 he)
    (fun d => Dev.get_set_same _ _ _ _) (fun e' mem d hd => ?_) d
  by_cases here : e' = e
  · subst here; exact Dev.get_set_same _ _ _ _
  · have lt := List.mem_range.1 mem
    have apart := regKey_ne_of_elem (show e % 2 ^ 16 ≠ e' % 2 ^ 16 by omega) 255 (a + 0x300) 255 (a + 0x300)
    rw [Dev.get_set_other _ _ _ _ _ _ apart, hd]

theorem calObjects_apart : ∀ a ∈ calObjects, ∀ a' ∈ calObjects, a ≠ a' → (a + 0x300) % 2 ^ 24 ≠ (a' + 0x300) % 2 ^ 24 := by decide

/-- The active bank after a bank has been copied into it. -/
theorem Dev.activeBank_setBank (d : Dev) (b : Bank) {a e : Nat} (obj : a ∈ calObjects) (he : e < 64) :
    (d.setBank b).activeBank a e = b a e % 2 ^ regBits (a + 0x300) := by
  rw [Dev.activeBank, Dev.setBank_eq]
  refine forEach_reaches (Q := fun d : Dev => d.get (a + 0x300) e = b a e % 2 ^ regBits (a + 0x300)) obj
    (fun x => ?_) (fun a' mem d hd => ?_) d
  · exact x.setBankObj_same b a he
  by_cases here : a = a'
  · subst here; exact d.setBankObj_same b a he
  · rw [Dev.setBankObj_other b (calObjects_apart a obj a' mem here), hd]

/-- What a bank applied leaves. -/
theorem Dev.applyBank_facts (d : Dev) (b : Tbl Nat) : (d.applyBank b).grid.bankPend = none ∧ (d.applyBank b).get Reg.CAL_STATUS = 0
    ∧ (d.applyBank b).get Reg.CAL_COMMIT_CYC = d.grid.cycle % 2 ^ 64
    ∧ ∀ a ∈ calObjects, ∀ e < 64, (d.applyBank b).activeBank a e = bankOf b a e % 2 ^ regBits (a + 0x300) := by
  have grid := Dev.setBank_grid { d with grid := { d.grid with bankPend := none } } (bankOf b)
  have bank := fun {a e} => Dev.activeBank_setBank { d with grid := { d.grid with bankPend := none } } (bankOf b) (a := a) (e := e)
  unfold Dev.applyBank
  generalize Dev.setBank { d with grid := { d.grid with bankPend := none } } (bankOf b) = x at grid bank
  dsimp only
  refine ⟨?_, ?_, ?_, fun a obj e he => ?_⟩
  · rw [Dev.set_grid, Dev.set_grid, grid]
  · rw [Dev.get_set_addr _ (by decide), Dev.get_set_same, Nat.zero_mod]
  · rw [Dev.get_set_same, grid, show regBits Reg.CAL_COMMIT_CYC = 64 from rfl]
  · have apart : ∀ a ∈ calObjects, (a + 0x300) % 2 ^ 24 ≠ Reg.CAL_STATUS % 2 ^ 24 ∧ (a + 0x300) % 2 ^ 24 ≠ Reg.CAL_COMMIT_CYC % 2 ^ 24 := by decide
    rw [Dev.activeBank, Dev.get_set_addr _ (apart a obj).2, Dev.get_set_addr _ (apart a obj).1]
    exact bank obj he

end Sys2Proof.Machine

open Sys2Proof.Machine

/-- Settles O12: what a write of Calendar Commit leaves (`Dev.putCommit`), the flag of a mirror that lags, and what the commit leaves when it
applies (`Dev.applyBank`). -/
theorem calendarCommitsAreCheckedAndApplied : Obligations.CalendarCommitsAreCheckedAndApplied := by
  unfold Obligations.CalendarCommitsAreCheckedAndApplied
  refine ⟨fun s w val admits => ?_, fun s p waits unmarked near room => ?_, fun s t b pend due commits routes => ?_⟩
  · refine .of_write (exec_calendarCommit w val s) admits fun k => ?_
    rw [Dev.answer_grid, Dev.get_answer_addr _ (by decide) (by decide) (by decide), Dev.get_answer_addr _ (by decide) (by decide) (by decide)]
    cases found : s.dev.shadowBank.conflict s.dev.cycleLen with
    | none =>
      obtain ⟨status, pend, shown⟩ := Dev.putCommit_waits (d := { s.dev with keeper := k }) (v := beNat val) found
      exact ⟨pend, shown, by rw [status]; exact Dev.answer_answered _ _ _⟩
    | some e =>
      obtain ⟨status, pend, named, shown⟩ := Dev.putCommit_refused (d := { s.dev with keeper := k }) (v := beNat val) found
      exact ⟨pend, named, by rw [status]; exact Dev.answer_answered _ _ _, shown⟩
  · refine .of_next (exec_mirrorLagDetect waits unmarked near) ⟨?_, Dev.log_recorded _ _ _ _ _ _ room⟩
    rw [Dev.log_get, Dev.get_set_same, show regBits Reg.WP_STATUS = 32 from rfl, bit_mod (by decide), bit_setBit]
  · refine .of_next (exec_calendarCommitApply pend due commits routes) (s.dev.applyBank_facts b)
end

section
/-! Requests of a mode (R29, R30, R445; O11). -/

namespace Sys2Proof.Machine

variable {d d' : Dev} {s : State} {w : Writer}

theorem PortsSent.mode (h : PortsSent d d') : d'.mode = d.mode := by obtain ⟨_, _, _, rfl⟩ := h; rfl

theorem PortsSent.modePend (h : PortsSent d d') : d'.modePend = d.modePend := by obtain ⟨_, _, _, rfl⟩ := h; rfl

@[simp] theorem Dev.answer_modePend (d : Dev) (w : Writer) (st : Status) (value : Bytes) :
    (d.answer w st value).modePend = d.modePend := by
  obtain ⟨r, k, n, o, eq⟩ := d.answer_keeps w st value; rw [eq]

theorem Dev.withdrawMode_portsSent (d : Dev) : PortsSent d d.withdrawMode :=
  forEach_portsSent _ _ (fun p d => d.setPort_portsSent p _) d

/-- A mode command queued for a port that takes commands. -/
def Dev.tellMode (d : Dev) (p : Port) (m : Mode) (cyc : Nat) : Dev := if d.takesCmds p then d.modeCmd p m cyc else d

theorem Dev.tellMode_portsSent (d : Dev) (p : Port) (m : Mode) (cyc : Nat) : PortsSent d (d.tellMode p m cyc) := by
  unfold Dev.tellMode
  split
  · exact d.setPort_portsSent p _
  · exact .refl d

theorem Dev.announceMode_portsSent (d : Dev) (m : Mode) (cyc : Nat) : PortsSent d (d.announceMode m cyc) :=
  d.withdrawMode_portsSent.trans
    (forEach_portsSent allPorts (fun p d => d.tellMode p m cyc) (fun p d => d.tellMode_portsSent p m cyc) _)

theorem Dev.pendMode_facts (d : Dev) (t : ModePend) :
    (d.pendMode t).modePend = some t ∧ (d.pendMode t).mode = d.mode ∧ ∀ a e, (d.pendMode t).get a e = d.get a e := by
  have sent := Dev.announceMode_portsSent { d with modePend := some t } t.target (Dev.pendingCycle { d with modePend := some t })
  exact ⟨sent.modePend, sent.mode, sent.get⟩

/-- Where no SAFE by fault is coming, a cancel leaves no change pending. -/
theorem Dev.cancelMode_facts (calm : d.safeReason = none) : d.cancelMode.modePend = none ∧ d.cancelMode.mode = d.mode := by
  have sent := Dev.withdrawMode_portsSent { d with modePend := none }
  have idle : ¬ d.safeComing = true := by simp [Dev.safeComing, calm]
  unfold Dev.cancelMode
  rw [if_neg idle]
  generalize Dev.withdrawMode { d with modePend := none } = x at sent
  dsimp only
  split <;> exact ⟨sent.modePend, sent.mode⟩

/-! ### The request (R29) -/

theorem modeOf_modeCode (m : Mode) : modeOf (modeCode m) = some m := by cases m <;> rfl

theorem beNat_modeCode (m : Mode) : beNat [BitVec.ofNat 8 (modeCode m)] = modeCode m := by cases m <;> rfl

/-- What a write of Mode Request does that the dictionary lets through. -/
def Dev.putMode (d : Dev) (v : Nat) : Status × Dev :=
  match modeOf v with
  | some m => d.requestMode m
  | none => refuse .range d

theorem exec_modeRequest (w : Writer) (val : Bytes) (s : State) :
    exec (.modeRequest w val) s = .next { s with dev := s.dev.write w Reg.MD_REQUEST 0 val Dev.putMode } := rfl

theorem exec_modeRequestCancel (w : Writer) (s : State) :
    exec (.modeRequestCancel w) s =
      .next { s with dev := s.dev.write w Reg.MD_REQUEST 0 [BitVec.ofNat 8 (modeCode s.dev.mode)] Dev.putMode } := rfl

theorem Dev.putMode_modeCode (d : Dev) (m : Mode) : d.putMode (beNat [BitVec.ofNat 8 (modeCode m)]) = d.requestMode m := by
  rw [beNat_modeCode, Dev.putMode, modeOf_modeCode]

/-- The outcome of a request by the target it asks for. -/
def Dev.takeTarget (d : Dev) (m : Mode) : Option ModePend → Status × Dev
  | none => (.range, d)
  | some t => (.accepted, (d.set Reg.MD_REQUEST 0 (modeCode m)).pendMode t)

/-- A request written outside SAFE for another mode that the transitions permit has its target checked. -/
theorem Dev.requestMode_permitted {m : Mode} (other : m ≠ d.mode) (allowed : permitted d.mode m = true) (awake : d.mode ≠ .safe)
    (calm : d.safeReason = none) : d.requestMode m = d.takeTarget m (d.modeTarget m) := by
  have idle : ¬ d.safeComing = true := by simp [Dev.safeComing, calm]
  have free : ¬ (!permitted d.mode m || (d.mode == .safe && d.exitRefused)) = true := by simp [allowed, awake]
  unfold Dev.requestMode
  dsimp only
  rw [if_neg other, if_neg free, if_neg awake]
  cases d.modeTarget m with
  | none => rfl
  | some t => exact congrArg (Prod.mk Status.accepted) (if_neg idle)

/-- What a request whose target is taken leaves. -/
theorem Dev.requestMode_taken {m : Mode} {t : ModePend} (other : m ≠ d.mode) (allowed : permitted d.mode m = true) (awake : d.mode ≠ .safe)
    (calm : d.safeReason = none) (target : d.modeTarget m = some t) : (d.requestMode m).1 = .accepted
      ∧ (d.requestMode m).2.modePend = some t ∧ (d.requestMode m).2.mode = d.mode
      ∧ (d.requestMode m).2.get Reg.MD_REQUEST = modeCode m := by
  obtain ⟨pend, mode, get⟩ := (d.set Reg.MD_REQUEST 0 (modeCode m)).pendMode_facts t
  rw [Dev.requestMode_permitted other allowed awake calm, target, Dev.takeTarget]
  refine ⟨rfl, pend, mode, ?_⟩
  rw [get, Dev.get_set_same]
  cases m <;> rfl

theorem Dev.modeTarget_zero {m : Mode} (zero : d.get Reg.MD_TARGET_CYC = 0) :
    d.modeTarget m = some { target := m, cycle := none, notBefore := d.now + 4096 } := if_pos zero

theorem Dev.modeTarget_cycle {m : Mode} {k : Nat} (set : d.get Reg.MD_TARGET_CYC = k) (some_ : k ≠ 0) : d.modeTarget m =
    if 1 ≤ d.cyclesAhead k ∧ d.cyclesAhead k ≤ 2 ^ 20 ∧ d.now + 4096 ≤ d.startOf k then
      some { target := m, cycle := some k, notBefore := d.now + 4096 } else none := by
  subst set
  exact if_neg some_

end Sys2Proof.Machine

open Sys2Proof.Machine

/-- Settles O11: the target of a request (`Dev.modeTarget`), what one that is taken leaves, and what a cancel leaves. -/
theorem modeRequestsWaitForTheirBoundary : Obligations.ModeRequestsWaitForTheirBoundary := by
  unfold Obligations.ModeRequestsWaitForTheirBoundary
  refine ⟨fun s w m admits other allowed awake calm zero => ?_, fun s w m k admits other allowed awake calm set some_ => ?_,
    fun s w admits calm => ?_⟩
  · refine .of_write (exec_modeRequest w _ s) admits fun c => ?_
    rw [Dev.putMode_modeCode, Dev.answer_modePend, Dev.answer_mode, Dev.get_answer_addr _ (by decide) (by decide) (by decide)]
    obtain ⟨status, pend, mode, shown⟩ := Dev.requestMode_taken (d := { s.dev with keeper := c }) other allowed awake calm
      (Dev.modeTarget_zero zero)
    exact ⟨pend, mode, shown, by rw [status]; exact Dev.answer_answered _ _ _⟩
  · refine .of_write (exec_modeRequest w _ s) admits fun c => ?_
    rw [Dev.putMode_modeCode, Dev.answer_modePend, Dev.answer_mode, Dev.get_answer_addr _ (by decide) (by decide) (by decide)]
    have target := Dev.modeTarget_cycle (d := { s.dev with keeper := c }) (m := m) set some_
    by_cases fits : 1 ≤ s.dev.cyclesAhead k ∧ s.dev.cyclesAhead k ≤ 2 ^ 20 ∧ s.dev.now + 4096 ≤ s.dev.startOf k
    · obtain ⟨status, pend, mode, -⟩ := Dev.requestMode_taken (d := { s.dev with keeper := c }) other allowed awake calm
        (target.trans (if_pos fits))
      rw [if_pos fits, status]
      exact ⟨mode, ⟨_, pend⟩, Dev.answer_answered _ _ _⟩
    · have refused : Dev.requestMode { s.dev with keeper := c } m = (.range, { s.dev with keeper := c }) := by
        rw [Dev.requestMode_permitted (d := { s.dev with keeper := c }) other allowed awake calm, target.trans (if_neg fits), Dev.takeTarget]
      rw [if_neg fits, refused]
      exact ⟨rfl, rfl, rfl, Dev.answer_answered _ _ _⟩
  · refine .of_write (exec_modeRequestCancel w s) admits fun c => ?_
    have same : Dev.requestMode { s.dev with keeper := c } s.dev.mode
        = (.accepted, (Dev.set { s.dev with keeper := c } Reg.MD_REQUEST 0 (modeCode s.dev.mode)).cancelMode) := if_pos rfl
    obtain ⟨pend, mode⟩ := Dev.cancelMode_facts (d := Dev.set { s.dev with keeper := c } Reg.MD_REQUEST 0 (modeCode s.dev.mode)) calm
    rw [Dev.putMode_modeCode, Dev.answer_modePend, Dev.answer_mode, same]
    exact ⟨pend, mode, Dev.answer_answered _ _ _⟩
end

section
/-! The cycle of the concentrator: its boundary, and what the boundary leaves (R24, R26, R27; O9, O10). -/

namespace Sys2Proof.Machine

variable {d d' d'' : Dev} {s : State}

/-- `d'` is `d` in its mode, its slot count, where the cycle in progress lies and how many calendar entries have been cut off. -/
structure GridKept (d d' : Dev) : Prop where
  mode : d'.mode = d.mode
  now : d'.now = d.now
  cycle : d'.grid.cycle = d.grid.cycle
  cycleStart : d'.grid.cycleStart = d.grid.cycleStart
  len : d'.grid.len = d.grid.len
  nextFrame : d'.grid.nextFrame = d.grid.nextFrame
  skipped : d'.get Reg.CAL_SKIPPED = d.get Reg.CAL_SKIPPED

theorem GridKept.refl (d : Dev) : GridKept d d := ⟨rfl, rfl, rfl, rfl, rfl, rfl, rfl⟩

theorem GridKept.trans (h : GridKept d d') (h' : GridKept d' d'') : GridKept d d'' :=
  ⟨h'.mode.trans h.mode, h'.now.trans h.now, h'.cycle.trans h.cycle, h'.cycleStart.trans h.cycleStart, h'.len.trans h.len,
    h'.nextFrame.trans h.nextFrame, h'.skipped.trans h.skipped⟩

theorem forEach_grid {α : Type} (l : List α) (f : α → Dev → Dev) (h : ∀ a d, GridKept d (f a d)) (d : Dev) : GridKept d (forEach l f d) :=
  forEach_keeps (GridKept d) l f (fun a _ d' hd => hd.trans (h a d')) d (.refl d)

theorem PortsSent.gridKept (h : PortsSent d d') : GridKept d d' := by
  obtain ⟨_, _, _, rfl⟩ := h
  exact ⟨rfl, rfl, rfl, rfl, rfl, rfl, rfl⟩

theorem Dev.set_gridKept {a : Nat} (other : Reg.CAL_SKIPPED % 2 ^ 24 ≠ a % 2 ^ 24) (e v : Nat) : GridKept d (d.set a e v) :=
  ⟨rfl, rfl, rfl, rfl, rfl, rfl, d.get_set_addr other _ _ _⟩

theorem Dev.bump_gridKept {a : Nat} (other : Reg.CAL_SKIPPED % 2 ^ 24 ≠ a % 2 ^ 24) (e n : Nat) : GridKept d (d.bump a e n) :=
  Dev.set_gridKept other _ _

theorem Dev.setI_gridKept {a : Nat} (other : Reg.CAL_SKIPPED % 2 ^ 24 ≠ a % 2 ^ 24) (e : Nat) (v : Int) : GridKept d (d.setI a e v) :=
  Dev.set_gridKept other _ _

theorem Dev.log_gridKept (d : Dev) (source code : Nat) (v1 v2 v3 : Int) : GridKept d (d.log source code v1 v2 v3) := by
  obtain ⟨b, n, eq⟩ := d.log_eq source code v1 v2 v3
  rw [eq]
  exact ⟨rfl, rfl, rfl, rfl, rfl, rfl, rfl⟩

/-! ### The operations of a boundary -/

theorem Dev.swapTb_gridKept (d : Dev) (forced : Bool) : GridKept d (d.swapTb forced) := by
  unfold Dev.swapTb
  extract_lets old new health units swapped told
  have hSwapped : GridKept d swapped := ⟨rfl, rfl, rfl, rfl, rfl, rfl, rfl⟩
  have hTold : GridKept d told := (hSwapped.trans (Dev.bump_gridKept (by decide) 0 1)).trans (Dev.log_gridKept _ _ _ _ _ _)
  split
  · exact hTold
  · exact hTold.trans (Dev.log_gridKept _ _ _ _ _ _)

theorem Dev.forcedSwap_gridKept (d : Dev) : GridKept d d.forcedSwap := by
  unfold Dev.forcedSwap
  dsimp only
  split
  · exact d.swapTb_gridKept true
  · exact ⟨rfl, rfl, rfl, rfl, rfl, rfl, rfl⟩

theorem Dev.fcmd_portsSent (d : Dev) (p : Port) (op : FcmdOp) (cyc slot tokens : Nat) : PortsSent d (d.fcmd p op cyc slot tokens) :=
  d.setPort_portsSent p _

/-- A movement of a tick that is due at the boundary made (R255). -/
def Dev.moveTick (d : Dev) (p : Port) : Dev × CPort :=
  let c := d.port p
  match c.tickMoveAt with
  | some (t, h) =>
    if t ≤ d.grid.cycleStart then
      let c := { c with gridQ := c.gridQ + 256 * h, tickMoveAt := none }
      let w := d.get Reg.WP_STATUS p.val
      (((d.setPort p c).set Reg.WP_STATUS p.val (setBit w 10 true)).bump Reg.WP_PHASE_STEPS p.val, c)
    else (d, c)
  | none => (d, c)

theorem Dev.moveTick_gridKept (d : Dev) (p : Port) : GridKept d (d.moveTick p).1 := by
  unfold Dev.moveTick
  dsimp only
  split
  · split
    · exact ((d.setPort_portsSent p _).gridKept.trans (Dev.set_gridKept (by decide) _ _)).trans (Dev.bump_gridKept (by decide) _ _)
    · exact .refl d
  · exact .refl d

/-- The correction shown, and a movement of the tick queued where it goes beyond its range (R255). -/
def Dev.planTick (d : Dev) (p : Port) (c : CPort) : Dev :=
  let r := c.residual
  let d := d.setI Reg.WP_DCORR p.val (limit (-200) 199 r)
  if (-200 ≤ r ∧ r ≤ 199) ∨ c.tickMoveAt.isSome then d
  else
    let n := d.boundaryAfter (d.now + d.get Reg.CAL_LEAD)
    let cyc := d.cyclePlus n
    let h := roundHalfUp r 256
    let d := d.setPort p { c with tickMoveAt := some (d.startOf cyc, h) }
    d.fcmd p (.tickPhase h) cyc 0 1

theorem Dev.planTick_gridKept (d : Dev) (p : Port) (c : CPort) : GridKept d (d.planTick p c) := by
  unfold Dev.planTick
  extract_lets r shown n cyc h moved
  have hShown : GridKept d shown := Dev.setI_gridKept (by decide) _ _
  split
  · exact hShown
  · exact (hShown.trans (shown.setPort_portsSent p _).gridKept).trans (moved.fcmd_portsSent p _ _ _ _).gridKept

theorem Dev.applyDelay_eq (d : Dev) (p : Port) : d.applyDelay p = (d.moveTick p).1.planTick p (d.moveTick p).2 := rfl

theorem Dev.applyDelay_gridKept (d : Dev) (p : Port) : GridKept d (d.applyDelay p) :=
  (d.moveTick_gridKept p).trans (Dev.planTick_gridKept _ p _)

theorem Dev.setQ_gridKept (d : Dev) (p : Port) (delay : Int) : GridKept d (d.setQ p delay) :=
  (d.setPort_portsSent p _).gridKept.trans (Dev.setI_gridKept (by decide) _ _)

theorem Dev.sendTimeSet_gridKept (d : Dev) (p : Port) (dl : Nat) : GridKept d (d.sendTimeSet p dl) := by
  unfold Dev.sendTimeSet
  extract_lets set q
  exact (d.setQ_gridKept p _).trans (Dev.emit_portsSent _ _).gridKept

theorem Dev.loadGrid_gridKept (d : Dev) (p : Port) : GridKept d (d.loadGrid p) := by
  unfold Dev.loadGrid
  dsimp only
  split
  · exact (d.setPort_portsSent p _).gridKept.trans (Dev.sendTimeSet_gridKept _ p _)
  · exact .refl d

/-! ### A movement of the grid -/

theorem Dev.biasCmd_portsSent (d : Dev) (p : Port) (groups level cyc slot : Nat) (window : Bool) :
    PortsSent d (d.biasCmd p groups level cyc slot window) := by
  unfold Dev.biasCmd
  dsimp only
  split <;> exact d.setPort_portsSent p _

theorem Dev.biasAll_portsSent (d : Dev) (p : Port) (window : Bool) (cs : List (Nat × Nat × Nat)) : PortsSent d (d.biasAll p window cs) :=
  forEach_portsSent _ _ (fun _ d => d.biasCmd_portsSent p _ _ _ _ window) d

theorem Dev.rebias_portsSent (d : Dev) (p : Port) (from_ : Nat) (window : Bool) : PortsSent d (d.rebias p from_ window) := by
  unfold Dev.rebias
  dsimp only
  split
  · exact d.biasAll_portsSent p window _
  · exact .refl d

theorem Dev.regrid_gridKept (d old : Dev) (k : Nat) : GridKept d (d.regrid old k) := by
  unfold Dev.regrid
  extract_lets e new gov moved
  have hMoved : GridKept d moved := ⟨rfl, rfl, rfl, rfl, rfl, rfl, rfl⟩
  refine hMoved.trans (forEach_portsSent _ _ (fun p d => ?_) moved).gridKept
  exact (d.setPort_portsSent p _).trans (Dev.rebias_portsSent _ p _ true)

theorem Dev.dropMove_gridKept (d : Dev) : GridKept d d.dropMove := by
  unfold Dev.dropMove
  split
  · exact ⟨rfl, rfl, rfl, rfl, rfl, rfl, rfl⟩
  · extract_lets sent grid gone dropped
    have hGone : GridKept d gone := ⟨rfl, rfl, rfl, rfl, rfl, rfl, rfl⟩
    have hDropped : GridKept d dropped :=
      hGone.trans (forEach_portsSent _ _ (fun p d => d.setPort_portsSent p _) gone).gridKept
    exact hDropped.trans (dropped.regrid_gridKept d _)

/-- The end of the cycle told to a port that takes commands. -/
def Dev.tellCycleEnd (d : Dev) (p : Port) (cyc slot : Nat) : Dev := if d.takesCmds p then d.fcmd p .cycleEnd cyc slot 1 else d

theorem Dev.tellCycleEnd_portsSent (d : Dev) (p : Port) (cyc slot : Nat) : PortsSent d (d.tellCycleEnd p cyc slot) := by
  unfold Dev.tellCycleEnd
  split
  · exact d.fcmd_portsSent p _ _ _ _
  · exact .refl d

theorem Dev.moveGrid_gridKept (d : Dev) (m : GridMove) : GridKept d (d.moveGrid m) := by
  unfold Dev.moveGrid
  extract_lets old grid moved
  have hMoved : GridKept d moved := by
    obtain ⟨mode, now, cycle, cycleStart, len, nextFrame, skipped⟩ := d.dropMove_gridKept
    exact ⟨mode, now, cycle, cycleStart, len, nextFrame, skipped⟩
  split
  · exact hMoved
  · extract_lets regridded
    have hRegridded : GridKept d regridded := hMoved.trans (moved.regrid_gridKept old _)
    split
    · exact hRegridded
    · exact hRegridded.trans (forEach_portsSent allPorts (fun p d => d.tellCycleEnd p _ _) (fun p d => d.tellCycleEnd_portsSent p _ _)
        regridded).gridKept

theorem Dev.synthCheck_gridKept (d : Dev) : GridKept d d.synthCheck := by
  unfold Dev.synthCheck
  split
  · exact .refl d
  split
  · exact Dev.setI_gridKept (by decide) _ _
  extract_lets slot r per n e shown
  have hShown : GridKept d shown := (Dev.setI_gridKept (by decide) _ _).trans (Dev.setI_gridKept (by decide) _ _)
  have tb (t : TimeBase) : GridKept d { shown with tb := t } := hShown.trans ⟨rfl, rfl, rfl, rfl, rfl, rfl, rfl⟩
  split
  · split
    · exact (tb _).trans (Dev.moveGrid_gridKept _ _)
    · exact tb _
  · exact tb _

theorem Dev.flywheelCheck_gridKept (d : Dev) : GridKept d d.flywheelCheck := by
  unfold Dev.flywheelCheck
  have tb (t : TimeBase) : GridKept d { d with tb := t } := ⟨rfl, rfl, rfl, rfl, rfl, rfl, rfl⟩
  dsimp only
  split
  · exact .refl d
  · split
    · exact tb _
    · split <;> exact tb _

theorem Dev.expectMarker_gridKept (d : Dev) : GridKept d d.expectMarker := by
  unfold Dev.expectMarker
  have tb (t : TimeBase) : GridKept d { d with tb := t } := ⟨rfl, rfl, rfl, rfl, rfl, rfl, rfl⟩
  split
  · exact .refl d
  · exact (tb _).trans (Dev.flywheelCheck_gridKept _)

/-! ### The next cycle (R24) -/

/-- A forced swap that is due by the boundary made. -/
def Dev.swapDue (d : Dev) (start : Nat) : Dev :=
  match d.tu.swapFrom with
  | some t => if t ≤ start then d.forcedSwap else d
  | none => d

theorem Dev.swapDue_gridKept (d : Dev) (start : Nat) : GridKept d (d.swapDue start) := by
  unfold Dev.swapDue
  split
  · split
    · exact d.forcedSwap_gridKept
    · exact .refl d
  · exact .refl d

/-- What a port does at a boundary. -/
def Dev.portBoundary (d : Dev) (p : Port) : Dev := (if d.portUp p then d.applyDelay p else d).loadGrid p

theorem Dev.portBoundary_gridKept (d : Dev) (p : Port) : GridKept d (d.portBoundary p) := by
  unfold Dev.portBoundary
  split
  · exact (d.applyDelay_gridKept p).trans (Dev.loadGrid_gridKept _ p)
  · exact d.loadGrid_gridKept p

/-- The next cycle named and placed. -/
def Dev.placeCycle (d : Dev) (start cycle : Nat) : Dev :=
  { d with
    tu := { d.tu with copy := d.tb }
    grid := { d.grid with cycle := cycle, cycleStart := start, len := d.get Reg.CYCLE_LEN, nextFrame := 0 } }

theorem Dev.newCycle_gridKept (d : Dev) (start cycle : Nat) : GridKept ((d.swapDue start).placeCycle start cycle) (d.newCycle start cycle) :=
  ((forEach_grid allPorts (fun p d => d.portBoundary p) (fun p d => d.portBoundary_gridKept p) _).trans
    (Dev.synthCheck_gridKept _)).trans (Dev.expectMarker_gridKept _)

/-- A forced swap counts in its own object alone. -/
theorem Dev.swapDue_get {a : Nat} (other : a % 2 ^ 24 ≠ Reg.TB_SWAP_CNT % 2 ^ 24) (d : Dev) (start e : Nat) :
    (d.swapDue start).get a e = d.get a e := by
  have swapped : (d.swapTb true).get a e = d.get a e := by
    unfold Dev.swapTb
    dsimp only
    rw [if_pos rfl, Dev.log_get, Dev.get_bump_addr _ other]
    rfl
  have forced : d.forcedSwap.get a e = d.get a e := by
    unfold Dev.forcedSwap
    dsimp only
    split
    · exact swapped
    · rfl
  unfold Dev.swapDue
  split
  · split
    · exact forced
    · rfl
  · rfl

/-- Where the next cycle lies, and what the boundary leaves. -/
theorem Dev.newCycle_facts (d : Dev) (start cycle : Nat) :
    (d.newCycle start cycle).grid.cycle = cycle ∧ (d.newCycle start cycle).grid.cycleStart = start
      ∧ (d.newCycle start cycle).grid.nextFrame = 0 ∧ (d.newCycle start cycle).grid.len = d.get Reg.CYCLE_LEN
      ∧ (d.newCycle start cycle).mode = d.mode ∧ (d.newCycle start cycle).now = d.now
      ∧ (d.newCycle start cycle).get Reg.CAL_SKIPPED = d.get Reg.CAL_SKIPPED := by
  have kept := d.newCycle_gridKept start cycle
  have swapped := d.swapDue_gridKept start
  exact ⟨kept.cycle, kept.cycleStart, kept.nextFrame, kept.len.trans (d.swapDue_get (by decide) start 0), kept.mode.trans swapped.mode,
    kept.now.trans swapped.now, kept.skipped.trans swapped.skipped⟩

/-- A cut that is not of the cycle in progress lies in a later one. -/
theorem Dev.cut_ahead (whole : (d.cut.all fun x => x.1 != 0) = true) {k : Nat} {m : GridMove} (cut : d.cut = some (k, m)) : k ≠ 0 := by
  rw [cut] at whole
  simpa using whole

theorem exec_cycleBoundary (live : s.dev.inReset = false) (past : s.dev.cycleEnd ≤ s.dev.now) (done : s.dev.cycleDone = true)
    (whole : (s.dev.cut.all fun x => x.1 != 0) = true) :
    exec .cycleBoundary s = .next { s with dev := s.dev.newCycle s.dev.cycleEnd (s.dev.cyclePlus 1) } := by
  refine exec_next_congr rfl (if_neg ?_)
  rcases cut : s.dev.cut with _ | ⟨k, m⟩
  · simp [live, done, past]
  · obtain ⟨j, rfl⟩ := Nat.exists_eq_succ_of_ne_zero (Dev.cut_ahead whole cut)
    simp [live, done, past]

/-- The number of the next cycle, where none is cut before it. -/
theorem Dev.cyclePlus_one (whole : (d.cut.all fun x => x.1 != 0) = true) : d.cyclePlus 1 = (d.grid.cycle + 1) % 2 ^ 40 := by
  unfold Dev.cyclePlus
  split
  · rename_i cut
    exact if_pos (Nat.pos_of_ne_zero (Dev.cut_ahead whole cut))
  · rfl
  · rfl

/-! ### The end of a cycle that is cut (R26, R27) -/

/-- The number of the next cycle, where the cycle in progress is cut. -/
theorem Dev.cyclePlus_cut {m : GridMove} (cut : d.cut = some (0, m)) : d.cyclePlus 1 = (m.cycle.getD (d.grid.cycle + 1)) % 2 ^ 40 := by
  obtain ⟨at_, cycle, delta, synth, record, mark⟩ := m
  unfold Dev.cyclePlus
  rw [cut]
  cases cycle <;> rfl

/-- The entries cut off counted. -/
def Dev.countCut (d : Dev) (m : GridMove) : Dev := d.bump Reg.CAL_SKIPPED 0 (d.cutEntries m.at_)

/-- No movement of the grid planned. -/
def Dev.noMove (d : Dev) : Dev := { d with grid := { d.grid with move := none } }

/-- The cycle in progress ended by a movement of the grid, and the next begun. -/
def Dev.endCycleBy (d : Dev) (m : GridMove) : Dev := (d.countCut m).noMove.newCycle m.at_ ((d.countCut m).cyclePlus 1)

/-- The record of a movement, and the step of the time that goes with it, where it asks for them. -/
def Dev.recordMove (d : Dev) (m : GridMove) : Dev :=
  if !m.record && !m.mark then d
  else
    let d := if m.record then (d.bump Reg.TB_REPHASE).log 0xFF 0x0308 m.delta d.grid.cycle (if m.synth then 1 else 0) else d
    { d with tu := { d.tu with stepRecord := d.tu.stepRecord ++ [(2, m.delta, (d.grid.cycleStart : Int))] } }

theorem Dev.recordMove_gridKept (d : Dev) (m : GridMove) : GridKept d (d.recordMove m) := by
  unfold Dev.recordMove
  split
  · exact .refl d
  · extract_lets counted
    have hCounted : GridKept d counted := by
      unfold counted
      split
      · exact (Dev.bump_gridKept (by decide) 0 1).trans (Dev.log_gridKept _ _ _ _ _ _)
      · exact .refl d
    exact hCounted.trans ⟨rfl, rfl, rfl, rfl, rfl, rfl, rfl⟩

theorem exec_gridMoveApply {m : GridMove} (live : s.dev.inReset = false) (cut : s.dev.cut = some (0, m)) (past : m.at_ ≤ s.dev.now)
    (done : s.dev.cycleDone = true) : exec .gridMoveApply s = .next { s with dev := (s.dev.endCycleBy m).recordMove m } := by
  have runs : ¬ (s.dev.inReset || decide (s.dev.now < m.at_) || !s.dev.cycleDone) = true := by simp [live, done, past]
  change execGridMoveApply s = _
  unfold execGridMoveApply
  rw [State.on_eq]
  simp only [cut, if_neg runs]
  unfold Dev.recordMove Dev.endCycleBy Dev.noMove Dev.countCut
  dsimp only

/-- Where the next cycle lies, and the entries cut off. -/
theorem Dev.endCycleBy_facts {m : GridMove} (cut : d.cut = some (0, m)) :
    (d.endCycleBy m).grid.cycleStart = m.at_ ∧ (d.endCycleBy m).grid.cycle = (m.cycle.getD (d.grid.cycle + 1)) % 2 ^ 40
      ∧ (d.endCycleBy m).grid.nextFrame = 0
      ∧ (d.endCycleBy m).get Reg.CAL_SKIPPED = min (d.get Reg.CAL_SKIPPED + d.cutEntries m.at_) (2 ^ 32 - 1) := by
  have next : (d.countCut m).cyclePlus 1 = d.cyclePlus 1 := by
    unfold Dev.cyclePlus Dev.cut Dev.cycleLen Dev.countCut
    rw [Dev.bump_grid, Dev.get_bump_addr _ (by decide)]
  have count : (d.countCut m).get Reg.CAL_SKIPPED = min (d.get Reg.CAL_SKIPPED + d.cutEntries m.at_) (2 ^ 32 - 1) := by
    rw [Dev.countCut, Dev.get_bump_same, show regBits Reg.CAL_SKIPPED = 32 from rfl]
  obtain ⟨cycle, start, frame, -, -, -, skipped⟩ := (d.countCut m).noMove.newCycle_facts m.at_ ((d.countCut m).cyclePlus 1)
  rw [Dev.endCycleBy, start, cycle, frame, skipped, next, Dev.cyclePlus_cut cut, ← count]
  exact ⟨rfl, rfl, rfl, rfl⟩

end Sys2Proof.Machine

open Sys2Proof.Machine

/-- Settles O9: what every boundary leaves (`Dev.newCycle_facts`), here with the number that follows. -/
theorem cycleBoundaryStartsNextCycle : Obligations.CycleBoundaryStartsNextCycle := by
  unfold Obligations.CycleBoundaryStartsNextCycle
  intro s live past done whole
  obtain ⟨cycle, start, frame, len, mode, now, -⟩ := s.dev.newCycle_facts s.dev.cycleEnd (s.dev.cyclePlus 1)
  exact .of_next (exec_cycleBoundary live past done whole) ⟨cycle.trans (Dev.cyclePlus_one whole), start, frame, len, mode, now⟩

/-- Settles O10: what the movement leaves (`Dev.endCycleBy_facts`), which its record keeps. -/
theorem gridMoveEndsCycleEarly : Obligations.GridMoveEndsCycleEarly := by
  unfold Obligations.GridMoveEndsCycleEarly
  intro s m live cut past done
  obtain ⟨start, cycle, frame, skipped⟩ := Dev.endCycleBy_facts cut
  have kept := (s.dev.endCycleBy m).recordMove_gridKept m
  exact .of_next (exec_gridMoveApply live cut past done)
    ⟨kept.cycleStart.trans start, kept.cycle.trans cycle, kept.nextFrame.trans frame, kept.skipped.trans skipped⟩
end

section
/-! Entries of the calendar that latch rates, refresh pairs and name freezes (R35, R94, R96, R97, R156, R170, R496; O23). -/

namespace Sys2Proof.Machine

variable {d d' : Dev} {s : State} {p : Port} {i : DueItem}

/-- A pass that acts once for each of its items: what holds of an item before its turn, and after. -/
theorem forEach_once {α σ : Type} {I Q : σ → Prop} {l : List α} {f : α → σ → σ} {a : α} (once : l.Nodup) (mem : a ∈ l)
    (before : ∀ x ∈ l, ∀ s, x ≠ a → I s → I (f x s)) (hit : ∀ s, I s → Q (f a s)) (after : ∀ x ∈ l, ∀ s, x ≠ a → Q s → Q (f x s)) {s : σ}
    (start : I s) : Q (forEach l f s) := by
  induction l generalizing s with
  | nil => cases mem
  | cons x l ih =>
    obtain ⟨fresh, once⟩ := List.nodup_cons.1 once
    have later {y : α} (hy : y ∈ l) : y ∈ x :: l := List.mem_cons_of_mem x hy
    by_cases here : x = a
    · subst here
      exact forEach_keeps Q l f (fun y hy t ht => after y (later hy) t (fun e => fresh (e ▸ hy)) ht) _ (hit s start)
    · exact ih once ((List.mem_cons.1 mem).resolve_left (Ne.symm here)) (fun y hy => before y (later hy)) (fun y hy => after y (later hy))
        (before x List.mem_cons_self s here start)

/-! ### Rates (R35, R496) -/

/-- The rate of a region latched and cleared. -/
def Dev.latchRegion (d : Dev) (p : Port) (r : Nat) : Dev :=
  (d.fset p Reg.FE_RG_RATE r (min ((d.fe p).region r).rate (2 ^ 32 - 1))).updFe p fun f => f.setRegion r { (d.fe p).region r with rate := 0 }

theorem Dev.latchRegion_same (d : Dev) (p : Port) (r : Nat) :
    (d.latchRegion p r).fget p Reg.FE_RG_RATE r = min ((d.fe p).region r).rate (2 ^ 32 - 1)
      ∧ (((d.latchRegion p r).fe p).region r).rate = 0 := by
  unfold Dev.latchRegion
  constructor
  · rw [Dev.fget_updFe, Dev.fget_fset_same, show regBits Reg.FE_RG_RATE = 32 from rfl]
    exact Nat.mod_eq_of_lt (by omega)
  · rw [Dev.fe_updFe_same, FrontEnd.region_setRegion, if_pos rfl]

theorem Dev.latchRegion_other (d : Dev) {r j : Nat} (other : j ≠ r) (hr : r < 256) (hj : j < 256) :
    (d.latchRegion p r).fget p Reg.FE_RG_RATE j = d.fget p Reg.FE_RG_RATE j
      ∧ ((d.latchRegion p r).fe p).region j = (d.fe p).region j := by
  unfold Dev.latchRegion
  constructor
  · have apart := regKey_ne_of_elem (show j % 2 ^ 16 ≠ r % 2 ^ 16 by omega) p.val Reg.FE_RG_RATE p.val Reg.FE_RG_RATE
    rw [Dev.fget_updFe, Dev.fget_fset, if_neg apart]
  · rw [Dev.fe_updFe_same, FrontEnd.region_setRegion, if_neg other, Dev.fe_fset]

/-- The rates of the regions of some groups latched. -/
def Dev.latchRates (d : Dev) (p : Port) (groups : Nat) : Dev := forEach (d.regionsIn p groups) (fun r d => d.latchRegion p r) d

theorem Dev.mem_regionsIn {groups r : Nat} : r ∈ d.regionsIn p groups ↔ r < 256 ∧ bit groups (d.groupOf p r) = true := by
  simp [Dev.regionsIn]

theorem Dev.latchRates_facts (d : Dev) (p : Port) {groups r : Nat} (hr : r < 256) (sel : bit groups (d.groupOf p r) = true) :
    (d.latchRates p groups).fget p Reg.FE_RG_RATE r = min ((d.fe p).region r).rate (2 ^ 32 - 1)
      ∧ (((d.latchRates p groups).fe p).region r).rate = 0 := by
  have nodup : (d.regionsIn p groups).Nodup := List.nodup_range.filter _
  have lt {x : Nat} (hx : x ∈ d.regionsIn p groups) : x < 256 := (Dev.mem_regionsIn.1 hx).1
  refine forEach_once (I := fun x : Dev => (x.fe p).region r = (d.fe p).region r)
    (Q := fun x : Dev => x.fget p Reg.FE_RG_RATE r = min ((d.fe p).region r).rate (2 ^ 32 - 1) ∧ ((x.fe p).region r).rate = 0)
    nodup (Dev.mem_regionsIn.2 ⟨hr, sel⟩) (fun j hj x other kept => ?_) (fun x kept => ?_) (fun j hj x other done => ?_) rfl
  · exact (x.latchRegion_other other.symm (lt hj) hr).2.trans kept
  · obtain ⟨count, clear⟩ := x.latchRegion_same p r
    exact ⟨by rw [count, kept], clear⟩
  · obtain ⟨count, region⟩ := x.latchRegion_other (p := p) other.symm (lt hj) hr
    exact ⟨count.trans done.1, by rw [region]; exact done.2⟩

/-- A sweep of the rates leaves the objects and the front ends. -/
theorem Dev.sweepStart_keeps (d : Dev) (p : Port) (at_ : Nat) :
    (d.sweepStart p at_).regs = d.regs ∧ (d.sweepStart p at_).fes = d.fes := by
  unfold Dev.sweepStart
  extract_lets same dropped w keeper swept
  have hDropped : dropped.regs = d.regs ∧ dropped.fes = d.fes := by
    unfold dropped
    split
    · exact ⟨rfl, rfl⟩
    · exact ⟨forEach_same (fun x : Dev => x.regs) allPorts (fun q d => d.sweepDrop q) (fun _ _ _ => rfl) d,
        forEach_same (fun x : Dev => x.fes) allPorts (fun q d => d.sweepDrop q) (fun _ _ _ => rfl) d⟩
  obtain ⟨_, _, _, eq⟩ := swept.cfgQueue_portsSent p ((List.range 256).map fun r => cfgMsg 2 Reg.FE_RG_RATE r [] .rate)
  rw [eq]
  exact hDropped

theorem exec_rateLatch (order : s.dev.inOrder p 1 = true) (due : (s.dev.due p).2 = some i) (action : isAction 2 i = true) :
    ∃ d', exec (.rateLatch p) s = .next { s with dev := d' }
      ∧ d'.regs = ((s.dev.started p i).latchRates p ((s.dev.due p).1.itemEntry p i).groups).regs
      ∧ d'.fes = ((s.dev.started p i).latchRates p ((s.dev.due p).1.itemEntry p i).groups).fes := by
  refine ⟨_, exec_next_congr rfl (Dev.runDue_due order due action _), ?_⟩
  dsimp only
  rw [Dev.started_itemEntry]
  split
  · exact Dev.sweepStart_keeps _ p _
  · exact ⟨rfl, rfl⟩

/-! ### Pairs (R94, R96, R97) -/

theorem mem_channelsOf {c r : Nat} (hc : c < 4096) : c ∈ channelsOf r ↔ r = regionOf c := by
  unfold channelsOf regionOf
  simp only [List.mem_map, List.mem_range]
  constructor
  · rintro ⟨k, hk, rfl⟩; omega
  · rintro rfl
    exact ⟨c / 64 % 4 * 4 + c % 4, by omega, by omega⟩

theorem channelsOf_lt {c r : Nat} (hr : r < 256) (mem : c ∈ channelsOf r) : c < 4096 := by
  unfold channelsOf at mem
  simp only [List.mem_map, List.mem_range] at mem
  obtain ⟨k, hk, rfl⟩ := mem
  omega

/-- The dead time of a channel settled leaves the other channels. -/
theorem Dev.countDead_chan (d : Dev) (p : Port) {c j : Nat} (t : Nat) (other : j ≠ c) :
    ((d.countDead p c t).fe p).chan j = (d.fe p).chan j := by
  unfold Dev.countDead
  extract_lets f ch n r set start marked counted summed
  have kept : set.chan j = (d.fe p).chan j := by rw [FrontEnd.chan_setChan, if_neg other]
  split
  · rfl
  · split
    · rw [Dev.fe_fbump, Dev.fe_fbump, Dev.fe_fbump, Dev.fe_setFe_same]
      exact kept
    · rw [Dev.fe_setFe_same]
      exact kept

theorem Dev.advanceChan_chan (d : Dev) (p : Port) {c j : Nat} (t : Nat) (other : j ≠ c) :
    ((d.advanceChan p c t).fe p).chan j = (d.fe p).chan j := by
  unfold Dev.advanceChan
  split
  · split
    · rw [Dev.fe_updFe_same, FrontEnd.chan_setChan, if_neg other, d.countDead_chan p _ other]
    · rfl
  · rfl

theorem Dev.settleDead_chan (d : Dev) (p : Port) {c j : Nat} (t : Nat) (other : j ≠ c) :
    ((d.settleDead p c t).fe p).chan j = (d.fe p).chan j := by
  rw [Dev.settleDead, Dev.countDead_chan _ p t other, Dev.advanceChan_chan _ p t other, Dev.advanceChan_chan _ p t other]

/-- A channel that takes the pair measured, or notes that it is not valid (R96). -/
def Chan.withPair (ch : Chan) (now c1 c2 : Nat) : Chan :=
  if Machine.pairValid c1 c2 then { ch with pairC1 := c1, pairC2 := c2, pairValid := true, pairAt := now, lastInvalid := false }
  else { ch with lastInvalid := true }

theorem Dev.takePair_chan (d : Dev) (p : Port) (c c1 c2 j : Nat) :
    ((d.takePair p c c1 c2).fe p).chan j = if j = c then ((d.fe p).chan c).withPair d.now c1 c2 else (d.fe p).chan j := by
  unfold Dev.takePair Chan.withPair
  extract_lets f ch taken r noted
  split
  · rw [Dev.fe_fset, Dev.fe_setFe_same, FrontEnd.chan_setChan]
  · rw [Dev.fe_fset, Dev.fe_fbump, Dev.fe_setFe_same, FrontEnd.chan_setChan]

theorem Dev.takePair_now (d : Dev) (p : Port) (c c1 c2 : Nat) : (d.takePair p c c1 c2).now = d.now := by
  unfold Dev.takePair
  dsimp only
  split
  · rw [Dev.fset_now, Dev.setFe_now]
  · rw [Dev.fset_now, Dev.fbump_now, Dev.setFe_now]

/-- A channel taken into REFRESH for 4 coarse ticks. -/
def Chan.toRefresh (ch : Chan) (now : Nat) : Chan :=
  { ch with st := .refresh, toWait := false, deadFrom := 8 * now, endTick := 8 * now + 4 }

/-- A channel refreshed, with the pair measured (R94, R96). -/
def Dev.refreshChan (d : Dev) (p : Port) (c : Nat) (m : BitVec 12 × BitVec 12) : Dev :=
  let x := d.settleDead p c (8 * d.now)
  (x.setFe p ((x.fe p).setChan c (((x.fe p).chan c).toRefresh x.now))).takePair p c m.1.toNat m.2.toNat

theorem Dev.refreshChan_now (d : Dev) (p : Port) (c : Nat) (m : BitVec 12 × BitVec 12) : (d.refreshChan p c m).now = d.now := by
  have settled := ((d.settleDead_only p c (8 * d.now)).keeps (K := fun _ => True)).now
  unfold Dev.refreshChan
  extract_lets x
  rw [Dev.takePair_now, Dev.setFe_now, settled]

theorem Dev.refreshChan_other (d : Dev) (p : Port) {c j : Nat} (m : BitVec 12 × BitVec 12) (other : j ≠ c) :
    ((d.refreshChan p c m).fe p).chan j = (d.fe p).chan j := by
  unfold Dev.refreshChan
  extract_lets x
  rw [Dev.takePair_chan, if_neg other, Dev.fe_setFe_same, FrontEnd.chan_setChan, if_neg other, d.settleDead_chan p _ other]

/-- A channel but for whether it has re-armed. -/
def Chan.atRest (ch : Chan) : Chan := { ch with rearmed := false }

/-- What the statement says of a channel that is refreshed. -/
def Chan.Refreshed (ch : Chan) (now : Nat) (m : BitVec 12 × BitVec 12) : Prop :=
  ch.st = .refresh ∧ ch.endTick = 8 * now + 4
    ∧ if Machine.pairValid m.1.toNat m.2.toNat then ch.pairC1 = m.1.toNat ∧ ch.pairC2 = m.2.toNat else ch.lastInvalid = true

theorem Chan.Refreshed.of_atRest {ch ch' : Chan} {now : Nat} {m : BitVec 12 × BitVec 12} (same : ch'.atRest = ch.atRest)
    (h : ch.Refreshed now m) : ch'.Refreshed now m := by
  have st : ch'.st = ch.st := (congrArg Chan.st same :)
  have endTick : ch'.endTick = ch.endTick := (congrArg Chan.endTick same :)
  have c1 : ch'.pairC1 = ch.pairC1 := (congrArg Chan.pairC1 same :)
  have c2 : ch'.pairC2 = ch.pairC2 := (congrArg Chan.pairC2 same :)
  have invalid : ch'.lastInvalid = ch.lastInvalid := (congrArg Chan.lastInvalid same :)
  rwa [Chan.Refreshed, st, endTick, c1, c2, invalid]

theorem Chan.toRefresh_refreshed (ch : Chan) (now t : Nat) (m : BitVec 12 × BitVec 12) :
    ((ch.toRefresh now).withPair t m.1.toNat m.2.toNat).Refreshed now m := by
  unfold Chan.Refreshed Chan.withPair
  split
  · exact ⟨rfl, rfl, rfl, rfl⟩
  · exact ⟨rfl, rfl, rfl⟩

theorem Dev.refreshChan_same (d : Dev) (p : Port) (c : Nat) (m : BitVec 12 × BitVec 12) :
    (((d.refreshChan p c m).fe p).chan c).Refreshed d.now m := by
  have settled := ((d.settleDead_only p c (8 * d.now)).keeps (K := fun _ => True)).now
  unfold Dev.refreshChan
  extract_lets x
  rw [Dev.takePair_chan, if_pos rfl, Dev.fe_setFe_same, FrontEnd.chan_setChan, if_pos rfl, ← settled]
  exact Chan.toRefresh_refreshed _ _ _ _

theorem tblRead_absent {α : Type} (dflt : Nat → α) {t : Tbl α} {k : Nat} (absent : k ∉ t.map Prod.fst) : tblRead dflt t k = dflt k := by
  induction t with
  | nil => rfl
  | cons x t ih =>
    obtain ⟨j, v⟩ := x
    obtain ⟨other, rest⟩ : k ≠ j ∧ k ∉ t.map Prod.fst := by simpa [not_or] using absent
    rw [tblRead, if_neg (Ne.symm other), ih rest]

/-- Channels that may be refreshed again by the next PAIR_REFRESH (R97). -/
def FrontEnd.unrearm (f : FrontEnd) (sel : Nat → Bool) : FrontEnd :=
  forEach f.busyChans (fun c f => if sel c then f.setChan c { f.chan c with rearmed := false } else f) f

theorem FrontEnd.unrearm_chan (f : FrontEnd) (sel : Nat → Bool) (c : Nat) : ((f.unrearm sel).chan c).atRest = (f.chan c).atRest := by
  refine forEach_same (fun x : FrontEnd => (x.chan c).atRest) _ _ (fun j _ x => ?_) f
  split
  · rw [FrontEnd.chan_setChan]
    split
    · rename_i here; rw [here]; rfl
    · rfl
  · rfl

/-- A channel selected is no longer re-armed; one that the front end does not hold never was. -/
theorem FrontEnd.unrearm_rearmed (f : FrontEnd) {sel : Nat → Bool} {c : Nat} (chosen : sel c = true) :
    ((f.unrearm sel).chan c).rearmed = false := by
  have step (j : Nat) (x : FrontEnd) (h : (x.chan c).rearmed = false) :
      ((if sel j then x.setChan j { x.chan j with rearmed := false } else x).chan c).rearmed = false := by
    split
    · rw [FrontEnd.chan_setChan]
      split
      · rfl
      · exact h
    · exact h
  by_cases held : c ∈ f.busyChans
  · refine forEach_reaches (Q := fun x : FrontEnd => (x.chan c).rearmed = false) held (fun x => ?_) (fun j _ => step j) f
    rw [if_pos chosen, FrontEnd.chan_setChan, if_pos rfl]
  · have absent : (f.chan c).rearmed = false := by
      rw [FrontEnd.chan, tblRead_absent _ held]
    exact forEach_keeps (fun x : FrontEnd => (x.chan c).rearmed = false) _ _ (fun j _ => step j) f absent

/-- The channels that a PAIR_REFRESH takes (R94, R97). -/
def Dev.pairsDue (d : Dev) (p : Port) (groups : Nat) : List Nat :=
  (((d.regionsIn p groups).filter fun r => ((d.fe p).region r).level != 0).flatMap channelsOf).filter fun c =>
    (!((d.fe p).chan c).rearmed || ((d.fe p).chan c).lastInvalid) && ((d.fe p).chan c).armedAt (8 * d.now)

theorem Dev.mem_pairsDue {groups c : Nat} (hc : c < 4096) (sel : bit groups (d.groupOf p (regionOf c)) = true) :
    c ∈ d.pairsDue p groups ↔
      (((d.fe p).chan c).rearmed = false ∨ ((d.fe p).chan c).lastInvalid = true) ∧ ((d.fe p).chan c).armedAt (8 * d.now) = true
        ∧ ((d.fe p).region (regionOf c)).level ≠ 0 := by
  have hr : regionOf c < 256 := by unfold regionOf; omega
  simp only [Dev.pairsDue, List.mem_filter, List.mem_flatMap, Dev.mem_regionsIn, mem_channelsOf hc, Bool.and_eq_true, Bool.or_eq_true,
    Bool.not_eq_true', bne_iff_ne]
  constructor
  · rintro ⟨⟨r, ⟨-, level⟩, rfl⟩, last, armed⟩
    exact ⟨last, armed, level⟩
  · rintro ⟨last, armed, level⟩
    exact ⟨⟨_, ⟨⟨hr, sel⟩, level⟩, rfl⟩, last, armed⟩

/-- The pair a measurement gives a channel. -/
def measuredPair (pair : BitVec 12 × BitVec 12) (meas : List (ChanNo × BitVec 12 × BitVec 12)) (c : Nat) : BitVec 12 × BitVec 12 :=
  ((meas.find? fun x => x.1.val == c).map Prod.snd).getD pair

/-- A PAIR_REFRESH of some groups. -/
def Dev.refreshPairs (d : Dev) (p : Port) (groups : Nat) (pair : BitVec 12 × BitVec 12) (meas : List (ChanNo × BitVec 12 × BitVec 12)) : Dev :=
  (forEach (d.pairsDue p groups) (fun c x => x.refreshChan p c (measuredPair pair meas c)) d).updFe p fun f =>
    f.unrearm fun c => bit groups (d.groupOf p (regionOf c))

theorem exec_pairRefresh {pair : BitVec 12 × BitVec 12} {meas : List (ChanNo × BitVec 12 × BitVec 12)} (order : s.dev.inOrder p 1 = true)
    (due : (s.dev.due p).2 = some i) (action : isAction 3 i = true) : exec (.pairRefresh p pair meas) s = .next { s with
      dev := (s.dev.started p i).refreshPairs p ((s.dev.due p).1.itemEntry p i).groups pair meas } := by
  rw [← Dev.started_itemEntry]
  exact exec_next_congr rfl (Dev.runDue_due order due action _)

/-- What a PAIR_REFRESH leaves of a channel selected. -/
theorem Dev.refreshPairs_chan (d : Dev) (p : Port) {groups c : Nat} (pair : BitVec 12 × BitVec 12)
    (meas : List (ChanNo × BitVec 12 × BitVec 12)) (sel : bit groups (d.groupOf p (regionOf c)) = true) :
    (((d.refreshPairs p groups pair meas).fe p).chan c).rearmed = false
      ∧ if c ∈ d.pairsDue p groups then (((d.refreshPairs p groups pair meas).fe p).chan c).Refreshed d.now (measuredPair pair meas c)
        else (((d.refreshPairs p groups pair meas).fe p).chan c).st = ((d.fe p).chan c).st := by
  unfold Dev.refreshPairs
  rw [Dev.fe_updFe_same]
  have refreshed (due : c ∈ d.pairsDue p groups) :
      (((forEach (d.pairsDue p groups) (fun c x => x.refreshChan p c (measuredPair pair meas c)) d).fe p).chan c).Refreshed d.now (measuredPair pair meas c) := by
    refine forEach_establishes (I := fun x : Dev => x.now = d.now) (Q := fun x : Dev => ((x.fe p).chan c).Refreshed d.now (measuredPair pair meas c))
      due (fun j x hx => (x.refreshChan_now p j _).trans hx) (fun x hx => ?_) (fun j x hx done => ?_) rfl
    · rw [← hx]; exact x.refreshChan_same p c _
    · by_cases here : c = j
      · subst here; rw [← hx]; exact x.refreshChan_same p c _
      · rw [x.refreshChan_other p _ here]; exact done
  have untouched (other : c ∉ d.pairsDue p groups) :
      ((forEach (d.pairsDue p groups) (fun c x => x.refreshChan p c (measuredPair pair meas c)) d).fe p).chan c = (d.fe p).chan c :=
    forEach_same (fun x : Dev => (x.fe p).chan c) _ _ (fun j mem x => x.refreshChan_other p _ fun e => other (e ▸ mem)) d
  generalize forEach (d.pairsDue p groups) (fun c x => x.refreshChan p c (measuredPair pair meas c)) d = x at refreshed untouched
  have rest := (x.fe p).unrearm_chan (fun c => bit groups (d.groupOf p (regionOf c))) c
  refine ⟨(x.fe p).unrearm_rearmed sel, ?_⟩
  generalize ((x.fe p).unrearm fun c => bit groups (d.groupOf p (regionOf c))).chan c = ch at rest
  split
  · rename_i due
    exact Chan.Refreshed.of_atRest rest (refreshed due)
  · rename_i other
    have same : ch.st = ((x.fe p).chan c).st := (congrArg Chan.st rest :)
    rw [same, untouched other]

/-! ### SNAPSHOT entries (R156, R170) -/

theorem Dev.missSampler_freezes (d : Dev) (p : Port) (r e n : Nat) : ((d.missSampler p r e n).fe p).freezes = (d.fe p).freezes := by
  unfold Dev.missSampler
  split
  · rfl
  · dsimp only
    rw [Dev.fe_updFe_same, Dev.fe_fbump]
    rfl

theorem Dev.missTrigger_freezes (d : Dev) (p : Port) (z : Freeze) : ((d.missTrigger p z).fe p).freezes = (d.fe p).freezes :=
  forEach_same (fun x : Dev => (x.fe p).freezes) _ _ (fun r _ x => forEach_same (fun x : Dev => (x.fe p).freezes) _ _
    (fun e _ x => x.missSampler_freezes p r e 1) x) d

theorem Dev.nameFreeze_freezes (d : Dev) (p : Port) (z : Freeze) : ((d.nameFreeze p z).fe p).freezes =
    if d.fget p Reg.FE_SNAP_CAL_STAT = 1 then (d.fe p).freezes else (d.fe p).freezes ++ [z] := by
  unfold Dev.nameFreeze
  split
  · exact d.missTrigger_freezes p z
  · rw [Dev.fe_updFe_same]

/-- The freeze that a SNAPSHOT entry names. -/
def Dev.calFreeze (d : Dev) (p : Port) (c : FeCmd) (e : MirrorEntry) : Freeze :=
  { inst := 40 * ((d.fe p).reached d.now c).getD d.now + d.ap p Reg.SNAP_CAL_DELAY, source := 0
    regions := maskOf (d.regionsIn p e.groups), samplers := field e.arg 3 0 }

theorem exec_calendarSnapshotTrigger (order : s.dev.inOrder p 1 = true) (due : (s.dev.due p).2 = some i) (action : isAction 5 i = true) :
    exec (.calendarSnapshotTrigger p) s = .next { s with
      dev := (s.dev.started p i).nameFreeze p ((s.dev.started p i).calFreeze p i.cmd ((s.dev.started p i).itemEntry p i)) } :=
  exec_next_congr rfl (Dev.runDue_due order due action _)

theorem Dev.fe_of_fes (h : d'.fes = d.fes) (p : Port) : d'.fe p = d.fe p := by rw [Dev.fe, Dev.fe, h]

/-! ### What taking a step of R141 leaves -/

theorem Dev.started_groupOf (d : Dev) (p : Port) (i : DueItem) (r : Nat) : (d.started p i).groupOf p r = d.groupOf p r := by
  rw [Dev.groupOf, Dev.groupOf, Dev.rgWord, Dev.rgWord, Dev.ap, Dev.ap, (d.started_keeps p i (K := fun _ => True)).applied]

theorem Dev.started_chan (d : Dev) (p : Port) (i : DueItem) (c : Nat) : ((d.started p i).fe p).chan c = (d.fe p).chan c := by
  obtain ⟨m, fe⟩ := d.started_fe p i
  rw [fe]; rfl

theorem Dev.started_region (d : Dev) (p : Port) (i : DueItem) (r : Nat) : ((d.started p i).fe p).region r = (d.fe p).region r := by
  obtain ⟨m, fe⟩ := d.started_fe p i
  rw [fe]; rfl

theorem Dev.started_freezes (d : Dev) (p : Port) (i : DueItem) : ((d.started p i).fe p).freezes = (d.fe p).freezes := by
  obtain ⟨m, fe⟩ := d.started_fe p i
  rw [fe]

theorem Dev.started_fget (d : Dev) (p : Port) (i : DueItem) (a e : Nat) : (d.started p i).fget p a e = d.fget p a e := by
  obtain ⟨m, eq⟩ := d.started_eq p i
  rw [eq, Dev.fget_setFe]

theorem Dev.started_now (d : Dev) (p : Port) (i : DueItem) : (d.started p i).now = d.now := (d.started_keeps p i (K := fun _ => True)).now

theorem Dev.started_calFreeze (d : Dev) (p : Port) (i : DueItem) (c : FeCmd) (e : MirrorEntry) :
    (d.started p i).calFreeze p c e = d.calFreeze p c e := by
  have reached : ((d.started p i).fe p).reached d.now c = (d.fe p).reached d.now c := by
    obtain ⟨m, fe⟩ := d.started_fe p i
    rw [fe]; rfl
  have regions : (d.started p i).regionsIn p e.groups = d.regionsIn p e.groups := by
    simp only [Dev.regionsIn, Dev.started_groupOf]
  rw [Dev.calFreeze, Dev.calFreeze, Dev.started_now, reached, regions, Dev.ap, Dev.ap, (d.started_keeps p i (K := fun _ => True)).applied]

end Sys2Proof.Machine

open Sys2Proof.Machine

/-- Settles O23: the rates by `Dev.latchRates_facts`, the pairs by `Dev.refreshPairs_chan`, the freeze by `Dev.nameFreeze_freezes`, each on
the device that has taken step 1 of R141. -/
theorem latchRefreshAndSnapshotEntriesExecute : Obligations.LatchRefreshAndSnapshotEntriesExecute := by
  unfold Obligations.LatchRefreshAndSnapshotEntriesExecute
  refine ⟨fun s p i order due action => ?rates, fun s p i pair meas order due action => ?pairs, fun s p i order due action => ?freeze⟩
  case rates =>
    obtain ⟨d, run, regs, fes⟩ := exec_rateLatch order due action
    refine .of_next run fun r hr sel => ?_
    obtain ⟨count, clear⟩ := (s.dev.started p i).latchRates_facts p hr (by rwa [Dev.started_groupOf])
    rw [Dev.fget_of_regs regs, Dev.fe_of_fes fes, ← Dev.started_region s.dev p i]
    exact ⟨count, clear⟩
  case pairs =>
    intro groups
    refine .of_next (exec_pairRefresh order due action) fun c hc sel => ?_
    intro ch ch' m
    have chosen : bit groups ((s.dev.started p i).groupOf p (regionOf c)) = true := by rwa [Dev.started_groupOf]
    obtain ⟨rearmed, rest⟩ := (s.dev.started p i).refreshPairs_chan p pair meas chosen
    rw [Dev.started_now, Dev.started_chan] at rest
    have due' := (s.dev.started p i).mem_pairsDue hc chosen
    rw [Dev.started_now, Dev.started_chan, Dev.started_region] at due'
    refine ⟨rearmed, ?_⟩
    rw [if_congr due' rfl rfl] at rest
    exact rest
  case freeze =>
    intro e
    refine .of_next (exec_calendarSnapshotTrigger order due action) ?_
    rw [Dev.nameFreeze_freezes, Dev.started_itemEntry, Dev.started_calFreeze, Dev.started_freezes, Dev.started_fget]
    split
    · rfl
    · rfl
end

section
/-! Fast commands on their way to a port's downlink (R43 to R46, R197, R198, R542; O14). -/

namespace Sys2Proof.Machine

variable {d d' d'' : Dev} {s : State} {p : Port}

/-- `d'` is `d` in the fast commands of port `p`, its limiter and its late commands; what has been sent stays sent. -/
structure FcmdsKept (p : Port) (d d' : Dev) : Prop where
  sent : d.out <:+ d'.out
  tokens : (d'.port p).tokens = (d.port p).tokens
  nextId : (d'.port p).nextId = (d.port p).nextId
  cmds : (d'.port p).cmds = (d.port p).cmds
  calTo : (d'.port p).calTo = (d.port p).calTo
  late : d'.get Reg.CAL_LATE p.val = d.get Reg.CAL_LATE p.val

theorem FcmdsKept.refl (d : Dev) : FcmdsKept p d d := ⟨List.suffix_rfl, rfl, rfl, rfl, rfl, rfl⟩

theorem FcmdsKept.trans (h : FcmdsKept p d d') (h' : FcmdsKept p d' d'') : FcmdsKept p d d'' :=
  ⟨h.sent.trans h'.sent, h'.tokens.trans h.tokens, h'.nextId.trans h.nextId, h'.cmds.trans h.cmds, h'.calTo.trans h.calTo,
    h'.late.trans h.late⟩

theorem forEach_fcmdsKept {α : Type} (l : List α) (f : α → Dev → Dev) (h : ∀ a d, FcmdsKept p d (f a d)) (d : Dev) :
    FcmdsKept p d (forEach l f d) :=
  forEach_keeps (FcmdsKept p d) l f (fun a _ d' hd => hd.trans (h a d')) d (.refl d)

/-- A port changed in none of these. -/
theorem Dev.setPort_fcmdsKept {c : CPort} (tokens : c.tokens = (d.port p).tokens) (nextId : c.nextId = (d.port p).nextId)
    (cmds : c.cmds = (d.port p).cmds) (calTo : c.calTo = (d.port p).calTo) : FcmdsKept p d (d.setPort p c) := by
  refine ⟨List.suffix_rfl, ?_, ?_, ?_, ?_, rfl⟩ <;> rw [Dev.port_setPort_same] <;> assumption

theorem Dev.emit_fcmdsKept (d : Dev) (o : Out) : FcmdsKept p d (d.emit o) := ⟨List.suffix_cons _ _, rfl, rfl, rfl, rfl, rfl⟩

theorem Dev.setI_fcmdsKept {a : Nat} (other : Reg.CAL_LATE % 2 ^ 24 ≠ a % 2 ^ 24) (e : Nat) (v : Int) : FcmdsKept p d (d.setI a e v) :=
  ⟨List.suffix_rfl, rfl, rfl, rfl, rfl, d.get_set_addr other _ _ _⟩

/-! ### What waits behind the copies (R542) -/

/-- A NAK sent on a lane that owes one. -/
def Dev.sendNak (d : Dev) (p : Port) (l : Fin 4) : Dev :=
  let c := d.port p
  let ln := c.lanes[l.val]
  if ln.nakOwed && d.linkFree p .nak then
    (d.setPort p { c with lanes := c.lanes.set l.val { ln with nakOwed := false, lastNak := some d.now } }).emit
      (.nak p.val l.val ln.expected)
  else d

theorem Dev.sendNak_fcmdsKept (d : Dev) (p : Port) (l : Fin 4) : FcmdsKept p d (d.sendNak p l) := by
  unfold Dev.sendNak
  dsimp only
  split
  · exact (Dev.setPort_fcmdsKept (by rfl) (by rfl) (by rfl) (by rfl)).trans (Dev.emit_fcmdsKept _ _)
  · exact .refl d

theorem Dev.sendTimeSet_fcmdsKept (d : Dev) (p : Port) (dl : Nat) : FcmdsKept p d (d.sendTimeSet p dl) := by
  unfold Dev.sendTimeSet Dev.setQ
  dsimp only
  refine .trans (.trans ?_ (Dev.setI_fcmdsKept (by decide) _ _)) (Dev.emit_fcmdsKept _ _)
  exact Dev.setPort_fcmdsKept (by rfl) (by rfl) (by rfl) (by rfl)

theorem Dev.loadGrid_fcmdsKept (d : Dev) (p : Port) : FcmdsKept p d (d.loadGrid p) := by
  unfold Dev.loadGrid
  dsimp only
  split
  · exact (Dev.setPort_fcmdsKept (by rfl) (by rfl) (by rfl) (by rfl)).trans (Dev.sendTimeSet_fcmdsKept _ p _)
  · exact .refl d

theorem Dev.sendBeacon_fcmdsKept (d : Dev) (p : Port) : FcmdsKept p d (d.sendBeacon p) := by
  unfold Dev.sendBeacon
  split
  · unfold Dev.beacon
    exact (Dev.setPort_fcmdsKept (by rfl) (by rfl) (by rfl) (by rfl)).trans (Dev.emit_fcmdsKept _ _)
  · exact .refl d

theorem Dev.cfgStart_fcmdsKept (d : Dev) (p : Port) (m : CfgMsg) : FcmdsKept p d (d.cfgStart p m) := by
  unfold Dev.cfgStart
  dsimp only
  exact (Dev.setPort_fcmdsKept (by rfl) (by rfl) (by rfl) (by rfl)).trans (Dev.emit_fcmdsKept _ _)

theorem Dev.cfgPump_fcmdsKept (d : Dev) (p : Port) : FcmdsKept p d (d.cfgPump p) := by
  unfold Dev.cfgPump
  dsimp only
  split
  · exact .refl d
  · split
    · exact .refl d
    · exact (Dev.setPort_fcmdsKept (by rfl) (by rfl) (by rfl) (by rfl)).trans (Dev.cfgStart_fcmdsKept _ p _)

theorem Dev.sendOwed_fcmdsKept (d : Dev) (p : Port) : FcmdsKept p d (d.sendOwed p) := by
  unfold Dev.sendOwed
  split
  · exact (((forEach_fcmdsKept (List.finRange 4) (fun l d => d.sendNak p l) (fun l d => d.sendNak_fcmdsKept p l) d).trans
      (Dev.loadGrid_fcmdsKept _ p)).trans (Dev.sendBeacon_fcmdsKept _ p)).trans (Dev.cfgPump_fcmdsKept _ p)
  · exact .refl d

/-! ### The order (R43, R197) -/

theorem leastBy_mem {α : Type} (f : α → Nat) {l : List α} {a : α} (least : leastBy f l = some a) : a ∈ l := by
  induction l generalizing a with
  | nil => exact nomatch least
  | cons x l ih =>
    unfold leastBy at least
    split at least
    · obtain rfl := Option.some.inj least; exact List.mem_cons_self
    · rename_i b found
      split at least
      · obtain rfl := Option.some.inj least; exact List.mem_cons_of_mem x (ih found)
      · obtain rfl := Option.some.inj least; exact List.mem_cons_self

theorem leastBy_none {α : Type} (f : α → Nat) {l : List α} (none_ : leastBy f l = none) : l = [] := by
  cases l with
  | nil => rfl
  | cons x l =>
    unfold leastBy at none_
    split at none_
    · exact nomatch none_
    · split at none_ <;> exact nomatch none_

theorem leastBy_le {α : Type} (f : α → Nat) {l : List α} {a : α} (least : leastBy f l = some a) : ∀ x ∈ l, f a ≤ f x := by
  induction l generalizing a with
  | nil => exact nomatch least
  | cons y l ih =>
    intro x mem
    unfold leastBy at least
    split at least
    · rename_i rest
      obtain rfl := Option.some.inj least
      rw [leastBy_none f rest] at mem
      rw [List.mem_singleton.1 mem]
    · rename_i b found
      have rest := ih found
      split at least
      · rename_i less
        obtain rfl := Option.some.inj least
        rcases List.mem_cons.1 mem with rfl | later
        · exact Nat.le_of_lt less
        · exact rest x later
      · rename_i less
        obtain rfl := Option.some.inj least
        rcases List.mem_cons.1 mem with rfl | later
        · exact Nat.le_refl _
        · exact (Nat.le_of_not_lt less).trans (rest x later)

/-- The calendar's next block as a command, where its slot lies ahead and the mirror does not hold it. -/
def Dev.calNew (d : Dev) (p : Port) : Option Fcmd :=
  match d.nextCal p with
  | [] => none
  | f :: _ => if d.now < f.at_ ∧ ¬ (d.port p).holds f.at_ then some (calCmd (d.nextCal p) f) else none

theorem Dev.nextCopy_eq (d : Dev) (p : Port) : d.nextCopy p =
    match d.headCopy p, d.calNew p with
    | none, none => none
    | some h, none => some (h, false)
    | none, some k => some (k, true)
    | some h, some k => if k.key ≤ h.key then some (k, true) else some (h, false) := rfl

/-- The command that a copy is of: the first of the queue's, or the calendar's new one; the other, where there is one, does not go
before it. -/
theorem Dev.nextCopy_cases {f : Fcmd} {new : Bool} (next : d.nextCopy p = some (f, new)) :
    (if new then d.calNew p = some f else d.headCopy p = some f) ∧ (∀ h, d.headCopy p = some h → f.key ≤ h.key)
      ∧ ∀ k, d.calNew p = some k → f.key ≤ k.key := by
  rw [Dev.nextCopy_eq] at next
  generalize d.headCopy p = x, d.calNew p = y at next ⊢
  rcases x, y with ⟨_ | h, _ | k⟩
  · exact nomatch next
  · obtain ⟨rfl, rfl⟩ : k = f ∧ true = new := by simpa using next
    simp
  · obtain ⟨rfl, rfl⟩ : h = f ∧ false = new := by simpa using next
    simp
  · by_cases first : k.key ≤ h.key
    · obtain ⟨rfl, rfl⟩ : k = f ∧ true = new := by simpa [first] using next
      simpa using first
    · obtain ⟨rfl, rfl⟩ : h = f ∧ false = new := by simpa [first] using next
      simpa using Nat.le_of_not_le first

theorem Dev.headCopy_le {x : Fcmd} (mem : x ∈ (d.port p).cmds) (open_ : x.copies < 2) (ahead : d.now < x.target)
    (inside : x.target ≤ d.now + d.issueWindow) : ∃ h, d.headCopy p = some h ∧ h.key ≤ x.key := by
  have held : x ∈ (d.port p).cmds.filter fun f =>
      decide (f.copies < 2) && decide (d.now < f.target) && decide (f.target ≤ d.now + d.issueWindow) :=
    List.mem_filter.2 ⟨mem, by simp [open_, ahead, inside]⟩
  cases head : d.headCopy p with
  | none => rw [leastBy_none Fcmd.key head] at held; cases held
  | some h => exact ⟨h, rfl, leastBy_le Fcmd.key head x held⟩

/-- None of the commands held, nor the calendar's next block, goes before the copy that is sent. -/
theorem nextCopy_first {f : Fcmd} {new : Bool} (next : d.nextCopy p = some (f, new)) :
    (∀ x ∈ (d.port p).cmds, x.copies < 2 → d.now < x.target → x.target ≤ d.now + d.issueWindow → f.key ≤ x.key)
      ∧ ∀ o ∈ (d.nextCal p).head?, d.now < o.at_ → (d.port p).holds o.at_ = false → f.key ≤ (calCmd (d.nextCal p) o).key := by
  obtain ⟨-, heads, cals⟩ := Dev.nextCopy_cases next
  refine ⟨fun x mem open_ ahead inside => ?_, fun o head ahead free => ?_⟩
  · obtain ⟨h, found, le⟩ := Dev.headCopy_le mem open_ ahead inside
    exact (heads h found).trans le
  · refine cals _ ?_
    obtain ⟨rest, list⟩ := List.head?_eq_some_iff.1 head
    unfold Dev.calNew
    rw [list]
    exact if_pos ⟨ahead, by rw [free]; decide⟩

/-! ### A copy sent (R45, R46, R198) -/

/-- Injections fed to a port leave its limiter and what has been sent. -/
theorem Dev.feedInject_keeps (d : Dev) (p : Port) (n : Nat) :
    (d.feedInject p n).regs = d.regs ∧ (d.feedInject p n).out = d.out ∧ (d.feedInject p n).now = d.now
      ∧ ((d.feedInject p n).port p).tokens = (d.port p).tokens ∧ ((d.feedInject p n).port p).tokensAt = (d.port p).tokensAt
      ∧ ((d.feedInject p n).port p).nextId = (d.port p).nextId
      ∧ ((d.feedInject p n).port p).dlGapFrom = (d.port p).dlGapFrom := by
  induction n generalizing d with
  | zero => exact ⟨rfl, rfl, rfl, rfl, rfl, rfl, rfl⟩
  | succ n ih =>
    unfold Dev.feedInject
    extract_lets c ahead passed t next f new
    split
    · exact ⟨rfl, rfl, rfl, rfl, rfl, rfl, rfl⟩
    · obtain ⟨regs, out, now, tokens, tokensAt, nextId, gap⟩ :=
        ih (d.setPort p { c with injectLeft := c.injectLeft - 1, injectNext := next, cmds := c.cmds ++ new })
      rw [Dev.port_setPort_same] at tokens tokensAt nextId gap
      exact ⟨regs, out, now, tokens, tokensAt, nextId, gap⟩

/-- A command with its next copy counted. -/
def Fcmd.copied (f : Fcmd) (id : Nat) : Fcmd := { f with id := some id, copies := f.copies + 1 }

/-- What a copy sent leaves of its port: the tokens it took, the CMD_ID it used and the command with its copy counted. -/
theorem Dev.sendCopy_facts (d : Dev) {f : Fcmd} (held : f ∈ (d.port p).cmds) (paid : f.tokens ≤ (d.port p).tokensNow d.now) :
    (d.sendCopy p f).out = .fcmd p.val (f.id.getD (d.port p).nextId) f.op (f.cycle % 256) f.slot :: d.out
      ∧ ((d.sendCopy p f).port p).tokens = (d.port p).tokensNow d.now - f.tokens
      ∧ ((d.sendCopy p f).port p).nextId = (if f.id = none then ((d.port p).nextId + 1) % 256 else (d.port p).nextId)
      ∧ f.copied (f.id.getD (d.port p).nextId) ∈ ((d.sendCopy p f).port p).cmds := by
  unfold Dev.sendCopy
  extract_lets c t id f' sent
  rw [if_neg (Nat.not_lt.2 paid), Dev.port_of_ports (Dev.emit_ports _ _), Dev.port_setPort_same]
  refine ⟨rfl, rfl, ?_, ?_⟩
  · cases none_ : f.id <;> simp [sent, none_, c]
  · by_cases first : f.copies = 0
    · simp [sent, first, f', Fcmd.copied, id, c]
    · simp only [sent, first, if_false]
      exact List.mem_map.2 ⟨f, held, if_pos rfl⟩

/-- The queue takes the calendar's next block as a command. -/
def Dev.takeCal (d : Dev) (p : Port) (f : Fcmd) (new : Bool) : Dev :=
  if new then d.updPort p fun c => { c with calTo := f.target + 1, cmds := c.cmds ++ [f] } else d

theorem Dev.takeCal_keeps (d : Dev) (p : Port) (f : Fcmd) (new : Bool) : (d.takeCal p f new).out = d.out
    ∧ (d.takeCal p f new).now = d.now ∧ ((d.takeCal p f new).port p).tokens = (d.port p).tokens
    ∧ ((d.takeCal p f new).port p).tokensAt = (d.port p).tokensAt ∧ ((d.takeCal p f new).port p).nextId = (d.port p).nextId := by
  unfold Dev.takeCal
  split
  · rw [Dev.port_updPort]
    exact ⟨rfl, rfl, rfl, rfl, rfl⟩
  · exact ⟨rfl, rfl, rfl, rfl, rfl⟩

/-- The command of which a copy is sent is in the queue. -/
theorem Dev.takeCal_held {f : Fcmd} {new : Bool} (next : d.nextCopy p = some (f, new)) : f ∈ ((d.takeCal p f new).port p).cmds := by
  obtain ⟨source, -, -⟩ := Dev.nextCopy_cases next
  cases new with
  | true => simp [Dev.takeCal]
  | false => exact (List.mem_filter.1 (leastBy_mem Fcmd.key source)).1

theorem exec_fcmdIssue {f : Fcmd} {new : Bool} (up : s.dev.portUp p = true) (free : s.dev.statOverdue p = false)
    (next : (s.dev.feedInjects p).nextCopy p = some (f, new)) : exec (.fcmdIssue p) s = .next { s with
      dev := (((s.dev.feedInjects p).takeCal p f new).sendCopy p f).sendOwed p } := by
  have runs : ¬ (!s.dev.portUp p || s.dev.statOverdue p) = true := by rw [up, free]; decide
  change execFcmdIssue p s = _
  unfold execFcmdIssue
  rw [State.on_eq, if_neg runs]
  dsimp only
  rw [next]
  rfl

/-! ### Commands whose targets have passed (R198, R200) -/

theorem Dev.lateCommands_ports (d : Dev) (p : Port) (n : Nat) : (d.lateCommands p n).ports = d.ports := by
  unfold Dev.lateCommands
  split
  · rfl
  · obtain ⟨b, m, eq⟩ := (d.bump Reg.CAL_LATE p.val n).log_eq p.val 0x0401 d.grid.cycle n 0
    rw [eq]; rfl

theorem Dev.lateCommands_count (d : Dev) (p : Port) (n : Nat) : (d.lateCommands p n).get Reg.CAL_LATE p.val
    = if n = 0 then d.get Reg.CAL_LATE p.val else min (d.get Reg.CAL_LATE p.val + n) (2 ^ 32 - 1) := by
  unfold Dev.lateCommands
  split
  · rfl
  · rw [Dev.log_get, Dev.get_bump_same, show regBits Reg.CAL_LATE = 32 from rfl]

/-- The tokens of the commands of a port whose targets have passed with no copy sent. -/
def Dev.lateTokens (d : Dev) (p : Port) : Nat :=
  sumBy (fun f => if f.copies = 0 then f.tokens else 0) ((d.port p).cmds.filter fun f => decide (f.target ≤ d.now))

theorem Dev.passTargets_facts (d : Dev) (p : Port) :
    ((d.passTargets p).port p).cmds = (d.port p).cmds.filter (fun f => decide (d.now < f.target))
      ∧ ((d.passTargets p).port p).dlGapFrom = (d.port p).dlGapFrom
      ∧ (d.passTargets p).get Reg.CAL_LATE p.val
          = if d.lateTokens p = 0 then d.get Reg.CAL_LATE p.val else min (d.get Reg.CAL_LATE p.val + d.lateTokens p) (2 ^ 32 - 1) := by
  unfold Dev.passTargets
  extract_lets c gone sent late
  rw [Dev.port_of_ports (Dev.lateCommands_ports _ _ _), Dev.port_setPort_same, Dev.lateCommands_count]
  exact ⟨rfl, rfl, rfl⟩

theorem Dev.lateCommands_keeps (d : Dev) (p : Port) (n : Nat) : (d.lateCommands p n).now = d.now
    ∧ ∀ {a}, a % 2 ^ 24 ≠ Reg.CAL_LATE % 2 ^ 24 → ∀ e, (d.lateCommands p n).get a e = d.get a e := by
  unfold Dev.lateCommands
  split
  · exact ⟨rfl, fun _ _ => rfl⟩
  · refine ⟨?_, fun other e => ?_⟩
    · obtain ⟨b, m, eq⟩ := (d.bump Reg.CAL_LATE p.val n).log_eq p.val 0x0401 d.grid.cycle n 0
      rw [eq]; rfl
    · rw [Dev.log_get, Dev.get_bump_addr _ other]

theorem Dev.takesCmds_congr (state : d'.get Reg.WP_STATE p.val = d.get Reg.WP_STATE p.val)
    (gap : (d'.port p).dlGapFrom = (d.port p).dlGapFrom) : d'.takesCmds p = d.takesCmds p := by
  rw [Dev.takesCmds, Dev.takesCmds, Dev.portUp, Dev.portUp, state, gap]

theorem Dev.passTargets_now (d : Dev) (p : Port) : (d.passTargets p).now = d.now := (Dev.lateCommands_keeps _ p _).1

theorem Dev.passTargets_takesCmds (d : Dev) (p : Port) : (d.passTargets p).takesCmds p = d.takesCmds p :=
  Dev.takesCmds_congr ((Dev.lateCommands_keeps _ p _).2 (by decide) _) (d.passTargets_facts p).2.1

/-- The calendar's next block passed where it can no longer be issued, and counted late (R198, R200). -/
def Dev.passCal (d : Dev) (p : Port) : Dev :=
  match d.nextCal p with
  | [] => d
  | f :: rest =>
    let missed := d.takesCmds p
      && (decide (f.at_ ≤ d.now) || ((d.port p).holds f.at_ && decide (f.at_ < d.now + d.get Reg.CAL_LEAD)))
    if missed then (d.setPort p { d.port p with calTo := f.at_ + 1 }).lateCommands p (rest.length + 1) else d

theorem Dev.passCal_cmds (d : Dev) (p : Port) : ((d.passCal p).port p).cmds = (d.port p).cmds := by
  unfold Dev.passCal
  split
  · rfl
  · dsimp only
    split
    · rw [Dev.port_of_ports (Dev.lateCommands_ports _ _ _), Dev.port_setPort_same]
    · rfl

theorem Dev.passCal_none (none_ : d.nextCal p = []) : d.passCal p = d := by
  unfold Dev.passCal
  rw [none_]

theorem Dev.passCal_missed {o : CalOcc} (head : o ∈ (d.nextCal p).head?) (takes : d.takesCmds p = true) (past : o.at_ ≤ d.now) :
    (d.passCal p).get Reg.CAL_LATE p.val = min (d.get Reg.CAL_LATE p.val + (d.nextCal p).length) (2 ^ 32 - 1)
      ∧ ((d.passCal p).port p).calTo = o.at_ + 1 := by
  obtain ⟨rest, list⟩ := List.head?_eq_some_iff.1 head
  unfold Dev.passCal
  rw [list]
  dsimp only
  rw [if_pos (by simp [takes, past]), Dev.port_of_ports (Dev.lateCommands_ports _ _ _), Dev.port_setPort_same, Dev.lateCommands_count,
    if_neg (Nat.succ_ne_zero _), List.length_cons]
  exact ⟨rfl, rfl⟩

/-- The injections of a port fed to it, where it takes commands. -/
def Dev.fed (d : Dev) (p : Port) : Dev := if d.takesCmds p then d.feedInjects p else d

theorem Dev.fed_keeps (d : Dev) (p : Port) : (d.fed p).get Reg.CAL_LATE p.val = d.get Reg.CAL_LATE p.val ∧ (d.fed p).now = d.now
    ∧ (d.fed p).takesCmds p = d.takesCmds p := by
  obtain ⟨regs, -, now, -, -, -, gap⟩ := d.feedInject_keeps p (d.port p).injectLeft
  unfold Dev.fed
  split
  · exact ⟨Dev.get_of_regs regs _ _, now, Dev.takesCmds_congr (Dev.get_of_regs regs _ _) gap⟩
  · exact ⟨rfl, rfl, rfl⟩

theorem exec_fcmdTargetPassed (p : Port) (s : State) : exec (.fcmdTargetPassed p) s = .next { s with
    dev := (((s.dev.fed p).passTargets p).passCal p).sendOwed p } := rfl

end Sys2Proof.Machine

open Sys2Proof.Machine

/-- Settles O14: a copy by `Dev.sendCopy_facts`, its place in the order by `nextCopy_first`, and what passes by `Dev.passTargets_facts`
and `Dev.passCal_missed`; what follows the copies leaves these (`Dev.sendOwed_fcmdsKept`). -/
theorem fastCommandsIssueInOrder : Obligations.FastCommandsIssueInOrder := by
  unfold Obligations.FastCommandsIssueInOrder
  refine ⟨fun s p f new up free next paid => ?_, fun d p f new next => nextCopy_first next, fun s p q late fed counted => ?_⟩
  · refine .of_next (exec_fcmdIssue up free next) ?_
    obtain ⟨regs, out, now, tokens, tokensAt, nextId, gap⟩ := s.dev.feedInject_keeps p (s.dev.port p).injectLeft
    obtain ⟨out', now', tokens', tokensAt', nextId'⟩ := (s.dev.feedInjects p).takeCal_keeps p f new
    have held := Dev.takeCal_held next
    have limit_ : (((s.dev.feedInjects p).takeCal p f new).port p).tokensNow ((s.dev.feedInjects p).takeCal p f new).now
        = (s.dev.port p).tokensNow s.dev.now := by
      rw [CPort.tokensNow, CPort.tokensNow, tokens', tokensAt', now', Dev.feedInjects, tokens, tokensAt, now]
    have id_ : (((s.dev.feedInjects p).takeCal p f new).port p).nextId = (s.dev.port p).nextId := nextId'.trans nextId
    have sent : ((s.dev.feedInjects p).takeCal p f new).out = s.dev.out := out'.trans out
    generalize (s.dev.feedInjects p).takeCal p f new = x at held limit_ id_ sent
    obtain ⟨out, tokens, nextId, cmds⟩ := x.sendCopy_facts held (by rw [limit_]; exact paid)
    have kept := (x.sendCopy p f).sendOwed_fcmdsKept p
    rw [limit_] at tokens
    rw [id_] at out nextId cmds
    rw [sent] at out
    exact ⟨out ▸ kept.sent, kept.tokens.trans tokens, kept.nextId.trans nextId, kept.cmds ▸ cmds⟩
  · obtain rfl : s.dev.fed p = q := fed
    refine .of_next (exec_fcmdTargetPassed p s) ?_
    obtain ⟨count, now, takes⟩ := s.dev.fed_keeps p
    obtain ⟨cmds, -, late_⟩ := (s.dev.fed p).passTargets_facts p
    have kept := (((s.dev.fed p).passTargets p).passCal p).sendOwed_fcmdsKept p
    obtain rfl : (s.dev.fed p).lateTokens p = late := by rw [← counted, ← now]; rfl
    rw [now] at cmds
    rw [count] at late_
    refine ⟨?_, fun none_ => ?_, fun o head takes' past => ?_⟩
    · rw [kept.cmds, Dev.passCal_cmds, cmds]
    · rw [kept.late, Dev.passCal_none none_, late_]
      split
      · rename_i zero; exact .inr ⟨zero, rfl⟩
      · exact .inl rfl
    · obtain ⟨missed, calTo⟩ := Dev.passCal_missed head (by rw [Dev.passTargets_takesCmds, takes, takes']) (by rw [Dev.passTargets_now, now]; exact past)
      refine ⟨?_, kept.calTo.trans calTo⟩
      rw [kept.late, missed, late_]
      split <;> omega
end

section
/-! The mode through the operations of the device (R29, R486): each leaves the mode as it was, save the change of mode itself and
a restart. -/

namespace Sys2Proof.Machine
variable {d : Dev}

/-- `d'` is in the mode of `d`. -/
structure SameMode (d d' : Dev) : Prop where
  mode : d'.mode = d.mode

theorem SameMode.refl (d : Dev) : SameMode d d := ⟨rfl⟩

theorem SameMode.trans {d d' d'' : Dev} (h : SameMode d d') (h' : SameMode d' d'') : SameMode d d'' := ⟨h'.mode.trans h.mode⟩

theorem forEach_sameMode {α : Type} (l : List α) (f : α → Dev → Dev) (h : ∀ a d, SameMode d (f a d)) (d : Dev) :
    SameMode d (forEach l f d) := forEach_keeps (SameMode d) l f (fun a _ x hx => hx.trans (h a x)) d (.refl d)

theorem forRange_sameMode (n : Nat) (f : Nat → Dev → Dev) (h : ∀ a d, SameMode d (f a d)) (d : Dev) :
    SameMode d (forRange n f d) := forEach_sameMode (List.range n) f h d

theorem forEach_keepsMode {α : Type} (l : List α) (f : α → Dev → Dev) (h : ∀ a d, (f a d).mode = d.mode) (d : Dev) :
    (forEach l f d).mode = d.mode := forEach_same Dev.mode l f (fun a _ d => h a d) d

theorem forRange_keepsMode (n : Nat) (f : Nat → Dev → Dev) (h : ∀ a d, (f a d).mode = d.mode) (d : Dev) :
    (forRange n f d).mode = d.mode := forEach_keepsMode (List.range n) f h d

theorem restartLine_mode (d : Dev) (k : Nat) : (d.restartLine k).mode = d.mode := rfl

@[simp] theorem Dev.log_keepsMode (d : Dev) (source code : Nat) (v1 v2 v3 : Int) :
    (d.log source code v1 v2 v3).mode = d.mode := by
  obtain ⟨b, n, eq⟩ := d.log_eq source code v1 v2 v3
  rw [eq]

/-- A restart leaves BOOT (R486). -/
theorem Dev.restart_mode (d : Dev) (reason : Nat) : (d.restart reason).mode = .boot := by
  unfold Dev.restart Dev.failStart
  dsimp only
  split
  · rw [Dev.log_keepsMode]
  · rfl

@[simp] theorem Dev.draw_keepsMode (d : Dev) : d.draw.2.mode = d.mode := by
  simp [Dev.draw]

@[simp] theorem Dev.setTime_keepsMode (d : Dev) (s : Int) (rate : Int) : (d.setTime s rate).mode = d.mode := by
  simp [Dev.setTime]

@[simp] theorem Dev.setRate_keepsMode (d : Dev) (rate : Int) : (d.setRate rate).mode = d.mode := by
  simp [Dev.setRate]

@[simp] theorem Dev.fenceEvent_keepsMode (d : Dev) (source limit_ concerned : Nat) :
    (d.fenceEvent source limit_ concerned).mode = d.mode := by
  simp [Dev.fenceEvent]

@[simp] theorem Dev.fence_keepsMode (d : Dev) (source limit_ concerned : Nat) :
    (d.fence source limit_ concerned).mode = d.mode := by
  unfold Dev.fence
  dsimp only
  split <;> simp

@[simp] theorem Dev.useToken_keepsMode (d : Dev) (w : Writer) : (d.useToken w).mode = d.mode := by
  unfold Dev.useToken
  split <;> simp

@[simp] theorem Dev.accessCheck_keepsMode (d : Dev) (w : Writer) (r : ObjRow) : (d.accessCheck w r).2.mode = d.mode := by
  unfold Dev.accessCheck
  (repeat' split) <;> simp

@[simp] theorem Dev.gate_keepsMode (d : Dev) (w : Writer) (a e : Nat) (val : Bytes) : (d.gate w a e val).2.mode = d.mode := by
  obtain ⟨k, eq⟩ := d.gate_eq w a e val
  rw [eq]

@[simp] theorem Dev.sendFrame_keepsMode (d : Dev) (b : Fin 8) (bytes : Bytes) : (d.sendFrame b bytes).mode = d.mode := by
  simp [Dev.sendFrame]

@[simp] theorem Dev.sendManaged_keepsMode (d : Dev) (b : Fin 8) (bytes : Bytes) : (d.sendManaged b bytes).mode = d.mode := by
  unfold Dev.sendManaged
  simp [apply_ite Dev.mode]

@[simp] theorem Dev.takeIdent_keepsMode (d : Dev) (b : Fin 8) : (d.takeIdent b).2.mode = d.mode := by
  simp [Dev.takeIdent]

@[simp] theorem Dev.sendMessage_keepsMode (d : Dev) (b : Fin 8) (mac ip udp : Nat) (msg : Bytes) :
    (d.sendMessage b mac ip udp msg).mode = d.mode := by
  simp [Dev.sendMessage]

@[simp] theorem Dev.reply_keepsMode (d : Dev) (cl : Client) (resp : Bytes) : (d.reply cl resp).mode = d.mode := by
  unfold Dev.reply
  split
  · exact forEach_keepsMode _ _ (fun _ _ => Dev.emit_mode _ _) d
  · exact Dev.sendMessage_keepsMode _ _ _ _ _ _
  · rfl
  · rfl

theorem Dev.write_keepsMode (d : Dev) (w : Writer) (a e : Nat) (val : Bytes) {f : Dev → Nat → Status × Dev}
    (h : ∀ x v, (f x v).2.mode = x.mode) : (d.write w a e val f).mode = d.mode := by
  have gated := d.gate_keepsMode w a e val
  unfold Dev.write
  split
  · rename_i st x eq
    rw [eq] at gated
    exact (Dev.answer_mode _ _ _ _).trans gated
  · rename_i x eq
    rw [eq] at gated
    exact (Dev.answer_mode _ _ _ _).trans ((h x _).trans gated)

theorem Dev.writeEach_keepsMode (d : Dev) (w : Writer) (a e : Nat) (val : Bytes) {f : Nat → Dev → Nat → Status × Dev}
    (h : ∀ k x v, (f k x v).2.mode = x.mode) : (d.writeEach w a e val f).mode = d.mode := by
  have each (es : List Nat) (v : Nat) (x : Status × Dev) :
      (es.foldl (fun (x : Status × Dev) k => if x.1 = .accepted then f k x.2 v else x) x).2.mode = x.2.mode := by
    induction es generalizing x with
    | nil => rfl
    | cons k es ih =>
      rw [List.foldl_cons, ih]
      split
      · exact h k _ v
      · rfl
  refine d.write_keepsMode w a e val fun x v => ?_
  extract_lets es done
  have hDone : done.2.mode = x.mode := each es v (.accepted, x)
  split
  · exact hDone
  · rfl

@[simp] theorem refuse_keepsMode (st : Status) (d : Dev) : (refuse st d).2.mode = d.mode := rfl

@[simp] theorem Dev.setFlash_keepsMode (d : Dev) (i : Fin 2) (f : Flash) : (d.setFlash i f).mode = d.mode := by
  simp [Dev.setFlash]

@[simp] theorem Dev.updTask_keepsMode (d : Dev) (t : Nat) (g : Task → Task) : (d.updTask t g).mode = d.mode := by
  simp [Dev.updTask]

@[simp] theorem Dev.setCore_keepsMode (d : Dev) (c : Fin 16) (k : Core) : (d.setCore c k).mode = d.mode := by
  simp [Dev.setCore]

@[simp] theorem Dev.traceWith_keepsMode (d : Dev) (event : Nat) (task cls eprio source arg seq : Option Nat) (slot : Nat) :
    (d.traceWith event task cls eprio source arg seq slot).2.mode = d.mode := by
  simp [Dev.traceWith]

@[simp] theorem Dev.tracePush_keepsMode (d : Dev) (w slot : Nat) : (d.tracePush w slot).mode = d.mode := by
  unfold Dev.tracePush
  split <;> simp

@[simp] theorem Dev.traceGap_keepsMode (d : Dev) (slot : Nat) : (d.traceGap slot).mode = d.mode := by
  unfold Dev.traceGap
  simp [apply_ite Dev.mode]

@[simp] theorem Dev.settleGap_keepsMode (d : Dev) : d.settleGap.mode = d.mode := by
  unfold Dev.settleGap
  simp [apply_ite Dev.mode]

@[simp] theorem Dev.traceEntry_keepsMode (d : Dev) (w : Nat) : (d.traceEntry w).mode = d.mode := by
  unfold Dev.traceEntry
  simp [apply_ite Dev.mode]

@[simp] theorem Dev.traceJob_keepsMode (d : Dev) (event core : Nat) (j : Job) (detail : Nat) :
    (d.traceJob event core j detail).mode = d.mode := by
  unfold Dev.traceJob
  simp [apply_ite Dev.mode]

@[simp] theorem Dev.traceEvent_keepsMode (d : Dev) (event : Nat) (task cls eprio source arg seq : Option Nat) :
    (d.traceEvent event task cls eprio source arg seq).mode = d.mode := by
  unfold Dev.traceEvent
  simp [apply_ite Dev.mode]

@[simp] theorem Dev.failItem_keepsMode (d : Dev) (j : Job) : (d.failItem j).mode = d.mode := by
  unfold Dev.failItem
  split <;> simp [apply_ite Dev.mode]

@[simp] theorem Dev.newJob_keepsMode (d : Dev) (t : Nat) (x : Task) (arg : Nat) (request : Option (Fin 16 × BitVec 16)) :
    (d.newJob t x arg request).2.mode = d.mode := by
  simp [Dev.newJob]

@[simp] theorem Dev.countSource_keepsMode (d : Dev) (s : Fin 4) : (d.countSource s).mode = d.mode := by
  unfold Dev.countSource
  dsimp only
  split <;> simp

@[simp] theorem Dev.postData_keepsMode (d : Dev) (s : Fin 4) (t arg : Nat) (request : Option (Fin 16 × BitVec 16)) :
    (d.postData s t arg request).mode = d.mode := by
  unfold Dev.postData
  split <;> simp [apply_ite Dev.mode]

@[simp] theorem Dev.postDelegation_keepsMode (d : Dev) : d.postDelegation.mode = d.mode := by
  unfold Dev.postDelegation
  dsimp only
  (repeat' split) <;> simp

@[simp] theorem Dev.postEngine_keepsMode (d : Dev) (e : Fin 4) : (d.postEngine e).mode = d.mode := by
  unfold Dev.postEngine
  dsimp only
  (repeat' split) <;> simp

@[simp] theorem Dev.setEm_keepsMode (d : Dev) (n : Fin 16) (c : EmChan) : (d.setEm n c).mode = d.mode := by
  simp [Dev.setEm]

@[simp] theorem Dev.postEnv_keepsMode (d : Dev) (n : Fin 16) : (d.postEnv n).mode = d.mode := by
  unfold Dev.postEnv
  dsimp only
  (repeat' split) <;> simp

@[simp] theorem Dev.postWaiting_keepsMode (d : Dev) (s : Fin 4) : (d.postWaiting s).mode = d.mode := by
  unfold Dev.postWaiting
  simp [forEach_keepsMode, forRange_keepsMode, apply_ite Dev.mode]

@[simp] theorem Dev.sourceFreed_keepsMode (d : Dev) (s : Fin 4) : (d.sourceFreed s).mode = d.mode := by
  simp [Dev.sourceFreed]

@[simp] theorem Dev.loseJobs_keepsMode (d : Dev) (js : List Job) : (d.loseJobs js).mode = d.mode := by
  unfold Dev.loseJobs
  simp [forEach_keepsMode]

@[simp] theorem Dev.faultTask_keepsMode (d : Dev) (t : Nat) : (d.faultTask t).mode = d.mode := by
  unfold Dev.faultTask
  split <;> simp [apply_ite Dev.mode]

@[simp] theorem Dev.atStep_keepsMode (d : Dev) (p : Port) (k : Nat) : (d.atStep p k).mode = d.mode := by
  simp [Dev.atStep]

@[simp] theorem Dev.feRecord_keepsMode (d : Dev) (p : Port) (bits : Record) (region frame : Nat) :
    (d.feRecord p bits region frame).mode = d.mode := by
  unfold Dev.feRecord
  simp [apply_ite Dev.mode]

@[simp] theorem Dev.feStatusRecord_keepsMode (d : Dev) (p : Port) (e : CalEvent) (region chan cause : Nat) :
    (d.feStatusRecord p e region chan cause).mode = d.mode := by
  simp [Dev.feStatusRecord]

@[simp] theorem Dev.countDead_keepsMode (d : Dev) (p : Port) (c t : Nat) : (d.countDead p c t).mode = d.mode := by
  unfold Dev.countDead
  simp [apply_ite Dev.mode]

@[simp] theorem Dev.advanceChan_keepsMode (d : Dev) (p : Port) (c t : Nat) : (d.advanceChan p c t).mode = d.mode := by
  unfold Dev.advanceChan
  split <;> simp [apply_ite Dev.mode]

@[simp] theorem Dev.settleDead_keepsMode (d : Dev) (p : Port) (c t : Nat) : (d.settleDead p c t).mode = d.mode := by
  simp [Dev.settleDead]

@[simp] theorem Dev.settleAll_keepsMode (d : Dev) (p : Port) (cs : List Nat) (t : Nat) : (d.settleAll p cs t).mode = d.mode := by
  unfold Dev.settleAll
  simp [forEach_keepsMode]

@[simp] theorem Dev.takePair_keepsMode (d : Dev) (p : Port) (c c1 c2 : Nat) : (d.takePair p c c1 c2).mode = d.mode := by
  unfold Dev.takePair
  simp [apply_ite Dev.mode]

@[simp] theorem Dev.rearmTo_keepsMode (d : Dev) (p : Port) (c t : Nat) : (d.rearmTo p c t).mode = d.mode := by
  simp [Dev.rearmTo]

@[simp] theorem Dev.unblock_keepsMode (d : Dev) (p : Port) (c : Nat) : (d.unblock p c).mode = d.mode := by
  unfold Dev.unblock
  simp [apply_ite Dev.mode]

@[simp] theorem Dev.noteFlood_keepsMode (d : Dev) (p : Port) (r : Nat) : (d.noteFlood p r).mode = d.mode := by
  unfold Dev.noteFlood
  simp [apply_ite Dev.mode]

@[simp] theorem Dev.resetRecords_keepsMode (d : Dev) (p : Port) (queue index cause : Nat) (lost : List Lost) :
    (d.resetRecords p queue index cause lost).mode = d.mode := by
  unfold Dev.resetRecords
  dsimp only
  split <;> simp [forEach_keepsMode, apply_ite Dev.mode]

@[simp] theorem Dev.resetChannel_keepsMode (d : Dev) (p : Port) (c cause : Nat) : (d.resetChannel p c cause).mode = d.mode := by
  simp [Dev.resetChannel]

@[simp] theorem Dev.resetRegion_keepsMode (d : Dev) (p : Port) (r cause : Nat) : (d.resetRegion p r cause).mode = d.mode := by
  simp [Dev.resetRegion]

@[simp] theorem Dev.resetColumn_keepsMode (d : Dev) (p : Port) (c : Fin 16) (cause : Nat) :
    (d.resetColumn p c cause).mode = d.mode := by
  simp [Dev.resetColumn]

@[simp] theorem Dev.resetLane_keepsMode (d : Dev) (p : Port) (l : Lane) (cause : Nat) :
    (d.resetLane p l cause).mode = d.mode := by
  simp [Dev.resetLane]

@[simp] theorem Dev.resetRecordQueue_keepsMode (d : Dev) (p : Port) : (d.resetRecordQueue p).mode = d.mode := by
  simp [Dev.resetRecordQueue]

@[simp] theorem Dev.resetSnapQueue_keepsMode (d : Dev) (p : Port) : (d.resetSnapQueue p).mode = d.mode := by
  simp [Dev.resetSnapQueue]

@[simp] theorem Dev.cutPulse_keepsMode (d : Dev) (p : Port) (c : Nat) : (d.cutPulse p c).mode = d.mode := by
  unfold Dev.cutPulse
  simp [apply_ite Dev.mode]

@[simp] theorem Dev.leaveOff_keepsMode (d : Dev) (p : Port) (r : Nat) : (d.leaveOff p r).mode = d.mode := by
  unfold Dev.leaveOff
  exact (Dev.updFe_mode _ _ _).trans (forEach_keepsMode _ _ (fun _ _ => Dev.fset_mode _ _ _ _ _) d)

@[simp] theorem Dev.setLevel_keepsMode (d : Dev) (p : Port) (r l : Nat) : (d.setLevel p r l).mode = d.mode := by
  unfold Dev.setLevel
  simp [forEach_keepsMode, apply_ite Dev.mode]

@[simp] theorem Dev.commandLevel_keepsMode (d : Dev) (p : Port) (r level : Nat) : (d.commandLevel p r level).mode = d.mode := by
  simp [Dev.commandLevel]

@[simp] theorem Dev.recap_keepsMode (d : Dev) (p : Port) : (d.recap p).mode = d.mode := by
  unfold Dev.recap
  simp [forRange_keepsMode, apply_ite Dev.mode]

@[simp] theorem Dev.missSampler_keepsMode (d : Dev) (p : Port) (r s n : Nat) : (d.missSampler p r s n).mode = d.mode := by
  unfold Dev.missSampler
  simp [apply_ite Dev.mode]

@[simp] theorem Dev.missTrigger_keepsMode (d : Dev) (p : Port) (z : Freeze) : (d.missTrigger p z).mode = d.mode := by
  unfold Dev.missTrigger
  simp [forEach_keepsMode]

@[simp] theorem Dev.floodStart_keepsMode (d : Dev) (p : Port) (r time : Nat) : (d.floodStart p r time).mode = d.mode := by
  simp [Dev.floodStart]

@[simp] theorem Dev.chipWatch_keepsMode (d : Dev) (p : Port) : (d.chipWatch p).mode = d.mode := by
  simp [Dev.chipWatch]

@[simp] theorem Dev.floodLeave_keepsMode (d : Dev) (p : Port) (r : Nat) : (d.floodLeave p r).mode = d.mode := by
  unfold Dev.floodLeave
  extract_lets g started f told settled left
  have hStarted : started.mode = d.mode := by
    unfold started
    split
    · rfl
    · exact Dev.floodStart_keepsMode _ _ _ _
  have hTold : told.mode = started.mode := Dev.feRecord_keepsMode _ _ _ _ _
  have hSettled : settled.mode = told.mode := Dev.settleAll_keepsMode _ _ _ _
  have hLeft : left.mode = settled.mode := Dev.updFe_mode _ _ _
  rw [Dev.chipWatch_keepsMode, Dev.fset_mode, hLeft, hSettled, hTold, hStarted]

@[simp] theorem Dev.feReset_keepsMode (d : Dev) (p : Port) (power : FePower) : (d.feReset p power).mode = d.mode := by
  simp [Dev.feReset]

@[simp] theorem Dev.applyFloor_keepsMode (d : Dev) (p : Port) : (d.applyFloor p).mode = d.mode := by
  unfold Dev.applyFloor
  extract_lets was clear cleared per one told
  have hClear (c : Nat) (x : Dev) : (clear c x).mode = x.mode := by
    unfold clear
    split
    · rfl
    · exact Dev.fset_mode _ _ _ _ _
  have hOne (y : Nat × List Nat) (x : Dev) : (one y x).mode = x.mode :=
    (Dev.updFe_mode _ _ _).trans (forEach_keepsMode _ _ (fun _ _ => Dev.fset_mode _ _ _ _ _) x)
  exact (Dev.fset_mode _ _ _ _ _).trans ((forEach_keepsMode per one hOne cleared).trans (forEach_keepsMode was clear hClear d))

@[simp] theorem Dev.applyChannel_keepsMode (d : Dev) (p : Port) (ev : Nat × Nat) : (d.applyChannel p ev).mode = d.mode := by
  unfold Dev.applyChannel
  simp [apply_ite Dev.mode]

@[simp] theorem Dev.applyRegion_keepsMode (d : Dev) (p : Port) (old : Nat) (r new : Nat) :
    (d.applyRegion p old r new).mode = d.mode := by
  unfold Dev.applyRegion
  simp [apply_ite Dev.mode]

@[simp] theorem Dev.applySnap_keepsMode (d : Dev) (p : Port) (r new : Nat) : (d.applySnap p r new).mode = d.mode := by
  simp [Dev.applySnap]

@[simp] theorem Dev.feApply_keepsMode (d : Dev) (p : Port) : (d.feApply p).mode = d.mode := by
  unfold Dev.feApply
  extract_lets chs rgs old snaps floods noted channels copy copied regions sampled quiet faults restore restored watched
  have hNoted : SameMode d noted := forEach_sameMode _ _ (fun _ _ => ⟨Dev.noteFlood_keepsMode _ _ _⟩) d
  have hChannels : SameMode noted channels := forEach_sameMode _ _ (fun _ _ => ⟨Dev.applyChannel_keepsMode _ _ _⟩) noted
  have hCopied : SameMode channels copied :=
    forEach_sameMode _ _ (fun _ x => forEach_sameMode _ _ (fun _ _ => ⟨Dev.setAp_mode _ _ _ _ _⟩) x) channels
  have hRegions : SameMode copied regions := forEach_sameMode _ _ (fun _ _ => ⟨Dev.applyRegion_keepsMode _ _ _ _ _⟩) copied
  have hSampled : SameMode regions sampled := forEach_sameMode _ _ (fun _ _ => ⟨Dev.applySnap_keepsMode _ _ _ _⟩) regions
  have hLeft (ev : Nat × Nat) (x : Dev) : SameMode x (if ((x.fe p).region ev.1).flood then x.floodLeave p ev.1 else x) := by
    split
    · exact ⟨Dev.floodLeave_keepsMode _ _ _⟩
    · exact .refl x
  have hQuiet : SameMode sampled quiet := forEach_sameMode _ _ hLeft sampled
  have hRestore (r : Nat) (x : Dev) : SameMode x (restore r x) :=
    ⟨by simp only [restore, Dev.feStatusRecord_keepsMode, Dev.updFe_mode, Dev.settleAll_keepsMode]⟩
  have hRestored : SameMode quiet restored := forEach_sameMode _ _ hRestore quiet
  have hWatched : SameMode restored watched := ⟨(Dev.chipWatch_keepsMode _ _).trans (Dev.applyFloor_keepsMode _ _)⟩
  have all := ((((((hNoted.trans hChannels).trans hCopied).trans hRegions).trans hSampled).trans hQuiet).trans hRestored).trans hWatched
  clear_value watched
  rw [Dev.updFe_mode, all.mode]

@[simp] theorem Dev.wakeOnHit_keepsMode (d : Dev) (p : Port) (r : Nat) : (d.wakeOnHit p r).mode = d.mode := by
  unfold Dev.wakeOnHit
  simp [apply_ite Dev.mode]

@[simp] theorem Dev.capture_keepsMode (d : Dev) (p : Port) (c tick fine : Nat) : (d.capture p c tick fine).mode = d.mode := by
  simp [Dev.capture]

@[simp] theorem Dev.suppress_keepsMode (d : Dev) (p : Port) (r tick : Nat) : (d.suppress p r tick).mode = d.mode := by
  unfold Dev.suppress
  simp [apply_ite Dev.mode]

@[simp] theorem Dev.closeDead_keepsMode (d : Dev) (p : Port) (fr : FeFrame) : (d.closeDead p fr).mode = d.mode := by
  unfold Dev.closeDead
  simp [forEach_keepsMode, apply_ite Dev.mode]

@[simp] theorem Dev.feFrameEnd_keepsMode (d : Dev) (p : Port) (fr : FeFrame) : (d.feFrameEnd p fr).mode = d.mode := by
  unfold Dev.feFrameEnd
  dsimp only
  split <;> simp [forEach_keepsMode, apply_ite Dev.mode]

@[simp] theorem Dev.feFrameOpen_keepsMode (d : Dev) (p : Port) (start idx : Nat) : (d.feFrameOpen p start idx).mode = d.mode := by
  unfold Dev.feFrameOpen
  simp [forEach_keepsMode, apply_ite Dev.mode]

@[simp] theorem Dev.latchPhase_keepsMode (d : Dev) (p : Port) (r : Nat) : (d.latchPhase p r).mode = d.mode := by
  unfold Dev.latchPhase
  simp [apply_ite Dev.mode]

@[simp] theorem Dev.checkEnvelope_keepsMode (d : Dev) (p : Port) (r : Nat) : (d.checkEnvelope p r).mode = d.mode := by
  unfold Dev.checkEnvelope
  extract_lets w causes stay entered left
  split
  · rw [Dev.log_keepsMode, Dev.feStatusRecord_keepsMode, Dev.fset_mode]
  · split
    · rw [Dev.log_keepsMode, Dev.feStatusRecord_keepsMode, Dev.fset_mode]
    · rfl

@[simp] theorem Dev.takeMeas_keepsMode (d : Dev) (p : Port) (m : RegionMeas) : (d.takeMeas p m).mode = d.mode := by
  simp [Dev.takeMeas]

@[simp] theorem Dev.clearObj_keepsMode (d : Dev) (p : Port) (a : Nat) : (d.clearObj p a).mode = d.mode := by
  simp [Dev.clearObj]

@[simp] theorem Dev.countBad_keepsMode (d : Dev) (p : Port) (rx : Rx) (why : BadBlock) : (d.countBad p rx why).mode = d.mode := by
  unfold Dev.countBad
  simp [apply_ite Dev.mode]

@[simp] theorem Dev.countBadBlocks_keepsMode (d : Dev) (p : Port) (rx : Rx) (bad : List BadBlock) :
    (d.countBadBlocks p rx bad).mode = d.mode := by
  unfold Dev.countBadBlocks
  simp [forEach_keepsMode]

@[simp] theorem Dev.fcmd_keepsMode (d : Dev) (p : Port) (op : FcmdOp) (cyc slot tokens : Nat) :
    (d.fcmd p op cyc slot tokens).mode = d.mode := by
  simp [Dev.fcmd]

@[simp] theorem Dev.feedInject_keepsMode (d : Dev) (p : Port) (n0 : Nat) : (d.feedInject p n0).mode = d.mode := by
  induction n0 generalizing d with
  | zero => rfl
  | succ n ih =>
    unfold Dev.feedInject
    extract_lets c ahead passed t next f new
    split
    · rfl
    · rw [ih, Dev.setPort_mode]

@[simp] theorem Dev.feedInjects_keepsMode (d : Dev) (p : Port) : (d.feedInjects p).mode = d.mode := by
  simp [Dev.feedInjects]

@[simp] theorem Dev.cfgStart_keepsMode (d : Dev) (p : Port) (m : CfgMsg) : (d.cfgStart p m).mode = d.mode := by
  simp [Dev.cfgStart]

@[simp] theorem Dev.cfgPump_keepsMode (d : Dev) (p : Port) : (d.cfgPump p).mode = d.mode := by
  unfold Dev.cfgPump
  dsimp only
  (repeat' split) <;> simp

@[simp] theorem Dev.cfgQueue_keepsMode (d : Dev) (p : Port) (ms : List CfgMsg) : (d.cfgQueue p ms).mode = d.mode := by
  simp [Dev.cfgQueue]

@[simp] theorem Dev.tellFes_keepsMode (d : Dev) (a e : Nat) : (d.tellFes a e).mode = d.mode := by
  unfold Dev.tellFes
  split <;> simp [forEach_keepsMode]

@[simp] theorem Dev.queueMirror_keepsMode (d : Dev) (p : Port) (b : Bank) (cyc at_ : Nat) :
    (d.queueMirror p b cyc at_).mode = d.mode := by
  simp [Dev.queueMirror]

@[simp] theorem Dev.nextResponse_keepsMode (d : Dev) (p : Port) : (d.nextResponse p).mode = d.mode := by
  unfold Dev.nextResponse
  dsimp only
  (repeat' split) <;> simp

@[simp] theorem Dev.feRespond_keepsMode (d : Dev) (p : Port) (msg : Bytes) : (d.feRespond p msg).mode = d.mode := by
  simp [Dev.feRespond]

theorem Dev.feMessage_keepsMode (d : Dev) (p : Port) (alive type a elem : Nat) {f : Dev → Status × Bytes × Dev}
    (h : ∀ x, (f x).2.2.mode = x.mode) : (d.feMessage p alive type a elem f).mode = d.mode := by
  have answered := h d
  unfold Dev.feMessage
  extract_lets fe delta m stored resp
  split
  · rfl
  split
  · rw [Dev.feRespond_keepsMode, Dev.fbump_mode]
  split
  · rw [Dev.feRespond_keepsMode, Dev.fbump_mode]
  · dsimp only
    rw [Dev.feRespond_keepsMode, Dev.fset_mode, Dev.updFe_mode, answered]

@[simp] theorem Dev.feBadMessage_keepsMode (d : Dev) (p : Port) : (d.feBadMessage p).mode = d.mode := by
  unfold Dev.feBadMessage
  simp [apply_ite Dev.mode]

@[simp] theorem Dev.settleFor_keepsMode (d : Dev) (p : Port) (a e : Nat) : (d.settleFor p a e).mode = d.mode := by
  unfold Dev.settleFor
  simp [apply_ite Dev.mode]

@[simp] theorem Dev.feScheduleApply_keepsMode (d : Dev) (p : Port) : (d.feScheduleApply p).mode = d.mode := by
  simp [Dev.feScheduleApply]

@[simp] theorem Dev.fePut_keepsMode (d : Dev) (p : Port) (a v e : Nat) : (d.fePut p a v e).mode = d.mode := by
  unfold Dev.fePut
  dsimp only
  (repeat' split) <;> simp

@[simp] theorem Dev.nameFreeze_keepsMode (d : Dev) (p : Port) (z : Freeze) : (d.nameFreeze p z).mode = d.mode := by
  unfold Dev.nameFreeze
  simp [apply_ite Dev.mode]

@[simp] theorem Dev.feForce_keepsMode (d : Dev) (p : Port) : (d.feForce p).mode = d.mode := by
  simp [Dev.feForce]

@[simp] theorem Dev.feSnapCal_keepsMode (d : Dev) (p : Port) (cmd : Nat) : (d.feSnapCal p cmd).2.mode = d.mode := by
  unfold Dev.feSnapCal
  extract_lets st n begin_
  have hBegin (x : Dev) : (begin_ x).mode = x.mode := by rw [Dev.updFe_mode, Dev.fset_mode]
  split
  · rfl
  split
  · rfl
  split
  · exact hBegin d
  · split
    · exact hBegin d
    · rfl
  · split
    · rfl
    · dsimp only
      rw [Dev.fset_mode, Dev.fset_mode, Dev.setFe_mode]
  · dsimp only
    rw [Dev.updFe_mode, Dev.fset_mode]
  · rfl

@[simp] theorem Dev.feCommand_keepsMode (d : Dev) (p : Port) (a v : Nat) : (d.feCommand p a v).2.mode = d.mode := by
  unfold Dev.feCommand
  (repeat' split) <;> simp

@[simp] theorem Dev.feFence_keepsMode (d : Dev) (p : Port) (g v : Nat) : (d.feFence p g v).2.mode = d.mode := by
  unfold Dev.feFence
  dsimp only
  (repeat' split) <;> simp

@[simp] theorem Dev.feTold_keepsMode (d : Dev) (p : Port) (r : ObjRow) (g : Nat) (perGroup : Bool) (val : Bytes) :
    (d.feTold p r g perGroup val).2.mode = d.mode := by
  unfold Dev.feTold
  dsimp only
  (repeat' split) <;> simp

@[simp] theorem Dev.feWrite_keepsMode (d : Dev) (p : Port) (a e : Nat) (val : Bytes) : (d.feWrite p a e val).2.mode = d.mode := by
  unfold Dev.feWrite
  dsimp only
  (repeat' split) <;> simp [forEach_keepsMode]

theorem Dev.feConfig_keepsMode (d : Dev) (p : Port) (dl : Fin 2) (type : Nat) (blocks : List Block)
    {f : ConfigIn → Dev → Status × Bytes × Dev} (h : ∀ m x, (f m x).2.2.mode = x.mode) : (d.feConfig p dl type blocks f).mode = d.mode := by
  unfold Dev.feConfig
  extract_lets fe
  split
  · rfl
  split
  · rfl
  split
  · rfl
  split
  · rw [Dev.feBadMessage_keepsMode, Dev.countBadBlocks_keepsMode]
  · rename_i m _
    split
    · rfl
    · rw [Dev.feMessage_keepsMode _ _ _ _ _ _ (h m), Dev.countBadBlocks_keepsMode]

@[simp] theorem Dev.snapCalWrite_keepsMode (d : Dev) (p : Port) (alive code : Nat) : (d.snapCalWrite p alive code).mode = d.mode := d.feMessage_keepsMode p alive 1 _ 0 fun x => x.feWrite_keepsMode p _ 0 _

@[simp] theorem Dev.passIdle_keepsMode (d : Dev) (p : Port) (n0 : Nat) : (d.passIdle p n0).mode = d.mode := by
  induction n0 generalizing d with
  | zero => rfl
  | succ n ih =>
    unfold Dev.passIdle
    split
    · rfl
    · split
      · exact (ih _).trans (Dev.setFe_mode _ _ _)
      · rfl

@[simp] theorem Dev.due_keepsMode (d : Dev) (p : Port) : (d.due p).1.mode = d.mode := by
  simp [Dev.due]

theorem Dev.runDue_keepsMode (d : Dev) (p : Port) (k : DueItem → Bool) {g : DueItem → Dev → Dev}
    (h : ∀ i x, (g i x).mode = x.mode) : (d.runDue p k g).mode = d.mode := by
  have due := d.due_keepsMode p
  unfold Dev.runDue
  split
  · rfl
  split
  · rename_i x eq
    rw [eq] at due
    exact due
  · rename_i x i eq
    rw [eq] at due
    split
    · exact (h i _).trans ((Dev.atStep_keepsMode _ _ _).trans due)
    · exact due

@[simp] theorem Dev.cancelFreezes_keepsMode (d : Dev) (p : Port) : (d.cancelFreezes p).mode = d.mode := by
  unfold Dev.cancelFreezes
  simp [forEach_keepsMode]

@[simp] theorem Dev.clearHolds_keepsMode (d : Dev) (p : Port) : (d.clearHolds p).mode = d.mode := by
  unfold Dev.clearHolds
  exact (forEach_keepsMode _ _ (fun _ _ => Dev.fset_mode _ _ _ _ _) _).trans
    (forEach_keepsMode _ _ (fun _ _ => Dev.setAp_mode _ _ _ _ _) d)

@[simp] theorem Dev.feEnterMode_keepsMode (d : Dev) (p : Port) (m : Mode) : (d.feEnterMode p m).mode = d.mode := by
  unfold Dev.feEnterMode
  simp [forRange_keepsMode, apply_ite Dev.mode]

@[simp] theorem Dev.discardFrame_keepsMode (d : Dev) (p : Port) (frame : Nat) : (d.discardFrame p frame).mode = d.mode := by
  unfold Dev.discardFrame
  simp [forEach_keepsMode]

@[simp] theorem Dev.sendPacket_keepsMode (d : Dev) (p : Port) (l : Lane) (kind frame idx cyc : Nat) (payload : Payload) :
    (d.sendPacket p l kind frame idx cyc payload).mode = d.mode := by
  simp [Dev.sendPacket]

@[simp] theorem Dev.freezeRegion_keepsMode (d : Dev) (p : Port) (inst source event : Nat) (r : Nat) (zs : List Freeze) :
    (d.freezeRegion p inst source event r zs).mode = d.mode := by
  unfold Dev.freezeRegion
  simp [forEach_keepsMode, apply_ite Dev.mode]

@[simp] theorem Dev.updBasket_keepsMode (d : Dev) (n : Nat) (g : Basket → Basket) : (d.updBasket n g).mode = d.mode := by
  simp [Dev.updBasket]

@[simp] theorem Dev.leaveBaskets_keepsMode (d : Dev) (p : Port) : (d.leaveBaskets p).mode = d.mode := by
  simp [Dev.leaveBaskets]

@[simp] theorem Dev.sweepDrop_keepsMode (d : Dev) (p : Port) : (d.sweepDrop p).mode = d.mode := by
  simp [Dev.sweepDrop]

@[simp] theorem Dev.dropRequests_keepsMode (d : Dev) (p : Port) : (d.dropRequests p).mode = d.mode := by
  unfold Dev.dropRequests
  simp [forEach_keepsMode]

@[simp] theorem Dev.setPortState_keepsMode (d : Dev) (p : Port) (st : Nat) : (d.setPortState p st).mode = d.mode := by
  unfold Dev.setPortState
  simp [apply_ite Dev.mode]

@[simp] theorem Dev.sendStat_keepsMode (d : Dev) (p : Port) : (d.sendStat p).mode = d.mode := by
  simp [Dev.sendStat]

@[simp] theorem Dev.withdrawMode_keepsMode (d : Dev) : d.withdrawMode.mode = d.mode := d.withdrawMode_portsSent.mode

@[simp] theorem Dev.modeCmd_keepsMode (d : Dev) (p : Port) (m : Mode) (cyc : Nat) : (d.modeCmd p m cyc).mode = d.mode := by
  simp [Dev.modeCmd]

@[simp] theorem Dev.announceMode_keepsMode (d : Dev) (m : Mode) (cyc : Nat) : (d.announceMode m cyc).mode = d.mode := by
  unfold Dev.announceMode
  simp [forEach_keepsMode, apply_ite Dev.mode]

@[simp] theorem Dev.joinGrid_keepsMode (d : Dev) (p : Port) : (d.joinGrid p).mode = d.mode := by
  unfold Dev.joinGrid
  dsimp only
  (repeat' split) <;> simp

@[simp] theorem Dev.linkRefresh_keepsMode (d : Dev) (p : Port) : (d.linkRefresh p).mode = d.mode := by
  unfold Dev.linkRefresh
  simp [apply_ite Dev.mode]

@[simp] theorem Dev.startTraining_keepsMode (d : Dev) (p : Port) : (d.startTraining p).mode = d.mode := by
  unfold Dev.startTraining
  simp [apply_ite Dev.mode]

@[simp] theorem Dev.idlePort_keepsMode (d : Dev) (p : Port) : (d.idlePort p).mode = d.mode := by
  unfold Dev.idlePort
  simp [apply_ite Dev.mode]

@[simp] theorem Dev.linkTests_keepsMode (d : Dev) : d.linkTests.mode = d.mode := by
  refine forEach_keepsMode _ _ (fun p x => ?_) d
  dsimp only
  split
  · rfl
  · exact (forEach_keepsMode _ _ (fun _ _ => Dev.emit_mode _ _) _).trans (Dev.updPort_mode _ _ _)

@[simp] theorem Dev.backEndTests_keepsMode (d : Dev) : d.backEndTests.mode = d.mode := by
  unfold Dev.backEndTests
  dsimp only
  split
  · rfl
  · exact forRange_keepsMode _ _ (fun _ x => forRange_keepsMode _ _ (fun _ _ => Dev.emit_mode _ _) x) _

@[simp] theorem Dev.retrain_keepsMode (d : Dev) (p : Port) : (d.retrain p).mode = d.mode := by
  unfold Dev.retrain
  simp [apply_ite Dev.mode]

@[simp] theorem Dev.sendTrain_keepsMode (d : Dev) (p : Port) (dl attempt : Nat) : (d.sendTrain p dl attempt).mode = d.mode := by
  simp [Dev.sendTrain]

@[simp] theorem Dev.beginLane_keepsMode (d : Dev) (p : Port) (phys n : Nat) : (d.beginLane p phys n).mode = d.mode := by
  unfold Dev.beginLane
  exact (restartLine_mode _ _).trans (Dev.retrain_keepsMode _ _)

@[simp] theorem Dev.beginAttempt_keepsMode (d : Dev) (p : Port) (dl n : Nat) : (d.beginAttempt p dl n).mode = d.mode := by
  unfold Dev.beginAttempt
  exact (Dev.linkRefresh_keepsMode _ _).trans ((Dev.retrain_keepsMode _ _).trans (forEach_keepsMode _ _ (fun _ _ => restartLine_mode _ _) _))

@[simp] theorem Dev.setQ_keepsMode (d : Dev) (p : Port) (delay : Int) : (d.setQ p delay).mode = d.mode := by
  simp [Dev.setQ]

@[simp] theorem Dev.sendTimeSet_keepsMode (d : Dev) (p : Port) (dl : Nat) : (d.sendTimeSet p dl).mode = d.mode := by
  simp [Dev.sendTimeSet]

@[simp] theorem Dev.loadGrid_keepsMode (d : Dev) (p : Port) : (d.loadGrid p).mode = d.mode := by
  unfold Dev.loadGrid
  simp [apply_ite Dev.mode]

@[simp] theorem Dev.beacon_keepsMode (d : Dev) (p : Port) (dl : Nat) (burst : Bool) : (d.beacon p dl burst).mode = d.mode := by
  simp [Dev.beacon]

@[simp] theorem Dev.sendBeacon_keepsMode (d : Dev) (p : Port) : (d.sendBeacon p).mode = d.mode := by
  unfold Dev.sendBeacon
  simp [apply_ite Dev.mode]

@[simp] theorem Dev.oweBeacon_keepsMode (d : Dev) (p : Port) : (d.oweBeacon p).mode = d.mode := by
  simp [Dev.oweBeacon]

@[simp] theorem Dev.sendNaks_keepsMode (d : Dev) (p : Port) : (d.sendNaks p).mode = d.mode := by
  unfold Dev.sendNaks
  simp [forEach_keepsMode, apply_ite Dev.mode]

@[simp] theorem Dev.oweNak_keepsMode (d : Dev) (p : Port) (l : Lane) : (d.oweNak p l).mode = d.mode := by
  unfold Dev.oweNak
  simp [apply_ite Dev.mode]

@[simp] theorem Dev.sendOwed_keepsMode (d : Dev) (p : Port) : (d.sendOwed p).mode = d.mode := by
  unfold Dev.sendOwed
  simp [apply_ite Dev.mode]

@[simp] theorem Dev.applyDelay_keepsMode (d : Dev) (p : Port) : (d.applyDelay p).mode = d.mode := by
  unfold Dev.applyDelay
  dsimp only
  (repeat' split) <;> simp

@[simp] theorem Dev.otherUp_keepsMode (d : Dev) (p : Port) (dl : Nat) : (d.otherUp p dl).mode = d.mode := by
  simp [Dev.otherUp]

@[simp] theorem Dev.feTrain_keepsMode (d : Dev) (p : Port) (locked : Bool) (attempt phys : Nat) :
    (d.feTrain p locked attempt phys).mode = d.mode := by
  simp [Dev.feTrain]

@[simp] theorem Dev.declareFailed_keepsMode (d : Dev) (p : Port) (phys : Nat) (forced : Bool) :
    (d.declareFailed p phys forced).mode = d.mode := by
  unfold Dev.declareFailed
  dsimp only
  (repeat' split) <;> simp

@[simp] theorem Dev.failOther_keepsMode (d : Dev) (p : Port) (dl : Nat) : (d.failOther p dl).mode = d.mode := by
  unfold Dev.failOther
  simp [apply_ite Dev.mode]

@[simp] theorem Dev.failDownlink_keepsMode (d : Dev) (p : Port) (dl : Nat) : (d.failDownlink p dl).mode = d.mode := by
  unfold Dev.failDownlink
  simp [apply_ite Dev.mode]

@[simp] theorem Dev.failLane_keepsMode (d : Dev) (p : Port) (phys : Nat) : (d.failLane p phys).mode = d.mode := by
  unfold Dev.failLane
  simp [apply_ite Dev.mode]

@[simp] theorem Dev.feLaneMap_keepsMode (d : Dev) (p : Port) (l phys : Nat) (lost : Bool) :
    (d.feLaneMap p l phys lost).mode = d.mode := by
  have told (ups : List Nat) (g : Nat → Out) (x : Dev) : (forEach ups (fun n x => x.emit (g n)) x).mode = x.mode :=
    forEach_keepsMode _ _ (fun _ _ => Dev.emit_mode _ _) x
  unfold Dev.feLaneMap
  dsimp only
  split
  · rw [Dev.resetRecords_keepsMode, Dev.updFe_mode, told, Dev.setFe_mode]
  · rw [told, Dev.setFe_mode]

@[simp] theorem Dev.resend_keepsMode (d : Dev) (p : Port) (l : Lane) (k : RPacket) : (d.resend p l k).mode = d.mode := by
  simp [Dev.resend]

@[simp] theorem Dev.replayFrom_keepsMode (d : Dev) (p : Port) (l : Lane) (n : Nat) : (d.replayFrom p l n).mode = d.mode := by
  unfold Dev.replayFrom
  simp [forEach_keepsMode, apply_ite Dev.mode]

@[simp] theorem Dev.discardReplay_keepsMode (d : Dev) (p : Port) (l : Lane) : (d.discardReplay p l).mode = d.mode := by
  unfold Dev.discardReplay
  simp [apply_ite Dev.mode]

@[simp] theorem Dev.resume_keepsMode (d : Dev) (p : Port) (l : Lane) (st : LaneStat) : (d.resume p l st).mode = d.mode := by
  unfold Dev.resume
  dsimp only
  (repeat' split) <;> simp [forEach_keepsMode]

@[simp] theorem Dev.restoreFe_keepsMode (d : Dev) (p : Port) : (d.restoreFe p).mode = d.mode := by
  unfold Dev.restoreFe
  simp [apply_ite Dev.mode]

@[simp] theorem Dev.testBlock_keepsMode (d : Dev) (p : Port) (rx : Rx) (b : Block) (stuffing : Bool) :
    (d.testBlock p rx b stuffing).mode = d.mode := by
  unfold Dev.testBlock
  extract_lets code c l place
  cases rx with
  | up n => rfl
  | down n =>
    dsimp only
    split
    · rw [forRange_keepsMode _ _ fun _ _ => Dev.emit_mode _ _, Dev.bump_mode, Dev.setPort_mode]
    · rw [Dev.bump_mode, Dev.setPort_mode]

@[simp] theorem Dev.swapDownlink_keepsMode (d : Dev) (p : Port) (cause : Nat) : (d.swapDownlink p cause).mode = d.mode := by
  simp [Dev.swapDownlink]

@[simp] theorem Dev.swapStep_keepsMode (d : Dev) (p : Port) (notBefore cause : Nat) :
    (d.swapStep p notBefore cause).mode = d.mode := by
  unfold Dev.swapStep
  dsimp only
  (repeat' split) <;> simp

@[simp] theorem Dev.mirrorStage_keepsMode (d : Dev) (p : Port) (o : Nat) (val : Bytes) :
    (d.mirrorStage p o val).mode = d.mode := by
  unfold Dev.mirrorStage
  simp

@[simp] theorem Dev.setMirror_keepsMode (d : Dev) (p : Port) (a e : Nat) (val : Bytes) :
    (d.setMirror p a e val).mode = d.mode := by
  unfold Dev.setMirror
  dsimp only
  (repeat' split) <;> simp

@[simp] theorem Dev.resolveDone_keepsMode (d : Dev) (p : Port) : (d.resolveDone p).mode = d.mode := by
  unfold Dev.resolveDone
  dsimp only
  (repeat' split) <;> simp

@[simp] theorem Dev.resolveWith_keepsMode (d : Dev) (p : Port) (st : Status) : (d.resolveWith p st).mode = d.mode := by
  unfold Dev.resolveWith
  dsimp only
  (repeat' split) <;> simp

@[simp] theorem Dev.sweepValue_keepsMode (d : Dev) (p : Port) (elem v : Nat) : (d.sweepValue p elem v).mode = d.mode := by
  unfold Dev.sweepValue
  dsimp only
  split <;> simp

@[simp] theorem Dev.sweepStart_keepsMode (d : Dev) (p : Port) (at_ : Nat) : (d.sweepStart p at_).mode = d.mode := by
  unfold Dev.sweepStart
  simp [forEach_keepsMode, apply_ite Dev.mode]

@[simp] theorem Dev.readOn_keepsMode (d : Dev) (p : Port) (m : CfgMsg) (value : Bytes) : (d.readOn p m value).mode = d.mode := by
  simp [Dev.readOn]

@[simp] theorem Dev.cfgAnswered_keepsMode (d : Dev) (p : Port) (m : CfgMsg) (st : Status) (value : Bytes) :
    (d.cfgAnswered p m st value).mode = d.mode := by
  unfold Dev.cfgAnswered
  dsimp only
  (repeat' split) <;> simp

@[simp] theorem Dev.takeFloors_keepsMode (d : Dev) (p : Port) : (d.takeFloors p).mode = d.mode := by
  unfold Dev.takeFloors
  simp [forEach_keepsMode, apply_ite Dev.mode]

@[simp] theorem Dev.biasCmd_keepsMode (d : Dev) (p : Port) (groups level cyc slot : Nat) (window : Bool) :
    (d.biasCmd p groups level cyc slot window).mode = d.mode := by
  unfold Dev.biasCmd
  simp [apply_ite Dev.mode]

@[simp] theorem Dev.biasAt_keepsMode (d : Dev) (p : Port) (groups level target : Nat) (window : Bool) :
    (d.biasAt p groups level target window).mode = d.mode := by
  simp [Dev.biasAt]

@[simp] theorem Dev.biasAll_keepsMode (d : Dev) (p : Port) (window : Bool) (cs : List (Nat × Nat × Nat)) :
    (d.biasAll p window cs).mode = d.mode := by
  unfold Dev.biasAll
  simp [forEach_keepsMode]

@[simp] theorem Dev.rebias_keepsMode (d : Dev) (p : Port) (from_ : Nat) (window : Bool) :
    (d.rebias p from_ window).mode = d.mode := by
  unfold Dev.rebias
  simp [apply_ite Dev.mode]

@[simp] theorem Dev.regrid_keepsMode (d old : Dev) (k : Nat) : (d.regrid old k).mode = d.mode := by
  unfold Dev.regrid
  simp [forEach_keepsMode]

@[simp] theorem Dev.dropMove_keepsMode (d : Dev) : d.dropMove.mode = d.mode := d.dropMove_gridKept.mode

@[simp] theorem Dev.moveGrid_keepsMode (d : Dev) (m : GridMove) : (d.moveGrid m).mode = d.mode := (d.moveGrid_gridKept m).mode

@[simp] theorem Dev.failStart_keepsMode (d : Dev) (reason : Nat) : (d.failStart reason).mode = d.mode := by
  simp [Dev.failStart]

@[simp] theorem Dev.safeSoon_keepsMode (d : Dev) (reason : Nat) : (d.safeSoon reason).mode = d.mode := by
  unfold Dev.safeSoon
  simp [apply_ite Dev.mode]

@[simp] theorem Dev.fallSafe_keepsMode (d : Dev) (reason : Nat) : (d.fallSafe reason).mode = d.mode := by
  unfold Dev.fallSafe
  split
  · rename_i boot
    exact (d.restart_mode 0x05).trans boot.symm
  · split
    · rfl
    · exact Dev.safeSoon_keepsMode _ _

@[simp] theorem Dev.rephase_keepsMode (d : Dev) (delta from_ : Int) (synth : Bool) :
    (d.rephase delta from_ synth).mode = d.mode := by
  simp [Dev.rephase]

@[simp] theorem Dev.alignSynth_keepsMode (d : Dev) : d.alignSynth.mode = d.mode := by
  unfold Dev.alignSynth
  simp [apply_ite Dev.mode]

@[simp] theorem Dev.synthCheck_keepsMode (d : Dev) : d.synthCheck.mode = d.mode := by
  unfold Dev.synthCheck
  simp [apply_ite Dev.mode]

@[simp] theorem Dev.startAligning_keepsMode (d : Dev) : d.startAligning.mode = d.mode := by
  unfold Dev.startAligning
  simp [apply_ite Dev.mode]

@[simp] theorem Dev.flywheelCheck_keepsMode (d : Dev) : d.flywheelCheck.mode = d.mode := by
  unfold Dev.flywheelCheck
  simp [apply_ite Dev.mode]

@[simp] theorem Dev.expectMarker_keepsMode (d : Dev) : d.expectMarker.mode = d.mode := by
  unfold Dev.expectMarker
  simp [apply_ite Dev.mode]

@[simp] theorem Dev.setTim_keepsMode (d : Dev) (i : Fin 8) (c : TimChan) : (d.setTim i c).mode = d.mode := by
  simp [Dev.setTim]

@[simp] theorem Dev.measureTim_keepsMode (d : Dev) (i : Fin 8) (from_ : Option TimEdge) (edge : TimEdge) :
    (d.measureTim i from_ edge).mode = d.mode := by
  unfold Dev.measureTim
  simp [apply_ite Dev.mode]

@[simp] theorem Dev.settleTim_keepsMode (d : Dev) (i : Fin 8) : (d.settleTim i).mode = d.mode := by
  unfold Dev.settleTim
  simp [forEach_keepsMode]

@[simp] theorem Dev.settleTims_keepsMode (d : Dev) : d.settleTims.mode = d.mode := by
  unfold Dev.settleTims
  simp [forEach_keepsMode]

@[simp] theorem Dev.markTim_keepsMode (d : Dev) (flags : Nat) : (d.markTim flags).mode = d.mode := by
  unfold Dev.markTim
  simp [apply_ite Dev.mode]

@[simp] theorem Dev.coast_keepsMode (d : Dev) : d.coast.mode = d.mode := by
  simp [Dev.coast]

@[simp] theorem Dev.pickFreq_keepsMode (d : Dev) : d.pickFreq.mode = d.mode := by
  simp [Dev.pickFreq]

@[simp] theorem Dev.goState_keepsMode (d : Dev) (st : TbState) : (d.goState st).mode = d.mode := by
  simp [Dev.goState]

@[simp] theorem Dev.lock_keepsMode (d : Dev) (slewing : Bool) : (d.lock slewing).mode = d.mode := by
  unfold Dev.lock
  simp [apply_ite Dev.mode]

@[simp] theorem Dev.dispute_keepsMode (d : Dev) (p : Fin 2) (m : Int) : (d.dispute p m).mode = d.mode := by
  unfold Dev.dispute
  simp [apply_ite Dev.mode]

@[simp] theorem Dev.enterHoldover_keepsMode (d : Dev) (last : Nat) : (d.enterHoldover last).mode = d.mode := by
  simp [Dev.enterHoldover]

@[simp] theorem Dev.updPtp_keepsMode (d : Dev) (p : Fin 2) (g : PtpSource → PtpSource) : (d.updPtp p g).mode = d.mode := by
  simp [Dev.updPtp]

@[simp] theorem Dev.takeSource_keepsMode (d : Dev) (p : Fin 2) : (d.takeSource p).mode = d.mode := by
  unfold Dev.takeSource
  dsimp only
  (repeat' split) <;> simp

@[simp] theorem Dev.cancelStep_keepsMode (d : Dev) (p : Fin 2) : (d.cancelStep p).mode = d.mode := by
  unfold Dev.cancelStep
  split <;> simp

@[simp] theorem Dev.disqualify_keepsMode (d : Dev) (p : Fin 2) : (d.disqualify p).mode = d.mode := by
  unfold Dev.disqualify
  dsimp only
  (repeat' split) <;> simp

@[simp] theorem Dev.sourcesChanged_keepsMode (d : Dev) : d.sourcesChanged.mode = d.mode := by
  unfold Dev.sourcesChanged
  extract_lets off picked locked released noted freed
  have hOff (p : Fin 2) (x : Dev) : (off p x).mode = x.mode := by
    unfold off
    split
    · rfl
    · split
      · exact Dev.disqualify_keepsMode _ _
      · rfl
  have hPicked : picked.mode = d.mode := (Dev.pickFreq_keepsMode _).trans (forEach_keepsMode _ _ hOff d)
  have hReleased : released.mode = picked.mode := by
    unfold released
    split
    · exact Dev.cancelStep_keepsMode _ _
    · rfl
  have hNoted : noted.mode = released.mode := by
    unfold noted
    split
    · exact Dev.log_keepsMode _ _ _ _ _ _
    · rfl
  have hFreed : freed.mode = noted.mode := by
    unfold freed
    split
    · rfl
    · exact Dev.goState_keepsMode _ _
  split
  · exact (Dev.coast_keepsMode _).trans (by rw [hFreed, hNoted, hReleased, hPicked])
  · split
    · split
      · exact (Dev.enterHoldover_keepsMode _ _).trans hPicked
      · exact (Dev.goState_keepsMode _ _).trans hPicked
    · exact hPicked

@[simp] theorem Dev.servo_keepsMode (d : Dev) (theta : Int) : (d.servo theta).mode = d.mode := by
  simp [Dev.servo]

@[simp] theorem Dev.homeDisagrees_keepsMode (d : Dev) (h : Fin 2) : (d.homeDisagrees h).mode = d.mode := by
  unfold Dev.homeDisagrees
  simp [apply_ite Dev.mode]

@[simp] theorem Dev.besideTheta_keepsMode (d : Dev) (p : Fin 2) (theta : Int) : (d.besideTheta p theta).mode = d.mode := by
  unfold Dev.besideTheta
  simp [apply_ite Dev.mode]

@[simp] theorem Dev.newTheta_keepsMode (d : Dev) (p : Fin 2) (theta : Int) : (d.newTheta p theta).mode = d.mode := by
  unfold Dev.newTheta
  dsimp only
  (repeat' split) <;> simp

@[simp] theorem Dev.judgePtp_keepsMode (d : Dev) (p : Fin 2) : (d.judgePtp p).mode = d.mode := by
  unfold Dev.judgePtp
  simp [apply_ite Dev.mode]

@[simp] theorem Dev.badInterval_keepsMode (d : Dev) (p : Fin 2) : (d.badInterval p).mode = d.mode := by
  simp [Dev.badInterval]

@[simp] theorem Dev.syncDone_keepsMode (d : Dev) (p : Fin 2) (back : Int) (t1 : Int) (y : PtpSync) :
    (d.syncDone p back t1 y).mode = d.mode := by
  unfold Dev.syncDone
  simp [apply_ite Dev.mode]

@[simp] theorem Dev.selectMaster_keepsMode (d : Dev) (p : Fin 2) : (d.selectMaster p).mode = d.mode := by
  simp [Dev.selectMaster]

@[simp] theorem Dev.judgeSynce_keepsMode (d : Dev) (p : Fin 2) : (d.judgeSynce p).mode = d.mode := by
  unfold Dev.judgeSynce
  simp [apply_ite Dev.mode]

@[simp] theorem Dev.skipSeconds_keepsMode (d : Dev) (r0 r1 : Int) (o : Fin 2) : (d.skipSeconds r0 r1 o).mode = d.mode := by
  unfold Dev.skipSeconds
  simp [apply_ite Dev.mode]

@[simp] theorem Dev.stepTime_keepsMode (d : Dev) (size : Int) (first : Bool) : (d.stepTime size first).mode = d.mode := by
  unfold Dev.stepTime
  simp [forEach_keepsMode]

@[simp] theorem Dev.copyAgain_keepsMode (d : Dev) : d.copyAgain.mode = d.mode := by
  simp [Dev.copyAgain]

@[simp] theorem Dev.changeRef_keepsMode (d : Dev) (new : Nat) (byFault : Bool) : (d.changeRef new byFault).mode = d.mode := by
  unfold Dev.changeRef
  simp [apply_ite Dev.mode]

@[simp] theorem Dev.loseRef_keepsMode (d : Dev) (q : Fin 2) : (d.loseRef q).mode = d.mode := by
  unfold Dev.loseRef
  simp [apply_ite Dev.mode]

@[simp] theorem Dev.pulseOut_keepsMode (d : Dev) (o : Fin 2) (ahead : Int) : (d.pulseOut o ahead).mode = d.mode := by
  simp [Dev.pulseOut]

@[simp] theorem Dev.swapTb_keepsMode (d : Dev) (forced : Bool) : (d.swapTb forced).mode = d.mode := by
  unfold Dev.swapTb
  simp [apply_ite Dev.mode]

@[simp] theorem Dev.forcedSwap_keepsMode (d : Dev) : d.forcedSwap.mode = d.mode := by
  unfold Dev.forcedSwap
  simp [apply_ite Dev.mode]

@[simp] theorem Dev.charge_keepsMode (d : Dev) (k n : Nat) : (d.charge k n).mode = d.mode := by
  unfold Dev.charge
  simp [apply_ite Dev.mode]

@[simp] theorem Dev.noteShort_keepsMode (d : Dev) (k : Nat) : (d.noteShort k).mode = d.mode := by
  unfold Dev.noteShort
  simp [apply_ite Dev.mode]

@[simp] theorem Dev.markOver_keepsMode (d : Dev) (was : Nat → Nat) : (d.markOver was).mode = d.mode := by
  have same : SameMode d (d.markOver was) := by
    refine forRange_sameMode 64 _ (fun k x => ?_) d
    split
    · exact ⟨rfl⟩
    · exact .refl x
  exact same.mode

@[simp] theorem Dev.clearOver_keepsMode (d : Dev) (k : Nat) : (d.clearOver k).mode = d.mode := by
  unfold Dev.clearOver
  simp [apply_ite Dev.mode]

@[simp] theorem Dev.trainChannels_keepsMode (d : Dev) : d.trainChannels.mode = d.mode := by
  unfold Dev.trainChannels
  simp [forRange_keepsMode, apply_ite Dev.mode]

@[simp] theorem Dev.computeIndex_keepsMode (d : Dev) : d.computeIndex.mode = d.mode := (Dev.set_mode _ _ _ _).trans (Dev.set_mode _ _ _ _)

@[simp] theorem Dev.putEff_keepsMode (d : Dev) (a : Nat) (vals : List (Nat × Nat × Nat)) : (d.putEff a vals).mode = d.mode := forEach_keepsMode _ _ (fun _ _ => Dev.set_mode _ _ _ _) d

@[simp] theorem Dev.rescale_keepsMode (d : Dev) : d.rescale.mode = d.mode := by
  simp [Dev.rescale, forRange_keepsMode]

@[simp] theorem Dev.allotBlock_keepsMode (d : Dev) (k : Nat) (avoid : Option Nat) : (d.allotBlock k avoid).mode = d.mode := by
  unfold Dev.allotBlock
  dsimp only
  (repeat' split) <;> simp

@[simp] theorem Dev.retireFreed_keepsMode (d : Dev) (b : Nat) : (d.retireFreed b).mode = d.mode := by
  unfold Dev.retireFreed
  split <;> simp

@[simp] theorem Dev.markBlock_keepsMode (d : Dev) (b why : Nat) : (d.markBlock b why).mode = d.mode := by
  unfold Dev.markBlock
  simp [apply_ite Dev.mode]

@[simp] theorem Dev.loseBlock_keepsMode (d : Dev) (b : Nat) : (d.loseBlock b).mode = d.mode := by
  unfold Dev.loseBlock
  simp [apply_ite Dev.mode]

@[simp] theorem Dev.memFault_keepsMode (d : Dev) (x : BadWord) : (d.memFault x).mode = d.mode := by
  unfold Dev.memFault
  dsimp only
  (repeat' split) <;> simp

@[simp] theorem Dev.freeRun_keepsMode (d : Dev) (k b n : Nat) : (d.freeRun k b n).mode = d.mode := by
  unfold Dev.freeRun
  simp [apply_ite Dev.mode]

@[simp] theorem Dev.place_keepsMode (d : Dev) (port k : Nat) (n0 n1 : Nat) : (d.place port k n0 n1).2.mode = d.mode := by
  induction n0 generalizing d n1 with
  | zero => rfl
  | succ n ih =>
    unfold Dev.place
    extract_lets allotted s m
    have hAllotted : allotted.mode = d.mode := by
      unfold allotted
      split
      · rfl
      · exact Dev.allotBlock_keepsMode _ _ _
    split
    · rfl
    split
    · exact hAllotted
    · split
      · exact hAllotted
      · dsimp only
        rw [ih]
        exact hAllotted

@[simp] theorem Dev.placeIndex_keepsMode (d : Dev) : d.placeIndex.2.mode = d.mode := by
  unfold Dev.placeIndex
  dsimp only
  (repeat' split) <;> simp

@[simp] theorem Dev.syncRing_keepsMode (d : Dev) (k : Nat) : (d.syncRing k).mode = d.mode := by
  unfold Dev.syncRing
  simp [forEach_keepsMode, forRange_keepsMode, apply_ite Dev.mode]

@[simp] theorem Dev.syncStall_keepsMode (d : Dev) (k : Nat) : (d.syncStall k).mode = d.mode := by
  unfold Dev.syncStall
  simp [apply_ite Dev.mode]

@[simp] theorem Dev.syncStalls_keepsMode (d : Dev) : d.syncStalls.mode = d.mode := by
  unfold Dev.syncStalls
  simp [forRange_keepsMode]

@[simp] theorem Dev.lookup_keepsMode (d : Dev) (slice : Fin 8) (k : Nat) : (d.lookup slice k).2.mode = d.mode := by
  unfold Dev.lookup
  dsimp only
  (repeat' split) <;> simp

@[simp] theorem Dev.setMergeBit_keepsMode (d : Dev) (i : Nat) (b : Bool) : (d.setMergeBit i b).mode = d.mode := by
  simp [Dev.setMergeBit]

@[simp] theorem Dev.invalidateCaches_keepsMode (d : Dev) : d.invalidateCaches.mode = d.mode := by
  simp [Dev.invalidateCaches]

@[simp] theorem Dev.applyCommit_keepsMode (d : Dev) (b : Nat) : (d.applyCommit b).mode = d.mode := by
  unfold Dev.applyCommit
  dsimp only
  (repeat' split) <;> simp

@[simp] theorem Dev.applyFormat_keepsMode (d : Dev) : d.applyFormat.mode = d.mode := by
  unfold Dev.applyFormat
  dsimp only
  (repeat' split) <;> simp

@[simp] theorem Dev.openBasket_keepsMode (d : Dev) (frame start : Nat) : (d.openBasket frame start).mode = d.mode := by
  unfold Dev.openBasket
  extract_lets n key rk
  have looked := d.lookup_keepsMode (Fin.ofNat 8 n) rk
  generalize d.lookup (Fin.ofNat 8 n) rk = found at looked
  obtain ⟨route, x⟩ := found
  dsimp only at looked
  have counted (parts : List PortPart) : SameMode x (forEach parts (fun y x => x.bump Reg.MG_MISSING y.port) x) :=
    forEach_sameMode _ _ (fun _ _ => ⟨Dev.bump_mode _ _ _ _⟩) x
  dsimp only
  rw [Dev.set_mode, (counted _).mode, looked]

@[simp] theorem Dev.lateRecords_keepsMode (d : Dev) (p : Port) (rs : List Record) : (d.lateRecords p rs).mode = d.mode := by
  simp [Dev.lateRecords]

@[simp] theorem Dev.deliver_keepsMode (d : Dev) (p : Port) (l : Lane) (frame cycLo : Nat) (rs : List Record) :
    (d.deliver p l frame cycLo rs).mode = d.mode := by
  unfold Dev.deliver
  dsimp only
  (repeat' split) <;> simp

@[simp] theorem Dev.acceptPacket_keepsMode (d : Dev) (p : Port) (l : Lane) (k : PacketIn) (bytes : Bytes) :
    (d.acceptPacket p l k bytes).mode = d.mode := by
  unfold Dev.acceptPacket
  dsimp only
  split <;> simp

@[simp] theorem Dev.closeBasket_keepsMode (d : Dev) (b : Basket) (timeout : Bool) : (d.closeBasket b timeout).mode = d.mode := by
  unfold Dev.closeBasket
  extract_lets parts now marked newly missing counted has m merge closed
  have hMissing : missing.mode = d.mode := forEach_keepsMode _ _ (fun _ _ => Dev.bump_mode _ _ _ _) marked
  have hCounted : counted.mode = missing.mode :=
    forEach_keepsMode _ _ (fun _ _ => (Dev.log_keepsMode _ _ _ _ _ _).trans (Dev.bump_mode _ _ _ _)) missing
  have hClosed : closed.mode = d.mode := hCounted.trans hMissing
  split
  · exact hClosed
  · exact hClosed

@[simp] theorem Dev.setEgr_keepsMode (d : Dev) (b : Fin 8) (e : Egress) : (d.setEgr b e).mode = d.mode := by
  simp [Dev.setEgr]

@[simp] theorem Dev.dropHomes_keepsMode (d : Dev) (b : Basket) : (d.dropHomes b).mode = d.mode := by
  unfold Dev.dropHomes
  simp [forEach_keepsMode]

@[simp] theorem Dev.freeBasket_keepsMode (d : Dev) (n : Nat) : (d.freeBasket n).mode = d.mode := by
  unfold Dev.freeBasket
  extract_lets dropped
  have hDropped : dropped.mode = d.mode := by
    unfold dropped
    split
    · exact Dev.dropHomes_keepsMode _ _
    · rfl
  exact (Dev.syncStalls_keepsMode _).trans hDropped

@[simp] theorem Dev.chargeBasket_keepsMode (d : Dev) (b : Basket) : (d.chargeBasket b).mode = d.mode := by
  unfold Dev.chargeBasket
  simp [forEach_keepsMode]

@[simp] theorem Dev.storeBasket_keepsMode (d : Dev) (n : Nat) (held : Bool) : (d.storeBasket n held).mode = d.mode := by
  have placed (ps : List Nat) (put : List Home × Dev → Nat → List Home × Dev) (hPut : ∀ x p, (put x p).2.mode = x.2.mode)
      (x : List Home × Dev) : (ps.foldl put x).2.mode = x.2.mode := by
    induction ps generalizing x with
    | nil => rfl
    | cons q ps ih => exact (ih _).trans (hPut x q)
  unfold Dev.storeBasket
  split
  · rfl
  · rename_i b _
    extract_lets put
    have stored := placed (b.items.map BItem.port).dedup put (fun x p => Dev.place_keepsMode _ _ _ _ _) ([], d)
    generalize ((b.items.map BItem.port).dedup).foldl put ([], d) = x at stored
    obtain ⟨homes, x⟩ := x
    dsimp only at stored ⊢
    have indexed : (if held = true then (x.charge 2 2048).placeIndex else ([], x)).2.mode = x.mode := by
      split
      · rw [Dev.placeIndex_keepsMode, Dev.charge_keepsMode]
      · rfl
    generalize (if held = true then (x.charge 2 2048).placeIndex else ([], x)) = y at indexed
    obtain ⟨index, y⟩ := y
    dsimp only at indexed ⊢
    rw [Dev.chargeBasket_keepsMode, Dev.updBasket_keepsMode, indexed, stored]

@[simp] theorem Dev.freeSent_keepsMode (d : Dev) : d.freeSent.mode = d.mode := by
  have same : SameMode d d.freeSent := forEach_sameMode _ _ (fun _ _ => ⟨Dev.freeBasket_keepsMode _ _⟩) d
  exact same.mode

@[simp] theorem Dev.admitPart_keepsMode (d : Dev) (n : Nat) (x : PortPart) : (d.admitPart n x).mode = d.mode := by
  unfold Dev.admitPart
  dsimp only
  (repeat' split) <;> simp

@[simp] theorem Dev.hold_keepsMode (d : Dev) (b : Basket) : (d.hold b).mode = d.mode := by
  simp [Dev.hold, forEach_keepsMode]

@[simp] theorem Dev.setRing_keepsMode (d : Dev) (r : List RingEntry) : (d.setRing r).mode = d.mode := by
  simp [Dev.setRing]

@[simp] theorem Dev.endPause_keepsMode (d : Dev) (b : Fin 8) : (d.endPause b).mode = d.mode := by
  unfold Dev.endPause
  simp [forEach_keepsMode]

@[simp] theorem Dev.dropPause_keepsMode (d : Dev) (b : Fin 8) : (d.dropPause b).mode = d.mode := by
  unfold Dev.dropPause
  split <;> simp

@[simp] theorem Dev.resetSlice_keepsMode (d : Dev) (queue : Nat) (port : Option Nat) (sel : BItem → Bool) (lost : List (BitVec 64 × Nat)) :
    (d.resetSlice queue port sel lost).mode = d.mode := by
  unfold Dev.resetSlice
  simp [forEach_keepsMode]

@[simp] theorem Dev.resetEgress_keepsMode (d : Dev) (b : Fin 8) : (d.resetEgress b).mode = d.mode := by
  simp [Dev.resetEgress]

@[simp] theorem Dev.setBank_keepsMode (d : Dev) (b : Bank) : (d.setBank b).mode = d.mode := forEach_keepsMode _ _ (fun _ x => forRange_keepsMode _ _ (fun _ _ => Dev.set_mode _ _ _ _) x) d

@[simp] theorem Dev.passWindow_keepsMode (d : Dev) (o : CalOcc) : (d.passWindow o).mode = d.mode := by
  simp [Dev.passWindow]

@[simp] theorem Dev.sendCopy_keepsMode (d : Dev) (p : Port) (f : Fcmd) : (d.sendCopy p f).mode = d.mode := by
  unfold Dev.sendCopy
  simp [apply_ite Dev.mode]

@[simp] theorem Dev.lateCommands_keepsMode (d : Dev) (p : Port) (n : Nat) : (d.lateCommands p n).mode = d.mode := by
  unfold Dev.lateCommands
  simp [apply_ite Dev.mode]

@[simp] theorem Dev.passTargets_keepsMode (d : Dev) (p : Port) : (d.passTargets p).mode = d.mode := by
  simp [Dev.passTargets]

@[simp] theorem Dev.sendMirror_keepsMode (d : Dev) (b : Bank) (cyc : Nat) : (d.sendMirror b cyc).mode = d.mode := by
  unfold Dev.sendMirror
  simp [forEach_keepsMode, apply_ite Dev.mode]

@[simp] theorem Dev.newCycle_keepsMode (d : Dev) (start cycle : Nat) : (d.newCycle start cycle).mode = d.mode := by
  unfold Dev.newCycle
  split <;> simp [forEach_keepsMode, apply_ite Dev.mode]

@[simp] theorem Dev.openWindow_keepsMode (d : Dev) (start : Int) (width tag : Nat) :
    (d.openWindow start width tag).mode = d.mode := by
  unfold Dev.openWindow
  simp [apply_ite Dev.mode]

@[simp] theorem Dev.decideFrame_keepsMode (d : Dev) (key : Nat) (sel : Bool) : (d.decideFrame key sel).mode = d.mode := by
  simp [Dev.decideFrame]

@[simp] theorem Dev.expire_keepsMode (d : Dev) (b : Basket) : (d.expire b).mode = d.mode := (Dev.freeBasket_keepsMode _ _).trans ((Dev.bump_mode _ _ _ _).trans (Dev.decideFrame_keepsMode _ _ _))

@[simp] theorem Dev.pruneWindows_keepsMode (d : Dev) (stop : Nat) : (d.pruneWindows stop).mode = d.mode := by
  simp [Dev.pruneWindows]

@[simp] theorem Dev.dropWindows_keepsMode (d : Dev) : d.dropWindows.mode = d.mode := by
  unfold Dev.dropWindows
  simp [apply_ite Dev.mode]

@[simp] theorem Dev.payScrub_keepsMode (d : Dev) : d.payScrub.mode = d.mode := by
  simp [Dev.payScrub]

@[simp] theorem Dev.endScrub_keepsMode (d : Dev) : d.endScrub.mode = d.mode := by
  simp [Dev.endScrub]

@[simp] theorem Dev.scaleNow_keepsMode (d : Dev) (cause : Nat) : (d.scaleNow cause).mode = d.mode := by
  have rescaled (x : Dev) : SameMode x x.rescale := ⟨x.rescale_keepsMode⟩
  have noted (x : Dev) (m : Memory) : SameMode x { x with mem := m } := ⟨rfl⟩
  have same : SameMode d (d.scaleNow cause) := by
    unfold Dev.scaleNow
    extract_lets was scaled mem marked
    have hScaled : SameMode d scaled := rescaled d
    clear_value scaled
    have hMarked : SameMode scaled marked := noted scaled _
    clear_value marked
    split
    · exact (hScaled.trans hMarked).trans ⟨Dev.log_keepsMode _ _ _ _ _ _⟩
    · exact hScaled.trans hMarked
  exact same.mode

@[simp] theorem Dev.loadDiag_keepsMode (d : Dev) (x : RawWord) : (d.loadDiag x).mode = d.mode := by
  simp [Dev.loadDiag]

@[simp] theorem Dev.diagRead_keepsMode (d : Dev) : d.diagRead.2.mode = d.mode := by
  unfold Dev.diagRead
  dsimp only
  split <;> simp

theorem Dev.diagCommand_keepsMode (d : Dev) (w : Writer) (code : Nat) {f : Dev → Dev}
    (h : ∀ x, (f x).mode = x.mode) : (d.diagCommand w code f).mode = d.mode := by
  refine d.write_keepsMode w _ 0 _ fun x _ => ?_
  split
  · rfl
  · split
    · rfl
    · exact h x

@[simp] theorem Dev.regate_keepsMode (d : Dev) (p : Port) (old : Dev) : (d.regate p old).mode = d.mode := by
  unfold Dev.regate
  simp [apply_ite Dev.mode]

@[simp] theorem Dev.setCaddy_keepsMode (d : Dev) (i : Nat) (c : Caddy) : (d.setCaddy i c).mode = d.mode := by
  simp [Dev.setCaddy]

@[simp] theorem Dev.dropRaises_keepsMode (d : Dev) (p : Port) : (d.dropRaises p).mode = d.mode := by
  simp [Dev.dropRaises]

@[simp] theorem Dev.updateCaddy_keepsMode (d : Dev) (p : Port) (power : Nat) : (d.updateCaddy p power).mode = d.mode := by
  unfold Dev.updateCaddy
  extract_lets depth c now_ shown marked raised told refused
  have hMarked : marked.mode = d.mode := by
    simp only [marked, shown, Dev.set_mode, Dev.setI_mode, Dev.setCaddy_keepsMode]
  have hRefused : refused.mode = told.mode := forEach_keepsMode _ _ (fun _ _ => Dev.bump_mode _ _ _ _) told
  have hTold : told.mode = marked.mode := Dev.log_keepsMode _ _ _ _ _ _
  split
  · rw [Dev.regate_keepsMode, Dev.dropRaises_keepsMode, hRefused, hTold, hMarked]
  · exact hMarked

@[simp] theorem Dev.setDie_keepsMode (d : Dev) (i : Nat) (x : Die) : (d.setDie i x).mode = d.mode := by
  simp [Dev.setDie]

@[simp] theorem Dev.changeState_keepsMode (d : Dev) (i new : Nat) (temp : Int) : (d.changeState i new temp).mode = d.mode := by
  unfold Dev.changeState
  simp [apply_ite Dev.mode]

@[simp] theorem Dev.settleState_keepsMode (d : Dev) (i : Nat) (temp : Int) : (d.settleState i temp).mode = d.mode := by
  unfold Dev.settleState
  dsimp only
  (repeat' split) <;> simp

@[simp] theorem Dev.evaluate_keepsMode (d : Dev) (i : Nat) (temp : Int) : (d.evaluate i temp).mode = d.mode := by
  simp [Dev.evaluate]

@[simp] theorem Dev.capRaises_keepsMode (d : Dev) (p : Port) : (d.capRaises p).mode = d.mode := by
  simp [Dev.capRaises]

@[simp] theorem Dev.actOnDie_keepsMode (d : Dev) (p : Port) (old : Dev) : (d.actOnDie p old).mode = d.mode := by
  unfold Dev.actOnDie
  simp [apply_ite Dev.mode]

@[simp] theorem Dev.showTrips_keepsMode (d : Dev) : d.showTrips.mode = d.mode := by
  simp [Dev.showTrips]

@[simp] theorem Dev.publishGates_keepsMode (d : Dev) : d.publishGates.mode = d.mode := by
  unfold Dev.publishGates
  simp [apply_ite Dev.mode]

@[simp] theorem Dev.grant_keepsMode (d : Dev) (p : Port) (g req start open_ stop : Nat) (window : Bool) :
    (d.grant p g req start open_ stop window).2.mode = d.mode := by
  unfold Dev.grant
  dsimp only
  (repeat' split) <;> simp

@[simp] theorem Dev.decideWindow_keepsMode (d : Dev) (p : Port) : (d.decideWindow p).mode = d.mode := by
  have granted (order : List Nat) (step : Nat → List Nat × Dev → List Nat × Dev) (hStep : ∀ g x, SameMode x.2 (step g x).2)
      (x : List Nat × Dev) : SameMode x.2 (forEach order step x).2 :=
    forEach_keeps (fun y => SameMode x.2 y.2) order step (fun g _ y hy => hy.trans (hStep g y)) x (.refl _)
  unfold Dev.decideWindow
  split
  · rfl
  · extract_lets passed dur order old step
    have hStep (g : Nat) (x : List Nat × Dev) : SameMode x.2 (step g x).2 := by
      have one (r : Nat) (req start open_ stop : Nat) : (x.2.grant p r req start open_ stop true).2.mode = x.2.mode :=
        Dev.grant_keepsMode _ _ _ _ _ _ _ _
      unfold step
      split
      · rename_i y eq
        exact ⟨(congrArg (fun r : Nat × Dev => r.2.mode) eq).symm.trans (one _ _ _ _ _)⟩
      · rename_i y _ eq
        exact ⟨(congrArg (fun r : Nat × Dev => r.2.mode) eq).symm.trans (one _ _ _ _ _)⟩
    have all := granted order step hStep ([], passed)
    generalize forEach order step ([], passed) = y at all
    obtain ⟨done, y⟩ := y
    split
    · rfl
    · dsimp only at all ⊢
      rw [Dev.biasAll_keepsMode, all.mode]
      exact Dev.updPort_mode _ _ _

@[simp] theorem Dev.decideWindows_keepsMode (d : Dev) (p : Port) (n0 : Nat) : (d.decideWindows p n0).mode = d.mode := by
  induction n0 generalizing d with
  | zero => rfl
  | succ n ih =>
    unfold Dev.decideWindows
    split
    · rfl
    · exact (ih _).trans (Dev.decideWindow_keepsMode _ _)

@[simp] theorem Dev.festatCounts_keepsMode (d : Dev) (p : Port) (exec late cancelled : Nat) :
    (d.festatCounts p exec late cancelled).mode = d.mode := by
  unfold Dev.festatCounts
  simp [apply_ite Dev.mode]

@[simp] theorem Dev.renew_keepsMode (d : Dev) (p : Port) (g end_ : Nat) : (d.renew p g end_).mode = d.mode := by
  unfold Dev.renew
  simp [apply_ite Dev.mode]

@[simp] theorem Dev.decideWake_keepsMode (d : Dev) (p : Port) (g : Nat) : (d.decideWake p g).mode = d.mode := by
  unfold Dev.decideWake
  dsimp only
  split
  · exact Dev.renew_keepsMode _ _ _ _
  split
  · rfl
  · have granted := d.grant_keepsMode p g 3 (d.target p) (d.target p) (d.target p + d.get Reg.GV_WAKE_HOLD) false
    split
    · rename_i x eq
      rw [eq] at granted
      exact granted
    · rename_i x _ eq
      rw [eq] at granted
      exact (Dev.biasAt_keepsMode _ _ _ _ _ _).trans granted

@[simp] theorem Dev.updateDomain_keepsMode (d : Dev) (c power : Nat) : (d.updateDomain c power).mode = d.mode := by
  unfold Dev.updateDomain
  simp [apply_ite Dev.mode]

@[simp] theorem Dev.writeSegment_keepsMode (d : Dev) : d.writeSegment.mode = d.mode := by
  unfold Dev.writeSegment
  simp [apply_ite Dev.mode]

@[simp] theorem Dev.settleStaging_keepsMode (d : Dev) : d.settleStaging.mode = d.mode := by
  unfold Dev.settleStaging
  simp [apply_ite Dev.mode]

@[simp] theorem Dev.postResult_keepsMode (d : Dev) (poster : Option (Fin 16)) (st : Nat) :
    (d.postResult poster st).mode = d.mode := by
  unfold Dev.postResult
  dsimp only
  split <;> simp

@[simp] theorem Dev.postArg_keepsMode (d : Dev) (poster : Option (Fin 16)) (arg : Nat) :
    (d.postArg poster arg).mode = d.mode := by
  unfold Dev.postArg
  dsimp only
  split <;> simp

@[simp] theorem Dev.dispatch_keepsMode (d : Dev) (j : Job) (c : Fin 16) (detail : Nat) :
    (d.dispatch j c detail).mode = d.mode := by
  simp [Dev.dispatch]

@[simp] theorem Dev.tryDispatch_keepsMode (elig : List (Fin 16)) (x : Nat × Dev) (j : Job) :
    (Dev.tryDispatch elig x j).2.mode = x.2.mode := by
  unfold Dev.tryDispatch
  dsimp only
  (repeat' split) <;> simp

@[simp] theorem Dev.schedRegs_keepsMode (d : Dev) (c : Fin 16) : (d.schedRegs c).2.mode = d.mode := by
  simp [Dev.schedRegs]

@[simp] theorem Dev.engineRegs_keepsMode (d : Dev) (e : Fin 4) : (d.engineRegs e).2.mode = d.mode := by
  simp [Dev.engineRegs]

@[simp] theorem Dev.coreBytes_keepsMode (d : Dev) (c : Fin 16) (a n : Nat) : (d.coreBytes c a n).2.mode = d.mode := by
  unfold Dev.coreBytes
  dsimp only
  (repeat' split) <;> simp

@[simp] theorem Dev.putByte_keepsMode (d : Dev) (c : Fin 16) (a v : Nat) : (d.putByte c a v).mode = d.mode := by
  unfold Dev.putByte
  simp [apply_ite Dev.mode]

@[simp] theorem Dev.coreStore_keepsMode (d : Dev) (c : Fin 16) (x : CoreStore) : (d.coreStore c x).mode = d.mode := by
  unfold Dev.coreStore
  simp [forEach_keepsMode, apply_ite Dev.mode]

@[simp] theorem Dev.coreStores_keepsMode (d : Dev) (c : Fin 16) (stores : List CoreStore) :
    (d.coreStores c stores).mode = d.mode := by
  unfold Dev.coreStores
  simp [forEach_keepsMode]

@[simp] theorem Dev.endJob_keepsMode (d : Dev) (c : Fin 16) (j : Job) (since free : Nat) :
    (d.endJob c j since free).mode = d.mode := by
  simp [Dev.endJob]

@[simp] theorem Dev.jobGone_keepsMode (d : Dev) (j : Job) : (d.jobGone j).mode = d.mode := by
  unfold Dev.jobGone
  simp [apply_ite Dev.mode]

@[simp] theorem Dev.abortJob_keepsMode (d : Dev) (c : Fin 16) (j : Job) (since : Nat) : (d.abortJob c j since).mode = d.mode := by
  simp [Dev.abortJob]

@[simp] theorem Dev.coreAccess_keepsMode (d : Dev) (core : Fin 16) (x : CoreAccess) : (d.coreAccess core x).mode = d.mode := by
  unfold Dev.coreAccess
  simp [apply_ite Dev.mode]

@[simp] theorem Dev.resetList_keepsMode (d : Dev) (q : ConcQueue) : (d.resetList q).mode = d.mode := by
  unfold Dev.resetList
  split <;> simp [forEach_keepsMode, apply_ite Dev.mode]

@[simp] theorem Dev.verifyImage_keepsMode (d : Dev) (i : Fin 2) : (d.verifyImage i).mode = d.mode := by
  simp [Dev.verifyImage]

@[simp] theorem Dev.unverified_keepsMode (d : Dev) (i : Fin 2) : (d.unverified i).mode = d.mode := by
  simp [Dev.unverified]

@[simp] theorem Dev.beginOp_keepsMode (d : Dev) (i : Fin 2) (op : ImageOp) : (d.beginOp i op).mode = d.mode := by
  simp [Dev.beginOp]

@[simp] theorem Dev.programByte_keepsMode (d : Dev) (i : Fin 2) (off : Nat) (b : Byte) :
    (d.programByte i off b).mode = d.mode := by
  unfold Dev.programByte
  simp [apply_ite Dev.mode]

@[simp] theorem Dev.setChoice_keepsMode (d : Dev) (preferred trial image : Nat) :
    (d.setChoice preferred trial image).mode = d.mode := by
  unfold Dev.setChoice
  simp [apply_ite Dev.mode]

@[simp] theorem Dev.trialWrite_keepsMode (d : Dev) (w : Writer) (val : Bytes) : (d.trialWrite w val).mode = d.mode := by
  refine d.write_keepsMode w _ 0 val fun x v => ?_
  dsimp only
  split
  · rw [Dev.log_keepsMode]
    split
    · exact Dev.setChoice_keepsMode _ _ _ _
    · rfl
  split
  · rfl
  split
  · rfl
  · rw [Dev.log_keepsMode, Dev.setChoice_keepsMode]

@[simp] theorem Dev.setEng_keepsMode (d : Dev) (e : Fin 4) (x : Engine) : (d.setEng e x).mode = d.mode := by
  simp [Dev.setEng]

@[simp] theorem Dev.endDescriptor_keepsMode (d : Dev) (e : Fin 4) (slot result status alive : Nat) :
    (d.endDescriptor e slot result status alive).mode = d.mode := by
  unfold Dev.endDescriptor
  simp [apply_ite Dev.mode]

@[simp] theorem Dev.checkAlive_keepsMode (d : Dev) (a counter : Nat) : (d.checkAlive a counter).2.2.mode = d.mode := by
  unfold Dev.checkAlive
  dsimp only
  (repeat' split) <;> simp

@[simp] theorem Dev.checkData_keepsMode (d : Dev) (ps : CvParams) (b data : Bytes) :
    (d.checkData ps b data).2.2.2.mode = d.mode := by
  unfold Dev.checkData
  dsimp only
  (repeat' split) <;> simp

@[simp] theorem Dev.noteFault_keepsMode (d : Dev) (w : ScrubWord) : (d.noteFault w).mode = d.mode := by
  unfold Dev.noteFault
  split <;> simp [apply_ite Dev.mode]

@[simp] theorem Dev.resetEngine_keepsMode (d : Dev) (e : Fin 4) : (d.resetEngine e).mode = d.mode := by
  unfold Dev.resetEngine
  simp [forEach_keepsMode]

@[simp] theorem Dev.resetConcQueue_keepsMode (d : Dev) (q : ConcQueue) (lost : List (BitVec 64 × Nat)) :
    (d.resetConcQueue q lost).mode = d.mode := by
  unfold Dev.resetConcQueue
  split <;> simp

@[simp] theorem Dev.driveEm_keepsMode (d : Dev) (n : Fin 16) : (d.driveEm n).mode = d.mode := by
  simp [Dev.driveEm]

@[simp] theorem Dev.emStart_keepsMode (d : Dev) (n : Fin 16) : (d.emStart n).mode = d.mode := by
  unfold Dev.emStart
  simp [apply_ite Dev.mode]

@[simp] theorem Dev.spoil_keepsMode (d : Dev) (i : Fin 2) (a b : Nat) (n : Fin 16) : (d.spoil i a b n).mode = d.mode := by
  unfold Dev.spoil
  dsimp only
  (repeat' split) <;> simp

@[simp] theorem Dev.setBlank_keepsMode (d : Dev) (i : Fin 2) (b : Blank) : (d.setBlank i b).mode = d.mode := by
  simp [Dev.setBlank]

@[simp] theorem Dev.endBlank_keepsMode (d : Dev) (i : Fin 2) : (d.endBlank i).mode = d.mode := by
  unfold Dev.endBlank
  dsimp only
  split <;> simp [forEach_keepsMode, apply_ite Dev.mode]

@[simp] theorem Dev.ledgerTo_keepsMode (d : Dev) (i : Fin 2) (ok : Bool) (r : LedgerRec) : (d.ledgerTo i ok r).mode = d.mode := by
  unfold Dev.ledgerTo
  simp [apply_ite Dev.mode]

@[simp] theorem Dev.tornWrite_keepsMode (d : Dev) : d.tornWrite.mode = d.mode := by
  unfold Dev.tornWrite
  simp [apply_ite Dev.mode]

@[simp] theorem Dev.badMessage_keepsMode (d : Dev) : d.badMessage.mode = d.mode := by
  simp [Dev.badMessage]

@[simp] theorem Dev.admitRequest_keepsMode (d : Dev) (c : Fin 16) (cl : Client) (q : Request) :
    (d.admitRequest c cl q).mode = d.mode := by
  unfold Dev.admitRequest
  simp [apply_ite Dev.mode]

@[simp] theorem Dev.receiveMessage_keepsMode (d : Dev) (id : ClientId) (via : Via) (mac prio : Nat) (b : Bytes) :
    (d.receiveMessage id via mac prio b).mode = d.mode := by
  unfold Dev.receiveMessage
  dsimp only
  (repeat' split) <;> simp

@[simp] theorem Dev.dropAssembly_keepsMode (d : Dev) (bus client : Nat) : (d.dropAssembly bus client).mode = d.mode := by
  simp [Dev.dropAssembly]

@[simp] theorem Dev.receiveCan_keepsMode (d : Dev) (bus : Fin 2) (client prio : Nat) (b : Bytes) :
    (d.receiveCan bus client prio b).mode = d.mode := by
  simp [Dev.receiveCan]

@[simp] theorem Dev.noteChallenge_keepsMode (d : Dev) (w : Writer) : (d.noteChallenge w).mode = d.mode := by
  unfold Dev.noteChallenge
  split <;> simp

@[simp] theorem Dev.enablePort_keepsMode (d : Dev) (p : Port) : (d.enablePort p).mode = d.mode := by
  unfold Dev.enablePort
  simp [apply_ite Dev.mode]

@[simp] theorem Dev.written_keepsMode (d : Dev) (a e old : Nat) : (d.written a e old).mode = d.mode := by
  unfold Dev.written
  simp [apply_ite Dev.mode]

@[simp] theorem Dev.putObject_keepsMode (d : Dev) (r : ObjRow) (e v : Nat) : (d.putObject r e v).2.mode = d.mode := by
  unfold Dev.putObject
  extract_lets a es after
  have hAfter : after.mode = d.mode := forEach_keepsMode _ _ (fun _ _ => Dev.set_mode _ _ _ _) d
  split
  · rfl
  · exact (forEach_keepsMode _ _ (fun _ _ => Dev.written_keepsMode _ _ _ _) after).trans hAfter

@[simp] theorem Dev.writeDiag_keepsMode (d : Dev) (w : Writer) (r : ObjRow) (val : Bytes) :
    (d.writeDiag w r val).mode = d.mode := by
  unfold Dev.writeDiag
  split
  · exact d.write_keepsMode w _ 0 val fun _ _ => rfl
  · rfl

@[simp] theorem Dev.newChallenge_keepsMode (d : Dev) : d.newChallenge.mode = d.mode := by
  simp [Dev.newChallenge]

@[simp] theorem Dev.giveToken_keepsMode (d : Dev) (w : Writer) : (d.giveToken w).mode = d.mode := by
  unfold Dev.giveToken
  split <;> simp

@[simp] theorem Dev.dropTxns_keepsMode (d : Dev) (c : Fin 16) : (d.dropTxns c).mode = d.mode := by
  unfold Dev.dropTxns
  split <;> simp

@[simp] theorem Dev.setHealth_keepsMode (d : Dev) (u : Fin 2) (h : Nat) : (d.setHealth u h).mode = d.mode := by
  simp [Dev.setHealth]

@[simp] theorem Dev.orphanJob_keepsMode (d : Dev) (j : Job) : (d.orphanJob j).mode = d.mode := by
  unfold Dev.orphanJob
  dsimp only
  (repeat' split) <;> simp

@[simp] theorem Dev.dropKeeperJobs_keepsMode (d : Dev) : d.dropKeeperJobs.mode = d.mode := by
  unfold Dev.dropKeeperJobs
  simp [forEach_keepsMode]

@[simp] theorem Dev.abandonImages_keepsMode (d : Dev) : d.abandonImages.mode = d.mode := by
  unfold Dev.abandonImages
  simp [forEach_keepsMode, apply_ite Dev.mode]

@[simp] theorem Dev.takeOver_keepsMode (d : Dev) (cause us : Nat) (torn : Bool) : (d.takeOver cause us torn).mode = d.mode := by
  unfold Dev.takeOver
  simp [forEach_keepsMode, apply_ite Dev.mode]

@[simp] theorem Dev.cancelMode_keepsMode (d : Dev) : d.cancelMode.mode = d.mode := by
  unfold Dev.cancelMode
  simp [apply_ite Dev.mode]

@[simp] theorem Dev.pendMode_keepsMode (d : Dev) (m : ModePend) : (d.pendMode m).mode = d.mode := by
  simp [Dev.pendMode]

@[simp] theorem Dev.beginExit_keepsMode (d : Dev) : d.beginExit.mode = d.mode := by
  unfold Dev.beginExit
  simp [apply_ite Dev.mode]

@[simp] theorem Dev.requestMode_keepsMode (d : Dev) (m : Mode) : (d.requestMode m).2.mode = d.mode := by
  unfold Dev.requestMode
  dsimp only
  (repeat' split) <;> simp

@[simp] theorem Dev.writeMode_keepsMode (d : Dev) (w : Writer) (val : Bytes) : (d.writeMode w val).mode = d.mode := by
  refine d.write_keepsMode w _ 0 val fun x v => ?_
  split
  · exact x.requestMode_keepsMode _
  · rfl

@[simp] theorem Dev.refuseBank_keepsMode (d : Dev) : d.refuseBank.mode = d.mode := by
  unfold Dev.refuseBank
  dsimp only
  (repeat' split) <;> simp

@[simp] theorem Dev.leadCheck_keepsMode (d : Dev) (p : Port) : (d.leadCheck p).mode = d.mode := by
  unfold Dev.leadCheck
  simp [apply_ite Dev.mode]

@[simp] theorem Dev.endWindows_keepsMode (d : Dev) (t : Nat) : (d.endWindows t).mode = d.mode := by
  unfold Dev.endWindows
  simp [apply_ite Dev.mode]

@[simp] theorem Dev.restGroups_keepsMode (d : Dev) (old : Mode) : (d.restGroups old).mode = d.mode := by
  unfold Dev.restGroups
  simp [forEach_keepsMode]

@[simp] theorem Dev.renumber_keepsMode (d : Dev) : d.renumber.mode = d.mode := by
  simp [Dev.renumber]

@[simp] theorem Dev.fillCaddies_keepsMode (d : Dev) : d.fillCaddies.mode = d.mode := by
  unfold Dev.fillCaddies
  simp [forEach_keepsMode, forRange_keepsMode]

@[simp] theorem Dev.enterConfigure_keepsMode (d : Dev) (old : Mode) : (d.enterConfigure old).mode = d.mode := by
  have filled (l : List Basket) : SameMode d (forEach l (fun b d => d.expire b) d).dropWindows.fillCaddies := by
    have expired := forEach_sameMode l (fun b d => d.expire b) (fun b x => ⟨x.expire_keepsMode b⟩) d
    generalize forEach l (fun b d => d.expire b) d = x at expired ⊢
    exact expired.trans (SameMode.trans ⟨x.dropWindows_keepsMode⟩ ⟨x.dropWindows.fillCaddies_keepsMode⟩)
  unfold Dev.enterConfigure
  extract_lets held caddies aligned boot entered
  have hCaddies : SameMode d caddies := filled held
  clear_value caddies
  have hAligned : SameMode caddies aligned := by
    unfold aligned
    split
    · exact ⟨Dev.alignSynth_keepsMode _⟩
    · exact ⟨Dev.startAligning_keepsMode _⟩
  clear_value aligned
  have hEntered : SameMode d entered := (hCaddies.trans hAligned).trans ⟨by rfl⟩
  clear_value entered
  split
  · exact hEntered.mode
  · exact hEntered.mode

@[simp] theorem Dev.enterSafe_keepsMode (d : Dev) : d.enterSafe.mode = d.mode := by
  unfold Dev.enterSafe
  extract_lets reason failed held selected expired told resumed spilled noWait boot merge mem sched em keeper entered cleared idled
  have hFailed : SameMode d failed := by
    unfold failed
    split
    · exact ⟨Dev.failStart_keepsMode _ _⟩
    · exact .refl d
  have hExpired : SameMode failed expired := forEach_sameMode _ _ (fun _ _ => ⟨Dev.expire_keepsMode _ _⟩) failed
  have hTold : SameMode expired told := ⟨Dev.log_keepsMode _ _ _ _ _ _⟩
  have hResumed : SameMode told resumed := by
    unfold resumed
    split
    · exact ⟨Dev.bump_mode _ _ _ _⟩
    · exact .refl told
  have all := ((hFailed.trans hExpired).trans hTold).trans hResumed
  clear_value resumed
  have hEntered : SameMode d entered := all.trans ⟨rfl⟩
  clear_value entered
  have hCleared : SameMode entered cleared := ⟨by simp only [cleared, Dev.loseJobs_keepsMode, Dev.set_mode]⟩
  have hIdled : SameMode cleared idled :=
    forEach_sameMode _ _ (fun _ _ => ⟨(Dev.idlePort_keepsMode _ _).trans (Dev.sweepDrop_keepsMode _ _)⟩) cleared
  have idle := (hEntered.trans hCleared).trans hIdled
  clear_value idled
  rw [Dev.syncStalls_keepsMode, Dev.setRing_keepsMode, idle.mode]

@[simp] theorem Dev.downBackEnd_keepsMode (d : Dev) : d.downBackEnd.mode = d.mode := by
  unfold Dev.downBackEnd
  simp [forRange_keepsMode, apply_ite Dev.mode]

@[simp] theorem Dev.enterLoopback_keepsMode (d : Dev) : d.enterLoopback.mode = d.mode := by
  unfold Dev.enterLoopback
  simp [forEach_keepsMode]

@[simp] theorem Dev.updBoot_keepsMode (d : Dev) (f : BootState → BootState) : (d.updBoot f).mode = d.mode := by
  simp [Dev.updBoot]

@[simp] theorem Dev.toStep_keepsMode (d : Dev) (n : Nat) : (d.toStep n).mode = d.mode := by
  simp [Dev.toStep]

@[simp] theorem Dev.stepFailed_keepsMode (d : Dev) (step what : Nat) : (d.stepFailed step what).mode = d.mode := by
  simp [Dev.stepFailed]

@[simp] theorem Dev.bootFailedStarts_keepsMode (d : Dev) : d.bootFailedStarts.mode = d.mode := by
  unfold Dev.bootFailedStarts
  simp [apply_ite Dev.mode]

@[simp] theorem Dev.restoreAon_keepsMode (d : Dev) : d.restoreAon.mode = d.mode := by
  simp [Dev.restoreAon]

@[simp] theorem Dev.bootDevice_keepsMode (d : Dev) (i : Fin 2) (scan : FlashScan) : (d.bootDevice i scan).mode = d.mode := by
  unfold Dev.bootDevice
  simp [apply_ite Dev.mode]

@[simp] theorem Dev.noteRestored_keepsMode (d : Dev) (i : Fin 2) : (d.noteRestored i).mode = d.mode := by
  unfold Dev.noteRestored
  split <;> simp [apply_ite Dev.mode]

@[simp] theorem Dev.bootFlash_keepsMode (d : Dev) (a b : FlashScan) : (d.bootFlash a b).mode = d.mode := by
  unfold Dev.bootFlash
  simp [apply_ite Dev.mode]

@[simp] theorem Dev.bootImage_keepsMode (d : Dev) : d.bootImage.mode = d.mode := by
  unfold Dev.bootImage
  simp [apply_ite Dev.mode]

@[simp] theorem Dev.bootLoaded_keepsMode (d : Dev) : d.bootLoaded.mode = d.mode := by
  unfold Dev.bootLoaded
  dsimp only
  (repeat' split) <;> simp

@[simp] theorem Dev.bootJoin_keepsMode (d : Dev) : d.bootJoin.mode = d.mode := by
  unfold Dev.bootJoin
  simp [forEach_keepsMode, apply_ite Dev.mode]

@[simp] theorem Dev.bootChannel_keepsMode (d : Dev) (m : Nat) (x : MemTest) : (d.bootChannel m x).mode = d.mode := by
  unfold Dev.bootChannel
  (repeat' split) <;> simp

@[simp] theorem Dev.bootMemory_keepsMode (d : Dev) (sram : Bool) (chans : List MemTest) :
    (d.bootMemory sram chans).mode = d.mode := by
  unfold Dev.bootMemory
  dsimp only
  (repeat' split) <;> simp [forEach_keepsMode]

@[simp] theorem Dev.loadTasks_keepsMode (d : Dev) : d.loadTasks.mode = d.mode := by
  unfold Dev.loadTasks
  split
  · rfl
  · exact forEach_keepsMode _ _ (fun _ _ => Dev.set_mode _ _ _ _) _

@[simp] theorem Dev.startClocks_keepsMode (d : Dev) : d.startClocks.mode = d.mode := by
  unfold Dev.startClocks
  simp [apply_ite Dev.mode]

@[simp] theorem Dev.bootClocks_keepsMode (d : Dev) : d.bootClocks.mode = d.mode := by
  unfold Dev.bootClocks
  dsimp only
  (repeat' split) <;> simp

@[simp] theorem Dev.bootPorts_keepsMode (d : Dev) : d.bootPorts.mode = d.mode := by
  unfold Dev.bootPorts
  simp [apply_ite Dev.mode]

end Sys2Proof.Machine
end

section
/-! The commands that leave the mode as it was (R29; O5). -/

namespace Sys2Proof.Machine

/-- What the device's mode is after an outcome that is no fault and no refusal. -/
def EndsIn (m : Mode) (r : Result) : Prop := ∀ t, r = .next t → t.dev.mode = m

theorem State.on_endsIn (s : State) {f : Dev → Dev} {m : Mode} (h : (f s.dev).mode = m) : EndsIn m (s.on f) := by
  intro t run
  cases run
  exact h

theorem State.on_keepsMode (s : State) {f : Dev → Dev} (h : ∀ d, (f d).mode = d.mode) : EndsIn s.dev.mode (s.on f) :=
  s.on_endsIn (h s.dev)

theorem State.on_sameMode (s : State) {f : Dev → Dev} (h : ∀ d, SameMode d (f d)) : EndsIn s.dev.mode (s.on f) :=
  s.on_keepsMode fun d => (h d).mode

theorem Dev.offer_keepsMode {d x : Dev} {b : Basket} {body : Bytes} {gated : Bool} (h : d.offer b body gated = some x) :
    x.mode = d.mode := by
  unfold Dev.offer at h
  split at h
  · cases h
  · extract_lets fs e d₁ d₂ at h
    have h₁ : d₁.mode = d.mode := (Dev.updBasket_keepsMode _ _ _).trans (Dev.setEgr_keepsMode _ _ _)
    have h₂ : d₂.mode = d₁.mode := by
      unfold d₂
      split
      · rfl
      · exact Dev.storeBasket_keepsMode _ _ _
    clear_value d₂ d₁
    split at h
    · cases h
      split
      · exact (Dev.chargeBasket_keepsMode _ _).trans (h₂.trans h₁)
      · exact h₂.trans h₁
    · cases h

theorem execConfigApply_keepsMode (p : Port) (s : State) :
    EndsIn s.dev.mode (execConfigApply p s) := by
  refine s.on_keepsMode fun d => ?_
  dsimp only
  split <;> simp [apply_ite Dev.mode]

theorem execLeakageSaturation_keepsMode (p : Port) (c : ChanNo) (s : State) :
    EndsIn s.dev.mode (execLeakageSaturation p c s) := by
  refine s.on_keepsMode fun d => ?_
  dsimp only
  split <;> simp [apply_ite Dev.mode]

theorem execSettlingEnd_keepsMode (p : Port) (r : RegionNo) (s : State) :
    EndsIn s.dev.mode (execSettlingEnd p r s) := by
  refine s.on_keepsMode fun d => ?_
  dsimp only
  split <;> simp

theorem execInjectRequest_keepsMode (w : Writer) (p : Port) (val : Bytes) (s : State) :
    EndsIn s.dev.mode (execInjectRequest w p val s) := by
  refine s.on_keepsMode fun d => ?_
  extract_lets st
  split
  · exact Dev.answer_mode _ _ _ _
  · refine Dev.write_keepsMode _ _ _ _ _ fun x v => ?_
    dsimp only
    (repeat' split) <;> simp

theorem execLeadingEdge_keepsMode (p : Port) (c : ChanNo) (coarse : Fin 8) (fine : BitVec 12) (s : State) :
    EndsIn s.dev.mode (execLeadingEdge p c coarse fine s) := by
  refine s.on_keepsMode fun d => ?_
  dsimp only
  split <;> simp [apply_ite Dev.mode]

theorem execTrailingEdge_keepsMode (p : Port) (c : ChanNo) (coarse : Fin 8) (fine : BitVec 12) (s : State) :
    EndsIn s.dev.mode (execTrailingEdge p c coarse fine s) := by
  refine s.on_keepsMode fun d => ?_
  dsimp only
  (repeat' split) <;> simp

theorem execTotSaturation_keepsMode (p : Port) (c : ChanNo) (s : State) :
    EndsIn s.dev.mode (execTotSaturation p c s) := by
  refine s.on_keepsMode fun d => ?_
  dsimp only
  split <;> simp

theorem execRearmComplete_keepsMode (p : Port) (c : ChanNo) (c1 c2 : BitVec 12) (s : State) :
    EndsIn s.dev.mode (execRearmComplete p c c1 c2 s) := by
  refine s.on_keepsMode fun d => ?_
  dsimp only
  split <;> simp

theorem execFeFrameBoundary_keepsMode (p : Port) (s : State) :
    EndsIn s.dev.mode (execFeFrameBoundary p s) := by
  refine s.on_keepsMode fun d => ?_
  dsimp only
  split <;> simp [apply_ite Dev.mode]

theorem execFeCycleBoundary_keepsMode (p : Port) (meas : List RegionMeas) (s : State) :
    EndsIn s.dev.mode (execFeCycleBoundary p meas s) := by
  refine s.on_keepsMode fun d => ?_
  dsimp only
  (repeat' split) <;> simp [forEach_keepsMode, forRange_keepsMode]

theorem execFeCounterClearApply_keepsMode (p : Port) (s : State) :
    EndsIn s.dev.mode (execFeCounterClearApply p s) := by
  refine s.on_keepsMode fun d => ?_
  extract_lets f due d₁
  have hFirst : d₁.mode = d.mode := by
    unfold d₁
    split
    · exact (Dev.updFe_mode _ _ _).trans (forEach_keepsMode _ _ (fun _ _ => Dev.clearObj_keepsMode _ _ _) d)
    · rfl
  clear_value d₁
  split
  · exact ((Dev.updFe_mode _ _ _).trans (forEach_keepsMode _ _ (fun _ _ => Dev.clearObj_keepsMode _ _ _) _)).trans hFirst
  · exact hFirst

theorem execConfigWriteMessage_keepsMode (p : Port) (dl : Fin 2) (blocks : List Block) (s : State) :
    EndsIn s.dev.mode (execConfigWriteMessage p dl blocks s) := by
  refine s.on_keepsMode fun d => ?_
  dsimp only
  refine Dev.feConfig_keepsMode _ _ _ _ _ fun m x => ?_
  simp

theorem execConfigReadMessage_keepsMode (p : Port) (dl : Fin 2) (blocks : List Block) (s : State) :
    EndsIn s.dev.mode (execConfigReadMessage p dl blocks s) := by
  refine s.on_keepsMode fun d => ?_
  dsimp only
  refine Dev.feConfig_keepsMode _ _ _ _ _ fun m x => ?_
  (repeat' split) <;> simp

theorem execConfigMirrorMessage_keepsMode (p : Port) (dl : Fin 2) (blocks : List Block) (s : State) :
    EndsIn s.dev.mode (execConfigMirrorMessage p dl blocks s) := by
  refine s.on_keepsMode fun d => ?_
  dsimp only
  refine Dev.feConfig_keepsMode _ _ _ _ _ fun m x => ?_
  (repeat' split) <;> simp

theorem execTimingCounterClear_keepsMode (p : Port) (alive : BitVec 4) (val : Bytes) (s : State) :
    EndsIn s.dev.mode (execTimingCounterClear p alive val s) := by
  refine s.on_keepsMode fun d => ?_
  dsimp only
  refine Dev.feMessage_keepsMode _ _ _ _ _ _ fun x => ?_
  simp

theorem execReadoutCounterClear_keepsMode (p : Port) (alive : BitVec 4) (val : Bytes) (s : State) :
    EndsIn s.dev.mode (execReadoutCounterClear p alive val s) := by
  refine s.on_keepsMode fun d => ?_
  dsimp only
  refine Dev.feMessage_keepsMode _ _ _ _ _ _ fun x => ?_
  simp

theorem execForceSnapshot_keepsMode (p : Port) (alive : BitVec 4) (val : Bytes) (s : State) :
    EndsIn s.dev.mode (execForceSnapshot p alive val s) := by
  refine s.on_keepsMode fun d => ?_
  dsimp only
  refine Dev.feMessage_keepsMode _ _ _ _ _ _ fun x => ?_
  simp

theorem execSnapCalZero_keepsMode (p : Port) (alive : BitVec 4) (s : State) :
    EndsIn s.dev.mode (execSnapCalZero p alive s) := by
  refine s.on_keepsMode fun d => ?_
  simp

theorem execSnapCalFull_keepsMode (p : Port) (alive : BitVec 4) (s : State) :
    EndsIn s.dev.mode (execSnapCalFull p alive s) := by
  refine s.on_keepsMode fun d => ?_
  simp

theorem execSnapCalCompute_keepsMode (p : Port) (alive : BitVec 4) (s : State) :
    EndsIn s.dev.mode (execSnapCalCompute p alive s) := by
  refine s.on_keepsMode fun d => ?_
  simp

theorem execSnapCalClear_keepsMode (p : Port) (alive : BitVec 4) (s : State) :
    EndsIn s.dev.mode (execSnapCalClear p alive s) := by
  refine s.on_keepsMode fun d => ?_
  simp

theorem execFcmdReceive_keepsMode (p : Port) (id : BitVec 8) (op : FcmdOp) (cyc : BitVec 8) (slot : BitVec 20) (s : State) :
    EndsIn s.dev.mode (execFcmdReceive p id op cyc slot s) := by
  refine s.on_keepsMode fun d => ?_
  dsimp only
  (repeat' split) <;> simp

theorem execModeCommand_keepsMode (p : Port) (s : State) :
    EndsIn s.dev.mode (execModeCommand p s) := by
  refine s.on_keepsMode fun d => ?_
  refine Dev.runDue_keepsMode _ _ _ fun i x => ?_
  (repeat' split) <;> simp

theorem execQueueReset_keepsMode (p : Port) (s : State) :
    EndsIn s.dev.mode (execQueueReset p s) := by
  refine s.on_keepsMode fun d => ?_
  dsimp only
  refine Dev.runDue_keepsMode _ _ _ fun i x => ?_
  (repeat' split) <;> simp [forEach_keepsMode]

theorem execPairRefresh_keepsMode (p : Port) (pair : BitVec 12 × BitVec 12) (meas : List (ChanNo × BitVec 12 × BitVec 12)) (s : State) :
    EndsIn s.dev.mode (execPairRefresh p pair meas s) := by
  refine s.on_keepsMode fun d => ?_
  dsimp only
  refine Dev.runDue_keepsMode _ _ _ fun i x => ?_
  simp [forEach_keepsMode]

theorem execCalendarSnapshotTrigger_keepsMode (p : Port) (s : State) :
    EndsIn s.dev.mode (execCalendarSnapshotTrigger p s) := by
  refine s.on_keepsMode fun d => ?_
  dsimp only
  refine Dev.runDue_keepsMode _ _ _ fun i x => ?_
  simp

theorem execBiasCommand_keepsMode (p : Port) (s : State) :
    EndsIn s.dev.mode (execBiasCommand p s) := by
  refine s.on_keepsMode fun d => ?_
  refine Dev.runDue_keepsMode _ _ _ fun i x => ?_
  refine (forEach_keepsMode _ _ (fun r y => ?_) _).trans (Dev.setFe_mode _ _ _)
  split
  · dsimp only
    split <;> simp
  · rfl

theorem execCycleEndCommand_keepsMode (p : Port) (s : State) :
    EndsIn s.dev.mode (execCycleEndCommand p s) := by
  refine s.on_keepsMode fun d => ?_
  dsimp only
  refine Dev.runDue_keepsMode _ _ _ fun i x => ?_
  simp

theorem execInjectCommand_keepsMode (p : Port) (s : State) :
    EndsIn s.dev.mode (execInjectCommand p s) := by
  refine s.on_keepsMode fun d => ?_
  dsimp only
  refine Dev.runDue_keepsMode _ _ _ fun i x => ?_
  (repeat' split) <;> simp

theorem execTickPhaseCommand_keepsMode (p : Port) (s : State) :
    EndsIn s.dev.mode (execTickPhaseCommand p s) := by
  refine s.on_keepsMode fun d => ?_
  refine Dev.runDue_keepsMode _ _ _ fun i x => ?_
  (repeat' split) <;> simp

theorem execRegionReadout_keepsMode (p : Port) (r : RegionNo) (s : State) :
    EndsIn s.dev.mode (execRegionReadout p r s) := by
  refine s.on_keepsMode fun d => ?_
  dsimp only
  (repeat' split) <;> simp

theorem execColumnArbiterMove_keepsMode (p : Port) (c : Fin 16) (s : State) :
    EndsIn s.dev.mode (execColumnArbiterMove p c s) := by
  refine s.on_keepsMode fun d => ?_
  dsimp only
  (repeat' split) <;> simp

theorem execDealerDeal_keepsMode (p : Port) (s : State) :
    EndsIn s.dev.mode (execDealerDeal p s) := by
  refine s.on_keepsMode fun d => ?_
  dsimp only
  split <;> simp

theorem execFrameComplete_keepsMode (p : Port) (s : State) :
    EndsIn s.dev.mode (execFrameComplete p s) := by
  refine s.on_keepsMode fun d => ?_
  dsimp only
  split <;> simp [apply_ite Dev.mode]

theorem execFrameCloseDeadline_keepsMode (p : Port) (s : State) :
    EndsIn s.dev.mode (execFrameCloseDeadline p s) := by
  refine s.on_keepsMode fun d => ?_
  dsimp only
  split <;> simp [forEach_keepsMode, apply_ite Dev.mode]

theorem execPacketWaitExpire_keepsMode (p : Port) (l : Lane) (s : State) :
    EndsIn s.dev.mode (execPacketWaitExpire p l s) := by
  refine s.on_keepsMode fun d => ?_
  dsimp only
  split <;> simp

theorem execPacketSend_keepsMode (p : Port) (l : Lane) (s : State) :
    EndsIn s.dev.mode (execPacketSend p l s) := by
  refine s.on_keepsMode fun d => ?_
  dsimp only
  split <;> simp [apply_ite Dev.mode]

theorem execQueuePointerMismatch_keepsMode (p : Port) (q : FeQueue) (s : State) :
    EndsIn s.dev.mode (execQueuePointerMismatch p q s) := by
  refine s.on_keepsMode fun d => ?_
  dsimp only
  (repeat' split) <;> simp

theorem execFloodEnter_keepsMode (p : Port) (r : RegionNo) (s : State) :
    EndsIn s.dev.mode (execFloodEnter p r s) := by
  refine s.on_keepsMode fun d => ?_
  extract_lets f x y
  have hSettled : x.mode = d.mode := (Dev.settleAll_keepsMode _ _ _ _).trans (Dev.atStep_keepsMode _ _ _)
  have hEntered : y.mode = x.mode := Dev.updFe_mode _ _ _
  clear_value y x
  split
  · rfl
  · exact (Dev.chipWatch_keepsMode _ _).trans ((Dev.fbump_mode _ _ _ _ _).trans ((Dev.fset_mode _ _ _ _ _).trans (hEntered.trans hSettled)))

theorem execFloodExit_keepsMode (p : Port) (r : RegionNo) (s : State) :
    EndsIn s.dev.mode (execFloodExit p r s) := by
  refine s.on_keepsMode fun d => ?_
  dsimp only
  split <;> simp

theorem execChipFloodEnter_keepsMode (p : Port) (s : State) :
    EndsIn s.dev.mode (execChipFloodEnter p s) := by
  refine s.on_keepsMode fun d => ?_
  extract_lets f rec_ x
  have hEntered : x.mode = d.mode :=
    (Dev.feRecord_keepsMode _ _ _ _ _).trans ((Dev.atStep_keepsMode _ _ _).trans (Dev.setFe_mode _ _ _))
  clear_value x
  split
  · rfl
  · exact (Dev.fbump_mode _ _ _ _ _).trans ((Dev.fset_mode _ _ _ _ _).trans hEntered)

theorem execChipFloodExit_keepsMode (p : Port) (s : State) :
    EndsIn s.dev.mode (execChipFloodExit p s) := by
  refine s.on_keepsMode fun d => ?_
  extract_lets f
  split
  split
  · exact (Dev.fset_mode _ _ _ _ _).trans
      ((Dev.feRecord_keepsMode _ _ _ _ _).trans ((Dev.atStep_keepsMode _ _ _).trans (Dev.setFe_mode _ _ _)))
  · rfl

theorem execConfigFault_keepsMode (p : Port) (r : RegionNo) (s : State) :
    EndsIn s.dev.mode (execConfigFault p r s) := by
  refine s.on_keepsMode fun d => ?_
  dsimp only
  split <;> simp [forEach_keepsMode]

theorem execConfigurationCorrection_keepsMode (p : Port) (r : RegionNo) (s : State) :
    EndsIn s.dev.mode (execConfigurationCorrection p r s) := by
  refine s.on_keepsMode fun d => ?_
  split <;> simp

theorem execPulseWidthTrigger_keepsMode (p : Port) (c : ChanNo) (s : State) :
    EndsIn s.dev.mode (execPulseWidthTrigger p c s) := by
  refine s.on_keepsMode fun d => ?_
  dsimp only
  split <;> simp [apply_ite Dev.mode]

theorem execFreezeEvent_keepsMode (p : Port) (s : State) :
    EndsIn s.dev.mode (execFreezeEvent p s) := by
  refine s.on_keepsMode fun d => ?_
  dsimp only
  (repeat' split) <;> simp [forEach_keepsMode, forRange_keepsMode, apply_ite Dev.mode]

theorem execSnapshotConversionComplete_keepsMode (p : Port) (e : Fin 1024) (codes : List (BitVec 12)) (s : State) :
    EndsIn s.dev.mode (execSnapshotConversionComplete p e codes s) := by
  refine s.on_keepsMode fun d => ?_
  dsimp only
  split <;> simp [apply_ite Dev.mode]

theorem execSnapshotBusGrant_keepsMode (p : Port) (e : Fin 1024) (s : State) :
    EndsIn s.dev.mode (execSnapshotBusGrant p e s) := by
  refine s.on_keepsMode fun d => ?_
  dsimp only
  split <;> simp [apply_ite Dev.mode]

theorem execSnapshotPacketSend_keepsMode (p : Port) (s : State) :
    EndsIn s.dev.mode (execSnapshotPacketSend p s) := by
  refine s.on_keepsMode fun d => ?_
  dsimp only
  (repeat' split) <;> simp

theorem execSnapCalPhaseDone_keepsMode (p : Port) (s : State) :
    EndsIn s.dev.mode (execSnapCalPhaseDone p s) := by
  refine s.on_keepsMode fun d => ?_
  dsimp only
  split <;> simp

theorem execCoefficientWordError_keepsMode (p : Port) (e : Fin 1024) (cell : BitVec 7) (s : State) :
    EndsIn s.dev.mode (execCoefficientWordError p e cell s) := by
  refine s.on_keepsMode fun d => ?_
  dsimp only
  split <;> simp

theorem execDelayProbeSend_keepsMode (p : Port) (t1 : TdcStamp) (s : State) :
    EndsIn s.dev.mode (execDelayProbeSend p t1 s) := by
  refine s.on_keepsMode fun d => ?_
  dsimp only
  split <;> simp

theorem execDelayReqReceive_keepsMode (p : Port) (id : BitVec 8) (t2 : TdcStamp) (wait : BitVec 10) (t3 : TdcStamp) (s : State) :
    EndsIn s.dev.mode (execDelayReqReceive p id t2 wait t3 s) := by
  refine s.on_keepsMode fun d => ?_
  dsimp only
  split <;> simp

theorem execDelayRespReceive_keepsMode (p : Port) (id : BitVec 8) (t2 t3 : BitVec 32) (t4 : TdcStamp) (s : State) :
    EndsIn s.dev.mode (execDelayRespReceive p id t2 t3 t4 s) := by
  refine s.on_keepsMode fun d => ?_
  dsimp only
  split <;> simp [apply_ite Dev.mode]

theorem execTimeSetReceive_keepsMode (p : Port) (dl : Fin 2) (cyc : BitVec 8) (slot : BitVec 20) (tick : Fin 8) (half : Bool) (fine : Fin 4096) (s : State) :
    EndsIn s.dev.mode (execTimeSetReceive p dl cyc slot tick half fine s) := by
  refine s.on_keepsMode fun d => ?_
  dsimp only
  (repeat' split) <;> simp

theorem execBlockLockAcquire_keepsMode (p : Port) (rx : Rx) (headers : List (BitVec 2)) (s : State) :
    EndsIn s.dev.mode (execBlockLockAcquire p rx headers s) := by
  refine s.on_keepsMode fun d => ?_
  dsimp only
  (repeat' split) <;> simp

theorem execTrainReceive_keepsMode (p : Port) (rx : Rx) (locked : Bool) (lock : BitVec 5) (attempt : BitVec 8) (s : State) :
    EndsIn s.dev.mode (execTrainReceive p rx locked lock attempt s) := by
  refine s.on_keepsMode fun d => ?_
  dsimp only
  split <;> simp [forEach_keepsMode, apply_ite Dev.mode]

theorem execTrainingAttemptStart_keepsMode (p : Port) (dl : Fin 2) (s : State) :
    EndsIn s.dev.mode (execTrainingAttemptStart p dl s) := by
  refine s.on_keepsMode fun d => ?_
  dsimp only
  split <;> simp

theorem execBlockLockLoss_keepsMode (p : Port) (rx : Rx) (window : List (Option (BitVec 2))) (s : State) :
    EndsIn s.dev.mode (execBlockLockLoss p rx window s) := by
  refine s.on_keepsMode fun d => ?_
  dsimp only
  (repeat' split) <;> simp

theorem execTrainingAttemptTimeout_keepsMode (p : Port) (s : State) :
    EndsIn s.dev.mode (execTrainingAttemptTimeout p s) := by
  refine s.on_keepsMode fun d => ?_
  dsimp only
  simp [forEach_keepsMode]

theorem execBeaconBurst_keepsMode (p : Port) (s : State) :
    EndsIn s.dev.mode (execBeaconBurst p s) := by
  refine s.on_keepsMode fun d => ?_
  dsimp only
  split <;> simp [forEach_keepsMode, apply_ite Dev.mode]

theorem execBeaconReceive_keepsMode (p : Port) (request failed : BitVec 5) (s : State) :
    EndsIn s.dev.mode (execBeaconReceive p request failed s) := by
  refine s.on_keepsMode fun d => ?_
  extract_lets f train x spare one
  have hTrained : x.mode = d.mode := forEach_keepsMode _ _ (fun _ _ => Dev.feTrain_keepsMode _ _ _ _ _) d
  have hOne (n : Nat) (y : Dev) : (one n y).mode = y.mode := by
    unfold one
    split <;> simp
  clear_value one x
  split
  · rfl
  · exact (forEach_keepsMode _ _ hOne x).trans hTrained

theorem execLanemapReceive_keepsMode (p : Port) (l : Lane) (phys : BitVec 3) (frame : BitVec 12) (s : State) :
    EndsIn s.dev.mode (execLanemapReceive p l phys frame s) := by
  refine s.on_keepsMode fun d => ?_
  dsimp only
  split <;> simp

theorem execLinkstatReceive_keepsMode (p : Port) (lanes : List LaneStat) (s : State) :
    EndsIn s.dev.mode (execLinkstatReceive p lanes s) := by
  refine s.on_keepsMode fun d => ?_
  dsimp only
  split <;> simp

theorem execNakReceive_keepsMode (p : Port) (l : Lane) (seq : BitVec 12) (s : State) :
    EndsIn s.dev.mode (execNakReceive p l seq s) := by
  refine s.on_keepsMode fun d => ?_
  dsimp only
  split <;> simp

theorem execAckTimeout_keepsMode (p : Port) (l : Lane) (s : State) :
    EndsIn s.dev.mode (execAckTimeout p l s) := by
  refine s.on_keepsMode fun d => ?_
  split <;> simp [apply_ite Dev.mode]

theorem execSyncReceive_keepsMode (p : Port) (msg : SyncMsg) (s : State) :
    EndsIn s.dev.mode (execSyncReceive p msg s) := by
  refine s.on_keepsMode fun d => ?_
  split
  · extract_lets f part d₁ d₂ m here
    have h₁ : d₁.mode = d.mode := Dev.emit_mode _ _
    have h₂ : d₂.mode = d₁.mode := by
      unfold d₂
      split
      · split
        · exact (Dev.updFe_mode _ _ _).trans (Dev.feLaneMap_keepsMode _ _ _ _ _)
        · rfl
      · rfl
    clear_value d₂ d₁
    split
    · rfl
    · exact (Dev.updFe_mode _ _ _).trans ((forEach_keepsMode _ _ (fun _ _ => Dev.resume_keepsMode _ _ _ _) _).trans (h₂.trans h₁))
  · extract_lets c wasUp m here fresh c₁ carries c₂ c₃ c₄ failover d₁ d₂ changed d₃ d₄
    have h₁ : d₁.mode = d.mode := Dev.setPort_mode _ _ _
    have h₂ : d₂.mode = d₁.mode := by
      unfold d₂
      split
      · exact Dev.log_keepsMode _ _ _ _ _ _
      · rfl
    have h₃ : d₃.mode = d₂.mode := by
      unfold d₃
      split <;> simp
    have h₄ : d₄.mode = d₃.mode := by
      unfold d₄
      split
      · exact Dev.restoreFe_keepsMode _ _
      · rfl
    clear_value d₄ d₃ d₂ d₁
    split
    · rfl
    · exact (Dev.nextResponse_keepsMode _ _).trans ((Dev.sendOwed_keepsMode _ _).trans (h₄.trans (h₃.trans (h₂.trans h₁))))

theorem execFestatPeriodicSend_keepsMode (p : Port) (power : BitVec 16) (temp : BitVec 12) (s : State) :
    EndsIn s.dev.mode (execFestatPeriodicSend p power temp s) := by
  refine s.on_keepsMode fun d => ?_
  dsimp only
  split <;> simp

theorem execWakeFestatSend_keepsMode (p : Port) (s : State) :
    EndsIn s.dev.mode (execWakeFestatSend p s) := by
  refine s.on_keepsMode fun d => ?_
  dsimp only
  split <;> simp [apply_ite Dev.mode]

theorem execWakeRequestExpire_keepsMode (p : Port) (group : Fin 16) (s : State) :
    EndsIn s.dev.mode (execWakeRequestExpire p group s) := by
  refine s.on_keepsMode fun d => ?_
  dsimp only
  split <;> simp

theorem execLinkstatSend_keepsMode (p : Port) (s : State) :
    EndsIn s.dev.mode (execLinkstatSend p s) := by
  refine s.on_keepsMode fun d => ?_
  split <;> simp

theorem execInvalidBlock_keepsMode (p : Port) (rx : Rx) (at_ : LinePlace) (line : List Bool) (s : State) :
    EndsIn s.dev.mode (execInvalidBlock p rx at_ line s) := by
  refine s.on_keepsMode fun d => ?_
  dsimp only
  (repeat' split) <;> simp

theorem execDownlinkLossTimeout_keepsMode (p : Port) (s : State) :
    EndsIn s.dev.mode (execDownlinkLossTimeout p s) := by
  refine s.on_keepsMode fun d => ?_
  dsimp only
  split <;> simp [apply_ite Dev.mode]

theorem execPrimaryReturn_keepsMode (p : Port) (s : State) :
    EndsIn s.dev.mode (execPrimaryReturn p s) := by
  refine s.on_keepsMode fun d => ?_
  dsimp only
  split <;> simp

theorem execDownlinkSwapApply_keepsMode (p : Port) (s : State) :
    EndsIn s.dev.mode (execDownlinkSwapApply p s) := by
  refine s.on_keepsMode fun d => ?_
  dsimp only
  split <;> simp [apply_ite Dev.mode]

theorem execPortRelease_keepsMode (w : Writer) (e : BitVec 16) (val : Bytes) (s : State) :
    EndsIn s.dev.mode (execPortRelease w e val s) := by
  refine s.on_keepsMode fun d => ?_
  dsimp only
  refine Dev.writeEach_keepsMode _ _ _ _ _ fun k x v => ?_
  (repeat' split) <;> simp

theorem execForceLaneSwap_keepsMode (w : Writer) (e : BitVec 16) (val : Bytes) (s : State) :
    EndsIn s.dev.mode (execForceLaneSwap w e val s) := by
  refine s.on_keepsMode fun d => ?_
  dsimp only
  refine Dev.writeEach_keepsMode _ _ _ _ _ fun k x v => ?_
  (repeat' split) <;> simp

theorem execForceDownlinkSwap_keepsMode (w : Writer) (e : BitVec 16) (val : Bytes) (s : State) :
    EndsIn s.dev.mode (execForceDownlinkSwap w e val s) := by
  refine s.on_keepsMode fun d => ?_
  dsimp only
  refine Dev.writeEach_keepsMode _ _ _ _ _ fun k x v => ?_
  (repeat' split) <;> simp

theorem execLinkDelayCalibration_keepsMode (w : Writer) (e : BitVec 16) (val : Bytes) (pairs : List (Reflection × Reflection)) (s : State) :
    EndsIn s.dev.mode (execLinkDelayCalibration w e val pairs s) := by
  refine s.on_keepsMode fun d => ?_
  refine Dev.writeEach_keepsMode _ _ _ _ _ fun k x v => ?_
  (repeat' split) <;> simp

theorem execRateLatch_keepsMode (p : Port) (s : State) :
    EndsIn s.dev.mode (execRateLatch p s) := by
  refine s.on_keepsMode fun d => ?_
  refine Dev.runDue_keepsMode _ _ _ fun i x => ?_
  extract_lets y
  have hLatched : y.mode = x.mode := forEach_keepsMode _ _ (fun r z => by simp) x
  clear_value y
  split
  · exact (Dev.sweepStart_keepsMode _ _ _).trans hLatched
  · exact hLatched

theorem execConfigResponseReceive_keepsMode (p : Port) (alive : BitVec 4) (status : BitVec 8) (value : Bytes) (s : State) :
    EndsIn s.dev.mode (execConfigResponseReceive p alive status value s) := by
  refine s.on_keepsMode fun d => ?_
  dsimp only
  split <;> simp [apply_ite Dev.mode]

theorem execConfigResend_keepsMode (p : Port) (s : State) :
    EndsIn s.dev.mode (execConfigResend p s) := by
  refine s.on_keepsMode fun d => ?_
  dsimp only
  split <;> simp [apply_ite Dev.mode]

theorem execConfigTimeout_keepsMode (p : Port) (s : State) :
    EndsIn s.dev.mode (execConfigTimeout p s) := by
  refine s.on_keepsMode fun d => ?_
  dsimp only
  (repeat' split) <;> simp

theorem execUnresolvedResolve_keepsMode (p : Port) (s : State) :
    EndsIn s.dev.mode (execUnresolvedResolve p s) := by
  refine s.on_keepsMode fun d => ?_
  dsimp only
  split <;> simp [apply_ite Dev.mode]

theorem execPtpSyncReceive_keepsMode (p : Fin 2) (head : PtpHead) (twoStep : Bool) (stamp : TdcStamp) (s : State) :
    EndsIn s.dev.mode (execPtpSyncReceive p head twoStep stamp s) := by
  refine s.on_keepsMode fun d => ?_
  dsimp only
  split <;> simp [apply_ite Dev.mode]

theorem execPtpFollowUpReceive_keepsMode (p : Fin 2) (head : PtpHead) (origin : BitVec 80) (s : State) :
    EndsIn s.dev.mode (execPtpFollowUpReceive p head origin s) := by
  refine s.on_keepsMode fun d => ?_
  dsimp only
  split <;> simp

theorem execPtpDelayReqSend_keepsMode (p : Fin 2) (seq : BitVec 16) (stamp : TdcStamp) (s : State) :
    EndsIn s.dev.mode (execPtpDelayReqSend p seq stamp s) := by
  refine s.on_keepsMode fun d => ?_
  split <;> simp

theorem execPtpDelayRespReceive_keepsMode (p : Fin 2) (head : PtpHead) (receipt : BitVec 80) (s : State) :
    EndsIn s.dev.mode (execPtpDelayRespReceive p head receipt s) := by
  refine s.on_keepsMode fun d => ?_
  dsimp only
  (repeat' split) <;> simp [forEach_keepsMode]

theorem execPtpAnnounceReceive_keepsMode (p : Fin 2) (head : PtpHead) (data : Announced) (s : State) :
    EndsIn s.dev.mode (execPtpAnnounceReceive p head data s) := by
  refine s.on_keepsMode fun d => ?_
  dsimp only
  split <;> simp [apply_ite Dev.mode]

theorem execAnnounceReceiptTimeout_keepsMode (p : Fin 2) (s : State) :
    EndsIn s.dev.mode (execAnnounceReceiptTimeout p s) := by
  refine s.on_keepsMode fun d => ?_
  dsimp only
  split <;> simp

theorem execSyncIntervalTimeout_keepsMode (p : Fin 2) (s : State) :
    EndsIn s.dev.mode (execSyncIntervalTimeout p s) := by
  refine s.on_keepsMode fun d => ?_
  dsimp only
  split <;> simp

theorem execTimingLinkChange_keepsMode (p : Fin 2) (up : Bool) (s : State) :
    EndsIn s.dev.mode (execTimingLinkChange p up s) := by
  refine s.on_keepsMode fun d => ?_
  dsimp only
  split <;> simp

theorem execEsmcReceive_keepsMode (p : Fin 2) (dnu : Bool) (s : State) :
    EndsIn s.dev.mode (execEsmcReceive p dnu s) := by
  refine s.on_keepsMode fun d => ?_
  dsimp only
  split <;> simp

theorem execSynceWindowEnd_keepsMode (p : Fin 2) (freq : BitVec 64) (s : State) :
    EndsIn s.dev.mode (execSynceWindowEnd p freq s) := by
  refine s.on_keepsMode fun d => ?_
  dsimp only
  split <;> simp

theorem execHomeReturn_keepsMode (s : State) :
    EndsIn s.dev.mode (execHomeReturn s) := by
  refine s.on_keepsMode fun d => ?_
  dsimp only
  split <;> simp [apply_ite Dev.mode]

theorem execAcceptStep_keepsMode (w : Writer) (val : Bytes) (s : State) :
    EndsIn s.dev.mode (execAcceptStep w val s) := by
  refine s.on_keepsMode fun d => ?_
  dsimp only
  refine Dev.write_keepsMode _ _ _ _ _ fun x v => ?_
  (repeat' split) <;> simp

theorem execTimePreset_keepsMode (w : Writer) (val : Bytes) (s : State) :
    EndsIn s.dev.mode (execTimePreset w val s) := by
  refine s.on_keepsMode fun d => ?_
  dsimp only
  refine Dev.write_keepsMode _ _ _ _ _ fun x v => ?_
  (repeat' split) <;> simp

theorem execTimeStepApply_keepsMode (s : State) :
    EndsIn s.dev.mode (execTimeStepApply s) := by
  refine s.on_keepsMode fun d => ?_
  split
  · split
    · rfl
    · extract_lets size d₁ d₂ slots d₃
      have h₁ : d₁.mode = d.mode := (Dev.stepTime_keepsMode _ _ _).trans (Dev.lock_keepsMode _ _)
      have h₂ : d₂.mode = d₁.mode := Dev.updPtp_keepsMode _ _ _
      have h₃ : d₃.mode = d₂.mode := by
        unfold d₃
        (repeat' split)
        · rfl
        · exact Dev.alignSynth_keepsMode _
        · exact Dev.rephase_keepsMode _ _ _ _
        · exact Dev.rephase_keepsMode _ _ _ _
      clear_value d₃ d₂ d₁
      exact (Dev.copyAgain_keepsMode _).trans (h₃.trans (h₂.trans h₁))
  · rfl

theorem execFirstTimeSetApply_keepsMode (s : State) :
    EndsIn s.dev.mode (execFirstTimeSetApply s) := by
  refine s.on_keepsMode fun d => ?_
  have hSet (x : Dev) : SameMode x { x with tb := { x.tb with timeSet := true } } := ⟨rfl⟩
  have hFreed (x : Dev) : SameMode x { x with tb := { x.tb with timeSet := true, freeSet := true } } := ⟨rfl⟩
  split
  · rfl
  · split
    · extract_lets size d₁ d₂ tb d₃
      have h₁ : d₁.mode = d.mode := (Dev.stepTime_keepsMode _ _ _).trans (Dev.lock_keepsMode _ _)
      have h₂ : d₂.mode = d₁.mode := Dev.updPtp_keepsMode _ _ _
      have h₃ : SameMode d₂ d₃ := hSet d₂
      clear_value d₃ d₂ d₁
      exact (Dev.copyAgain_keepsMode _).trans ((Dev.alignSynth_keepsMode _).trans (h₃.mode.trans (h₂.trans h₁)))
    · extract_lets d₁ tb d₂
      have h₁ : d₁.mode = d.mode := Dev.stepTime_keepsMode _ _ _
      have h₂ : SameMode d₁ d₂ := hFreed d₁
      clear_value d₂ d₁
      refine (Dev.copyAgain_keepsMode _).trans ((Dev.alignSynth_keepsMode _).trans ?_)
      split
      · exact (Dev.enterHoldover_keepsMode _ _).trans (h₂.mode.trans h₁)
      · exact h₂.mode.trans h₁
    · rfl

theorem execRefclkMeasureWindow_keepsMode (q : Fin 2) (ppb : BitVec 32) (vsUse : BitVec 32) (s : State) :
    EndsIn s.dev.mode (execRefclkMeasureWindow q ppb vsUse s) := by
  refine s.on_keepsMode fun d => ?_
  dsimp only
  split <;> simp [apply_ite Dev.mode]

theorem execRefclkEdgeLoss_keepsMode (q : Fin 2) (s : State) :
    EndsIn s.dev.mode (execRefclkEdgeLoss q s) := by
  refine s.on_keepsMode fun d => ?_
  simp

theorem execReferenceSelect_keepsMode (w : Writer) (val : Bytes) (s : State) :
    EndsIn s.dev.mode (execReferenceSelect w val s) := by
  refine s.on_keepsMode fun d => ?_
  dsimp only
  refine Dev.write_keepsMode _ _ _ _ _ fun x v => ?_
  simp

theorem execReferenceChangeApply_keepsMode (s : State) :
    EndsIn s.dev.mode (execReferenceChangeApply s) := by
  refine s.on_keepsMode fun d => ?_
  dsimp only
  split <;> simp [apply_ite Dev.mode]

theorem execCycleMarker_keepsMode (input : Fin 2) (s : State) :
    EndsIn s.dev.mode (execCycleMarker input s) := by
  refine s.on_keepsMode fun d => ?_
  dsimp only
  split <;> simp [apply_ite Dev.mode]

theorem execTimePulse_keepsMode (o : Fin 2) (s : State) :
    EndsIn s.dev.mode (execTimePulse o s) := by
  refine s.on_keepsMode fun d => ?_
  dsimp only
  split <;> simp [apply_ite Dev.mode]

theorem execForceTimeBaseSwap_keepsMode (w : Writer) (val : Bytes) (s : State) :
    EndsIn s.dev.mode (execForceTimeBaseSwap w val s) := by
  refine s.on_keepsMode fun d => ?_
  dsimp only
  refine Dev.write_keepsMode _ _ _ _ _ fun x v => ?_
  simp

theorem execTimeBaseSelfTestDone_keepsMode (u : Fin 2) (pass : Bool) (s : State) :
    EndsIn s.dev.mode (execTimeBaseSelfTestDone u pass s) := by
  refine s.on_keepsMode fun d => ?_
  dsimp only
  split <;> simp

theorem execTimEdge_keepsMode (i : Fin 8) (signal : TimSignal) (tick : Fin 8) (code : BitVec 12) (pair : BitVec 12 × BitVec 12) (s : State) :
    EndsIn s.dev.mode (execTimEdge i signal tick code pair s) := by
  refine s.on_sameMode fun d => ?_
  have hSettle (x : Dev) : SameMode x x.settleTims := ⟨Dev.settleTims_keepsMode _⟩
  have hMiss (x : Dev) (c : TimChan) : SameMode x ((x.setTim i c).bump Reg.TIM_MISSED i.val) :=
    ⟨(Dev.bump_mode _ _ _ _).trans (Dev.setTim_keepsMode _ _ _)⟩
  have hTake (x : Dev) (c : TimChan) (n : Nat) : SameMode x ((x.setTim i c).set Reg.TIM_QFILL i.val n) :=
    ⟨(Dev.set_mode _ _ _ _).trans (Dev.setTim_keepsMode _ _ _)⟩
  have hOverflow (x : Dev) : SameMode x (x.bump Reg.TIM_QOVF i.val) := ⟨Dev.bump_mode _ _ _ _⟩
  extract_lets d₁ mode slope c slot state hold disp full block
  have h₁ : SameMode d d₁ := hSettle d
  clear_value d₁
  split
  · exact h₁
  split
  extract_lets at_ early stale time steps stepped stamp flags edge noted c' d₂ d₃
  have h₂ : SameMode d₁ d₂ := hTake d₁ c' _
  have h₃ : SameMode d₂ d₃ := by
    unfold d₃
    split
    · exact hOverflow d₂
    · exact .refl d₂
  clear_value d₃ d₂ mode
  have h₃ := h₁.trans (h₂.trans h₃)
  (repeat' split)
  · exact h₁
  · exact h₁.trans (hMiss d₁ _)
  · exact h₃.trans ⟨Dev.measureTim_keepsMode _ _ _ _⟩
  · exact h₃.trans ⟨Dev.settleTim_keepsMode _ _⟩
  · exact h₃
  · exact h₃.trans ⟨Dev.measureTim_keepsMode _ _ _ _⟩
  · exact h₃

theorem execStatisticsRestart_keepsMode (w : Writer) (e : BitVec 16) (val : Bytes) (s : State) :
    EndsIn s.dev.mode (execStatisticsRestart w e val s) := by
  refine s.on_keepsMode fun d => ?_
  dsimp only
  refine Dev.writeEach_keepsMode _ _ _ _ _ fun k x v => ?_
  simp

theorem execStampQueueRead_keepsMode (w : Writer) (i : Fin 8) (s : State) :
    EndsIn s.dev.mode (execStampQueueRead w i s) := by
  refine s.on_keepsMode fun d => ?_
  dsimp only
  simp

theorem execFrameBoundary_keepsMode (s : State) :
    EndsIn s.dev.mode (execFrameBoundary s) := by
  refine s.on_keepsMode fun d => ?_
  dsimp only
  split <;> simp [apply_ite Dev.mode]

theorem execPacketReceive_keepsMode (p : Port) (blocks : List Block) (s : State) :
    EndsIn s.dev.mode (execPacketReceive p blocks s) := by
  refine s.on_keepsMode fun d => ?_
  dsimp only
  (repeat' split) <;> simp

theorem execBasketClose_keepsMode (s : State) :
    EndsIn s.dev.mode (execBasketClose s) := by
  refine s.on_keepsMode fun d => ?_
  split <;> simp

theorem execBasketTimeout_keepsMode (s : State) :
    EndsIn s.dev.mode (execBasketTimeout s) := by
  refine s.on_keepsMode fun d => ?_
  split <;> simp

theorem execBasketRelease_keepsMode (s : State) :
    EndsIn s.dev.mode (execBasketRelease s) := by
  refine s.on_sameMode fun d => ?_
  have hSent (x : Dev) (n : Nat) : SameMode x ({ x with merge := { x.merge with waitFrom := none } }.bump Reg.MG_EGR_WAIT 0 n).syncStalls :=
    ⟨(Dev.syncStalls_keepsMode _).trans (Dev.bump_mode _ _ _ _)⟩
  have hHold (x : Dev) (ks : List Nat) (b : Basket) : SameMode x ((forEach ks (fun k d => d.noteShort k) x).hold b) :=
    ⟨(Dev.hold_keepsMode _ _).trans (forEach_keepsMode _ _ (fun _ _ => Dev.noteShort_keepsMode _ _) x)⟩
  split
  · exact .refl d
  · split
    · exact .refl d
    · extract_lets done merge waits
      have hDone (x : Dev) : SameMode x (done x) := hSent x _
      have hWaits : SameMode d waits := ⟨rfl⟩
      clear_value waits done
      split
      · exact (hHold d _ _).trans (hDone _)
      · split
        · exact hWaits
        · split
          · rename_i x hOffer
            exact SameMode.trans ⟨Dev.offer_keepsMode hOffer⟩ (hDone x)
          · exact hWaits

theorem execEgressFragmentSend_keepsMode (b : Fin 8) (s : State) :
    EndsIn s.dev.mode (execEgressFragmentSend b s) := by
  refine s.on_keepsMode fun d => ?_
  dsimp only
  split <;> simp [apply_ite Dev.mode]

theorem execRouteEntryWrite_keepsMode (w : Writer) (col : Fin 6) (key : BitVec 16) (val : Bytes) (s : State) :
    EndsIn s.dev.mode (execRouteEntryWrite w col key val s) := by
  refine s.on_keepsMode fun d => ?_
  refine Dev.write_keepsMode _ _ _ _ _ fun x v => ?_
  extract_lets a u es after marked
  have hAfter : after.mode = x.mode := forEach_keepsMode _ _ (fun _ _ => Dev.set_mode _ _ _ _) x
  have hMarked : marked.mode = after.mode := Dev.setMergeBit_keepsMode after _ _
  clear_value marked after
  (repeat' split)
  · rfl
  · rfl
  · exact hMarked.trans hAfter

theorem execRouteCommit_keepsMode (w : Writer) (val : Bytes) (s : State) :
    EndsIn s.dev.mode (execRouteCommit w val s) := by
  refine s.on_keepsMode fun d => ?_
  dsimp only
  refine Dev.write_keepsMode _ _ _ _ _ fun x v => ?_
  simp

theorem execRouteCommitApply_keepsMode (s : State) :
    EndsIn s.dev.mode (execRouteCommitApply s) := by
  refine s.on_keepsMode fun d => ?_
  split <;> simp

theorem execFormatPin_keepsMode (w : Writer) (val : Bytes) (s : State) :
    EndsIn s.dev.mode (execFormatPin w val s) := by
  refine s.on_keepsMode fun d => ?_
  dsimp only
  refine Dev.write_keepsMode _ _ _ _ _ fun x v => ?_
  (repeat' split) <;> simp

theorem execFormatPinApply_keepsMode (s : State) :
    EndsIn s.dev.mode (execFormatPinApply s) := by
  refine s.on_keepsMode fun d => ?_
  split <;> simp

theorem execArpRequestReceive_keepsMode (b : Fin 8) (dst senderMac : BitVec 48) (senderIp targetIp : BitVec 32) (s : State) :
    EndsIn s.dev.mode (execArpRequestReceive b dst senderMac senderIp targetIp s) := by
  refine s.on_keepsMode fun d => ?_
  dsimp only
  split <;> simp

theorem execIcmpEchoReceive_keepsMode (b : Fin 8) (dst srcMac : BitVec 48) (srcIp dstIp : BitVec 32) (rest : Bytes) (s : State) :
    EndsIn s.dev.mode (execIcmpEchoReceive b dst srcMac srcIp dstIp rest s) := by
  refine s.on_keepsMode fun d => ?_
  dsimp only
  split <;> simp

theorem execPauseFrameReceive_keepsMode (b : Fin 8) (quanta : BitVec 16) (s : State) :
    EndsIn s.dev.mode (execPauseFrameReceive b quanta s) := by
  refine s.on_keepsMode fun d => ?_
  dsimp only
  split <;> simp [apply_ite Dev.mode]

theorem execPauseExpire_keepsMode (b : Fin 8) (s : State) :
    EndsIn s.dev.mode (execPauseExpire b s) := by
  refine s.on_keepsMode fun d => ?_
  split <;> simp [apply_ite Dev.mode]

theorem execBackendLinkChange_keepsMode (b : Fin 8) (up : Bool) (s : State) :
    EndsIn s.dev.mode (execBackendLinkChange b up s) := by
  refine s.on_keepsMode fun d => ?_
  simp

theorem execReceiveDiscard_keepsMode (b : Fin 8) (rx : BackEndRx) (s : State) :
    EndsIn s.dev.mode (execReceiveDiscard b rx s) := by
  refine s.on_keepsMode fun d => ?_
  dsimp only
  split <;> simp [apply_ite Dev.mode]

theorem execSnapshotRingWrite_keepsMode (s : State) :
    EndsIn s.dev.mode (execSnapshotRingWrite s) := by
  refine s.on_keepsMode fun d => ?_
  dsimp only
  split <;> simp [apply_ite Dev.mode]

theorem execSnapshotDatagramSend_keepsMode (bad : List (Nat × Nat × BadWord)) (s : State) :
    EndsIn s.dev.mode (execSnapshotDatagramSend bad s) := by
  refine s.on_keepsMode fun d => ?_
  dsimp only
  split <;> simp [forEach_keepsMode, apply_ite Dev.mode]

theorem execFcmdIssue_keepsMode (p : Port) (s : State) :
    EndsIn s.dev.mode (execFcmdIssue p s) := by
  refine s.on_keepsMode fun d => ?_
  dsimp only
  (repeat' split) <;> simp

theorem execFcmdTargetPassed_keepsMode (p : Port) (s : State) :
    EndsIn s.dev.mode (execFcmdTargetPassed p s) := by
  refine s.on_keepsMode fun d => ?_
  dsimp only
  split <;> simp [apply_ite Dev.mode]

theorem execMirrorLagDetect_keepsMode (p : Port) (s : State) :
    EndsIn s.dev.mode (execMirrorLagDetect p s) := by
  refine s.on_keepsMode fun d => ?_
  dsimp only
  split <;> simp

theorem execCalendarCommit_keepsMode (w : Writer) (val : Bytes) (s : State) :
    EndsIn s.dev.mode (execCalendarCommit w val s) := by
  refine s.on_keepsMode fun d => ?_
  dsimp only
  refine Dev.write_keepsMode _ _ _ _ _ fun x v => ?_
  (repeat' split) <;> simp

theorem execCalendarCommitApply_keepsMode (s : State) :
    EndsIn s.dev.mode (execCalendarCommitApply s) := by
  refine s.on_keepsMode fun d => ?_
  dsimp only
  split <;> simp [apply_ite Dev.mode]

theorem execCycleLengthWrite_keepsMode (w : Writer) (val : Bytes) (s : State) :
    EndsIn s.dev.mode (execCycleLengthWrite w val s) := by
  refine s.on_keepsMode fun d => ?_
  dsimp only
  refine Dev.write_keepsMode _ _ _ _ _ fun x v => ?_
  (repeat' split) <;> simp [forEach_keepsMode, apply_ite Dev.mode]

theorem execCycleBoundary_keepsMode (s : State) :
    EndsIn s.dev.mode (execCycleBoundary s) := by
  refine s.on_keepsMode fun d => ?_
  dsimp only
  split <;> simp [apply_ite Dev.mode]

theorem execGridMoveApply_keepsMode (s : State) :
    EndsIn s.dev.mode (execGridMoveApply s) := by
  refine s.on_keepsMode fun d => ?_
  split
  · rename_i m _
    split
    · rfl
    · extract_lets d₁ next g d₂ d₃
      have h₁ : d₁.mode = d.mode := Dev.bump_mode _ _ _ _
      have h₂ : d₂.mode = d₁.mode := Dev.newCycle_keepsMode _ _ _
      have h₃ : d₃.mode = d₂.mode := by
        unfold d₃
        split
        · exact (Dev.log_keepsMode _ _ _ _ _ _).trans (Dev.bump_mode _ _ _ _)
        · rfl
      clear_value d₃ d₂ d₁
      split
      · exact h₂.trans h₁
      · exact h₃.trans (h₂.trans h₁)
  · rfl

theorem execCreditGrant_keepsMode (p : Port) (l : Lane) (s : State) :
    EndsIn s.dev.mode (execCreditGrant p l s) := by
  refine s.on_keepsMode fun d => ?_
  dsimp only
  split <;> simp

theorem execPinTrigger_keepsMode (i : Fin 2) (s : State) :
    EndsIn s.dev.mode (execPinTrigger i s) := by
  refine s.on_keepsMode fun d => ?_
  dsimp only
  split <;> simp

theorem execTriggerWindowOpen_keepsMode (s : State) :
    EndsIn s.dev.mode (execTriggerWindowOpen s) := by
  refine s.on_keepsMode fun d => ?_
  split <;> simp [apply_ite Dev.mode]

theorem execDecisionPoint_keepsMode (s : State) :
    EndsIn s.dev.mode (execDecisionPoint s) := by
  refine s.on_sameMode fun d => ?_
  have hDecide (x : Dev) (k n : Nat) : SameMode x (((x.decideFrame k true).bump Reg.TRG_SELECTED).set Reg.TRG_BACKLOG_NOW 0 n) :=
    ⟨(Dev.set_mode _ _ _ _).trans ((Dev.bump_mode _ _ _ _).trans (Dev.decideFrame_keepsMode _ _ _))⟩
  have hTag (x : Dev) (k : Nat) (f : Basket → Basket) : SameMode x (x.updBasket k f) := ⟨Dev.updBasket_keepsMode _ _ _⟩
  have hPause (x : Dev) (t : Option Nat) : SameMode x { x with mem := { x.mem with pauseFrom := t } } := ⟨rfl⟩
  have hExpire (x : Dev) (b : Basket) : SameMode x (x.expire b) := ⟨Dev.expire_keepsMode _ _⟩
  have hDrop (x : Dev) : SameMode x x.dropWindows := ⟨Dev.dropWindows_keepsMode _⟩
  have hPrune (x : Dev) (t : Nat) : SameMode x (x.pruneWindows t) := ⟨Dev.pruneWindows_keepsMode _ _⟩
  split
  · exact hDrop d
  · extract_lets frozen due paused d₁
    have h₁ : SameMode d d₁ := by
      unfold d₁
      split
      · extract_lets x n y
        have hDecided : SameMode d y := (hTag d _ _).trans (hDecide x _ n)
        clear_value y x
        split
        · exact hDecided.trans (hPause y _)
        · exact hDecided
      · exact hExpire d _
    clear_value d₁
    split
    · exact .refl d
    · split
      · exact (hExpire d _).trans (hDrop _)
      · split
        · exact hPause d _
        · exact h₁.trans ((hPrune _ _).trans (hDrop _))

theorem execGatedReadout_keepsMode (bad : List (ReadWord × BadWord)) (s : State) :
    EndsIn s.dev.mode (execGatedReadout bad s) := by
  refine s.on_sameMode fun d => ?_
  have hOffer (x y : Dev) (b : Basket) (body : Bytes) (h : x.offer b body true = some y) : SameMode x y := ⟨Dev.offer_keepsMode h⟩
  have hFault (x : Dev) (w : BadWord) : SameMode x (x.memFault w) := ⟨Dev.memFault_keepsMode _ _⟩
  have hCount (x : Dev) (n : Nat) : SameMode x (x.set Reg.TRG_BACKLOG_NOW 0 n).syncStalls :=
    ⟨(Dev.syncStalls_keepsMode _).trans (Dev.set_mode _ _ _ _)⟩
  have hResume (x : Dev) (n : Nat) : SameMode x ({ x with mem := { x.mem with pauseFrom := none } }.bump Reg.TRG_PAUSE 0 n) :=
    ⟨Dev.bump_mode _ _ _ _⟩
  split
  · exact .refl d
  · rename_i b _
    extract_lets lost
    clear_value lost
    generalize hTaken : d.offer b _ true = offered
    cases offered with
    | none => exact .refl d
    | some x =>
      -- the operations stay opaque, so that no check evaluates them
      obtain ⟨sync, hSync⟩ : ∃ f, f = Dev.syncStalls := ⟨_, rfl⟩
      obtain ⟨get, hGet⟩ : ∃ f, f = @Dev.get := ⟨_, rfl⟩
      rw [← hSync, ← hGet]
      rw [← hSync] at hCount
      dsimp only
      generalize hy : forEach bad _ x = y
      have hRead : SameMode x y := hy ▸ forEach_sameMode bad _ (fun _ _ => hFault _ _) x
      clear hy
      generalize get y _ _ - 1 = n
      generalize hz : sync _ = z
      have hCounted : SameMode d z :=
        (hOffer _ _ _ _ hTaken).trans (hRead.trans (hz ▸ hCount y n))
      (repeat' split)
      · exact hCounted.trans (hResume z _)
      · exact hCounted
      · exact hCounted

theorem execScrubWindowOpen_keepsMode (s : State) :
    EndsIn s.dev.mode (execScrubWindowOpen s) := by
  refine s.on_keepsMode fun d => ?_
  dsimp only
  split <;> simp [apply_ite Dev.mode]

theorem execScrubWindowEnd_keepsMode (s : State) :
    EndsIn s.dev.mode (execScrubWindowEnd s) := by
  refine s.on_keepsMode fun d => ?_
  split <;> simp [apply_ite Dev.mode]

theorem execScrubRead_keepsMode (word : ScrubWord) (s : State) :
    EndsIn s.dev.mode (execScrubRead word s) := by
  refine s.on_keepsMode fun d => ?_
  dsimp only
  split <;> simp [apply_ite Dev.mode]

theorem execScrubLapEnd_keepsMode (sram : Bool) (s : State) :
    EndsIn s.dev.mode (execScrubLapEnd sram s) := by
  refine s.on_keepsMode fun d => ?_
  dsimp only
  split <;> simp [apply_ite Dev.mode]

theorem execLapLimitExceeded_keepsMode (s : State) :
    EndsIn s.dev.mode (execLapLimitExceeded s) := by
  refine s.on_keepsMode fun d => ?_
  dsimp only
  split <;> simp

theorem execStallPitchWrite_keepsMode (w : Writer) (bw : Bool) (k : BitVec 16) (val : Bytes) (s : State) :
    EndsIn s.dev.mode (execStallPitchWrite w bw k val s) := by
  refine s.on_keepsMode fun d => ?_
  extract_lets a
  split
  · exact Dev.answer_mode _ _ _ _
  · refine Dev.write_keepsMode _ _ _ _ _ fun x v => ?_
    extract_lets stalled
    have hStalled : stalled.mode = x.mode := forEach_keepsMode _ _ (fun _ _ => Dev.set_mode _ _ _ _) x
    clear_value stalled
    (repeat' split)
    · rfl
    · rfl
    · exact (Dev.rescale_keepsMode stalled).trans hStalled
    · rfl
    · exact (Dev.rescale_keepsMode stalled).trans hStalled

theorem execPitchScaling_keepsMode (s : State) :
    EndsIn s.dev.mode (execPitchScaling s) := by
  refine s.on_keepsMode fun d => ?_
  dsimp only
  split <;> simp [apply_ite Dev.mode]

theorem execPitchRestore_keepsMode (s : State) :
    EndsIn s.dev.mode (execPitchRestore s) := by
  refine s.on_keepsMode fun d => ?_
  dsimp only
  split <;> simp [apply_ite Dev.mode]

theorem execMemoryChannelOffline_keepsMode (m : Fin 8) (cause : Fin 3) (s : State) :
    EndsIn s.dev.mode (execMemoryChannelOffline m cause s) := by
  refine s.on_keepsMode fun d => ?_
  dsimp only
  split <;> simp

theorem execDiagnosticEnable_keepsMode (w : Writer) (val : Bytes) (s : State) :
    EndsIn s.dev.mode (execDiagnosticEnable w val s) := by
  refine s.on_keepsMode fun d => ?_
  refine Dev.write_keepsMode _ _ _ _ _ fun x v => ?_
  (repeat' split) <;> simp

theorem execDiagnosticWriteRaw_keepsMode (w : Writer) (s : State) :
    EndsIn s.dev.mode (execDiagnosticWriteRaw w s) := by
  refine s.on_keepsMode fun d => ?_
  dsimp only
  refine Dev.diagCommand_keepsMode _ _ _ fun x => ?_
  (repeat' split) <;> simp

theorem execDiagnosticReadRaw_keepsMode (w : Writer) (s : State) :
    EndsIn s.dev.mode (execDiagnosticReadRaw w s) := by
  refine s.on_keepsMode fun d => ?_
  dsimp only
  refine Dev.diagCommand_keepsMode _ _ _ fun x => ?_
  simp

theorem execDiagnosticReadChecked_keepsMode (w : Writer) (s : State) :
    EndsIn s.dev.mode (execDiagnosticReadChecked w s) := by
  refine s.on_keepsMode fun d => ?_
  dsimp only
  refine Dev.diagCommand_keepsMode _ _ _ fun x => ?_
  (repeat' split) <;> simp

theorem execPrecisionGrant_keepsMode (p : Port) (s : State) :
    EndsIn s.dev.mode (execPrecisionGrant p s) := by
  refine s.on_keepsMode fun d => ?_
  simp

theorem execRaiseEnd_keepsMode (p : Port) (s : State) :
    EndsIn s.dev.mode (execRaiseEnd p s) := by
  refine s.on_keepsMode fun d => ?_
  dsimp only
  split <;> simp [apply_ite Dev.mode]

theorem execBiasRepeat_keepsMode (s : State) :
    EndsIn s.dev.mode (execBiasRepeat s) := by
  refine s.on_keepsMode fun d => ?_
  dsimp only
  split <;> simp [forEach_keepsMode, apply_ite Dev.mode]

theorem execFestatPeriodicReceive_keepsMode (p : Port) (exec : BitVec 16) (late : BitVec 8) (power : BitVec 16) (temp : BitVec 12) (trip fence : Bool) (cancelled : BitVec 8) (s : State) :
    EndsIn s.dev.mode (execFestatPeriodicReceive p exec late power temp trip fence cancelled s) := by
  refine s.on_keepsMode fun d => ?_
  dsimp only
  split <;> simp [apply_ite Dev.mode]

theorem execFestatWakeReceive_keepsMode (p : Port) (exec : BitVec 16) (late cancelled : BitVec 8) (groups : BitVec 16) (s : State) :
    EndsIn s.dev.mode (execFestatWakeReceive p exec late cancelled groups s) := by
  refine s.on_keepsMode fun d => ?_
  dsimp only
  split <;> simp [forEach_keepsMode]

theorem execFestatStale_keepsMode (p : Port) (s : State) :
    EndsIn s.dev.mode (execFestatStale p s) := by
  refine s.on_keepsMode fun d => ?_
  dsimp only
  split <;> simp

theorem execStaleCritical_keepsMode (p : Port) (s : State) :
    EndsIn s.dev.mode (execStaleCritical p s) := by
  refine s.on_keepsMode fun d => ?_
  dsimp only
  split <;> simp [apply_ite Dev.mode]

theorem execThermalEvaluation_keepsMode (sensors : List (BitVec 16)) (s : State) :
    EndsIn s.dev.mode (execThermalEvaluation sensors s) := by
  refine s.on_keepsMode fun d => ?_
  dsimp only
  split <;> simp [forEach_keepsMode, apply_ite Dev.mode]

theorem execFlapHoldEnd_keepsMode (i : Fin 33) (s : State) :
    EndsIn s.dev.mode (execFlapHoldEnd i s) := by
  refine s.on_keepsMode fun d => ?_
  dsimp only
  split <;> simp [apply_ite Dev.mode]

theorem execDomainCaddyUpdate_keepsMode (logic serdes memory : BitVec 32) (s : State) :
    EndsIn s.dev.mode (execDomainCaddyUpdate logic serdes memory s) := by
  refine s.on_keepsMode fun d => ?_
  split <;> simp

theorem execFeThermalTrip_keepsMode (p : Port) (mean : BitVec 16) (s : State) :
    EndsIn s.dev.mode (execFeThermalTrip p mean s) := by
  refine s.on_keepsMode fun d => ?_
  dsimp only
  split <;> simp

theorem execFeTripRelease_keepsMode (p : Port) (mean : BitVec 16) (cool : BitVec 32) (s : State) :
    EndsIn s.dev.mode (execFeTripRelease p mean cool s) := by
  refine s.on_keepsMode fun d => ?_
  dsimp only
  split <;> simp

theorem execFenceBiasLimitWrite_keepsMode (w : Writer) (e : BitVec 16) (val : Bytes) (s : State) :
    EndsIn s.dev.mode (execFenceBiasLimitWrite w e val s) := by
  refine s.on_keepsMode fun d => ?_
  refine Dev.write_keepsMode _ _ _ _ _ fun x v => ?_
  extract_lets es
  split
  · rfl
  · exact (forEach_keepsMode _ _ (fun _ _ => Dev.tellFes_keepsMode _ _ _) _).trans (forEach_keepsMode _ _ (fun _ _ => Dev.set_mode _ _ _ _) x)

theorem execServicePost_keepsMode (poster : Option (Fin 16)) (task : Fin 1024) (arg : BitVec 32) (s : State) :
    EndsIn s.dev.mode (execServicePost poster task arg s) := by
  refine s.on_keepsMode fun d => ?_
  dsimp only
  (repeat' split) <;> simp

theorem execDataJobPost_keepsMode (item : DataItem) (s : State) :
    EndsIn s.dev.mode (execDataJobPost item s) := by
  refine s.on_keepsMode fun d => ?_
  dsimp only
  split <;> simp [apply_ite Dev.mode]

theorem execJobDispatch_keepsMode (s : State) :
    EndsIn s.dev.mode (execJobDispatch s) := by
  refine s.on_keepsMode fun d => ?_
  split
  · rfl
  · extract_lets sched x
    have hFold (l : List Job) (st : Nat × Dev) : (l.foldl (Dev.tryDispatch x.eligible) st).2.mode = st.2.mode := by
      induction l generalizing st with
      | nil => rfl
      | cons j l ih => rw [List.foldl_cons, ih, Dev.tryDispatch_keepsMode]
    exact (Dev.settleStaging_keepsMode _).trans (hFold _ _)

theorem execJobComplete_keepsMode (core : Fin 16) (stores : List CoreStore) (s : State) :
    EndsIn s.dev.mode (execJobComplete core stores s) := by
  refine s.on_keepsMode fun d => ?_
  dsimp only
  split <;> simp [apply_ite Dev.mode]

theorem execJobAbort_keepsMode (core : Fin 16) (stores : List CoreStore) (s : State) :
    EndsIn s.dev.mode (execJobAbort core stores s) := by
  refine s.on_keepsMode fun d => ?_
  dsimp only
  (repeat' split) <;> simp

theorem execTaskRestore_keepsMode (w : Writer) (e : BitVec 16) (val : Bytes) (s : State) :
    EndsIn s.dev.mode (execTaskRestore w e val s) := by
  refine s.on_keepsMode fun d => ?_
  dsimp only
  refine Dev.writeEach_keepsMode _ _ _ _ _ fun k x v => ?_
  (repeat' split) <;> simp

theorem execSpillSegmentReadback_keepsMode (bad : List (Fin 64 × BadWord)) (s : State) :
    EndsIn s.dev.mode (execSpillSegmentReadback bad s) := by
  refine s.on_keepsMode fun d => ?_
  dsimp only
  split <;> simp [forEach_keepsMode, apply_ite Dev.mode]

theorem execCoreAccessFault_keepsMode (core : Fin 16) (access : CoreAccess) (s : State) :
    EndsIn s.dev.mode (execCoreAccessFault core access s) := by
  refine s.on_keepsMode fun d => ?_
  dsimp only
  (repeat' split) <;> simp

theorem execCoreSramError_keepsMode (core : Fin 16) (s : State) :
    EndsIn s.dev.mode (execCoreSramError core s) := by
  refine s.on_keepsMode fun d => ?_
  dsimp only
  (repeat' split) <;> simp

theorem execCoreReloadComplete_keepsMode (core : Fin 16) (s : State) :
    EndsIn s.dev.mode (execCoreReloadComplete core s) := by
  refine s.on_keepsMode fun d => ?_
  dsimp only
  split <;> simp

theorem execTraceRead_keepsMode (w : Writer) (s : State) :
    EndsIn s.dev.mode (execTraceRead w s) := by
  refine s.on_keepsMode fun d => ?_
  dsimp only
  simp

theorem execImageErase_keepsMode (w : Writer) (e : BitVec 16) (val : Bytes) (s : State) :
    EndsIn s.dev.mode (execImageErase w e val s) := by
  refine s.on_keepsMode fun d => ?_
  dsimp only
  refine Dev.writeEach_keepsMode _ _ _ _ _ fun k x v => ?_
  (repeat' split) <;> simp

theorem execImageData_keepsMode (w : Writer) (e : BitVec 16) (data : Bytes) (s : State) :
    EndsIn s.dev.mode (execImageData w e data s) := by
  refine s.on_keepsMode fun d => ?_
  dsimp only
  refine Dev.writeEach_keepsMode _ _ _ _ _ fun k x v => ?_
  (repeat' split) <;> simp

theorem execImageVerify_keepsMode (w : Writer) (e : BitVec 16) (val : Bytes) (s : State) :
    EndsIn s.dev.mode (execImageVerify w e val s) := by
  refine s.on_keepsMode fun d => ?_
  dsimp only
  refine Dev.writeEach_keepsMode _ _ _ _ _ fun k x v => ?_
  (repeat' split) <;> simp

theorem execImageOperationComplete_keepsMode (i : Fin 2) (s : State) :
    EndsIn s.dev.mode (execImageOperationComplete i s) := by
  refine s.on_keepsMode fun d => ?_
  dsimp only
  split <;> simp [forEach_keepsMode]

theorem execImageTrial_keepsMode (w : Writer) (val : Bytes) (s : State) :
    EndsIn s.dev.mode (execImageTrial w val s) := by
  refine s.on_keepsMode fun d => ?_
  simp

theorem execImageTrialCancel_keepsMode (w : Writer) (s : State) :
    EndsIn s.dev.mode (execImageTrialCancel w s) := by
  refine s.on_keepsMode fun d => ?_
  simp

theorem execImageConfirm_keepsMode (w : Writer) (val : Bytes) (s : State) :
    EndsIn s.dev.mode (execImageConfirm w val s) := by
  refine s.on_keepsMode fun d => ?_
  refine Dev.write_keepsMode _ _ _ _ _ fun x v => ?_
  (repeat' split) <;> simp

theorem execPreferredImage_keepsMode (w : Writer) (val : Bytes) (s : State) :
    EndsIn s.dev.mode (execPreferredImage w val s) := by
  refine s.on_keepsMode fun d => ?_
  refine Dev.write_keepsMode _ _ _ _ _ fun x v => ?_
  (repeat' split) <;> simp

theorem execCvuSubmit_keepsMode (core : Fin 16) (e : Fin 4) (slot : Fin 16) (desc : Bytes) (s : State) :
    EndsIn s.dev.mode (execCvuSubmit core e slot desc s) := by
  refine s.on_keepsMode fun d => ?_
  dsimp only
  split <;> simp [apply_ite Dev.mode]

theorem execCvuDescriptorStart_keepsMode (e : Fin 4) (s : State) :
    EndsIn s.dev.mode (execCvuDescriptorStart e s) := by
  refine s.on_keepsMode fun d => ?_
  dsimp only
  split <;> simp [apply_ite Dev.mode]

theorem execCvuDescriptorComplete_keepsMode (e : Fin 4) (data : Bytes) (bad : Option ScrubWord) (s : State) :
    EndsIn s.dev.mode (execCvuDescriptorComplete e data bad s) := by
  refine s.on_sameMode fun d => ?_
  extract_lets x
  split
  · exact .refl d
  extract_lets b ctl bad' clean named asks
  split
  · exact .refl d
  rename_i none_ _ cyc slot _ d₁ d₂ _
  have h₁ : SameMode d d₁ := by
    unfold d₁
    split
    · exact ⟨rfl⟩
    · exact .refl d
  have h₂ : SameMode d₁ d₂ := ⟨Dev.setEng_keepsMode _ _ _⟩
  have hNone (st : Nat) (y : Dev) : SameMode y (none_ st y).2.2.2 := ⟨Dev.draw_keepsMode y⟩
  have hCheck (y : Dev) : SameMode y (y.checkData x.params b data).2.2.2 := ⟨Dev.checkData_keepsMode _ _ _ _⟩
  have hNote (y : Dev) (f : ScrubWord) : SameMode y (y.noteFault f) := ⟨Dev.noteFault_keepsMode _ _⟩
  have hEnd (y : Dev) (k res st alive : Nat) : SameMode y (y.endDescriptor e k res st alive) := ⟨Dev.endDescriptor_keepsMode _ _ _ _ _ _⟩
  have hPost (y : Dev) (g : Engine) : SameMode y ((y.setEng e g).postEngine e) :=
    ⟨(Dev.postEngine_keepsMode _ _).trans (Dev.setEng_keepsMode _ _ _)⟩
  clear_value none_ d₂ d₁ 
  refine h₁.trans (h₂.trans ?_)
  split
  rename_i res st alive y hRes
  have hTold : SameMode d₂ y := by
    have hSnd {r : Nat × Nat × Nat × Dev} (h : SameMode d₂ r.2.2.2) (eq : r = (res, st, alive, y)) : SameMode d₂ y := by
      subst eq
      exact h
    split at hRes
    · exact hSnd (hCheck d₂) hRes
    · split at hRes
      · exact hSnd ((hNote d₂ _).trans (hCheck _)) hRes
      · exact hSnd ((hNote d₂ _).trans (hNone 6 _)) hRes
    · exact hSnd (hNone _ d₂) hRes
  clear hRes
  split
  · exact hTold.trans ((hEnd y _ _ _ _).trans (hPost _ _))
  · exact hTold.trans (hEnd y _ _ _ _)

theorem execAliveReset_keepsMode (w : Writer) (e : BitVec 16) (val : Bytes) (s : State) :
    EndsIn s.dev.mode (execAliveReset w e val s) := by
  refine s.on_keepsMode fun d => ?_
  refine Dev.writeEach_keepsMode _ _ _ _ _ fun k x v => ?_
  simp

theorem execConcQueuePointerMismatch_keepsMode (q : ConcQueue) (lost : List (BitVec 64 × Nat)) (s : State) :
    EndsIn s.dev.mode (execConcQueuePointerMismatch q lost s) := by
  refine s.on_keepsMode fun d => ?_
  simp

theorem execEmConversionStart_keepsMode (n : Fin 16) (s : State) :
    EndsIn s.dev.mode (execEmConversionStart n s) := by
  refine s.on_keepsMode fun d => ?_
  simp

theorem execEmChannelTypeWrite_keepsMode (w : Writer) (e : BitVec 16) (val : Bytes) (s : State) :
    EndsIn s.dev.mode (execEmChannelTypeWrite w e val s) := by
  refine s.on_keepsMode fun d => ?_
  dsimp only
  refine Dev.writeEach_keepsMode _ _ _ _ _ fun k x v => ?_
  simp

theorem execBlankRise_keepsMode (i : Fin 2) (s : State) :
    EndsIn s.dev.mode (execBlankRise i s) := by
  refine s.on_keepsMode fun d => ?_
  dsimp only
  split <;> simp [apply_ite Dev.mode]

theorem execBlankFall_keepsMode (i : Fin 2) (s : State) :
    EndsIn s.dev.mode (execBlankFall i s) := by
  refine s.on_keepsMode fun d => ?_
  dsimp only
  split <;> simp

theorem execBlankHoldEnd_keepsMode (i : Fin 2) (s : State) :
    EndsIn s.dev.mode (execBlankHoldEnd i s) := by
  refine s.on_keepsMode fun d => ?_
  simp

theorem execEmConversionComplete_keepsMode (n : Fin 16) (meas : EmMeas) (s : State) :
    EndsIn s.dev.mode (execEmConversionComplete n meas s) := by
  refine s.on_keepsMode fun d => ?_
  split
  · rfl
  · extract_lets stop x c
    have hSpoilt : x.mode = d.mode := forEach_keepsMode _ _ (fun i y => by split <;> simp) d
    clear_value x
    split
    · rfl
    · split
      · exact (Dev.setEm_keepsMode _ _ _).trans ((Dev.bump_mode _ _ _ _).trans hSpoilt)
      · have hDrawn := Dev.draw_keepsMode x
        generalize x.draw = drawn at hDrawn
        obtain ⟨r, y⟩ := drawn
        exact (Dev.postEnv_keepsMode _ _).trans ((Dev.setEm_keepsMode _ _ _).trans ((Dev.wrap_mode _ _ _).trans (hDrawn.trans hSpoilt)))

theorem execExcitationClamp_keepsMode (n : Fin 16) (current : BitVec 32) (s : State) :
    EndsIn s.dev.mode (execExcitationClamp n current s) := by
  refine s.on_keepsMode fun d => ?_
  dsimp only
  split <;> simp

theorem execLedgerWrite_keepsMode (okA okB : Bool) (s : State) :
    EndsIn s.dev.mode (execLedgerWrite okA okB s) := by
  refine s.on_keepsMode fun d => ?_
  dsimp only
  split <;> simp [apply_ite Dev.mode]

theorem execLedgerRead_keepsMode (w : Writer) (s : State) :
    EndsIn s.dev.mode (execLedgerRead w s) := by
  refine s.on_keepsMode fun d => ?_
  dsimp only
  simp

theorem execLedgerRewind_keepsMode (w : Writer) (val : Bytes) (s : State) :
    EndsIn s.dev.mode (execLedgerRewind w val s) := by
  refine s.on_keepsMode fun d => ?_
  dsimp only
  refine Dev.write_keepsMode _ _ _ _ _ fun x v => ?_
  simp

theorem execMaroriMessageReceive_keepsMode (be : Fin 8) (ip : BitVec 32) (udp : BitVec 16) (mac : BitVec 48) (bytes : Bytes) (s : State) :
    EndsIn s.dev.mode (execMaroriMessageReceive be ip udp mac bytes s) := by
  refine s.on_keepsMode fun d => ?_
  split <;> simp

theorem execCanFdFrameReceive_keepsMode (bus : Fin 2) (id : BitVec 29) (data : Bytes) (s : State) :
    EndsIn s.dev.mode (execCanFdFrameReceive bus id data s) := by
  refine s.on_keepsMode fun d => ?_
  dsimp only
  (repeat' split) <;> simp

theorem execCanSegmentTimeout_keepsMode (bus : Fin 2) (client : BitVec 8) (s : State) :
    EndsIn s.dev.mode (execCanSegmentTimeout bus client s) := by
  refine s.on_keepsMode fun d => ?_
  split <;> simp [apply_ite Dev.mode]

theorem execMaroriRead_keepsMode (w : Writer) (port : BitVec 8) (index : BitVec 16) (sub : BitVec 8) (elem : BitVec 16) (s : State) :
    EndsIn s.dev.mode (execMaroriRead w port index sub elem s) := by
  refine s.on_keepsMode fun d => ?_
  dsimp only
  (repeat' split) <;> simp

theorem execMaroriWrite_keepsMode (w : Writer) (port : BitVec 8) (index : BitVec 16) (sub : BitVec 8) (elem : BitVec 16) (val : Bytes) (s : State) :
    EndsIn s.dev.mode (execMaroriWrite w port index sub elem val s) := by
  refine s.on_keepsMode fun d => ?_
  extract_lets e
  split
  · exact Dev.answer_mode _ _ _ _
  rename_i r _
  split
  · exact Dev.answer_mode _ _ _ _
  split
  · split
    · exact Dev.answer_mode _ _ _ _
    · exact Dev.writeDiag_keepsMode _ _ _ _
  split
  · exact Dev.answer_mode _ _ _ _
  split
  · extract_lets p
    have gated := d.gate_keepsMode w r.addr e val
    split
    · rename_i st x eq
      rw [eq] at gated
      exact (Dev.answer_mode _ _ _ _).trans gated
    · rename_i x eq
      rw [eq] at gated
      split
      · exact (Dev.answer_mode _ _ _ _).trans gated
      · split
        · exact (Dev.cfgQueue_keepsMode _ _ _).trans gated
        · exact (Dev.answer_mode _ _ _ _).trans gated
  · exact Dev.write_keepsMode _ _ _ _ _ fun x v => Dev.putObject_keepsMode _ _ _ _

theorem execMaroriNop_keepsMode (w : Writer) (s : State) :
    EndsIn s.dev.mode (execMaroriNop w s) := by
  refine s.on_keepsMode fun d => ?_
  simp

theorem execMaroriTrigger_keepsMode (w : Writer) (port : BitVec 8) (index : BitVec 16) (sub : BitVec 8) (elem : BitVec 16) (payload : Bytes) (s : State) :
    EndsIn s.dev.mode (execMaroriTrigger w port index sub elem payload s) := by
  refine s.on_keepsMode fun d => ?_
  dsimp only
  split <;> simp [apply_ite Dev.mode]

theorem execGuardToken_keepsMode (w : Writer) (val : Bytes) (s : State) :
    EndsIn s.dev.mode (execGuardToken w val s) := by
  refine s.on_keepsMode fun d => ?_
  refine Dev.write_keepsMode _ _ _ _ _ fun x v => ?_
  (repeat' split) <;> simp

theorem execGuardTokenExpire_keepsMode (c : Fin 16) (s : State) :
    EndsIn s.dev.mode (execGuardTokenExpire c s) := by
  refine s.on_keepsMode fun d => ?_
  simp

theorem execTransactionEntryExpire_keepsMode (c : Fin 16) (tid : BitVec 16) (s : State) :
    EndsIn s.dev.mode (execTransactionEntryExpire c tid s) := by
  refine s.on_keepsMode fun d => ?_
  simp

theorem execForceKeeperSwap_keepsMode (w : Writer) (val : Bytes) (s : State) :
    EndsIn s.dev.mode (execForceKeeperSwap w val s) := by
  refine s.on_keepsMode fun d => ?_
  have gated := d.gate_keepsMode w Reg.RD_KP_SWAP 0 val
  extract_lets old
  split
  · rename_i st x eq
    rw [eq] at gated
    exact (Dev.answer_mode _ _ _ _).trans gated
  · rename_i x eq
    rw [eq] at gated
    extract_lets y
    have hTaken : y.mode = x.mode :=
      (Dev.setHealth_keepsMode _ _ _).trans ((Dev.takeOver_keepsMode _ _ _ _).trans (Dev.answer_mode _ _ _ _))
    clear_value y
    split
    · exact (Dev.answer_mode _ _ _ _).trans gated
    · exact hTaken.trans gated

theorem execKeeperSelfTestDone_keepsMode (pass : Bool) (s : State) :
    EndsIn s.dev.mode (execKeeperSelfTestDone pass s) := by
  refine s.on_keepsMode fun d => ?_
  dsimp only
  split <;> simp

theorem execWarmStandbyEnd_keepsMode (s : State) :
    EndsIn s.dev.mode (execWarmStandbyEnd s) := by
  refine s.on_keepsMode fun d => ?_
  dsimp only
  split <;> simp [apply_ite Dev.mode]

theorem execModeRequest_keepsMode (w : Writer) (val : Bytes) (s : State) :
    EndsIn s.dev.mode (execModeRequest w val s) := by
  refine s.on_keepsMode fun d => ?_
  simp

theorem execModeRequestCancel_keepsMode (w : Writer) (s : State) :
    EndsIn s.dev.mode (execModeRequestCancel w s) := by
  refine s.on_keepsMode fun d => ?_
  simp

theorem execSafeDrainEnd_keepsMode (s : State) :
    EndsIn s.dev.mode (execSafeDrainEnd s) := by
  refine s.on_sameMode fun d => ?_
  have hCount (x : Dev) (n : Nat) : SameMode x (x.bump Reg.MG_EGR_WAIT 0 n) := ⟨Dev.bump_mode _ _ _ _⟩
  have hDrop (bs : List Basket) (x : Dev) : SameMode x (forEach bs (fun b d => d.dropHomes b) x) :=
    forEach_sameMode _ _ (fun _ _ => ⟨Dev.dropHomes_keepsMode _ _⟩) x
  have hPauses (x : Dev) : SameMode x (forEach (List.finRange 8) (fun b d => if b = 0 then d else d.dropPause b) x) :=
    forEach_sameMode _ _ (fun b y => ⟨by split <;> simp⟩) x
  have hLog (x : Dev) (v n : Int) : SameMode x (x.log 0xFF 0x0107 v n) := ⟨Dev.log_keepsMode _ _ _ _ _ _⟩
  have hLinks (x : Dev) : SameMode x (forRange 7 (fun b d => d.set Reg.BE_LINK (b + 1) 0) x).syncStalls :=
    ⟨(Dev.syncStalls_keepsMode _).trans (forRange_keepsMode _ _ (fun _ _ => Dev.set_mode _ _ _ _) x)⟩
  split
  · exact .refl d
  · extract_lets n d₁ waited d₂ empty d₃ net merge d₄
    have h₁ : SameMode d d₁ := by
      unfold d₁
      split
      · exact .refl d
      · exact hLog d _ _
    have h₃ : SameMode d d₃ := h₁.trans ((hCount d₁ waited).trans ((hDrop _ _).trans (hPauses d₂)))
    have h₄ : SameMode d₃ d₄ := by
      clear_value d₃
      exact ⟨rfl⟩
    clear_value d₄ d₃ d₂ d₁
    exact h₃.trans (h₄.trans (hLinks d₄))

theorem execRateSweepComplete_keepsMode (s : State) :
    EndsIn s.dev.mode (execRateSweepComplete s) := by
  refine s.on_keepsMode fun d => ?_
  split
  · rfl
  · split
    · rfl
    · extract_lets keeper x y
      have hSwept : SameMode d x := ⟨rfl⟩
      have hPending : y.mode = x.mode := (Dev.pendMode_keepsMode _ _).trans (Dev.set_mode _ _ _ _)
      clear_value y
      split
      · exact (Dev.log_keepsMode _ _ _ _ _ _).trans (hPending.trans hSwept.mode)
      · exact hSwept.mode

theorem execStartConfirm_keepsMode (s : State) :
    EndsIn s.dev.mode (execStartConfirm s) := by
  refine s.on_keepsMode fun d => ?_
  dsimp only
  split <;> simp [apply_ite Dev.mode]

theorem execConcThermalTrip_keepsMode (sensor : Fin 12) (mean : BitVec 16) (s : State) :
    EndsIn s.dev.mode (execConcThermalTrip sensor mean s) := by
  refine s.on_keepsMode fun d => ?_
  dsimp only
  split <;> simp [apply_ite Dev.mode]

theorem execFePowerOnReset_keepsMode (p : Port) (s : State) :
    EndsIn s.dev.mode (execFePowerOnReset p s) := by
  refine s.on_keepsMode fun d => ?_
  dsimp only
  split <;> simp

theorem execFeSupplyFault_keepsMode (p : Port) (s : State) :
    EndsIn s.dev.mode (execFeSupplyFault p s) := by
  refine s.on_keepsMode fun d => ?_
  simp

end Sys2Proof.Machine
end

section
/-! The commands that may change the mode: those that may restart the device, and MODE_CHANGE (R29, R486; O5). -/

namespace Sys2Proof.Machine

/-- The mode an outcome leaves is `m`, or that of a restart (R486). -/
def EndsInOrBoots (m : Mode) (r : Result) : Prop := ∀ t, r = .next t → t.dev.mode = m ∨ t.dev.mode = .boot

theorem State.on_endsInOrBoots (s : State) {f : Dev → Dev} (h : ∀ d, (f d).mode = d.mode ∨ (f d).mode = .boot) :
    EndsInOrBoots s.dev.mode (s.on f) := by
  intro t run
  cases run
  exact h s.dev

theorem execTimeBaseCheckFail_keepsModeOrBoots (s : State) : EndsInOrBoots s.dev.mode (execTimeBaseCheckFail s) := by
  refine s.on_endsInOrBoots fun d => .inl ?_
  extract_lets o tu x
  have hMarked : SameMode d x := ⟨rfl⟩
  clear_value x
  split
  · exact Dev.swapTb_keepsMode _ _
  · exact (Dev.fallSafe_keepsMode _ _).trans hMarked.mode

theorem execSramWordUncorrectable_keepsModeOrBoots (place : SramPlace) (bits : BitVec 72) (s : State) :
    EndsInOrBoots s.dev.mode (execSramWordUncorrectable place bits s) := by
  refine s.on_endsInOrBoots fun d => .inl ?_
  split
  · rfl
  · extract_lets x
    have hCounted : x.mode = d.mode := Dev.bump_mode _ _ _ _
    clear_value x
    refine Eq.trans ?_ hCounted
    split
    · exact Dev.resetConcQueue_keepsMode _ _ _
    · exact Dev.loseBlock_keepsMode _ _
    · exact (Dev.log_keepsMode _ _ _ _ _ _).trans (Dev.set_mode _ _ _ _)
    · split
      · exact Dev.fallSafe_keepsMode _ _
      · rfl
    · exact Dev.dropTxns_keepsMode _ _
    · exact Dev.bump_mode _ _ _ _
    · exact Dev.faultTask_keepsMode _ _
    · rfl
    · rfl
    · rfl

theorem execRestart_keepsModeOrBoots (w : Writer) (val : Bytes) (s : State) : EndsInOrBoots s.dev.mode (execRestart w val s) := by
  refine s.on_endsInOrBoots fun d => ?_
  have gated := d.gate_keepsMode w Reg.BT_RESTART 0 val
  split
  · rename_i st x eq
    rw [eq] at gated
    exact .inl ((Dev.answer_mode _ _ _ _).trans gated)
  · exact .inr (Dev.restart_mode _ _)

theorem execResetAssert_keepsModeOrBoots (aonLost : Bool) (s : State) : EndsInOrBoots s.dev.mode (execResetAssert aonLost s) := by
  refine s.on_endsInOrBoots fun d => ?_
  split
  · exact .inr (d.restart_mode 0x01)
  · split
    · exact .inl rfl
    · exact .inr (d.restart_mode 0x02)

theorem execResetRelease_keepsModeOrBoots (strap : BitVec 8) (s : State) :
    EndsInOrBoots s.dev.mode (execResetRelease strap s) := by
  refine s.on_endsInOrBoots fun d => ?_
  split
  · exact .inl rfl
  · extract_lets kept aon fresh bad x
    have hFresh : fresh.mode = .boot := rfl
    have hNamed : x.mode = fresh.mode := (Dev.newChallenge_keepsMode _).trans (Dev.set_mode _ _ _ _)
    clear_value x fresh
    split
    · exact .inr ((Dev.log_keepsMode _ _ _ _ _ _).trans (hNamed.trans hFresh))
    · exact .inr (hNamed.trans hFresh)

theorem execBootTimeout_keepsModeOrBoots (s : State) : EndsInOrBoots s.dev.mode (execBootTimeout s) := by
  refine s.on_endsInOrBoots fun d => ?_
  split
  · exact .inr (Dev.restart_mode _ _)
  · exact .inl rfl

theorem execFatalFault_keepsModeOrBoots (s : State) : EndsInOrBoots s.dev.mode (execFatalFault s) := by
  refine s.on_endsInOrBoots fun d => .inl ?_
  split
  · rfl
  · exact Dev.fallSafe_keepsMode _ _

theorem execKeeperFailure_keepsModeOrBoots (cause : Fin 4) (us : Fin 1001) (torn : Bool) (s : State) :
    EndsInOrBoots s.dev.mode (execKeeperFailure cause us torn s) := by
  refine s.on_endsInOrBoots fun d => ?_
  have hTaken (x : Dev) (c v h : Nat) (o : Fin 2) : ((x.takeOver c v torn).setHealth o h).mode = x.mode :=
    (Dev.setHealth_keepsMode _ _ _).trans (Dev.takeOver_keepsMode _ _ _ _)
  extract_lets old early warm ready x
  have hOther : x.mode = d.mode := hTaken _ _ _ _ _
  clear_value x
  split
  · exact .inl rfl
  · split
    · split
      · exact .inl ((Dev.log_keepsMode _ _ _ _ _ _).trans (hTaken _ _ _ _ _))
      · exact .inr (Dev.restart_mode _ _)
    · split
      · exact .inl hOther
      · exact .inr (Dev.restart_mode _ _)

theorem Dev.bootSelfTest_mode (d : Dev) (a b : Bool) :
    (d.bootSelfTest a b).mode = d.mode ∨ (d.bootSelfTest a b).mode = .boot := by
  unfold Dev.bootSelfTest
  split
  · exact .inr (Dev.restart_mode _ _)
  · refine .inl ((Dev.toStep_keepsMode _ _).trans ?_)
    split
    · rfl
    · exact Dev.stepFailed_keepsMode _ _ _

theorem execBootStepComplete_keepsModeOrBoots (r : BootResult) (s : State) :
    EndsInOrBoots s.dev.mode (execBootStepComplete r s) := by
  refine s.on_endsInOrBoots fun d => ?_
  split
  · exact .inl rfl
  · split
    · exact Dev.bootSelfTest_mode _ _ _
    · exact .inl (Dev.bootFailedStarts_keepsMode _)
    · exact .inl (Dev.bootFlash_keepsMode _ _ _)
    · exact .inl (Dev.bootImage_keepsMode _)
    · exact .inl (Dev.bootLoaded_keepsMode _)
    · split
      · exact .inl rfl
      · exact .inl (Dev.bootMemory_keepsMode _ _ _)
    · split
      · exact .inl rfl
      · exact .inl (Dev.bootClocks_keepsMode _)
    · exact .inl (Dev.bootClocks_keepsMode _)
    · exact .inl (Dev.bootPorts_keepsMode _)
    · exact .inl rfl

/-- A change of mode ends in the mode it changes to: what it does on the way changes none. -/
theorem Dev.changeMode_mode (d : Dev) (m : Mode) (t : Nat) : (d.changeMode m t).mode = m := by
  unfold Dev.changeMode
  extract_lets old d₁ d₂ d₃ d₄ mem d₅ d₆ d₇ d₈ d₉ d₁₀ d₁₁ d₁₂
  have h₂ : d₂.mode = m := Dev.endWindows_keepsMode _ _
  have h₃ : d₃.mode = d₂.mode := by
    unfold d₃
    split
    · exact Dev.set_mode _ _ _ _
    · rfl
  have h₄ : d₄.mode = d₃.mode := Dev.restGroups_keepsMode _ _
  have h₅ : d₅.mode = d₄.mode := by
    clear_value d₄
    unfold d₅
    split <;> rfl
  have h₆ : d₆.mode = d₅.mode := by
    unfold d₆
    split
    · exact Dev.renumber_keepsMode _
    · rfl
  have h₇ : d₇.mode = d₆.mode := by
    unfold d₇
    split
    · exact Dev.downBackEnd_keepsMode _
    · rfl
  have h₈ : d₈.mode = d₇.mode := by
    unfold d₈
    split
    · exact forEach_keepsMode _ _ (fun _ _ => Dev.startTraining_keepsMode _ _) _
    · rfl
  have h₉ : d₉.mode = d₈.mode := by
    unfold d₉
    split
    · exact Dev.enterConfigure_keepsMode _ _
    · rfl
  have h₁₀ : d₁₀.mode = d₉.mode := by
    unfold d₁₀
    split
    · exact Dev.enterSafe_keepsMode _
    · rfl
  have h₁₁ : d₁₁.mode = d₁₀.mode := by
    unfold d₁₁
    split
    · exact Dev.enterLoopback_keepsMode _
    · rfl
  have h₁₂ : d₁₂.mode = d₁₁.mode := Dev.dropWindows_keepsMode _
  have entered : d₁₂.mode = m :=
    h₁₂.trans (h₁₁.trans (h₁₀.trans (h₉.trans (h₈.trans (h₇.trans (h₆.trans (h₅.trans (h₄.trans (h₃.trans h₂)))))))))
  clear_value d₁₂
  split
  · exact entered
  · exact (forEach_keepsMode _ _ (fun _ _ => Dev.leadCheck_keepsMode _ _) _).trans entered

/-- MODE_CHANGE keeps the mode, or takes the target of the change that was pending (R29). -/
theorem execModeChange_mode {s t : State} (run : execModeChange s = .next t) :
    t.dev.mode = s.dev.mode ∨ ∃ m, s.dev.modePend = some m ∧ s.dev.inReset = false ∧ t.dev.mode = m.target := by
  cases run
  dsimp only
  split
  · exact .inl rfl
  · rename_i m pending
    split
    · exact .inl rfl
    · rename_i due
      have runs : s.dev.inReset = false := by
        cases held : s.dev.inReset
        · rfl
        · simp [held] at due
      split
      · refine .inl ((Dev.log_keepsMode _ _ _ _ _ _).trans ((Dev.set_mode _ _ _ _).trans ((Dev.withdrawMode_keepsMode _).trans ?_)))
        split
        · exact Dev.refuseBank_keepsMode _
        · rfl
      · exact .inr ⟨m, pending, runs, Dev.changeMode_mode _ _ _⟩

/-- A command that neither changes the mode nor restarts the device leaves it in its mode. -/
theorem exec_keepsMode (c : Instr) (s : State) (noRestart : restarts c = false) (noChange : c ≠ .modeChange) :
    EndsIn s.dev.mode (exec c s) := by
  cases c with
  | cycleBoundary => exact execCycleBoundary_keepsMode s
  | frameBoundary => exact execFrameBoundary_keepsMode s
  | feCycleBoundary p meas => exact execFeCycleBoundary_keepsMode p meas s
  | feFrameBoundary p => exact execFeFrameBoundary_keepsMode p s
  | modeRequest w val => exact execModeRequest_keepsMode w val s
  | modeRequestCancel w => exact execModeRequestCancel_keepsMode w s
  | modeChange => exact absurd rfl noChange
  | calendarCommit w val => exact execCalendarCommit_keepsMode w val s
  | calendarCommitApply => exact execCalendarCommitApply_keepsMode s
  | cycleLengthWrite w val => exact execCycleLengthWrite_keepsMode w val s
  | gridMoveApply => exact execGridMoveApply_keepsMode s
  | fcmdIssue p => exact execFcmdIssue_keepsMode p s
  | fcmdTargetPassed p => exact execFcmdTargetPassed_keepsMode p s
  | mirrorLagDetect p => exact execMirrorLagDetect_keepsMode p s
  | fcmdReceive p id op cyc slot => exact execFcmdReceive_keepsMode p id op cyc slot s
  | modeCommand p => exact execModeCommand_keepsMode p s
  | queueReset p => exact execQueueReset_keepsMode p s
  | rateLatch p => exact execRateLatch_keepsMode p s
  | pairRefresh p pair meas => exact execPairRefresh_keepsMode p pair meas s
  | calendarSnapshotTrigger p => exact execCalendarSnapshotTrigger_keepsMode p s
  | biasCommand p => exact execBiasCommand_keepsMode p s
  | cycleEndCommand p => exact execCycleEndCommand_keepsMode p s
  | injectCommand p => exact execInjectCommand_keepsMode p s
  | tickPhaseCommand p => exact execTickPhaseCommand_keepsMode p s
  | scrubWindowOpen => exact execScrubWindowOpen_keepsMode s
  | scrubWindowEnd => exact execScrubWindowEnd_keepsMode s
  | triggerWindowOpen => exact execTriggerWindowOpen_keepsMode s
  | precisionGrant p => exact execPrecisionGrant_keepsMode p s
  | raiseEnd p => exact execRaiseEnd_keepsMode p s
  | biasRepeat => exact execBiasRepeat_keepsMode s
  | injectRequest w p val => exact execInjectRequest_keepsMode w p val s
  | configApply p => exact execConfigApply_keepsMode p s
  | leakageSaturation p c => exact execLeakageSaturation_keepsMode p c s
  | settlingEnd p r => exact execSettlingEnd_keepsMode p r s
  | leadingEdge p c coarse fine => exact execLeadingEdge_keepsMode p c coarse fine s
  | wakeRequestExpire p group => exact execWakeRequestExpire_keepsMode p group s
  | trailingEdge p c coarse fine => exact execTrailingEdge_keepsMode p c coarse fine s
  | totSaturation p c => exact execTotSaturation_keepsMode p c s
  | rearmComplete p c c1 c2 => exact execRearmComplete_keepsMode p c c1 c2 s
  | regionReadout p r => exact execRegionReadout_keepsMode p r s
  | columnArbiterMove p c => exact execColumnArbiterMove_keepsMode p c s
  | dealerDeal p => exact execDealerDeal_keepsMode p s
  | frameComplete p => exact execFrameComplete_keepsMode p s
  | frameCloseDeadline p => exact execFrameCloseDeadline_keepsMode p s
  | packetWaitExpire p l => exact execPacketWaitExpire_keepsMode p l s
  | packetSend p l => exact execPacketSend_keepsMode p l s
  | snapshotPacketSend p => exact execSnapshotPacketSend_keepsMode p s
  | queuePointerMismatch p q => exact execQueuePointerMismatch_keepsMode p q s
  | floodEnter p r => exact execFloodEnter_keepsMode p r s
  | floodExit p r => exact execFloodExit_keepsMode p r s
  | chipFloodEnter p => exact execChipFloodEnter_keepsMode p s
  | chipFloodExit p => exact execChipFloodExit_keepsMode p s
  | configFault p r => exact execConfigFault_keepsMode p r s
  | timingCounterClear p alive val => exact execTimingCounterClear_keepsMode p alive val s
  | readoutCounterClear p alive val => exact execReadoutCounterClear_keepsMode p alive val s
  | feCounterClearApply p => exact execFeCounterClearApply_keepsMode p s
  | pulseWidthTrigger p c => exact execPulseWidthTrigger_keepsMode p c s
  | forceSnapshot p alive val => exact execForceSnapshot_keepsMode p alive val s
  | freezeEvent p => exact execFreezeEvent_keepsMode p s
  | snapshotConversionComplete p e codes => exact execSnapshotConversionComplete_keepsMode p e codes s
  | snapshotBusGrant p e => exact execSnapshotBusGrant_keepsMode p e s
  | snapCalZero p alive => exact execSnapCalZero_keepsMode p alive s
  | snapCalFull p alive => exact execSnapCalFull_keepsMode p alive s
  | snapCalCompute p alive => exact execSnapCalCompute_keepsMode p alive s
  | snapCalClear p alive => exact execSnapCalClear_keepsMode p alive s
  | snapCalPhaseDone p => exact execSnapCalPhaseDone_keepsMode p s
  | coefficientWordError p e cell => exact execCoefficientWordError_keepsMode p e cell s
  | snapshotRingWrite => exact execSnapshotRingWrite_keepsMode s
  | snapshotDatagramSend bad => exact execSnapshotDatagramSend_keepsMode bad s
  | blockLockAcquire p rx headers => exact execBlockLockAcquire_keepsMode p rx headers s
  | blockLockLoss p rx window => exact execBlockLockLoss_keepsMode p rx window s
  | packetReceive p blocks => exact execPacketReceive_keepsMode p blocks s
  | linkstatSend p => exact execLinkstatSend_keepsMode p s
  | linkstatReceive p lanes => exact execLinkstatReceive_keepsMode p lanes s
  | nakReceive p l seq => exact execNakReceive_keepsMode p l seq s
  | ackTimeout p l => exact execAckTimeout_keepsMode p l s
  | creditGrant p l => exact execCreditGrant_keepsMode p l s
  | festatPeriodicSend p power temp => exact execFestatPeriodicSend_keepsMode p power temp s
  | wakeFestatSend p => exact execWakeFestatSend_keepsMode p s
  | festatPeriodicReceive p exec_ late power temp trip fence cancelled => exact execFestatPeriodicReceive_keepsMode p exec_ late power temp trip fence cancelled s
  | festatWakeReceive p exec_ late cancelled groups => exact execFestatWakeReceive_keepsMode p exec_ late cancelled groups s
  | festatStale p => exact execFestatStale_keepsMode p s
  | staleCritical p => exact execStaleCritical_keepsMode p s
  | trainingAttemptStart p dl => exact execTrainingAttemptStart_keepsMode p dl s
  | trainReceive p rx locked lock attempt => exact execTrainReceive_keepsMode p rx locked lock attempt s
  | trainingAttemptTimeout p => exact execTrainingAttemptTimeout_keepsMode p s
  | beaconBurst p => exact execBeaconBurst_keepsMode p s
  | beaconReceive p request failed => exact execBeaconReceive_keepsMode p request failed s
  | portRelease w e val => exact execPortRelease_keepsMode w e val s
  | syncReceive p msg => exact execSyncReceive_keepsMode p msg s
  | lanemapReceive p l phys frame => exact execLanemapReceive_keepsMode p l phys frame s
  | delayProbeSend p t1 => exact execDelayProbeSend_keepsMode p t1 s
  | delayReqReceive p id t2 wait t3 => exact execDelayReqReceive_keepsMode p id t2 wait t3 s
  | delayRespReceive p id t2 t3 t4 => exact execDelayRespReceive_keepsMode p id t2 t3 t4 s
  | timeSetReceive p dl cyc slot tick half fine => exact execTimeSetReceive_keepsMode p dl cyc slot tick half fine s
  | downlinkLossTimeout p => exact execDownlinkLossTimeout_keepsMode p s
  | primaryReturn p => exact execPrimaryReturn_keepsMode p s
  | forceLaneSwap w e val => exact execForceLaneSwap_keepsMode w e val s
  | forceDownlinkSwap w e val => exact execForceDownlinkSwap_keepsMode w e val s
  | downlinkSwapApply p => exact execDownlinkSwapApply_keepsMode p s
  | linkDelayCalibration w e val pairs => exact execLinkDelayCalibration_keepsMode w e val pairs s
  | configWriteMessage p dl blocks => exact execConfigWriteMessage_keepsMode p dl blocks s
  | configReadMessage p dl blocks => exact execConfigReadMessage_keepsMode p dl blocks s
  | configMirrorMessage p dl blocks => exact execConfigMirrorMessage_keepsMode p dl blocks s
  | configResponseReceive p alive status value => exact execConfigResponseReceive_keepsMode p alive status value s
  | configResend p => exact execConfigResend_keepsMode p s
  | configTimeout p => exact execConfigTimeout_keepsMode p s
  | unresolvedResolve p => exact execUnresolvedResolve_keepsMode p s
  | ptpSyncReceive p head twoStep stamp => exact execPtpSyncReceive_keepsMode p head twoStep stamp s
  | ptpFollowUpReceive p head origin => exact execPtpFollowUpReceive_keepsMode p head origin s
  | ptpDelayReqSend p seq stamp => exact execPtpDelayReqSend_keepsMode p seq stamp s
  | ptpDelayRespReceive p head receipt => exact execPtpDelayRespReceive_keepsMode p head receipt s
  | ptpAnnounceReceive p head data => exact execPtpAnnounceReceive_keepsMode p head data s
  | announceReceiptTimeout p => exact execAnnounceReceiptTimeout_keepsMode p s
  | syncIntervalTimeout p => exact execSyncIntervalTimeout_keepsMode p s
  | timingLinkChange p up => exact execTimingLinkChange_keepsMode p up s
  | esmcReceive p dnu => exact execEsmcReceive_keepsMode p dnu s
  | synceWindowEnd p freq => exact execSynceWindowEnd_keepsMode p freq s
  | homeReturn => exact execHomeReturn_keepsMode s
  | acceptStep w val => exact execAcceptStep_keepsMode w val s
  | timeStepApply => exact execTimeStepApply_keepsMode s
  | firstTimeSetApply => exact execFirstTimeSetApply_keepsMode s
  | timePreset w val => exact execTimePreset_keepsMode w val s
  | refclkMeasureWindow q ppb vsUse => exact execRefclkMeasureWindow_keepsMode q ppb vsUse s
  | referenceSelect w val => exact execReferenceSelect_keepsMode w val s
  | referenceChangeApply => exact execReferenceChangeApply_keepsMode s
  | cycleMarker input => exact execCycleMarker_keepsMode input s
  | timePulse o => exact execTimePulse_keepsMode o s
  | forceTimeBaseSwap w val => exact execForceTimeBaseSwap_keepsMode w val s
  | timeBaseCheckFail => cases noRestart
  | timeBaseSelfTestDone u pass => exact execTimeBaseSelfTestDone_keepsMode u pass s
  | timEdge n signal tick code pair => exact execTimEdge_keepsMode n signal tick code pair s
  | statisticsRestart w e val => exact execStatisticsRestart_keepsMode w e val s
  | stampQueueRead w n => exact execStampQueueRead_keepsMode w n s
  | basketClose => exact execBasketClose_keepsMode s
  | basketTimeout => exact execBasketTimeout_keepsMode s
  | basketRelease => exact execBasketRelease_keepsMode s
  | egressFragmentSend b => exact execEgressFragmentSend_keepsMode b s
  | routeEntryWrite w col key val => exact execRouteEntryWrite_keepsMode w col key val s
  | routeCommit w val => exact execRouteCommit_keepsMode w val s
  | routeCommitApply => exact execRouteCommitApply_keepsMode s
  | formatPin w val => exact execFormatPin_keepsMode w val s
  | formatPinApply => exact execFormatPinApply_keepsMode s
  | arpRequestReceive b dst senderMac senderIp targetIp => exact execArpRequestReceive_keepsMode b dst senderMac senderIp targetIp s
  | icmpEchoReceive b dst srcMac srcIp dstIp rest => exact execIcmpEchoReceive_keepsMode b dst srcMac srcIp dstIp rest s
  | pauseFrameReceive b quanta => exact execPauseFrameReceive_keepsMode b quanta s
  | pauseExpire b => exact execPauseExpire_keepsMode b s
  | backendLinkChange b up => exact execBackendLinkChange_keepsMode b up s
  | concQueuePointerMismatch q lost => exact execConcQueuePointerMismatch_keepsMode q lost s
  | decisionPoint => exact execDecisionPoint_keepsMode s
  | pinTrigger n => exact execPinTrigger_keepsMode n s
  | gatedReadout bad => exact execGatedReadout_keepsMode bad s
  | scrubLapEnd sram => exact execScrubLapEnd_keepsMode sram s
  | lapLimitExceeded => exact execLapLimitExceeded_keepsMode s
  | stallPitchWrite w bw k val => exact execStallPitchWrite_keepsMode w bw k val s
  | pitchScaling => exact execPitchScaling_keepsMode s
  | pitchRestore => exact execPitchRestore_keepsMode s
  | memoryChannelOffline m cause => exact execMemoryChannelOffline_keepsMode m cause s
  | sramWordUncorrectable _ _ => cases noRestart
  | diagnosticEnable w val => exact execDiagnosticEnable_keepsMode w val s
  | diagnosticWriteRaw w => exact execDiagnosticWriteRaw_keepsMode w s
  | diagnosticReadRaw w => exact execDiagnosticReadRaw_keepsMode w s
  | diagnosticReadChecked w => exact execDiagnosticReadChecked_keepsMode w s
  | thermalEvaluation sensors => exact execThermalEvaluation_keepsMode sensors s
  | flapHoldEnd n => exact execFlapHoldEnd_keepsMode n s
  | domainCaddyUpdate logic serdes memory => exact execDomainCaddyUpdate_keepsMode logic serdes memory s
  | feThermalTrip p mean => exact execFeThermalTrip_keepsMode p mean s
  | feTripRelease p mean cool => exact execFeTripRelease_keepsMode p mean cool s
  | concThermalTrip sensor mean => exact execConcThermalTrip_keepsMode sensor mean s
  | fenceBiasLimitWrite w e val => exact execFenceBiasLimitWrite_keepsMode w e val s
  | servicePost poster task arg => exact execServicePost_keepsMode poster task arg s
  | dataJobPost item => exact execDataJobPost_keepsMode item s
  | jobDispatch => exact execJobDispatch_keepsMode s
  | jobComplete core stores => exact execJobComplete_keepsMode core stores s
  | jobAbort core stores => exact execJobAbort_keepsMode core stores s
  | taskRestore w e val => exact execTaskRestore_keepsMode w e val s
  | spillSegmentReadback bad => exact execSpillSegmentReadback_keepsMode bad s
  | coreAccessFault core access => exact execCoreAccessFault_keepsMode core access s
  | coreSramError core => exact execCoreSramError_keepsMode core s
  | traceRead w => exact execTraceRead_keepsMode w s
  | imageErase w e val => exact execImageErase_keepsMode w e val s
  | imageData w e data => exact execImageData_keepsMode w e data s
  | imageVerify w e val => exact execImageVerify_keepsMode w e val s
  | imageOperationComplete n => exact execImageOperationComplete_keepsMode n s
  | imageTrial w val => exact execImageTrial_keepsMode w val s
  | imageTrialCancel w => exact execImageTrialCancel_keepsMode w s
  | imageConfirm w val => exact execImageConfirm_keepsMode w val s
  | preferredImage w val => exact execPreferredImage_keepsMode w val s
  | maroriMessageReceive be ip udp mac bytes => exact execMaroriMessageReceive_keepsMode be ip udp mac bytes s
  | canFdFrameReceive bus id data => exact execCanFdFrameReceive_keepsMode bus id data s
  | canSegmentTimeout bus client => exact execCanSegmentTimeout_keepsMode bus client s
  | maroriRead w port index sub elem => exact execMaroriRead_keepsMode w port index sub elem s
  | maroriWrite w port index sub elem val => exact execMaroriWrite_keepsMode w port index sub elem val s
  | maroriNop w => exact execMaroriNop_keepsMode w s
  | maroriTrigger w port index sub elem payload => exact execMaroriTrigger_keepsMode w port index sub elem payload s
  | guardToken w val => exact execGuardToken_keepsMode w val s
  | guardTokenExpire c => exact execGuardTokenExpire_keepsMode c s
  | transactionEntryExpire c tid => exact execTransactionEntryExpire_keepsMode c tid s
  | restart _ _ => cases noRestart
  | ledgerRead w => exact execLedgerRead_keepsMode w s
  | ledgerRewind w val => exact execLedgerRewind_keepsMode w val s
  | ledgerWrite okA okB => exact execLedgerWrite_keepsMode okA okB s
  | forceKeeperSwap w val => exact execForceKeeperSwap_keepsMode w val s
  | aliveReset w e val => exact execAliveReset_keepsMode w e val s
  | cvuSubmit core e slot desc => exact execCvuSubmit_keepsMode core e slot desc s
  | cvuDescriptorStart e => exact execCvuDescriptorStart_keepsMode e s
  | cvuDescriptorComplete e data bad => exact execCvuDescriptorComplete_keepsMode e data bad s
  | emChannelTypeWrite w e val => exact execEmChannelTypeWrite_keepsMode w e val s
  | emConversionStart n => exact execEmConversionStart_keepsMode n s
  | emConversionComplete n meas => exact execEmConversionComplete_keepsMode n meas s
  | excitationClamp n current => exact execExcitationClamp_keepsMode n current s
  | blankRise n => exact execBlankRise_keepsMode n s
  | blankFall n => exact execBlankFall_keepsMode n s
  | blankHoldEnd n => exact execBlankHoldEnd_keepsMode n s
  | fePowerOnReset p => exact execFePowerOnReset_keepsMode p s
  | feSupplyFault p => exact execFeSupplyFault_keepsMode p s
  | resetAssert _ => cases noRestart
  | resetRelease _ => cases noRestart
  | bootTimeout => cases noRestart
  | startConfirm => exact execStartConfirm_keepsMode s
  | fatalFault => cases noRestart
  | safeDrainEnd => exact execSafeDrainEnd_keepsMode s
  | rateSweepComplete => exact execRateSweepComplete_keepsMode s
  | keeperFailure _ _ _ => cases noRestart
  | keeperSelfTestDone pass => exact execKeeperSelfTestDone_keepsMode pass s
  | warmStandbyEnd => exact execWarmStandbyEnd_keepsMode s
  | refclkEdgeLoss q => exact execRefclkEdgeLoss_keepsMode q s
  | invalidBlock p rx at_ line => exact execInvalidBlock_keepsMode p rx at_ line s
  | scrubRead word => exact execScrubRead_keepsMode word s
  | configurationCorrection p r => exact execConfigurationCorrection_keepsMode p r s
  | coreReloadComplete core => exact execCoreReloadComplete_keepsMode core s
  | bootStepComplete _ => cases noRestart
  | receiveDiscard b rx => exact execReceiveDiscard_keepsMode b rx s

/-- A command of `restarts` leaves the device in its mode or, when it restarts it, in BOOT. -/
theorem exec_keepsModeOrBoots (c : Instr) (s : State) (mayRestart : restarts c = true) : EndsInOrBoots s.dev.mode (exec c s) := by
  cases c with
  | timeBaseCheckFail => exact execTimeBaseCheckFail_keepsModeOrBoots s
  | sramWordUncorrectable place bits => exact execSramWordUncorrectable_keepsModeOrBoots place bits s
  | restart w val => exact execRestart_keepsModeOrBoots w val s
  | resetAssert aonLost => exact execResetAssert_keepsModeOrBoots aonLost s
  | resetRelease strap => exact execResetRelease_keepsModeOrBoots strap s
  | bootTimeout => exact execBootTimeout_keepsModeOrBoots s
  | fatalFault => exact execFatalFault_keepsModeOrBoots s
  | keeperFailure cause us torn => exact execKeeperFailure_keepsModeOrBoots cause us torn s
  | bootStepComplete r => exact execBootStepComplete_keepsModeOrBoots r s
  | _ => cases mayRestart

/-- Settles O5: MODE_CHANGE takes the pending target, a command of `restarts` keeps the mode or boots, and every other keeps it. -/
theorem modeChangesOnlyWhenPending : Obligations.ModeChangesOnlyWhenPending := by
  unfold Obligations.ModeChangesOnlyWhenPending
  intro c s t run changed
  by_cases change : c = .modeChange
  · subst change
    rcases execModeChange_mode run with kept | taken
    · exact absurd kept changed
    · exact .inl ⟨rfl, taken⟩
  · cases mayRestart : restarts c
    · exact absurd (exec_keepsMode c s mayRestart change t run) changed
    · rcases exec_keepsModeOrBoots c s mayRestart t run with kept | boots
      · exact absurd kept changed
      · exact .inr ⟨rfl, boots⟩

end Sys2Proof.Machine
end

section
/-! What the governor reads (R16, R352 to R360): the levels, costs and windows it sees depend on no counter (O52). -/

namespace Sys2Proof.Machine

variable {d d' d'' : Dev} {p : Port}

/-- The objects the governor and the FESTAT messages count in. -/
def govCounts : List Nat :=
  [Reg.CAL_LATE, Reg.CAL_CANCELLED, Reg.WP_CMD_LOST, Reg.GV_REFUSED, Reg.GV_REDUCED, Reg.GV_WAKES, Reg.GV_FENCE_STAT, Reg.GV_FENCE_CNT]

/-- `d'` is `d` in what the governor reads, the raises and the ports left aside. -/
structure GovSame (d d' : Dev) : Prop where
  now : d'.now = d.now
  mode : d'.mode = d.mode
  modeFrom : d'.modeFrom = d.modeFrom
  modePend : d'.modePend = d.modePend
  grid : d'.grid = d.grid
  mirror : d'.mirror = d.mirror
  dies : d'.gov.dies = d.gov.dies
  caddies : d'.gov.caddies = d.gov.caddies
  staleCritical : d'.gov.staleCritical = d.gov.staleCritical
  get : ∀ a, a % 2 ^ 24 ∉ govCounts → ∀ e, d'.get a e = d.get a e

theorem GovSame.refl (d : Dev) : GovSame d d := ⟨rfl, rfl, rfl, rfl, rfl, rfl, rfl, rfl, rfl, fun _ _ _ => rfl⟩

theorem GovSame.trans (h : GovSame d d') (h' : GovSame d' d'') : GovSame d d'' :=
  ⟨h'.now.trans h.now, h'.mode.trans h.mode, h'.modeFrom.trans h.modeFrom, h'.modePend.trans h.modePend, h'.grid.trans h.grid,
    h'.mirror.trans h.mirror, h'.dies.trans h.dies, h'.caddies.trans h.caddies, h'.staleCritical.trans h.staleCritical,
    fun a ha e => (h'.get a ha e).trans (h.get a ha e)⟩

/-! ### Operations the governor does not see -/

theorem Dev.set_govSame {a : Nat} (counts : a % 2 ^ 24 ∈ govCounts) (d : Dev) (e v : Nat) : GovSame d (d.set a e v) := by
  refine ⟨rfl, rfl, rfl, rfl, rfl, rfl, rfl, rfl, rfl, fun a' ha' e' => d.get_set_addr (fun same => ?_) e v e'⟩
  exact ha' (same ▸ counts)

theorem Dev.bump_govSame {a : Nat} (counts : a % 2 ^ 24 ∈ govCounts) (d : Dev) (e n : Nat) : GovSame d (d.bump a e n) :=
  Dev.set_govSame counts d e _

theorem Dev.setPort_govSame (d : Dev) (q : Port) (c : CPort) : GovSame d (d.setPort q c) :=
  ⟨rfl, rfl, rfl, rfl, rfl, rfl, rfl, rfl, rfl, fun _ _ _ => rfl⟩

theorem Dev.log_govSame (d : Dev) (source code : Nat) (v1 v2 v3 : Int) : GovSame d (d.log source code v1 v2 v3) := by
  obtain ⟨b, n, eq⟩ := d.log_eq source code v1 v2 v3
  rw [eq]
  exact ⟨rfl, rfl, rfl, rfl, rfl, rfl, rfl, rfl, rfl, fun _ _ _ => rfl⟩

/-- A record leaves the governor and the ports as they are. -/
theorem Dev.log_gov_ports (d : Dev) (source code : Nat) (v1 v2 v3 : Int) :
    (d.log source code v1 v2 v3).gov = d.gov ∧ (d.log source code v1 v2 v3).ports = d.ports := by
  obtain ⟨b, n, eq⟩ := d.log_eq source code v1 v2 v3
  rw [eq]
  exact ⟨rfl, rfl⟩

theorem Dev.fence_govSame (d : Dev) (source concerned : Nat) : GovSame d (d.fence source 1 concerned) :=
  ((Dev.set_govSame (by decide) d 0 _).trans (Dev.bump_govSame (by decide) _ 0 1)).trans (Dev.log_govSame _ _ _ _ _ _)

theorem Dev.lateCommands_govSame (d : Dev) (q : Port) (n : Nat) : GovSame d (d.lateCommands q n) := by
  unfold Dev.lateCommands
  split
  · exact .refl d
  · exact (Dev.bump_govSame (by decide) d _ _).trans (Dev.log_govSame _ _ _ _ _ _)

/-! ### The grid (R24 to R27) -/

namespace GovSame

variable (h : GovSame d d')
include h

theorem cycleLen : d'.cycleLen = d.cycleLen := h.get _ (by decide) 0

theorem cut : d'.cut = d.cut := by
  unfold Dev.cut
  rw [h.grid, h.cycleLen]

theorem cyclePlus (n : Nat) : d'.cyclePlus n = d.cyclePlus n := by
  unfold Dev.cyclePlus
  rw [h.cut, h.grid]

theorem endOf (n : Nat) : d'.endOf n = d.endOf n := by
  unfold Dev.endOf
  rw [h.cut, h.grid, h.cycleLen]

theorem startAhead (n : Nat) : d'.startAhead n = d.startAhead n := by
  cases n with
  | zero => exact congrArg Grid.cycleStart h.grid
  | succ n => exact h.endOf n

theorem cycleSpan (n : Nat) : d'.cycleSpan n = d.cycleSpan n := by
  unfold Dev.cycleSpan
  rw [h.startAhead, h.endOf]

theorem cyclesAhead (cyc : Nat) : d'.cyclesAhead cyc = d.cyclesAhead cyc := by
  unfold Dev.cyclesAhead
  rw [h.cut, h.grid]

theorem startOf (cyc : Nat) : d'.startOf cyc = d.startOf cyc := by
  unfold Dev.startOf
  rw [h.cyclesAhead, h.startAhead]

theorem boundaryAfter (t : Nat) : d'.boundaryAfter t = d.boundaryAfter t := by
  unfold Dev.boundaryAfter
  rw [h.cut, h.grid, h.cycleLen]

/-! ### The mode (R29) -/

theorem modeBoundary : d'.modeBoundary = d.modeBoundary := by
  unfold Dev.modeBoundary
  rw [h.modePend]
  congr 1
  funext m
  rw [h.boundaryAfter, h.cyclePlus, h.startOf]
  cases m.cycle with
  | none => rfl
  | some c => exact h.startOf c

theorem modeAt (t : Nat) : d'.modeAt t = d.modeAt t := by
  unfold Dev.modeAt
  rw [h.modeBoundary, h.modePend, h.mode]

theorem modeIn (n : Nat) : d'.modeIn n = d.modeIn n := by
  unfold Dev.modeIn
  simp only [h.modePend, h.mode, h.modeFrom, h.cyclePlus, h.cycleSpan]

/-! ### The calendar (R31 to R34) -/

theorem bankAt {a : Nat} (bank : (a + 0x300) % 2 ^ 24 ∉ govCounts) (start e : Nat) : d'.bankAt start a e = d.bankAt start a e := by
  have active : d'.activeBank a e = d.activeBank a e := h.get _ bank e
  unfold Dev.bankAt
  rw [h.grid]
  cases d.grid.bankPend with
  | none => exact active
  | some x =>
    dsimp only
    split
    · rfl
    · exact active

theorem runsIn (start e cyc : Nat) : (d'.bankAt start).runsIn e cyc = (d.bankAt start).runsIn e cyc := by
  unfold Bank.runsIn Bank.enabled
  simp only [h.bankAt (a := Reg.CAL_EN) (by decide), h.bankAt (a := Reg.CAL_ACTION) (by decide),
    h.bankAt (a := Reg.CAL_EVERY) (by decide), h.bankAt (a := Reg.CAL_PHASE) (by decide)]

theorem occIn (acts : List Nat) (n : Nat) : d'.occIn acts n = d.occIn acts n := by
  unfold Dev.occIn
  simp only [h.cycleSpan, h.cyclePlus, h.modeIn, h.runsIn, h.get Reg.SNAP_IN_ACQ (by decide), h.bankAt (a := Reg.CAL_ACTION) (by decide),
    h.bankAt (a := Reg.CAL_SLOT) (by decide), h.bankAt (a := Reg.CAL_ARG) (by decide), h.bankAt (a := Reg.CAL_PORTS) (by decide),
    h.bankAt (a := Reg.CAL_GROUPS) (by decide)]

theorem occurrences (acts : List Nat) (to_ : Nat) : d'.occurrences acts to_ = d.occurrences acts to_ := by
  unfold Dev.occurrences
  rw [h.boundaryAfter, funext (h.occIn acts)]

theorem windowsOf (g to_ : Nat) : d'.windowsOf p g to_ = d.windowsOf p g to_ := by
  unfold Dev.windowsOf
  rw [h.occurrences, h.modeBoundary]

theorem chainLevel (g from_ n stop l : Nat) : d'.chainLevel p g from_ n stop l = d.chainLevel p g from_ n stop l := by
  induction n generalizing stop l with
  | zero => rfl
  | succ n ih =>
    unfold Dev.chainLevel
    simp only [h.windowsOf, ih]

/-! ### Levels and costs (R16, R354 to R356) -/

theorem restAt (g t : Nat) : d'.restAt p g t = d.restAt p g t := by
  unfold Dev.restAt Dev.restIn
  rw [h.modeAt, h.get Reg.GV_REST (by decide)]

theorem dieState : d'.dieState p = d.dieState p := by
  unfold Dev.dieState
  rw [h.dies, h.staleCritical]

theorem caddy (i : Nat) : d'.caddy i = d.caddy i := by
  unfold Dev.caddy
  rw [h.caddies]

theorem stopOf (r : Raise) : d'.stopOf r = d.stopOf r := by
  unfold Dev.stopOf
  rw [h.modeBoundary]

theorem target : d'.target p = d.target p := by
  unfold Dev.target
  rw [h.now, h.get Reg.WP_DL_DELAY (by decide)]

theorem cost (g level : Nat) (steps : List (Nat × Nat)) : d'.cost p g level steps = d.cost p g level steps := by
  unfold Dev.cost Dev.groupSize Dev.mir
  rw [h.mirror, h.get Reg.TB_FNOM (by decide)]

theorem portUp : d'.portUp p = d.portUp p := by
  unfold Dev.portUp
  rw [h.get Reg.WP_STATE (by decide)]

/-- The raises, where they are the same too. -/
theorem spans (g : Nat) (raises : d'.raisesOf p g = d.raisesOf p g) : d'.spans p g = d.spans p g := by
  unfold Dev.spans
  simp only [raises, h.stopOf]

theorem levelAt (g t : Nat) (raises : d'.raisesOf p g = d.raisesOf p g) : d'.levelAt p g t = d.levelAt p g t := by
  unfold Dev.levelAt Dev.want
  rw [h.spans g raises, h.restAt, h.dieState]

theorem stepsOf (g from_ stop : Nat) (raises : d'.raisesOf p g = d.raisesOf p g) : d'.stepsOf p g from_ stop = d.stepsOf p g from_ stop := by
  unfold Dev.stepsOf
  simp only [raises, h.stopOf, fun t => h.levelAt g t raises]

theorem committed (raises : d'.gov.raises = d.gov.raises) : d'.committed p = d.committed p := by
  unfold Dev.committed Dev.remaining
  simp only [raises, h.now, h.cost]

theorem windowRequest (g : Nat) (o : CalOcc) (raises : d'.raisesOf p g = d.raisesOf p g) :
    d'.windowRequest p g o = d.windowRequest p g o := by
  unfold Dev.windowRequest
  rw [h.spans g raises, h.chainLevel]

theorem nextPrecision (winTo : (d'.port p).winTo = (d.port p).winTo) (upAt : (d'.port p).upAt = (d.port p).upAt) :
    d'.nextPrecision p = d.nextPrecision p := by
  unfold Dev.nextPrecision
  simp only [h.occurrences, h.now, h.get Reg.CAL_LEAD (by decide), winTo, upAt]

end GovSame

end Sys2Proof.Machine
end

section
/-! BIAS commands as the governor writes them (R36, R46, R361 to R363; O52). -/

namespace Sys2Proof.Machine

variable {d d' d'' : Dev} {p : Port}

/-- `d'` is `d` in all the governor reads and writes but the commands of port `p`. -/
structure BiasOnly (p : Port) (d d' : Dev) : Prop where
  same : GovSame d d'
  gov : d'.gov = d.gov
  get : ∀ a e, d'.get a e = d.get a e
  others : ∀ q, q ≠ p → d'.port q = d.port q

theorem BiasOnly.refl (d : Dev) : BiasOnly p d d := ⟨.refl d, rfl, fun _ _ => rfl, fun _ _ => rfl⟩

theorem BiasOnly.trans (h : BiasOnly p d d') (h' : BiasOnly p d' d'') : BiasOnly p d d'' :=
  ⟨h.same.trans h'.same, h'.gov.trans h.gov, fun a e => (h'.get a e).trans (h.get a e), fun q hq => (h'.others q hq).trans (h.others q hq)⟩

theorem Dev.setPort_biasOnly (d : Dev) (p : Port) (c : CPort) : BiasOnly p d (d.setPort p c) :=
  ⟨d.setPort_govSame p c, rfl, fun _ _ => rfl, fun q hq => d.port_setPort_other p q c hq⟩

theorem Dev.biasAt_biasOnly (d : Dev) (p : Port) (groups level target : Nat) (window : Bool) :
    BiasOnly p d (d.biasAt p groups level target window) := by
  unfold Dev.biasAt Dev.biasCmd
  dsimp only
  split
  · exact d.setPort_biasOnly p _
  · exact d.setPort_biasOnly p _

theorem Dev.biasAll_biasOnly (d : Dev) (p : Port) (window : Bool) (cs : List (Nat × Nat × Nat)) : BiasOnly p d (d.biasAll p window cs) :=
  forEach_keeps (BiasOnly p d) _ _ (fun _ _ x hx => hx.trans (x.biasAt_biasOnly p _ _ _ _)) d (.refl d)

/-- With no command waiting, a BIAS command is the only one. -/
theorem Dev.biasAt_cmds (d : Dev) (p : Port) (groups level target : Nat) (window : Bool) (none_ : (d.port p).cmds = []) :
    ∃ f, ((d.biasAt p groups level target window).port p).cmds = [f]
      ∧ f.op = .bias (BitVec.ofNat 16 groups) (Fin.ofNat 4 level) := by
  unfold Dev.biasAt Dev.biasCmd
  simp [none_]

/-- One level at one slot is one command. -/
theorem Dev.biasAll_one (d : Dev) (p : Port) (window : Bool) (cs : List (Nat × Nat × Nat)) (k : Nat × Nat)
    (one : (cs.map fun c => c.2).dedup = [k]) :
    d.biasAll p window cs = d.biasAt p (maskOf ((cs.filter fun c => c.2 == k).map Prod.fst)) k.1 k.2 window := by
  unfold Dev.biasAll
  rw [one]
  rfl

end Sys2Proof.Machine
end

section
/-! The governor's grants (R16, R36 to R38, R354 to R360; O52). -/

namespace Sys2Proof.Machine

variable {d : Dev} {s : State} {p : Port} {g req start from_ stop : Nat} {o : CalOcc} {raise : Nat}

/-- An action of the fence on a bias limit shows in Fence Status, its count and the ledger alone. -/
theorem Dev.fence_facts (d : Dev) (source concerned : Nat) :
    (d.fence source 1 concerned).gov = d.gov ∧ (d.fence source 1 concerned).ports = d.ports
      ∧ ∀ a, a % 2 ^ 24 ≠ Reg.GV_FENCE_STAT % 2 ^ 24 → a % 2 ^ 24 ≠ Reg.GV_FENCE_CNT % 2 ^ 24 → ∀ e,
        (d.fence source 1 concerned).get a e = d.get a e := by
  have hFence : d.fence source 1 concerned
      = ((d.set Reg.GV_FENCE_STAT 0 (setBit (d.get Reg.GV_FENCE_STAT) 0 true)).bump Reg.GV_FENCE_CNT).log source 0x0805 1 1 concerned := rfl
  rw [hFence]
  refine ⟨?_, ?_, fun a status count e => ?_⟩
  · exact (Dev.log_gov_ports _ _ _ _ _ _).1
  · exact (Dev.log_gov_ports _ _ _ _ _ _).2
  · rw [Dev.log_get, Dev.get_bump_addr _ count, Dev.get_set_addr _ status]

/-! ### The level a window asks for (R35, R38) -/

theorem windowLevel_le (arg : Nat) : windowLevel arg ≤ 3 := by
  unfold windowLevel
  split <;> omega

theorem foldl_max_le {α : Type} {f : α → Nat} {n : Nat} (l : List α) (a : Nat) (ha : a ≤ n) (hl : ∀ x ∈ l, f x ≤ n) :
    l.foldl (fun m x => max m (f x)) a ≤ n := by
  induction l generalizing a with
  | nil => exact ha
  | cons x l ih =>
    exact ih _ (Nat.max_le.mpr ⟨ha, hl x (List.mem_cons_self)⟩) fun y hy => hl y (List.mem_cons_of_mem x hy)

theorem Dev.windowsOf_level_le (d : Dev) (p : Port) (g to_ : Nat) (w : Nat × Nat × Nat) (hw : w ∈ d.windowsOf p g to_) : w.2.2 ≤ 3 := by
  unfold Dev.windowsOf at hw
  obtain ⟨o, -, eq⟩ := List.mem_filterMap.mp hw
  dsimp only at eq
  split at eq
  · cases eq
    exact windowLevel_le _
  · cases eq

theorem Dev.chainLevel_le (d : Dev) (p : Port) (g from_ n stop l : Nat) (hl : l ≤ 3) : d.chainLevel p g from_ n stop l ≤ 3 := by
  induction n generalizing stop l with
  | zero => exact hl
  | succ n ih =>
    unfold Dev.chainLevel
    extract_lets ws stop' l'
    have hl' : l' ≤ 3 := foldl_max_le ws l hl fun w hw => d.windowsOf_level_le p g stop w (List.mem_of_mem_filter hw)
    split
    · exact hl'
    · exact ih _ _ hl'

theorem Dev.spans_nil (none_ : d.raisesOf p g = []) : d.spans p g = [] := by
  unfold Dev.spans
  simp [none_]

theorem Dev.windowRequest_le (none_ : d.raisesOf p g = []) (o : CalOcc) : d.windowRequest p g o ≤ 3 := by
  unfold Dev.windowRequest
  rw [Dev.spans_nil none_]
  exact d.chainLevel_le p g _ _ _ _ (windowLevel_le _)

/-! ### One raise of a group -/

/-- The device with a raise committed. -/
def Dev.commit (d : Dev) (r : Raise) : Dev := { d with gov := { d.gov with raises := d.gov.raises ++ [r] } }

theorem Dev.commit_govSame (d : Dev) (r : Raise) : GovSame d (d.commit r) := ⟨rfl, rfl, rfl, rfl, rfl, rfl, rfl, rfl, rfl, fun _ _ _ => rfl⟩

theorem Dev.raisesOf_commit (d : Dev) (r : Raise) (port : r.port = p.val) (group : r.group = g) :
    (d.commit r).raisesOf p g = d.raisesOf p g ++ [r] := by
  unfold Dev.raisesOf Dev.commit
  simp [port, group]

theorem Dev.stopOf_settled (settled : d.modePend = none) (r : Raise) : d.stopOf r = r.stop := by
  unfold Dev.stopOf Dev.modeBoundary
  rw [settled]
  rfl

/-- The only raise of a group spans its own slots. -/
theorem Dev.spans_one (settled : d.modePend = none) {r : Raise} (one : d.raisesOf p g = [r]) :
    d.spans p g = [{ start := r.start, open_ := r.open_, stop := r.stop, level := r.level }] := by
  unfold Dev.spans
  cases window : r.window <;> simp [one, window, joinSpan, Dev.stopOf_settled settled]

theorem Dev.levelAt_rest (none_ : d.raisesOf p g = []) (t : Nat) :
    d.levelAt p g t = min (d.restAt p g t) (stateCap (d.dieState p)) := by
  unfold Dev.levelAt Dev.want
  rw [Dev.spans_nil none_]
  rfl

theorem Dev.levelAt_one (settled : d.modePend = none) (cold : d.dieState p = 0) {r : Raise} (one : d.raisesOf p g = [r]) {t : Nat}
    (begun : r.start ≤ t) (runs : t < r.stop) (above : d.restAt p g t < r.level) (level : r.level ≤ 3) :
    d.levelAt p g t = r.level := by
  unfold Dev.levelAt Dev.want
  rw [Dev.spans_one settled one, cold]
  simp [begun, runs, stateCap]
  omega

/-! ### The decision on one raise (R356, R360) -/

/-- The raise a grant commits. -/
def Dev.raiseFor (d : Dev) (p : Port) (g level start open_ stop : Nat) (window : Bool) : Raise :=
  { port := p.val, group := g, level := level, start := start, open_ := open_, stop := stop
    steps := d.stepsOf p g open_ stop, window := window }

/-- A raise that die, caddy, fence and cost allow is granted at its full level. -/
theorem Dev.grant_allowed (window : Bool) (fence : req ≤ d.get Reg.GV_FENCE_MAX (p.val * 16 + g)) (cold : d.dieState p = 0)
    (filled : (d.caddy p.val).empty = false) (level : req ≤ 3) (above : d.restAt p g start < req)
    (fits : d.cost p g req (d.stepsOf p g from_ stop) ≤ (d.caddy p.val).bal - d.committed p) :
    d.grant p g req start from_ stop window = (req, d.commit (d.raiseFor p g req start from_ stop window)) := by
  have cap : min (min req (d.get Reg.GV_FENCE_MAX (p.val * 16 + g))) (stateCap 0) = req := by
    rw [Nat.min_eq_left fence]
    exact Nat.min_eq_left level
  have first : (([3, 2, 1] : List Nat).filter fun k => decide (k ≤ req) && decide (d.restAt p g start < k)).find?
      (fun k => decide (d.cost p g k (d.stepsOf p g from_ stop) ≤ (d.caddy p.val).bal - d.committed p)) = some req := by
    obtain rfl | rfl | rfl : req = 1 ∨ req = 2 ∨ req = 3 := by omega
    all_goals simp [above, fits]
  unfold Dev.grant
  simp only [Nat.not_lt.mpr fence, if_false, cold, cap, filled]
  simp [first]
  rfl

/-- An EMPTY caddy and a CRITICAL die refuse every raise. -/
theorem Dev.grant_refused (window : Bool) (refuses : (d.caddy p.val).empty = true ∨ d.dieState p = 3) :
    d.grant p g req start from_ stop window
      = (0, (if d.get Reg.GV_FENCE_MAX (p.val * 16 + g) < req then d.fence p.val 1 g else d).bump Reg.GV_REFUSED (p.val * 16 + g)) := by
  unfold Dev.grant
  extract_lets e rest fence d₁ s l granted steps avail fits
  have seen : GovSame d d₁ := by
    unfold d₁
    split
    · exact d.fence_govSame _ _
    · exact .refl d
  have none_ : granted = 0 := by
    refine if_pos ?_
    rcases refuses with spent | critical
    · rw [seen.caddy, spent, Bool.or_true]
    · have critical : s = 3 := seen.dieState.trans critical
      rw [critical]
      simp
  have nothing : ([3, 2, 1] : List Nat).filter (fun k => decide (k ≤ 0) && decide (rest < k)) = [] := by simp
  rw [none_, nothing]
  rfl

/-! ### A window of one group (R36 to R38) -/

/-- The port once its window of slot `raise` and entry `e` is decided. -/
def Dev.windowTaken (d : Dev) (p : Port) (raise e : Nat) : Dev :=
  d.updPort p fun (c : CPort) => { c with winTo := raise * 64 + e + 1 }

/-- The command that brings a group to its level at slot `raise`, from the level it had in `old`. -/
def Dev.raiseCmd (d old : Dev) (p : Port) (raise g : Nat) : Option (Nat × Nat × Nat) :=
  let first := ((d.spans p g).filter fun s => decide (s.start ≤ raise) && decide (raise < s.stop)).foldl (fun a s => min a s.start) raise
  let from_ := if d.target p ≤ first then first else raise
  let l := d.levelAt p g raise
  if l = old.levelAt p g from_ then none else some (g, l, from_)

theorem Dev.windowTaken_govSame (d : Dev) (p : Port) (raise e : Nat) : GovSame d (d.windowTaken p raise e) := d.setPort_govSame p _

theorem Dev.decideWindow_one {k : Nat} {x : Dev} (next : d.nextPrecision p = some (o, raise)) (group : bitsOf o.groups 16 = [g])
    (up : d.portUp p = true)
    (decided : (d.windowTaken p raise o.entry).grant p g ((d.windowTaken p raise o.entry).windowRequest p g o) raise o.at_
      (o.at_ + o.arg % 2 ^ 16) true = (k, x)) :
    d.decideWindow p = x.biasAll p true ((if k = 0 then [] else [g]).filterMap (x.raiseCmd (d.windowTaken p raise o.entry) p raise)) := by
  have up' : (d.windowTaken p raise o.entry).portUp p = true := up
  unfold Dev.decideWindow
  unfold Dev.windowTaken at decided up' ⊢
  rw [next]
  dsimp only
  rw [group]
  generalize Dev.updPort d p _ = y at decided up' ⊢
  rw [if_neg (by simp [up'])]
  simp only [List.insertionSort_cons, List.insertionSort_nil, List.orderedInsert_nil, forEach, List.foldl_cons, List.foldl_nil]
  rw [decided]
  cases k <;> rfl

/-- A raise above rest is commanded from its first slot, at its level. -/
theorem Dev.raiseCmd_granted {x old : Dev} {r : Raise} (settled : x.modePend = none) (cold : x.dieState p = 0) (one : x.raisesOf p g = [r])
    (runs : r.start < r.stop) (above : x.restAt p g r.start < r.level) (level : r.level ≤ 3) (seen : GovSame old x)
    (none_ : old.raisesOf p g = []) : x.raiseCmd old p r.start g = some (g, r.level, r.start) := by
  have raised : x.levelAt p g r.start = r.level := Dev.levelAt_one settled cold one (Nat.le_refl _) runs above level
  have low : ¬ r.level = old.levelAt p g r.start := by
    rw [Dev.levelAt_rest none_, ← seen.restAt]
    omega
  unfold Dev.raiseCmd
  rw [Dev.spans_one settled one]
  simp [runs, raised, low]

theorem maskOf_one (g : Nat) : maskOf [g] = 2 ^ g := Nat.zero_or _

/-- A window that die, caddy, fence and cost allow is raised, and its BIAS command goes out (R36, R37). -/
theorem exec_precisionGrant_allowed (next : s.dev.nextPrecision p = some (o, raise)) (group : bitsOf o.groups 16 = [g])
    (up : s.dev.portUp p = true) (settled : s.dev.modePend = none) (none_ : s.dev.raisesOf p g = [])
    (filled : (s.dev.caddy p.val).empty = false) (cold : s.dev.dieState p = 0)
    (fence : s.dev.windowRequest p g o ≤ s.dev.get Reg.GV_FENCE_MAX (p.val * 16 + g))
    (above : s.dev.restAt p g raise < s.dev.windowRequest p g o)
    (fits : s.dev.cost p g (s.dev.windowRequest p g o) (s.dev.stepsOf p g o.at_ (o.at_ + o.arg % 2 ^ 16))
      ≤ (s.dev.caddy p.val).bal - s.dev.committed p)
    (ahead : raise < o.at_ + o.arg % 2 ^ 16) (idle : (s.dev.port p).cmds = []) :
    Completes (.precisionGrant p) s fun d =>
      (∃ r, d.gov.raises = s.dev.gov.raises ++ [r] ∧ r.port = p.val ∧ r.group = g ∧ r.level = s.dev.windowRequest p g o ∧ r.start = raise
        ∧ r.open_ = o.at_ ∧ r.stop = o.at_ + o.arg % 2 ^ 16 ∧ r.window = true ∧ r.ended = false)
      ∧ ∃ f, (d.port p).cmds = [f] ∧ f.op = .bias (BitVec.ofNat 16 (2 ^ g)) (Fin.ofNat 4 (s.dev.windowRequest p g o)) := by
  have level := Dev.windowRequest_le none_ o
  have seen := s.dev.windowTaken_govSame p raise o.entry
  have waits : ((s.dev.windowTaken p raise o.entry).port p).cmds = [] := by simpa [Dev.windowTaken] using idle
  have asked := seen.windowRequest (p := p) g o rfl
  have same : (s.dev.windowTaken p raise o.entry).gov = s.dev.gov := rfl
  have decided := Dev.decideWindow_one next group up
    (Dev.grant_allowed true (by rwa [asked, seen.get _ (by decide)]) (seen.dieState.trans cold) (by rwa [seen.caddy])
      (by rwa [asked]) (by rwa [asked, seen.restAt]) (by rwa [asked, seen.cost, seen.stepsOf g _ _ rfl, seen.caddy, seen.committed rfl]))
  rw [asked] at decided
  generalize hreq : s.dev.windowRequest p g o = req at *
  generalize s.dev.windowTaken p raise o.entry = y at *
  generalize hr : y.raiseFor p g req raise o.at_ (o.at_ + o.arg % 2 ^ 16) true = r at decided
  have none' : y.raisesOf p g = [] := by
    rw [← none_]
    unfold Dev.raisesOf
    rw [same]
  have committed := y.commit_govSame r
  obtain ⟨port, grp, lvl, start, op, stop⟩ : r.port = p.val ∧ r.group = g ∧ r.level = req ∧ r.start = raise ∧ r.open_ = o.at_
      ∧ r.stop = o.at_ + o.arg % 2 ^ 16 := by
    subst hr
    exact ⟨rfl, rfl, rfl, rfl, rfl, rfl⟩
  have win : r.window = true ∧ r.ended = false := by
    subst hr
    exact ⟨rfl, rfl⟩
  have one : (y.commit r).raisesOf p g = [r] := by rw [y.raisesOf_commit r port grp, none']; rfl
  have cmd : (y.commit r).raiseCmd y p r.start g = some (g, r.level, r.start) :=
    Dev.raiseCmd_granted ((committed.modePend.trans seen.modePend).trans settled) ((committed.dieState.trans seen.dieState).trans cold) one
      (by omega) (by rw [committed.restAt, seen.restAt, start, lvl]; exact above) (by omega) committed none'
  rw [start, lvl] at cmd
  have positive : req ≠ 0 := by omega
  rw [if_neg positive] at decided
  simp only [List.filterMap_cons, List.filterMap_nil, cmd] at decided
  rw [Dev.biasAll_one _ _ _ _ (req, raise) rfl] at decided
  simp only [List.filter_cons, beq_self_eq_true, if_true, List.filter_nil, List.map_cons, List.map_nil, maskOf_one] at decided
  refine .of_next (d := s.dev.decideWindow p) rfl ?_
  rw [decided]
  have only := (y.commit r).biasAt_biasOnly p (2 ^ g) req raise true
  refine ⟨⟨r, ?_, port, grp, lvl, start, op, stop, win⟩, ?_⟩
  · rw [only.gov]
    exact congrArg (fun v : Governor => v.raises ++ [r]) same
  · exact (y.commit r).biasAt_cmds p _ _ _ _ waits

/-- On an EMPTY caddy or a CRITICAL die a window is refused and counted (R354, R357). -/
theorem exec_precisionGrant_refused (next : s.dev.nextPrecision p = some (o, raise)) (group : bitsOf o.groups 16 = [g])
    (up : s.dev.portUp p = true) (refuses : (s.dev.caddy p.val).empty = true ∨ s.dev.dieState p = 3) :
    Completes (.precisionGrant p) s fun d =>
      d.gov.raises = s.dev.gov.raises ∧ (d.port p).cmds = (s.dev.port p).cmds
        ∧ d.get Reg.GV_REFUSED (p.val * 16 + g) = min (s.dev.get Reg.GV_REFUSED (p.val * 16 + g) + 1) (2 ^ 32 - 1) := by
  have seen := s.dev.windowTaken_govSame p raise o.entry
  have waits : ((s.dev.windowTaken p raise o.entry).port p).cmds = (s.dev.port p).cmds := by simp [Dev.windowTaken]
  have same : (s.dev.windowTaken p raise o.entry).gov = s.dev.gov := rfl
  have counts : (s.dev.windowTaken p raise o.entry).get Reg.GV_REFUSED (p.val * 16 + g) = s.dev.get Reg.GV_REFUSED (p.val * 16 + g) := rfl
  have decided := Dev.decideWindow_one next group up
    (Dev.grant_refused true (by rwa [seen.caddy, seen.dieState]))
  refine .of_next (d := s.dev.decideWindow p) rfl ?_
  rw [decided]
  generalize s.dev.windowTaken p raise o.entry = y at *
  rw [if_pos rfl, List.filterMap_nil]
  have fenced : ∀ z, (if y.get Reg.GV_FENCE_MAX (p.val * 16 + g) < y.windowRequest p g o then y.fence p.val 1 g else y) = z →
      z.gov = y.gov ∧ z.port p = y.port p ∧ z.get Reg.GV_REFUSED (p.val * 16 + g) = y.get Reg.GV_REFUSED (p.val * 16 + g) := by
    rintro z rfl
    split
    · obtain ⟨gov, ports, get⟩ := y.fence_facts p.val g
      exact ⟨gov, congrArg (fun v => v[p.val]) ports, get _ (by decide) (by decide) _⟩
    · exact ⟨rfl, rfl, rfl⟩
  obtain ⟨gov, port, get⟩ := fenced _ rfl
  generalize (if y.get Reg.GV_FENCE_MAX (p.val * 16 + g) < y.windowRequest p g o then y.fence p.val 1 g else y) = z at *
  refine ⟨congrArg Governor.raises (gov.trans same), (congrArg CPort.cmds port).trans waits, ?_⟩
  change (z.bump Reg.GV_REFUSED (p.val * 16 + g)).get Reg.GV_REFUSED (p.val * 16 + g) = _
  rw [Dev.get_bump_same, get, counts]
  rfl

end Sys2Proof.Machine
end

section
/-! Wakes, the ends of raises and the repetition of the levels (R201, R361 to R363; O52). -/

namespace Sys2Proof.Machine

variable {d d' d'' : Dev} {s : State} {p : Port} {g : Nat}

/-- `d'` is `d` but for the commands and counters of a port's FESTAT. -/
structure FestatOnly (p : Port) (d d' : Dev) : Prop where
  same : GovSame d d'
  raises : d'.gov.raises = d.gov.raises
  winTo : (d'.port p).winTo = (d.port p).winTo
  upAt : (d'.port p).upAt = (d.port p).upAt
  wakes : ∀ e, d'.get Reg.GV_WAKES e = d.get Reg.GV_WAKES e

theorem FestatOnly.refl (d : Dev) : FestatOnly p d d := ⟨.refl d, rfl, rfl, rfl, fun _ => rfl⟩

theorem FestatOnly.trans (h : FestatOnly p d d') (h' : FestatOnly p d' d'') : FestatOnly p d d'' :=
  ⟨h.same.trans h'.same, h'.raises.trans h.raises, h'.winTo.trans h.winTo, h'.upAt.trans h.upAt,
    fun e => (h'.wakes e).trans (h.wakes e)⟩

theorem Dev.setPort_festatOnly {c : CPort} (winTo : c.winTo = (d.port p).winTo) (upAt : c.upAt = (d.port p).upAt) :
    FestatOnly p d (d.setPort p c) :=
  ⟨d.setPort_govSame p c, rfl, by rw [Dev.port_setPort_same, winTo], by rw [Dev.port_setPort_same, upAt], fun _ => rfl⟩

theorem Dev.bump_festatOnly {a : Nat} (counts : a % 2 ^ 24 ∈ govCounts) (other : Reg.GV_WAKES % 2 ^ 24 ≠ a % 2 ^ 24) (d : Dev) (e n : Nat) :
    FestatOnly p d (d.bump a e n) :=
  ⟨Dev.bump_govSame counts d e n, rfl, rfl, rfl, d.get_bump_addr other e n⟩

theorem Dev.log_festatOnly (d : Dev) (source code : Nat) (v1 v2 v3 : Int) : FestatOnly p d (d.log source code v1 v2 v3) := by
  obtain ⟨gov, ports⟩ := d.log_gov_ports source code v1 v2 v3
  have port : (d.log source code v1 v2 v3).port p = d.port p := congrArg (fun v => v[p.val]) ports
  exact ⟨d.log_govSame _ _ _ _ _, congrArg Governor.raises gov, congrArg CPort.winTo port, congrArg CPort.upAt port,
    fun e => d.log_get source code v1 v2 v3 _ e⟩

theorem Dev.lateCommands_festatOnly (d : Dev) (n : Nat) : FestatOnly p d (d.lateCommands p n) := by
  unfold Dev.lateCommands
  split
  · exact .refl d
  · exact (Dev.bump_festatOnly (by decide) (by decide) d _ _).trans (Dev.log_festatOnly _ _ _ _ _ _)

theorem Dev.festatCounts_festatOnly (d : Dev) (p : Port) (exec late cancelled : Nat) : FestatOnly p d (d.festatCounts p exec late cancelled) := by
  unfold Dev.festatCounts Dev.passTargets
  dsimp only
  have passed := (Dev.setPort_festatOnly (d := d) (p := p) (c := { d.port p with
    cmds := (d.port p).cmds.filter (fun f => decide (d.now < f.target))
    counted := (d.port p).counted + sumBy (fun f => if f.copies = 0 then 0 else feCount f.op) ((d.port p).cmds.filter fun f => decide (f.target ≤ d.now)) })
    rfl rfl).trans (Dev.lateCommands_festatOnly _
      (sumBy (fun f => if f.copies = 0 then f.tokens else 0) ((d.port p).cmds.filter fun f => decide (f.target ≤ d.now))))
  generalize Dev.lateCommands _ p _ = x at passed ⊢
  refine passed.trans ?_
  split
  · exact ((Dev.setPort_festatOnly (by rfl) (by rfl)).trans (Dev.lateCommands_festatOnly _ _)).trans
      (Dev.bump_festatOnly (a := Reg.CAL_CANCELLED) (by decide) (by decide) _ _ _)
  · exact (((Dev.setPort_festatOnly (by rfl) (by rfl)).trans (Dev.lateCommands_festatOnly _ _)).trans
      (Dev.bump_festatOnly (a := Reg.CAL_CANCELLED) (by decide) (by decide) _ _ _)).trans
      ((Dev.bump_festatOnly (a := Reg.WP_CMD_LOST) (by decide) (by decide) _ _ _).trans (Dev.log_festatOnly _ _ _ _ _ _))

/-! ### Wakes (R361, R362) -/

theorem Dev.decideWindows_none (none_ : d.nextPrecision p = none) (n : Nat) : d.decideWindows p n = d := by
  cases n with
  | zero => rfl
  | succ n =>
    unfold Dev.decideWindows
    rw [none_]
    rfl

/-- A group at rest is raised up to no slot ahead. -/
theorem Dev.raisedTo_rest (none_ : d.raisesOf p g = []) : d.raisedTo p g = d.now := by
  unfold Dev.raisedTo
  rw [none_]
  rfl

/-- A wake of a group at rest that die, caddy, fence and cost allow is granted and counted. -/
theorem Dev.decideWake_allowed (none_ : d.raisesOf p g = []) (data : d.mode = .stream ∨ d.mode = .gated)
    (fence : 3 ≤ d.get Reg.GV_FENCE_MAX (p.val * 16 + g)) (cold : d.dieState p = 0) (filled : (d.caddy p.val).empty = false)
    (above : d.restAt p g (d.target p) < 3)
    (fits : d.cost p g 3 (d.stepsOf p g (d.target p) (d.target p + d.get Reg.GV_WAKE_HOLD)) ≤ (d.caddy p.val).bal - d.committed p) :
    (d.decideWake p g).get Reg.GV_WAKES (p.val * 16 + g) = min (d.get Reg.GV_WAKES (p.val * 16 + g) + 1) (2 ^ 32 - 1)
      ∧ ∃ r, (d.decideWake p g).gov.raises = d.gov.raises ++ [r] ∧ r.port = p.val ∧ r.group = g ∧ r.level = 3 ∧ r.start = d.target p
        ∧ r.stop = d.target p + d.get Reg.GV_WAKE_HOLD ∧ r.window = false ∧ r.ended = false := by
  have decided : d.decideWake p g
      = ((d.commit (d.raiseFor p g 3 (d.target p) (d.target p) (d.target p + d.get Reg.GV_WAKE_HOLD) false)).bump Reg.GV_WAKES
          (p.val * 16 + g)).biasAt p (2 ^ g)
          ((d.commit (d.raiseFor p g 3 (d.target p) (d.target p) (d.target p + d.get Reg.GV_WAKE_HOLD) false)).levelAt p g (d.target p))
          (d.target p) false := by
    have awake : ¬ (d.mode ≠ .stream ∧ d.mode ≠ .gated) := by
      rcases data with data | data <;> simp [data]
    unfold Dev.decideWake
    simp only [Dev.raisedTo_rest none_, Nat.lt_irrefl, if_false, if_neg awake,
      Dev.grant_allowed false fence cold filled (Nat.le_refl 3) above fits]
  rw [decided]
  generalize hr : d.raiseFor p g 3 (d.target p) (d.target p) (d.target p + d.get Reg.GV_WAKE_HOLD) false = r
  generalize (d.commit r).levelAt p g (d.target p) = level
  have only := ((d.commit r).bump Reg.GV_WAKES (p.val * 16 + g)).biasAt_biasOnly p (2 ^ g) level (d.target p) false
  refine ⟨?_, r, ?_, ?_⟩
  · rw [only.get, Dev.get_bump_same]
    rfl
  · exact congrArg Governor.raises only.gov
  · subst hr
    exact ⟨rfl, rfl, rfl, rfl, rfl, rfl, rfl⟩

theorem exec_festatWakeReceive_allowed {exec groups : BitVec 16} {late cancelled : BitVec 8} (group : bitsOf groups.toNat 16 = [g])
    (data : s.dev.mode = .stream ∨ s.dev.mode = .gated) (next : s.dev.nextPrecision p = none) (up : s.dev.portUp p = true)
    (none_ : s.dev.raisesOf p g = []) (filled : (s.dev.caddy p.val).empty = false) (cold : s.dev.dieState p = 0)
    (fence : 3 ≤ s.dev.get Reg.GV_FENCE_MAX (p.val * 16 + g)) (above : s.dev.restAt p g (s.dev.target p) < 3)
    (fits : s.dev.cost p g 3 (s.dev.stepsOf p g (s.dev.target p) (s.dev.target p + s.dev.get Reg.GV_WAKE_HOLD))
      ≤ (s.dev.caddy p.val).bal - s.dev.committed p) :
    Completes (.festatWakeReceive p exec late cancelled groups) s fun d =>
      d.get Reg.GV_WAKES (p.val * 16 + g) = min (s.dev.get Reg.GV_WAKES (p.val * 16 + g) + 1) (2 ^ 32 - 1)
        ∧ ∃ r, d.gov.raises = s.dev.gov.raises ++ [r] ∧ r.port = p.val ∧ r.group = g ∧ r.level = 3 ∧ r.start = s.dev.target p
          ∧ r.stop = s.dev.target p + s.dev.get Reg.GV_WAKE_HOLD ∧ r.window = false ∧ r.ended = false := by
  obtain ⟨same, raises, winTo, upAt, wakes⟩ := s.dev.festatCounts_festatOnly p exec.toNat late.toNat cancelled.toNat
  refine .of_next (d := if !s.dev.portUp p then s.dev else
    forEach (bitsOf groups.toNat 16) (fun g d => d.decideWake p g)
      ((s.dev.festatCounts p exec.toNat late.toNat cancelled.toNat).decideWindows p
        (s.dev.festatCounts p exec.toNat late.toNat cancelled.toNat).windowBound)) rfl ?_
  rw [up, group]
  generalize s.dev.festatCounts p exec.toNat late.toNat cancelled.toNat = x at *
  have own : x.raisesOf p g = s.dev.raisesOf p g := by
    unfold Dev.raisesOf
    rw [raises]
  rw [if_neg (by decide), Dev.decideWindows_none ((same.nextPrecision winTo upAt).trans next)]
  have target := same.target (p := p)
  have hold := same.get Reg.GV_WAKE_HOLD (by decide) 0
  have woken := Dev.decideWake_allowed (own.trans none_) (by rwa [same.mode]) (by rwa [same.get _ (by decide)])
    (same.dieState.trans cold) (by rwa [same.caddy]) (by rwa [target, same.restAt])
    (by rwa [target, hold, same.cost, same.stepsOf g _ _ own, same.caddy, same.committed raises])
  rw [wakes, raises, target, hold] at woken
  exact woken

/-! ### The ends of raises (R36, R38, R46) -/

/-- The commands of a pass sent where the port takes them. -/
def Dev.sendBias (d : Dev) (p : Port) (window : Bool) (cs : List (Nat × Nat × Nat)) : Dev :=
  if d.takesCmds p then d.biasAll p window cs else d

theorem Dev.sendBias_biasOnly (d : Dev) (p : Port) (window : Bool) (cs : List (Nat × Nat × Nat)) : BiasOnly p d (d.sendBias p window cs) := by
  unfold Dev.sendBias
  split
  · exact d.biasAll_biasOnly p window cs
  · exact .refl d

/-- The raises of a port that end within `lead` and have not been commanded down. -/
def Dev.endsDue (d : Dev) (p : Port) (lead : Nat) : List Raise :=
  d.gov.raises.filter fun r => r.port == p.val && !r.ended && decide (d.stopOf r ≤ d.now + lead)

/-- The raises left when those of `due` are commanded down at device `d`. -/
def Dev.raisesLeft (d : Dev) (p : Port) (due : List Raise) : List Raise :=
  (d.gov.raises.map fun r => if due.contains r then { r with ended := true } else r).filter fun r =>
    !(r.port == p.val && r.ended && decide (d.stopOf r ≤ d.now))

/-- RAISE_END as commands sent and raises marked. -/
theorem exec_raiseEnd (s : State) (p : Port) : ∃ d, BiasOnly p s.dev d
    ∧ exec (.raiseEnd p) s = .next { s with dev := { d with gov := { d.gov with
        raises := d.raisesLeft p (s.dev.endsDue p (max (s.dev.get Reg.CAL_LEAD) (s.dev.target p - s.dev.now))) } } } := by
  refine ⟨_, ?_, rfl⟩
  exact (s.dev.sendBias_biasOnly p false _).trans (Dev.sendBias_biasOnly _ p true _)

theorem exec_raiseEnd_settled (settled : s.dev.modePend = none) :
    Completes (.raiseEnd p) s fun d =>
      (∀ r ∈ s.dev.gov.raises, r.port ≠ p.val → r ∈ d.gov.raises)
        ∧ (∀ r ∈ d.gov.raises, r.port = p.val → r.ended = true → s.dev.now < r.stop)
        ∧ (∀ r ∈ d.gov.raises, r.port = p.val → r.stop ≤ s.dev.now + s.dev.get Reg.CAL_LEAD → r.ended = true)
        ∧ d.gov.caddies = s.dev.gov.caddies := by
  obtain ⟨d, only, runs⟩ := exec_raiseEnd s p
  refine .of_next runs ?_
  have stop (r : Raise) : d.stopOf r = r.stop := Dev.stopOf_settled (only.same.modePend.trans settled) r
  generalize hdue : s.dev.endsDue p _ = due
  have isDue (r : Raise) : r ∈ due ↔ r ∈ s.dev.gov.raises ∧ r.port = p.val ∧ r.ended = false
      ∧ r.stop ≤ s.dev.now + max (s.dev.get Reg.CAL_LEAD) (s.dev.target p - s.dev.now) := by
    subst hdue
    simp [Dev.endsDue, Dev.stopOf_settled settled, and_assoc]
  have left (r : Raise) : r ∈ d.raisesLeft p due ↔ (∃ r₀ ∈ s.dev.gov.raises, (if r₀ ∈ due then { r₀ with ended := true } else r₀) = r)
      ∧ (r.port = p.val → r.ended = true → s.dev.now < r.stop) := by
    have kept : (!(r.port == p.val && r.ended && decide (r.stop ≤ s.dev.now))) = true ↔ (r.port = p.val → r.ended = true → s.dev.now < r.stop) := by
      by_cases own : r.port = p.val <;> cases r.ended <;> simp [own]
    simp only [Dev.raisesLeft, List.mem_filter, List.mem_map, stop, only.gov, only.same.now, List.contains_iff_mem, kept]
  refine ⟨fun r mem other => ?_, fun r mem => ((left r).mp mem).2, fun r mem own near => ?_, (congrArg Governor.caddies only.gov :)⟩
  · have quiet : r ∉ due := fun h => other ((isDue r).mp h).2.1
    exact (left r).mpr ⟨⟨r, mem, if_neg quiet⟩, fun own => absurd own other⟩
  · obtain ⟨⟨r₀, mem₀, rfl⟩, -⟩ := (left r).mp mem
    by_cases quiet : r₀ ∈ due
    · rw [if_pos quiet]
    · rw [if_neg quiet] at own near ⊢
      by_contra running
      exact quiet ((isDue r₀).mpr ⟨mem₀, own, by simpa using running, by omega⟩)

/-! ### The levels repeated (R363) -/

/-- The level commanded for each group of a port, repeated. -/
def Dev.repeatPort (d : Dev) (p : Port) : Dev :=
  if d.takesCmds p then d.biasAll p false ((List.range 16).map fun g => (g, d.levelAt p g (d.target p), d.target p)) else d

theorem Dev.repeatPort_biasOnly (d : Dev) (p : Port) : BiasOnly p d (d.repeatPort p) := d.sendBias_biasOnly p false _

/-- Where every group has one level, the repetition is one command to all groups. -/
theorem Dev.repeatPort_cmds {l : Fin 4} (up : d.portUp p = true) (idle : (d.port p).cmds = [])
    (level : ∀ g < 16, d.levelAt p g (d.target p) = l.val) :
    ∃ f, ((d.repeatPort p).port p).cmds = [f] ∧ f.op = .bias 0xFFFF l := by
  have takes : d.takesCmds p = true := by simp [Dev.takesCmds, up]
  have levels : (List.range 16).map (fun g => (g, d.levelAt p g (d.target p), d.target p))
      = (List.range 16).map fun g => (g, l.val, d.target p) :=
    List.map_congr_left fun g hg => by rw [level g (List.mem_range.mp hg)]
  have one : (((List.range 16).map fun g => (g, l.val, d.target p)).map fun c => c.2).dedup = [(l.val, d.target p)] := by
    rw [List.map_map]
    exact List.replicate_dedup (k := 16) (by decide)
  have groups : (((List.range 16).map fun g => (g, l.val, d.target p)).filter fun c => c.2 == (l.val, d.target p)).map Prod.fst
      = List.range 16 := by
    rw [List.filter_eq_self.mpr (by simp), List.map_map]
    exact List.map_id _
  unfold Dev.repeatPort
  rw [if_pos takes, levels, Dev.biasAll_one _ _ _ _ _ one, groups]
  obtain ⟨f, cmds, op⟩ := d.biasAt_cmds p (maskOf (List.range 16)) l.val (d.target p) false idle
  refine ⟨f, cmds, op.trans ?_⟩
  rw [Fin.ofNat_val_eq_self]
  rfl

theorem exec_biasRepeat_due {l : Fin 4} (late : 64 ≤ s.dev.slot) (fresh : s.dev.gov.repeatCycle ≠ some s.dev.grid.cycle)
    (up : s.dev.portUp p = true) (idle : (s.dev.port p).cmds = []) (level : ∀ g < 16, s.dev.levelAt p g (s.dev.target p) = l.val) :
    Completes .biasRepeat s fun d =>
      d.gov.repeatCycle = some s.dev.grid.cycle ∧ d.gov.raises = s.dev.gov.raises
        ∧ ∃ f, (d.port p).cmds = [f] ∧ f.op = .bias 0xFFFF l := by
  refine .of_next (d := if s.dev.slot < 64 ∨ s.dev.gov.repeatCycle = some s.dev.grid.cycle then s.dev else
    forEach allPorts (fun p d => d.repeatPort p) { s.dev with gov := { s.dev.gov with repeatCycle := some s.dev.grid.cycle } }) rfl ?_
  rw [if_neg (by simp [fresh]; omega)]
  generalize hx : ({ s.dev with gov := { s.dev.gov with repeatCycle := some s.dev.grid.cycle } } : Dev) = x
  have seen : GovSame s.dev x := by
    subst hx
    exact ⟨rfl, rfl, rfl, rfl, rfl, rfl, rfl, rfl, rfl, fun _ _ _ => rfl⟩
  have marked : x.gov.repeatCycle = some s.dev.grid.cycle ∧ x.gov.raises = s.dev.gov.raises := by
    subst hx
    exact ⟨rfl, rfl⟩
  have waits : (x.port p).cmds = [] := by
    subst hx
    exact idle
  clear hx
  have all := forEach_once (I := fun d => GovSame s.dev d ∧ d.gov = x.gov ∧ (d.port p).cmds = [])
    (Q := fun d => d.gov = x.gov ∧ ∃ f, (d.port p).cmds = [f] ∧ f.op = .bias 0xFFFF l) (l := allPorts)
    (f := fun p d => d.repeatPort p) (a := p) (List.nodup_finRange 32) (List.mem_finRange p)
    (fun q _ d other ⟨same, gov, none_⟩ => by
      have only := d.repeatPort_biasOnly q
      exact ⟨same.trans only.same, only.gov.trans gov, by rw [only.others p (Ne.symm other)]; exact none_⟩)
    (fun d ⟨same, gov, none_⟩ => by
      have only := d.repeatPort_biasOnly p
      have own (g : Nat) : d.raisesOf p g = s.dev.raisesOf p g := by
        unfold Dev.raisesOf
        rw [gov, marked.2]
      exact ⟨only.gov.trans gov, Dev.repeatPort_cmds (same.portUp.trans up) none_ fun g hg => by
        rw [same.levelAt g _ (own g), same.target]
        exact level g hg⟩)
    (fun q _ d other ⟨gov, sent⟩ => by
      have only := d.repeatPort_biasOnly q
      exact ⟨only.gov.trans gov, by rw [only.others p (Ne.symm other)]; exact sent⟩)
    (s := x) ⟨seen, rfl, waits⟩
  exact ⟨(congrArg Governor.repeatCycle all.1).trans marked.1, (congrArg Governor.raises all.1).trans marked.2, all.2⟩

end Sys2Proof.Machine
end

section
/-! The concentrator's gates (R354, R358, R364; O52). -/

namespace Sys2Proof.Machine

variable {d d' d'' : Dev} {s : State}

/-- `d'` is `d` but for the scheduling trace. -/
structure TraceOnly (d d' : Dev) : Prop where
  only : ∃ r sc f, d' = { d with regs := r, sched := sc, free := f }
  get : ∀ a, a % 2 ^ 24 ≠ Reg.SC_TRACE_DROP % 2 ^ 24 → ∀ e, d'.get a e = d.get a e

theorem TraceOnly.now (h : TraceOnly d d') : d'.now = d.now := by obtain ⟨r, sc, f, rfl⟩ := h.only; rfl

theorem TraceOnly.gov (h : TraceOnly d d') : d'.gov = d.gov := by obtain ⟨r, sc, f, rfl⟩ := h.only; rfl

theorem TraceOnly.ledger (h : TraceOnly d d') : d'.ledger = d.ledger := by obtain ⟨r, sc, f, rfl⟩ := h.only; rfl

theorem TraceOnly.refl (d : Dev) : TraceOnly d d := ⟨⟨_, _, _, rfl⟩, fun _ _ _ => rfl⟩

theorem TraceOnly.trans (h : TraceOnly d d') (h' : TraceOnly d' d'') : TraceOnly d d'' := by
  refine ⟨?_, fun a ha e => (h'.get a ha e).trans (h.get a ha e)⟩
  obtain ⟨r, sc, f, rfl⟩ := h.only
  obtain ⟨r', sc', f', rfl⟩ := h'.only
  exact ⟨r', sc', f', rfl⟩

theorem Dev.traceGap_traceOnly (d : Dev) (slot : Nat) : TraceOnly d (d.traceGap slot) := by
  unfold Dev.traceGap
  split
  · exact .refl d
  · exact ⟨⟨_, _, _, rfl⟩, fun _ _ _ => rfl⟩

theorem Dev.settleGap_traceOnly (d : Dev) : TraceOnly d d.settleGap := by
  unfold Dev.settleGap
  split
  · exact d.traceGap_traceOnly _
  · exact .refl d

theorem Dev.traceEntry_traceOnly (d : Dev) (w : Nat) : TraceOnly d (d.traceEntry w) := by
  have dropped (x : Dev) : TraceOnly x (({ x with sched := { x.sched with gap := x.sched.gap + 1 } }).bump Reg.SC_TRACE_DROP) :=
    ⟨⟨_, _, _, rfl⟩, fun a ha e => Dev.get_bump_addr _ ha _ _ _⟩
  have pushed (x : Dev) (t : Nat) : TraceOnly x (x.tracePush w t) := by
    unfold Dev.tracePush
    -- what is kept stays opaque, so that no check counts up to its length
    obtain ⟨keep, hKeep⟩ : ∃ keep, keep = @lastN := ⟨_, rfl⟩
    rw [← hKeep]
    exact ⟨⟨_, _, _, rfl⟩, fun _ _ _ => rfl⟩
  have settled := d.settleGap_traceOnly
  unfold Dev.traceEntry
  generalize d.settleGap = x at settled ⊢
  extract_lets _ n
  clear_value n
  split
  · exact .refl d
  · split
    · exact settled.trans (dropped x)
    · exact settled.trans (pushed x _)

theorem Dev.traceEvent_traceOnly (d : Dev) (event : Nat) (task cls eprio source arg seq : Option Nat) :
    TraceOnly d (d.traceEvent event task cls eprio source arg seq) := by
  have drawn : TraceOnly d (d.traceWith event task cls eprio source arg seq d.now).2 := ⟨⟨_, _, _, rfl⟩, fun _ _ _ => rfl⟩
  unfold Dev.traceEvent
  split
  · exact drawn.trans (Dev.traceEntry_traceOnly _ _)
  · exact .refl d

/-! ### The gates published (R364) -/

/-- HOLD of Governor Status: the concentrator's die is CRITICAL, or LOGIC's caddy EMPTY. -/
def Dev.coresHeld (d : Dev) : Bool := (d.gov.dies.toList.getD 32 {}).state == 3 || (d.caddy 32).empty

/-- The objects the gates are published in, and the trace's own count. -/
def gateObjects : List Nat := [Reg.GV_CORES, Reg.GV_STATUS, Reg.GV_SCRUB_PERMIT, Reg.GV_MEM_THROTTLE, Reg.SC_TRACE_DROP]

theorem Dev.throttle_le (d : Dev) : d.throttle ≤ 100 := by
  unfold Dev.throttle
  dsimp only
  split_ifs <;> omega

theorem bit_zero_flags (a b c e : Bool) : bit ((flag 0 a + flag 1 b + flag 2 c + flag 3 e) % 2 ^ 8) 0 = a := by
  revert a b c e
  decide

/-- The gates published: what they show, and what they leave. -/
theorem Dev.publishGates_facts (d : Dev) :
    d.publishGates.now = d.now ∧ d.publishGates.gov = d.gov ∧ d.publishGates.ledger = d.ledger
      ∧ (∀ a, a % 2 ^ 24 ∉ gateObjects → ∀ e, d.publishGates.get a e = d.get a e)
      ∧ d.publishGates.get Reg.GV_CORES = d.coresAllowed % 2 ^ 8 ∧ d.publishGates.get Reg.GV_MEM_THROTTLE = d.throttle
      ∧ bit (d.publishGates.get Reg.GV_STATUS) 0 = d.coresHeld
      ∧ (d.throttle < d.get Reg.GV_MEM_THROTTLE → d.publishGates.mem.scaleAt = some (d.now + 1, 2)) := by
  unfold Dev.publishGates
  extract_lets d₁ st hold status was gates held sched d₂ d₃ d₄ t d₅ mem
  obtain ⟨now₂, gov₂, ledger₂, get₂⟩ : d₂.now = d.now ∧ d₂.gov = d.gov ∧ d₂.ledger = d.ledger ∧ ∀ a e, d₂.get a e = d.get a e :=
    ⟨rfl, rfl, rfl, fun _ _ => rfl⟩
  have hHold : hold = d.coresHeld := rfl
  have hWas : was = d.get Reg.GV_MEM_THROTTLE := rfl
  have hAllowed : d₂.coresAllowed = d.coresAllowed := by
    unfold Dev.coresAllowed Dev.caddy
    rw [gov₂, get₂]
  clear_value d₂ hold was
  have hCores : d₃.get Reg.GV_CORES = d.coresAllowed % 2 ^ 8 := by
    unfold d₃
    rw [Dev.get_set_addr _ (by decide), Dev.get_set_addr _ (by decide), Dev.get_set_same, hAllowed]
    rfl
  have hStatus : bit (d₃.get Reg.GV_STATUS) 0 = d.coresHeld := by
    unfold d₃
    rw [Dev.get_set_addr _ (by decide), Dev.get_set_same, ← hHold]
    exact bit_zero_flags _ _ _ _
  have get₃ (a : Nat) (ha : a % 2 ^ 24 ∉ gateObjects) (e : Nat) : d₃.get a e = d.get a e := by
    simp only [gateObjects, List.mem_cons, not_or] at ha
    obtain ⟨cores, shown, permit, -⟩ := ha
    unfold d₃
    rw [Dev.get_set_addr _ permit, Dev.get_set_addr _ shown, Dev.get_set_addr _ cores, get₂]
  have now₃ : d₃.now = d₂.now := rfl
  have gov₃ : d₃.gov = d₂.gov := rfl
  have ledger₃ : d₃.ledger = d₂.ledger := rfl
  have traced : TraceOnly d₃ d₄ := by
    unfold d₄
    split
    · exact .refl d₃
    · exact d₃.traceEvent_traceOnly _ _ _ _ _ _ _
  clear_value d₄ d₃
  have hThrottle : t = d.throttle := by
    unfold t Dev.throttle Dev.caddy
    rw [traced.gov, gov₃, gov₂]
  clear_value t
  have shown : d₅.now = d.now ∧ d₅.gov = d.gov ∧ d₅.ledger = d.ledger ∧ (∀ a, a % 2 ^ 24 ∉ gateObjects → ∀ e, d₅.get a e = d.get a e)
      ∧ d₅.get Reg.GV_CORES = d.coresAllowed % 2 ^ 8 ∧ d₅.get Reg.GV_MEM_THROTTLE = d.throttle
      ∧ bit (d₅.get Reg.GV_STATUS) 0 = d.coresHeld := by
    refine ⟨traced.now.trans (now₃.trans now₂), traced.gov.trans (gov₃.trans gov₂), traced.ledger.trans (ledger₃.trans ledger₂),
      fun a ha e => ?_, ?_, ?_, ?_⟩
    · have outside := ha
      simp only [gateObjects, List.mem_cons, not_or] at outside
      obtain ⟨-, -, -, throttle, drop, -⟩ := outside
      unfold d₅
      rw [Dev.get_set_addr _ throttle, traced.get a drop, get₃ a ha]
    · unfold d₅
      rw [Dev.get_set_addr _ (by decide), traced.get _ (by decide), hCores]
    · unfold d₅
      rw [Dev.get_set_same, hThrottle]
      exact Nat.mod_eq_of_lt (Nat.lt_of_le_of_lt d.throttle_le (by decide))
    · unfold d₅
      rw [Dev.get_set_addr _ (by decide), traced.get _ (by decide), hStatus]
  clear_value d₅
  obtain ⟨now₅, gov₅, ledger₅, get₅, cores₅, throttle₅, status₅⟩ := shown
  rw [hThrottle, hWas]
  split
  · exact ⟨now₅, gov₅, ledger₅, get₅, cores₅, throttle₅, status₅, fun _ => by rw [← now₅]⟩
  · rename_i steady
    have tail : d.throttle < d.get Reg.GV_MEM_THROTTLE → False := steady
    split
    · exact ⟨now₅, gov₅, ledger₅, get₅, cores₅, throttle₅, status₅, fun h => (tail h).elim⟩
    · exact ⟨now₅, gov₅, ledger₅, get₅, cores₅, throttle₅, status₅, fun h => (tail h).elim⟩

end Sys2Proof.Machine
end

section
/-! Thermal states (R350 to R354; O52). -/

namespace Sys2Proof.Machine

variable {d d' d'' : Dev} {s : State} {i : Nat}

/-! ### Signed words (R404) -/

theorem sgn_unsgn {v : Int} (low : -2 ^ 15 ≤ v) (high : v < 2 ^ 15) : sgn 16 (unsgn 16 v % 2 ^ 16) = v := by
  unfold sgn unsgn
  norm_num at low high ⊢
  split <;> omega

/-- The hottest of the sensors is one of them, so it fits the word of a temperature. -/
theorem foldl_max_fits {l : List (BitVec 16)} {a : Int} (ha : -2 ^ 15 ≤ a ∧ a < 2 ^ 15) :
    -2 ^ 15 ≤ (l.map BitVec.toInt).foldl max a ∧ (l.map BitVec.toInt).foldl max a < 2 ^ 15 := by
  induction l generalizing a with
  | nil => exact ha
  | cons x l ih =>
    have low := BitVec.le_toInt x
    have high := BitVec.toInt_lt (x := x)
    exact ih ⟨le_max_of_le_left ha.1, max_lt ha.2 (by simpa using high)⟩

/-! ### A die of the governor -/

/-- A die as the governor has it. -/
def Dev.die (d : Dev) (i : Nat) : Die := d.gov.dies.toList.getD i {}

theorem Dev.die_eq (d : Dev) (i : Fin 33) : d.die i.val = d.gov.dies[i.val] := by
  unfold Dev.die
  rw [List.getD_eq_getElem _ _ (by simp)]
  simp

/-- The objects a change of a die's state shows in. -/
def dieObjects : List Nat := [Reg.GV_TEMP, Reg.GV_TSTATE, Reg.GV_TCHANGES, Reg.GV_FLAPS]

/-- `d'` is `d` but for the dies, what shows of them, and the ledger. -/
structure DieOnly (d d' : Dev) : Prop where
  now : d'.now = d.now
  mem : d'.mem = d.mem
  caddies : d'.gov.caddies = d.gov.caddies
  sensors : d'.gov.sensors = d.gov.sensors
  get : ∀ a, a % 2 ^ 24 ∉ dieObjects → ∀ e, d'.get a e = d.get a e

theorem DieOnly.refl (d : Dev) : DieOnly d d := ⟨rfl, rfl, rfl, rfl, fun _ _ _ => rfl⟩

theorem DieOnly.trans (h : DieOnly d d') (h' : DieOnly d' d'') : DieOnly d d'' :=
  ⟨h'.now.trans h.now, h'.mem.trans h.mem, h'.caddies.trans h.caddies, h'.sensors.trans h.sensors,
    fun a ha e => (h'.get a ha e).trans (h.get a ha e)⟩

theorem DieOnly.steepSince (h : DieOnly d d') (t : Option Nat) : d'.steepSince t = d.steepSince t := by
  unfold Dev.steepSince Dev.ms
  rw [h.now, h.get Reg.GV_STEEP (by decide), h.get Reg.TB_FNOM (by decide)]

theorem DieOnly.threshold (h : DieOnly d d') (k : Nat) : d'.threshold k = d.threshold k := by
  unfold Dev.threshold Dev.getI
  rw [h.get Reg.GV_T_WARM (by decide), h.get Reg.GV_T_HOT (by decide), h.get Reg.GV_T_CRIT (by decide)]

theorem DieOnly.caddy (h : DieOnly d d') (k : Nat) : d'.caddy k = d.caddy k := by
  unfold Dev.caddy
  rw [h.caddies]

theorem Dev.set_dieOnly {a : Nat} (shows : a % 2 ^ 24 ∈ dieObjects) (d : Dev) (e v : Nat) : DieOnly d (d.set a e v) := by
  refine ⟨rfl, rfl, rfl, rfl, fun a' ha' e' => d.get_set_addr (fun same => ?_) e v e'⟩
  exact ha' (same ▸ shows)

theorem Dev.log_dieOnly (d : Dev) (source code : Nat) (v1 v2 v3 : Int) : DieOnly d (d.log source code v1 v2 v3) := by
  obtain ⟨b, n, eq⟩ := d.log_eq source code v1 v2 v3
  rw [eq]
  exact ⟨rfl, rfl, rfl, rfl, fun _ _ _ => rfl⟩

theorem Dev.withDies_dieOnly (d : Dev) (dies : Vector Die 33) : DieOnly d { d with gov := { d.gov with dies := dies } } :=
  ⟨rfl, rfl, rfl, rfl, fun _ _ _ => rfl⟩

theorem Dev.setDie_dieOnly (d : Dev) (i : Nat) (x : Die) : DieOnly d (d.setDie i x) := by
  unfold Dev.setDie
  exact (d.withDies_dieOnly _).trans (Dev.set_dieOnly (a := Reg.GV_TSTATE) (by decide) _ i _)

theorem Dev.withDies_get (d : Dev) (dies : Vector Die 33) (a e : Nat) :
    ({ d with gov := { d.gov with dies := dies } } : Dev).get a e = d.get a e := rfl

theorem Dev.setDie_get (d : Dev) {a : Nat} (other : a % 2 ^ 24 ≠ Reg.GV_TSTATE % 2 ^ 24) (i : Nat) (x : Die) (e : Nat) :
    (d.setDie i x).get a e = d.get a e := by
  unfold Dev.setDie
  exact (Dev.get_set_addr _ other _ _ _).trans (d.withDies_get _ a e)

theorem Dev.setDie_ledger (d : Dev) (i : Nat) (x : Die) : (d.setDie i x).ledger = d.ledger := rfl

theorem Dev.die_setDie (d : Dev) (hi : i < 33) (x : Die) : (d.setDie i x).die i = x := by
  rw [(d.setDie i x).die_eq ⟨i, hi⟩]
  simp [Dev.setDie]

theorem Dev.log_die (d : Dev) (source code : Nat) (v1 v2 v3 : Int) (i : Nat) : (d.log source code v1 v2 v3).die i = d.die i := by
  unfold Dev.die
  rw [(d.log_gov_ports source code v1 v2 v3).1]

/-! ### Changes of state (R352, R353) -/

/-- What the governor watches for, at a device of the same time and settings. -/
theorem DieOnly.watch (h : DieOnly d d') (x : Die) (temp : Int) : d'.watch x temp = d.watch x temp := by
  unfold Dev.watch
  simp only [h.now, h.threshold, h.get Reg.GV_T_HYST (by decide)]

/-- A first change of a die's state: it is shown and recorded, and starts no hold. -/
theorem Dev.changeState_first (d : Dev) (hi : i < 33) (new : Nat) (temp : Int) (first : (d.die i).changes = [])
    (often : 1 < d.get Reg.GV_FLAP_N) :
    DieOnly d (d.changeState i new temp) ∧ (d.changeState i new temp).ledger
        = ((d.bump Reg.GV_TCHANGES i).log (dieSource i) 0x0801 i (d.die i).state new).ledger
      ∧ ((d.changeState i new temp).get Reg.GV_TEMP i = d.get Reg.GV_TEMP i)
      ∧ (d.changeState i new temp).die i
        = d.watch { d.die i with state := new, fall := none, changes := [(d.now, (d.die i).state, new)] } temp := by
  have logged : DieOnly d ((d.bump Reg.GV_TCHANGES i).log (dieSource i) 0x0801 i (d.die i).state new) :=
    DieOnly.trans (Dev.set_dieOnly (a := Reg.GV_TCHANGES) (by decide) d i _) (Dev.log_dieOnly _ _ _ _ _ _)
  have temps : ((d.bump Reg.GV_TCHANGES i).log (dieSource i) 0x0801 i (d.die i).state new).get Reg.GV_TEMP i = d.get Reg.GV_TEMP i := by
    rw [Dev.log_get, Dev.get_bump_addr _ (by decide)]
  have changed : d.changeState i new temp
      = ((d.bump Reg.GV_TCHANGES i).log (dieSource i) 0x0801 i (d.die i).state new).setDie i
          (d.watch { d.die i with state := new, fall := none, changes := [(d.now, (d.die i).state, new)] } temp) := by
    unfold Dev.changeState
    extract_lets x d₁ old changes x₁ x₂ top d₂ held
    have hx : x = d.die i := rfl
    have hd : d₁ = (d.bump Reg.GV_TCHANGES i).log (dieSource i) 0x0801 i (d.die i).state new := rfl
    have now : d₁.now = d.now := by rw [hd]; exact logged.now
    have flaps : d₁.get Reg.GV_FLAP_N = d.get Reg.GV_FLAP_N := by rw [hd]; exact logged.get _ (by decide) 0
    have hChanges : changes = [(d.now, (d.die i).state, new)] := by
      unfold changes old
      rw [now, hx, first]
      rfl
    have short : ¬ d₁.get Reg.GV_FLAP_N ≤ changes.length := by
      rw [flaps, hChanges]
      simpa using often
    have watched : x₂ = d.watch { d.die i with state := new, fall := none, changes := [(d.now, (d.die i).state, new)] } temp := by
      unfold x₂ x₁
      rw [hChanges, hx, hd]
      exact logged.watch _ _
    rw [if_neg short, watched, hd]
  rw [changed]
  generalize (d.bump Reg.GV_TCHANGES i).log (dieSource i) 0x0801 i (d.die i).state new = x at *
  exact ⟨logged.trans (x.setDie_dieOnly i _), x.setDie_ledger i _, (x.setDie_get (by decide) i _ i).trans temps, Dev.die_setDie x hi _⟩

/-! ### The evaluation of a die (R352) -/

/-- The die and what shows of it, once its temperature has come. -/
def Dev.evaluated (d : Dev) (i : Nat) (temp : Int) : Dev :=
  (d.setI Reg.GV_TEMP i temp).setDie i ((d.setI Reg.GV_TEMP i temp).watch (d.die i) temp)

theorem Dev.evaluate_eq (d : Dev) (i : Nat) (temp : Int) : d.evaluate i temp = (d.evaluated i temp).settleState i temp := rfl

theorem Dev.evaluated_facts (d : Dev) (hi : i < 33) (temp : Int) :
    DieOnly d (d.evaluated i temp) ∧ (d.evaluated i temp).ledger = d.ledger ∧ (d.evaluated i temp).die i = d.watch (d.die i) temp
      ∧ (d.evaluated i temp).get Reg.GV_TEMP i = unsgn 16 temp % 2 ^ 16 := by
  have shown : DieOnly d (d.setI Reg.GV_TEMP i temp) := Dev.set_dieOnly (a := Reg.GV_TEMP) (by decide) d i _
  have stored : (d.setI Reg.GV_TEMP i temp).get Reg.GV_TEMP i = unsgn 16 temp % 2 ^ 16 := d.get_set_same Reg.GV_TEMP i _
  refine ⟨shown.trans (Dev.setDie_dieOnly _ i _), Dev.setDie_ledger _ i _, ?_, ?_⟩
  · unfold Dev.evaluated
    rw [Dev.die_setDie _ hi, shown.watch]
  · unfold Dev.evaluated
    rw [Dev.setDie_get _ (by decide), stored]

/-- A die that has been above CRITICAL for Steep Time becomes CRITICAL. -/
theorem Dev.settleState_critical (d : Dev) (i : Nat) (temp : Int) (below : (d.die i).state < 3)
    (steep : d.steepSince ((d.die i).rise.toList.getD 2 none) = true) : d.settleState i temp = d.changeState i 3 temp := by
  have up : ([3, 2, 1] : List Nat).find? (fun k => decide ((d.die i).state < k) && d.steepSince ((d.die i).rise.toList.getD (k - 1) none)) = some 3 := by
    rw [List.find?_cons_of_pos]
    simp [below]
    simpa using steep
  unfold Dev.settleState
  change (match List.find? (fun k => decide ((d.die i).state < k) && d.steepSince ((d.die i).rise.toList.getD (k - 1) none)) [3, 2, 1] with
    | some s => d.changeState i s temp | none => _) = _
  rw [up]

/-- A NORMAL die below every threshold stays NORMAL. -/
theorem Dev.settleState_normal (d : Dev) (i : Nat) (temp : Int) (cool : (d.die i).rise = Vector.replicate 3 none) (fall : (d.die i).fall = none) :
    d.settleState i temp = d := by
  have up : ([3, 2, 1] : List Nat).find? (fun k => decide ((d.die i).state < k) && d.steepSince ((d.die i).rise.toList.getD (k - 1) none)) = none := by
    rw [cool]
    simp [Dev.steepSince]
  unfold Dev.settleState
  change (match List.find? (fun k => decide ((d.die i).state < k) && d.steepSince ((d.die i).rise.toList.getD (k - 1) none)) [3, 2, 1] with
    | some s => d.changeState i s temp | none => if (d.die i).hold.isNone && d.steepSince (d.die i).fall then d.changeState i ((d.die i).state - 1) temp else d) = _
  rw [up, fall]
  simp [Dev.steepSince]

/-- The evaluation that makes a die CRITICAL. -/
theorem Dev.evaluate_critical (d : Dev) (hi : i < 33) {temp : Int} {t : Nat} (below : (d.die i).state < 3) (hot : d.threshold 3 ≤ temp)
    (since : (d.die i).rise[2] = some t) (steep : t + d.ms (d.get Reg.GV_STEEP) ≤ d.now) (quiet : (d.die i).changes = [])
    (often : 1 < d.get Reg.GV_FLAP_N) (room : d.ledger.buffer.length < 1024) :
    DieOnly d (d.evaluate i temp) ∧ ((d.evaluate i temp).die i).state = 3 ∧ ((d.evaluate i temp).die i).evalAt = d.now
      ∧ (d.evaluate i temp).get Reg.GV_TEMP i = unsgn 16 temp % 2 ^ 16 ∧ (d.evaluate i temp).Recorded (dieSource i) 0x0801 := by
  obtain ⟨only, ledger, die, temps⟩ := d.evaluated_facts hi temp
  rw [Dev.evaluate_eq]
  generalize d.evaluated i temp = x at *
  have rises : (x.die i).rise.toList.getD 2 none = some t := by
    rw [die, List.getD_eq_getElem _ _ (by simp)]
    simp [Dev.watch, hot, since]
  have changes : (x.die i).changes = [] := by
    rw [die]
    exact quiet
  have state : (x.die i).state = (d.die i).state := by rw [die]; rfl
  rw [x.settleState_critical i temp (by rwa [state]) (by rw [rises, only.steepSince]; exact decide_eq_true steep)]
  obtain ⟨only', ledger', temps', die'⟩ := x.changeState_first hi 3 temp changes (by rwa [only.get _ (by decide)])
  refine ⟨only.trans only', ?_, ?_, temps'.trans temps, ?_⟩
  · rw [die']
    rfl
  · rw [die']
    exact only.now
  · unfold Dev.Recorded
    rw [ledger']
    refine Dev.log_recorded _ _ _ _ _ _ ?_
    change x.ledger.buffer.length < 1024
    rwa [ledger]

/-- The evaluation of a NORMAL die below every threshold. -/
theorem Dev.evaluate_normal (d : Dev) (hi : i < 33) {temp : Int} (normal : (d.die i).state = 0) (warm : temp < d.threshold 1)
    (hot : temp < d.threshold 2) (critical : temp < d.threshold 3) :
    DieOnly d (d.evaluate i temp) ∧ ((d.evaluate i temp).die i).state = 0
      ∧ ((d.evaluate i temp).die i).rise = Vector.replicate 3 none := by
  obtain ⟨only, ledger, die, temps⟩ := d.evaluated_facts hi temp
  rw [Dev.evaluate_eq]
  generalize d.evaluated i temp = x at *
  have cool : (x.die i).rise = Vector.replicate 3 none := by
    rw [die]
    ext k hk
    obtain rfl | rfl | rfl : k = 0 ∨ k = 1 ∨ k = 2 := by omega
    · simp [Dev.watch, Int.not_le.mpr warm]
    · simp [Dev.watch, Int.not_le.mpr hot]
    · simp [Dev.watch, Int.not_le.mpr critical]
  have fall : (x.die i).fall = none := by
    rw [die]
    simp [Dev.watch, normal]
  rw [x.settleState_normal i temp cool fall]
  exact ⟨only, by rw [die]; exact normal, cool⟩

/-! ### The concentrator's own evaluation (R350 to R352, R354, R364) -/

theorem forEach_idle {α σ : Type} {l : List α} {f : α → σ → σ} {s : σ} (idle : ∀ a ∈ l, f a s = s) : forEach l f s = s :=
  forEach_keeps (fun x => x = s) l f (fun a ha x hx => by rw [hx, idle a ha]) s rfl

/-- The means of the twelve sensors. -/
def sensorMeans (sensors : List (BitVec 16)) : Vector Int 12 := Vector.ofFn fun i => (sensors.getD i.val 0).toInt

theorem sensorMeans_toList {sensors : List (BitVec 16)} (twelve : sensors.length = 12) :
    (sensorMeans sensors).toList = sensors.map BitVec.toInt := by
  refine List.ext_getElem (by simp [twelve]) fun k h _ => ?_
  have inside : k < sensors.length := by simpa [twelve] using h
  simp [sensorMeans, inside]

/-- The hottest of the sensors. -/
def hottestOf (sensors : List (BitVec 16)) : Int := (sensors.map BitVec.toInt).foldl max (sensors.headD 0).toInt

theorem hottestOf_fits (sensors : List (BitVec 16)) : -2 ^ 15 ≤ hottestOf sensors ∧ hottestOf sensors < 2 ^ 15 := by
  have low := BitVec.le_toInt (sensors.headD 0)
  have high := BitVec.toInt_lt (x := sensors.headD 0)
  exact foldl_max_fits ⟨by simpa using low, by simpa using high⟩

theorem hottest_means {sensors : List (BitVec 16)} (twelve : sensors.length = 12) :
    (sensorMeans sensors).toList.foldl max (sensorMeans sensors)[0] = hottestOf sensors := by
  unfold hottestOf
  rw [sensorMeans_toList twelve]
  congr 1
  cases sensors with
  | nil => cases twelve
  | cons x l => simp [sensorMeans]

/-- The device with the sensors' means. -/
def Dev.sensed (d : Dev) (sensors : List (BitVec 16)) : Dev := { d with gov := { d.gov with sensors := sensorMeans sensors } }

/-- The evaluation of the concentrator's die, where no port is STALE. -/
theorem exec_thermalEvaluation {sensors : List (BitVec 16)} (twelve : sensors.length = 12) (runs : s.dev.inReset = false)
    (due : s.dev.gov.dies[32].evalAt + 1024 ≤ s.dev.now) (fresh : ∀ p, (s.dev.port p).staleFrom = none) :
    exec (.thermalEvaluation sensors) s
      = .next { s with dev := ((s.dev.sensed sensors).evaluate 32 (hottestOf sensors)).publishGates } := by
  have quiet : forEach allPorts (fun p d => if d.portUp p && (d.port p).staleFrom.isSome then d.updateCaddy p 2900 else d) s.dev = s.dev :=
    forEach_idle fun p _ => by simp [fresh p]
  have go : ¬ (s.dev.inReset || decide (s.dev.now < (s.dev.gov.dies.toList.getD 32 {}).evalAt + 1024)) = true := by
    have die : s.dev.gov.dies.toList.getD 32 {} = s.dev.gov.dies[32] := s.dev.die_eq 32
    rw [runs, die]
    simpa using due
  change Host.Outcome.next { s with dev := _ } = _
  beta_reduce
  rw [if_neg go, quiet]
  change Host.Outcome.next { s with dev := ((s.dev.sensed sensors).evaluate 32
    ((sensorMeans sensors).toList.foldl max (sensorMeans sensors)[0])).publishGates } = _
  rw [hottest_means twelve]

end Sys2Proof.Machine
end

section
/-! The governor's evaluations and holds (R350 to R354, R364; O52). -/

namespace Sys2Proof.Machine

variable {d : Dev} {s : State} {sensors : List (BitVec 16)}

theorem Dev.sensed_dieOnly_facts (d : Dev) (sensors : List (BitVec 16)) :
    (d.sensed sensors).now = d.now ∧ (d.sensed sensors).die 32 = d.die 32 ∧ (∀ a e, (d.sensed sensors).get a e = d.get a e)
      ∧ (∀ k, (d.sensed sensors).caddy k = d.caddy k) ∧ (d.sensed sensors).ledger = d.ledger :=
  ⟨rfl, rfl, fun _ _ => rfl, fun _ => rfl, rfl⟩

theorem Dev.publishGates_die (d : Dev) : d.publishGates.gov.dies[32] = d.die 32 := by
  rw [d.publishGates_facts.2.1]
  exact (d.die_eq 32).symm

/-! ### The gates by the die's state (R354) -/

theorem Dev.coresAllowed_eq (d : Dev) (filled : (d.caddy 32).empty = false) :
    d.coresAllowed = if (d.die 32).state = 3 then d.get Reg.GV_MIN_CORES else if (d.die 32).state = 2 then 8 else 16 := by
  unfold Dev.coresAllowed
  rw [filled]
  rfl

theorem Dev.throttle_eq (d : Dev) (filled : (d.caddy 34).empty = false) :
    d.throttle = if (d.die 32).state = 3 then 50 else if (d.die 32).state = 2 then 75 else 100 := by
  unfold Dev.throttle
  rw [filled]
  rfl

theorem Dev.coresHeld_eq (d : Dev) (filled : (d.caddy 32).empty = false) : d.coresHeld = ((d.die 32).state == 3) := by
  unfold Dev.coresHeld
  rw [filled, Bool.or_false]
  rfl

/-- A die above CRITICAL for Steep Time becomes CRITICAL, and the gates follow. -/
theorem exec_thermalEvaluation_critical {t : Nat} (twelve : sensors.length = 12) (runs : s.dev.inReset = false)
    (due : s.dev.gov.dies[32].evalAt + 1024 ≤ s.dev.now) (fresh : ∀ p, (s.dev.port p).staleFrom = none)
    (below : s.dev.gov.dies[32].state < 3) (hot : s.dev.threshold 3 ≤ hottestOf sensors) (since : s.dev.gov.dies[32].rise[2] = some t)
    (steep : t + s.dev.ms (s.dev.get Reg.GV_STEEP) ≤ s.dev.now) (quiet : s.dev.gov.dies[32].changes = [])
    (often : 1 < s.dev.get Reg.GV_FLAP_N) (room : s.dev.ledger.buffer.length < 1024) (logic : (s.dev.caddy 32).empty = false)
    (memory : (s.dev.caddy 34).empty = false) :
    Completes (.thermalEvaluation sensors) s fun d =>
      d.gov.dies[32].state = 3 ∧ d.gov.dies[32].evalAt = s.dev.now ∧ d.getI Reg.GV_TEMP 32 = hottestOf sensors
        ∧ d.gov.sensors.toList = sensors.map BitVec.toInt ∧ d.Recorded 0xFF 0x0801
        ∧ d.get Reg.GV_CORES = s.dev.get Reg.GV_MIN_CORES % 2 ^ 8 ∧ d.get Reg.GV_MEM_THROTTLE = 50
        ∧ bit (d.get Reg.GV_STATUS) 0 = true := by
  refine .of_next (exec_thermalEvaluation twelve runs due fresh) ?_
  obtain ⟨now, die, get, caddy, ledger⟩ := s.dev.sensed_dieOnly_facts sensors
  have sensors_ : (s.dev.sensed sensors).gov.sensors = sensorMeans sensors := rfl
  have own : s.dev.die 32 = s.dev.gov.dies[32] := s.dev.die_eq 32
  rw [← own] at below since quiet
  obtain ⟨only, state, evalAt, temp, recorded⟩ := (s.dev.sensed sensors).evaluate_critical (i := 32) (by decide)
    (by rwa [die]) (by unfold Dev.threshold Dev.getI at *; simpa only [get] using hot) (by rw [die]; exact since)
    (by unfold Dev.ms at *; simpa only [get, now] using steep) (by rwa [die]) (by rwa [get]) (by rwa [ledger])
  rw [now] at evalAt
  have lists := (only.sensors.trans sensors_).symm ▸ sensorMeans_toList twelve
  have filled := only.caddy 32
  have filled' := only.caddy 34
  have cores := only.get Reg.GV_MIN_CORES (by decide) 0
  rw [caddy] at filled filled'
  rw [get] at cores
  generalize (s.dev.sensed sensors).evaluate 32 (hottestOf sensors) = y at *
  obtain ⟨-, gov, ledger', others, shown, throttle, held, -⟩ := y.publishGates_facts
  replace filled := (congrArg Caddy.empty filled).trans logic
  replace filled' := (congrArg Caddy.empty filled').trans memory
  rw [y.coresAllowed_eq filled, if_pos state, cores] at shown
  rw [y.throttle_eq filled', if_pos state] at throttle
  rw [y.coresHeld_eq filled, state] at held
  refine ⟨?_, ?_, ?_, ?_, ?_, shown, throttle, held⟩
  · rw [y.publishGates_die, state]
  · rw [y.publishGates_die, evalAt]
  · unfold Dev.getI
    rw [others _ (by decide), temp]
    exact sgn_unsgn (hottestOf_fits sensors).1 (hottestOf_fits sensors).2
  · rw [gov, lists]
  · unfold Dev.Recorded
    rw [ledger']
    exact recorded

/-- A NORMAL die below every threshold stays NORMAL, and the gates are open. -/
theorem exec_thermalEvaluation_normal (twelve : sensors.length = 12) (runs : s.dev.inReset = false)
    (due : s.dev.gov.dies[32].evalAt + 1024 ≤ s.dev.now) (fresh : ∀ p, (s.dev.port p).staleFrom = none)
    (normal : s.dev.gov.dies[32].state = 0) (warm : hottestOf sensors < s.dev.threshold 1) (hot : hottestOf sensors < s.dev.threshold 2)
    (critical : hottestOf sensors < s.dev.threshold 3) (logic : (s.dev.caddy 32).empty = false) (memory : (s.dev.caddy 34).empty = false) :
    Completes (.thermalEvaluation sensors) s fun d =>
      d.gov.dies[32].state = 0 ∧ d.gov.dies[32].rise = Vector.replicate 3 none ∧ d.get Reg.GV_CORES = 16
        ∧ d.get Reg.GV_MEM_THROTTLE = 100 ∧ bit (d.get Reg.GV_STATUS) 0 = false
        ∧ (100 < s.dev.get Reg.GV_MEM_THROTTLE → d.mem.scaleAt = some (s.dev.now + 1, 2)) := by
  refine .of_next (exec_thermalEvaluation twelve runs due fresh) ?_
  obtain ⟨now, die, get, caddy, ledger⟩ := s.dev.sensed_dieOnly_facts sensors
  have own : s.dev.die 32 = s.dev.gov.dies[32] := s.dev.die_eq 32
  rw [← own] at normal
  have limits (k : Nat) : (s.dev.sensed sensors).threshold k = s.dev.threshold k := by
    unfold Dev.threshold Dev.getI
    simp only [get]
  obtain ⟨only, state, rise⟩ := (s.dev.sensed sensors).evaluate_normal (i := 32) (by decide) (by rwa [die]) (by rwa [limits])
    (by rwa [limits]) (by rwa [limits])
  have filled := only.caddy 32
  have filled' := only.caddy 34
  have later := only.now
  have was := only.get Reg.GV_MEM_THROTTLE (by decide) 0
  replace filled := (congrArg Caddy.empty (filled.trans (caddy 32))).trans logic
  replace filled' := (congrArg Caddy.empty (filled'.trans (caddy 34))).trans memory
  rw [now] at later
  rw [get] at was
  generalize (s.dev.sensed sensors).evaluate 32 (hottestOf sensors) = y at *
  obtain ⟨-, -, -, -, shown, throttle, held, scales⟩ := y.publishGates_facts
  rw [y.coresAllowed_eq filled, state] at shown
  rw [y.throttle_eq filled', state] at throttle scales
  rw [y.coresHeld_eq filled, state] at held
  rw [was, later] at scales
  exact ⟨by rw [y.publishGates_die, state], by rw [y.publishGates_die, rise], shown, throttle, held, scales⟩

/-! ### The end of a hold (R353) -/

theorem Dev.regate_gov (d : Dev) (p : Port) (old : Dev) : (d.regate p old).gov = d.gov := by
  unfold Dev.regate Dev.rebias
  extract_lets t cs own points change cs'
  have sent := d.biasAll_biasOnly p false cs
  split
  · split
    · exact ((d.biasAll p false cs).biasAll_biasOnly p false _).gov.trans sent.gov
    · exact sent.gov
  · rfl

theorem Dev.actOnDie_dies (d : Dev) (p : Port) (old : Dev) : (d.actOnDie p old).gov.dies = d.gov.dies := by
  unfold Dev.actOnDie
  split
  · rfl
  · exact (congrArg Governor.dies (Dev.regate_gov (d.capRaises p) p old)).trans rfl

/-- Whether die `i` is that of a front end whose port is STALE. -/
def Dev.staleDie (d : Dev) (i : Nat) : Bool := (allPorts[i]?.map fun p => (d.port p).staleFrom.isSome).getD false

theorem Dev.staleDie_eq (d : Dev) (i : Fin 33) :
    d.staleDie i.val = (decide (i.val < 32) && (d.port (Fin.ofNat 32 i.val)).staleFrom.isSome) := by
  unfold Dev.staleDie allPorts
  by_cases frontEnd : i.val < 32
  · have same : Fin.ofNat 32 i.val = ⟨i.val, frontEnd⟩ := Fin.ext (Nat.mod_eq_of_lt frontEnd)
    rw [same]
    simp [frontEnd]
  · simp [frontEnd]

/-- The die without its hold, at the state its fall condition calls for. -/
def Dev.unheld (d : Dev) (i : Nat) (x : Die) : Dev :=
  let d := d.setDie i { x with hold := none }
  if !d.staleDie i && d.steepSince x.fall then d.changeState i (x.state - 1) (d.getI Reg.GV_TEMP i) else d

theorem exec_flapHoldEnd {i : Fin 33} {t top : Nat} (held : s.dev.gov.dies[i.val].hold = some (t, top)) (past : t ≤ s.dev.now) :
    exec (.flapHoldEnd i) s = .next { s with dev :=
      if i.val = 32 then (s.dev.unheld i.val s.dev.gov.dies[i.val]).publishGates
      else (s.dev.unheld i.val s.dev.gov.dies[i.val]).actOnDie (Fin.ofNat 32 i.val) s.dev } := by
  have over_ : ¬ s.dev.now < t := Nat.not_lt.mpr past
  change execFlapHoldEnd i s = _
  unfold execFlapHoldEnd State.on Dev.unheld Dev.staleDie
  simp only [held, if_neg over_]
  cases allPorts[i.val]? <;> rfl

theorem Dev.unheld_die (d : Dev) (i : Fin 33) (quiet : d.gov.dies[i.val].changes = []) (often : 1 < d.get Reg.GV_FLAP_N) :
    ((d.unheld i.val d.gov.dies[i.val]).die i.val).hold = none
      ∧ ((d.unheld i.val d.gov.dies[i.val]).die i.val).state = if d.steepSince d.gov.dies[i.val].fall = true
            ∧ (decide (i.val < 32) && (d.port (Fin.ofNat 32 i.val)).staleFrom.isSome) = false
          then d.gov.dies[i.val].state - 1 else d.gov.dies[i.val].state := by
  generalize d.gov.dies[i.val] = x at *
  have only := d.setDie_dieOnly i.val { x with hold := none }
  have die := d.die_setDie i.isLt { x with hold := none }
  have stale : (d.setDie i.val { x with hold := none }).staleDie i.val
      = (decide (i.val < 32) && (d.port (Fin.ofNat 32 i.val)).staleFrom.isSome) := Dev.staleDie_eq _ i
  unfold Dev.unheld
  dsimp only
  rw [stale, only.steepSince]
  generalize d.setDie i.val { x with hold := none } = y at *
  generalize (decide (i.val < 32) && (d.port (Fin.ofNat 32 i.val)).staleFrom.isSome) = b
  by_cases falls : d.steepSince x.fall = true ∧ b = false
  · obtain ⟨-, -, -, die'⟩ := y.changeState_first i.isLt (x.state - 1) (y.getI Reg.GV_TEMP i.val) (by rw [die]; exact quiet)
      (by rwa [only.get _ (by decide)])
    rw [if_pos falls, if_pos (by simp [falls])]
    rw [die']
    exact ⟨by rw [die]; rfl, rfl⟩
  · have stays : ¬ (!b && d.steepSince x.fall) = true := by
      intro h
      exact falls (by simpa [and_comm] using h)
    rw [if_neg falls, if_neg stays, die]
    exact ⟨rfl, rfl⟩

theorem exec_flapHoldEnd_due {i : Fin 33} {t top : Nat} (held : s.dev.gov.dies[i.val].hold = some (t, top)) (past : t ≤ s.dev.now)
    (quiet : s.dev.gov.dies[i.val].changes = []) (often : 1 < s.dev.get Reg.GV_FLAP_N) :
    Completes (.flapHoldEnd i) s fun d =>
      d.gov.dies[i.val].hold = none
        ∧ d.gov.dies[i.val].state = if s.dev.steepSince s.dev.gov.dies[i.val].fall = true
            ∧ (decide (i.val < 32) && (s.dev.port (Fin.ofNat 32 i.val)).staleFrom.isSome) = false
          then s.dev.gov.dies[i.val].state - 1 else s.dev.gov.dies[i.val].state := by
  refine .of_next (exec_flapHoldEnd held past) ?_
  have unheld := s.dev.unheld_die i quiet often
  rw [Dev.die_eq] at unheld
  generalize s.dev.unheld i.val s.dev.gov.dies[i.val] = y at *
  have dies : (if i.val = 32 then y.publishGates else y.actOnDie (Fin.ofNat 32 i.val) s.dev).gov.dies = y.gov.dies := by
    split
    · exact congrArg Governor.dies y.publishGates_facts.2.1
    · exact y.actOnDie_dies _ _
  rw [dies]
  exact unheld

end Sys2Proof.Machine
end

section
/-! The caddies of the concentrator's domains, trips and the bias limit (R356, R360, R362, R366, R367; O52). -/

namespace Sys2Proof.Machine

variable {d d' d'' : Dev} {s : State} {p : Port} {w : Writer} {val : Bytes}

/-! ### The domains' caddies (R356, R360) -/

theorem Dev.caddy_eq (d : Dev) (i : Fin 35) : d.caddy i.val = d.gov.caddies[i.val] := by
  unfold Dev.caddy
  simp [List.getD_eq_getElem?_getD]

theorem Dev.caddy_setCaddy (d : Dev) (i : Nat) {k : Nat} (hk : k < 35) (c : Caddy) :
    (d.setCaddy i c).caddy k = if k = i then c else d.caddy k := by
  rw [Dev.caddy_eq _ ⟨k, hk⟩, Dev.caddy_eq d ⟨k, hk⟩]
  unfold Dev.setCaddy
  exact Vector.getElem_ofFn _

theorem Dev.setCaddy_now_get (d : Dev) (i : Nat) (c : Caddy) :
    (d.setCaddy i c).now = d.now ∧ ∀ a e, (d.setCaddy i c).get a e = d.get a e := by
  unfold Dev.setCaddy
  -- the caddies written stay opaque
  generalize (Vector.ofFn fun k : Fin 35 => if k.val = i then c else d.gov.caddies[k]) = v
  exact ⟨rfl, fun _ _ => rfl⟩

/-- The caddy of domain `c` after an update: its balance moves by budget less power (R356, R360). -/
def Dev.domainCaddy (d : Dev) (c power : Nat) : Caddy :=
  let x := d.fillCaddy (d.caddy (32 + c)) (d.get Reg.GV_DOM_BUDGET c) power (d.get Reg.GV_DOM_DEPTH c)
  { x with empty := d.emptyAfter x (d.get Reg.GV_DOM_DEPTH c) }

/-- The caddy of a domain, its limit taken as a rational number. -/
theorem Dev.domainCaddy_eq (d : Dev) (c power : Nat) :
    d.domainCaddy c power =
      let lim : Rat := (d.get Reg.GV_DOM_DEPTH c * 1000 : Nat)
      let gain : Rat := (((d.get Reg.GV_DOM_BUDGET c : Int) - power) * 1024000 : Int) / ((d.get Reg.TB_FNOM : Nat) : Rat)
      let x := d.caddy (32 + c)
      let bal := max (-lim) (min lim (x.bal + gain))
      { bal := bal, at_ := d.now
        empty := if x.empty then !decide (lim * d.get Reg.GV_RESUME ≤ bal * 100) else decide (bal < 0) } := by
  unfold Dev.domainCaddy Dev.fillCaddy Dev.emptyAfter
  dsimp only
  rw [Nat.cast_mul (d.get Reg.GV_DOM_DEPTH c * 1000)]

/-- The objects a domain's update writes. -/
def domainObjects : List Nat := [Reg.GV_DOM_BAL, Reg.GV_DOM_POWER]

/-- `d'` is `d` but for the caddy of domain `c`, which stands at `x`, and what it shows, of a power drawn. -/
structure DomainUpdated (c power : Nat) (x : Caddy) (d d' : Dev) : Prop where
  now : d'.now = d.now
  caddy : ∀ k < 35, d'.caddy k = if k = 32 + c then x else d.caddy k
  get : ∀ a, a % 2 ^ 24 ∉ domainObjects → ∀ e, d'.get a e = d.get a e
  power : d'.get Reg.GV_DOM_POWER c = power
  others : ∀ k < 3, k ≠ c → d'.get Reg.GV_DOM_POWER k = d.get Reg.GV_DOM_POWER k

theorem Dev.log_domain {c power : Nat} {x : Caddy} (h : DomainUpdated c power x d d') (source code : Nat) (v1 v2 v3 : Int) :
    DomainUpdated c power x d (d'.log source code v1 v2 v3) := by
  obtain ⟨b, n, eq⟩ := d'.log_eq source code v1 v2 v3
  rw [eq]
  exact ⟨h.now, h.caddy, h.get, h.power, h.others⟩

/-- An update of a domain: its caddy and objects written, and a caddy that runs empty recorded (R363). -/
theorem Dev.updateDomain_eq (d : Dev) (c power : Nat) :
    d.updateDomain c power =
      if (d.domainCaddy c power).empty && !(d.caddy (32 + c)).empty then
        (((d.setCaddy (32 + c) (d.domainCaddy c power)).set Reg.GV_DOM_BAL c
          (unsgn (regBits Reg.GV_DOM_BAL) (d.domainCaddy c power).bal.floor)).set Reg.GV_DOM_POWER c power).log 0xFF 0x0803 (32 + c)
            (d.domainCaddy c power).bal.floor
      else ((d.setCaddy (32 + c) (d.domainCaddy c power)).set Reg.GV_DOM_BAL c
        (unsgn (regBits Reg.GV_DOM_BAL) (d.domainCaddy c power).bal.floor)).set Reg.GV_DOM_POWER c power := rfl

theorem Dev.updateDomain_updated (d : Dev) {c power : Nat} (hc : c < 3) (word : power < 2 ^ 32) :
    DomainUpdated c power (d.domainCaddy c power) d (d.updateDomain c power) := by
  have caddy (k : Nat) (hk : k < 35) := d.caddy_setCaddy (32 + c) hk (d.domainCaddy c power)
  obtain ⟨now, get⟩ := d.setCaddy_now_get (32 + c) (d.domainCaddy c power)
  have shown (v : Nat) (x : Dev) (now : x.now = d.now) (caddy : ∀ k < 35, x.caddy k = if k = 32 + c then d.domainCaddy c power else d.caddy k)
      (get : ∀ a e, x.get a e = d.get a e) :
      DomainUpdated c power (d.domainCaddy c power) d ((x.set Reg.GV_DOM_BAL c v).set Reg.GV_DOM_POWER c power) := by
    refine ⟨now, caddy, fun a ha e => ?_, ?_, fun k hk other => ?_⟩
    · simp only [domainObjects, List.mem_cons, not_or] at ha
      rw [Dev.get_set_addr _ ha.2.1, Dev.get_set_addr _ ha.1, get]
    · rw [Dev.get_set_same]
      exact Nat.mod_eq_of_lt word
    · rw [Dev.get_set_other _ _ _ _ _ _ (regKey_ne_of_elem (show k % 2 ^ 16 ≠ c % 2 ^ 16 by omega) _ _ _ _),
        Dev.get_set_addr _ (by decide), get]
  have written := shown (unsgn (regBits Reg.GV_DOM_BAL) (d.domainCaddy c power).bal.floor) _ now caddy get
  rw [d.updateDomain_eq]
  split
  · exact Dev.log_domain written _ _ _ _ _
  · exact written

/-- A domain's caddy is made of its own balance, and of objects no update writes. -/
theorem DomainUpdated.domainCaddy {c power : Nat} {x : Caddy} (h : DomainUpdated c power x d d') {k : Nat} (hk : k < 3) (other : k ≠ c)
    (power' : Nat) : d'.domainCaddy k power' = d.domainCaddy k power' := by
  unfold Dev.domainCaddy Dev.fillCaddy Dev.emptyAfter
  rw [h.caddy _ (by omega), if_neg (by omega), h.get Reg.GV_DOM_BUDGET (by decide), h.get Reg.GV_DOM_DEPTH (by decide),
    h.get Reg.TB_FNOM (by decide), h.get Reg.GV_RESUME (by decide), h.now]

/-- The three domains updated, one after the other. -/
theorem Dev.updateDomains_facts (d : Dev) (power : Fin 3 → BitVec 32) (c : Fin 3) :
    let d' := ((d.updateDomain 0 (power 0).toNat).updateDomain 1 (power 1).toNat).updateDomain 2 (power 2).toNat
    d'.caddy (32 + c.val) = d.domainCaddy c.val (power c).toNat ∧ d'.get Reg.GV_DOM_POWER c.val = (power c).toNat := by
  dsimp only
  have first := d.updateDomain_updated (c := 0) (by decide) (power 0).isLt
  generalize d.updateDomain 0 (power 0).toNat = x at *
  have second := x.updateDomain_updated (c := 1) (by decide) (power 1).isLt
  rw [first.domainCaddy (by decide) (by decide)] at second
  generalize x.updateDomain 1 (power 1).toNat = y at *
  have third := y.updateDomain_updated (c := 2) (by decide) (power 2).isLt
  rw [second.domainCaddy (by decide) (by decide), first.domainCaddy (by decide) (by decide)] at third
  generalize y.updateDomain 2 (power 2).toNat = z at *
  match c with
  | 0 =>
    refine ⟨?_, (third.others 0 (by decide) (by decide)).trans ((second.others 0 (by decide) (by decide)).trans first.power)⟩
    exact ((third.caddy 32 (by decide)).trans (second.caddy 32 (by decide))).trans (first.caddy 32 (by decide))
  | 1 =>
    refine ⟨?_, (third.others 1 (by decide) (by decide)).trans second.power⟩
    exact (third.caddy 33 (by decide)).trans (second.caddy 33 (by decide))
  | 2 => exact ⟨third.caddy 34 (by decide), third.power⟩

theorem exec_domainCaddyUpdate {logic serdes memory : BitVec 32} (runs : s.dev.inReset = false)
    (due : (s.dev.caddy 32).at_ + 1024 ≤ s.dev.now) :
    exec (.domainCaddyUpdate logic serdes memory) s = .next { s with dev :=
      (((s.dev.updateDomain 0 logic.toNat).updateDomain 1 serdes.toNat).updateDomain 2 memory.toNat).publishGates } := by
  change execDomainCaddyUpdate logic serdes memory s = _
  unfold execDomainCaddyUpdate State.on
  dsimp only
  rw [if_neg (by simp [runs, due])]

theorem Dev.caddy_of_gov (h : d'.gov = d.gov) (k : Nat) : d'.caddy k = d.caddy k := by
  unfold Dev.caddy; rw [h]

/-- Each domain's caddy moves by its budget less its power. -/
theorem exec_domainCaddyUpdate_due {logic serdes memory : BitVec 32} (runs : s.dev.inReset = false)
    (due : (s.dev.caddy 32).at_ + 1024 ≤ s.dev.now) :
    Completes (.domainCaddyUpdate logic serdes memory) s fun d =>
      ∀ c : Fin 3, d.caddy (32 + c.val) = s.dev.domainCaddy c.val (#v[logic, serdes, memory])[c].toNat
        ∧ d.get Reg.GV_DOM_POWER c.val = (#v[logic, serdes, memory])[c].toNat := by
  refine .of_next (exec_domainCaddyUpdate runs due) fun c => ?_
  have moved := s.dev.updateDomains_facts (fun c => (#v[logic, serdes, memory])[c]) c
  generalize hy : ((s.dev.updateDomain 0 logic.toNat).updateDomain 1 serdes.toNat).updateDomain 2 memory.toNat = y
  have moved' : y.caddy (32 + c.val) = s.dev.domainCaddy c.val (#v[logic, serdes, memory])[c].toNat
      ∧ y.get Reg.GV_DOM_POWER c.val = (#v[logic, serdes, memory])[c].toNat := by
    rw [← hy]; exact moved
  obtain ⟨-, gov, -, others, -⟩ := y.publishGates_facts
  exact ⟨(Dev.caddy_of_gov gov _).trans moved'.1, (others _ (by decide) _).trans moved'.2⟩

/-! ### Trips (R362, R367) -/

/-- `f'` has the trip of `f`, and its note of a fence that acted. -/
structure FrontEnd.TripKept (f f' : FrontEnd) : Prop where
  tripped : f'.tripped = f.tripped
  since : f'.tripFrom = f.tripFrom
  acted : f'.fenceActed = f.fenceActed

theorem FrontEnd.TripKept.refl (f : FrontEnd) : f.TripKept f := ⟨rfl, rfl, rfl⟩

theorem FrontEnd.TripKept.trans {f f' f'' : FrontEnd} (h : f.TripKept f') (h' : f'.TripKept f'') : f.TripKept f'' :=
  ⟨h'.tripped.trans h.tripped, h'.since.trans h.since, h'.acted.trans h.acted⟩

theorem FrontEnd.setChan_tripKept (f : FrontEnd) (c : Nat) (ch : Chan) : f.TripKept (f.setChan c ch) := ⟨rfl, rfl, rfl⟩

theorem FrontEnd.setRegion_tripKept (f : FrontEnd) (r : Nat) (g : Region) : f.TripKept (f.setRegion r g) := ⟨rfl, rfl, rfl⟩

theorem FrontEnd.setSampler_tripKept (f : FrontEnd) (e : Nat) (sm : Sampler) : f.TripKept (f.setSampler e sm) := ⟨rfl, rfl, rfl⟩

theorem FrontEnd.updFrame_tripKept (f : FrontEnd) (start : Nat) (g : FeFrame → FeFrame) : f.TripKept (f.updFrame start g) := ⟨rfl, rfl, rfl⟩

theorem FrontEnd.letGo_tripKept (f : FrontEnd) (now : Nat) (frames : List Nat) : f.TripKept (f.letGo now frames) :=
  forEach_keeps f.TripKept _ _ (fun _ _ y h => h.trans (y.updFrame_tripKept _ _)) f (.refl f)

theorem Dev.setFe_trip {f : FrontEnd} (h : (d.fe p).TripKept f) : (d.fe p).TripKept ((d.setFe p f).fe p) := by
  rwa [Dev.fe_setFe_same]

theorem DeadOnly.trip (h : DeadOnly p d d') : (d.fe p).TripKept (d'.fe p) := by
  obtain ⟨r, cs, fs, eq, -⟩ := h
  have fe : d'.fe p = { d.fe p with chans := cs, frames := fs } := by rw [eq]; exact Dev.fe_setFe_same _ _ _
  rw [fe]
  exact ⟨rfl, rfl, rfl⟩

theorem Dev.rearmTo_trip (d : Dev) (p : Port) (c t : Nat) : (d.fe p).TripKept ((d.rearmTo p c t).fe p) :=
  (d.settleDead_only p c t).trip.trans (Dev.setFe_trip (FrontEnd.setChan_tripKept _ _ _))

theorem Dev.cutPulse_trip (d : Dev) (p : Port) (c : Nat) : (d.fe p).TripKept ((d.cutPulse p c).fe p) := by
  unfold Dev.cutPulse
  dsimp only
  have cut (f : FrontEnd) (h : (d.fe p).TripKept f) (ch : Chan) : (d.fe p).TripKept ((d.setFe p (f.setChan c ch)).fe p) :=
    Dev.setFe_trip (h.trans (FrontEnd.setChan_tripKept _ _ _))
  have going : (d.fe p).TripKept (if ((d.fe p).chan c).st = .pulse then (d.fe p).letGo d.now [(d.fe p).pulsePlace c ((d.fe p).chan c)]
      else d.fe p) := by
    split
    · exact FrontEnd.letGo_tripKept _ _ _
    · exact .refl _
  split
  · exact (cut _ going _).trans (Dev.rearmTo_trip _ _ _ _)
  · exact cut _ going _

theorem Dev.leaveOff_trip (d : Dev) (p : Port) (r : Nat) : (d.fe p).TripKept ((d.leaveOff p r).fe p) := by
  unfold Dev.leaveOff
  dsimp only
  refine (forEach_keeps (fun x : Dev => (d.fe p).TripKept (x.fe p)) _ _ (fun c _ x h => ?_) d (.refl _)).trans (Dev.setFe_trip ?_)
  · rwa [Dev.fe_fset]
  · beta_reduce
    have unpaired (cs : List Nat) (f : FrontEnd) :
        f.TripKept (forEach cs (fun c f => f.setChan c { f.chan c with pairValid := false }) f) :=
      forEach_keeps f.TripKept _ _ (fun _ _ y h => h.trans (FrontEnd.setChan_tripKept _ _ _)) f (.refl f)
    refine forRange_keeps (FrontEnd.TripKept _) 4 _ (fun s _ y hy => hy.trans ?_) _ ?_
    · split
      · exact FrontEnd.setSampler_tripKept _ _ _
      · exact .refl _
    · exact (unpaired _ _).trans (FrontEnd.setRegion_tripKept _ _ _)

theorem Dev.levelReady_trip (d : Dev) (p : Port) (r l : Nat) : (d.fe p).TripKept ((d.levelReady p r l).fe p) := by
  have settled := (d.settleAll_only p (channelsOf r) (8 * d.now)).trip
  unfold Dev.levelReady
  split
  · exact forEach_keeps (fun x : Dev => (d.fe p).TripKept (x.fe p)) _ _ (fun c _ x h => h.trans (x.cutPulse_trip p c)) _ settled
  · exact settled

/-- A change of level leaves the trip. -/
theorem Dev.setLevel_trip (d : Dev) (p : Port) (r l : Nat) : (d.fe p).TripKept ((d.setLevel p r l).fe p) := by
  by_cases same : ((d.fe p).region r).level = l
  · rw [show d.setLevel p r l = d from if_pos same]
    exact .refl _
  · rw [d.setLevel_eq p r l same]
    have written : (d.fe p).TripKept (((d.levelReady p r l).writeLevel p r l).fe p) :=
      (d.levelReady_trip p r l).trans (Dev.setFe_trip (FrontEnd.setRegion_tripKept _ _ _))
    split
    · exact written.trans (Dev.leaveOff_trip _ _ _)
    · exact written

/-- The level of one region put under its cap. -/
def Dev.recapRegion (d : Dev) (p : Port) (r : Nat) : Dev :=
  if ((d.fe p).region r).level = 0 ∨ ((d.fe p).region r).level = d.regionCap p r ((d.fe p).region r).commanded then d
  else d.setLevel p r (d.regionCap p r ((d.fe p).region r).commanded)

theorem Dev.recap_eq (d : Dev) (p : Port) : d.recap p = forEach (List.range 256) (fun r d => d.recapRegion p r) d := rfl

theorem Dev.recapRegion_trip (d : Dev) (p : Port) (r : Nat) : (d.fe p).TripKept ((d.recapRegion p r).fe p) := by
  unfold Dev.recapRegion
  split
  · exact .refl _
  · exact d.setLevel_trip p r _

/-- The levels put under their caps leave the trip. -/
theorem Dev.recap_trip (d : Dev) (p : Port) : (d.fe p).TripKept ((d.recap p).fe p) := by
  rw [Dev.recap_eq]
  exact forEach_keeps (fun x : Dev => (d.fe p).TripKept (x.fe p)) _ _ (fun r _ x h => h.trans (x.recapRegion_trip p r)) d (.refl _)

theorem Dev.recapRegion_keeps (d : Dev) (p : Port) (r : Nat) : FeKeeps p (· ≠ r) d (d.recapRegion p r) := by
  unfold Dev.recapRegion
  split
  · exact .refl d
  · exact (d.setLevel_facts p r _).1

theorem Dev.regionCap_tripped (tripped : (d.fe p).tripped = true) (r l : Nat) : d.regionCap p r l ≤ 1 := by
  unfold Dev.regionCap
  rw [tripped]
  split
  · omega
  · exact Nat.min_le_right _ _

/-- The cap of a tripped front end's region is SENTINEL (R367). -/
theorem Dev.recapRegion_tripped (tripped : (d.fe p).tripped = true) (r : Nat) : (((d.recapRegion p r).fe p).region r).level ≤ 1 := by
  have cap := Dev.regionCap_tripped tripped r ((d.fe p).region r).commanded
  unfold Dev.recapRegion
  split
  · rename_i stays
    rcases stays with off | at_
    · omega
    · omega
  · exact (congrArg Prod.fst (d.setLevel_facts p r _).2).trans_le cap

theorem Dev.recap_tripped (tripped : (d.fe p).tripped = true) {r : Nat} (hr : r < 256) : (((d.recap p).fe p).region r).level ≤ 1 := by
  rw [Dev.recap_eq]
  refine forEach_once (I := fun x : Dev => (x.fe p).tripped = true) (Q := fun x : Dev => ((x.fe p).region r).level ≤ 1)
    List.nodup_range (List.mem_range.2 hr) (fun q _ x _ h => ?_) (fun _ h => Dev.recapRegion_tripped h r) (fun q _ x other h => ?_) tripped
  · exact (x.recapRegion_trip p q).tripped.trans h
  · exact (congrArg Prod.fst ((x.recapRegion_keeps p q).core (Ne.symm other))).trans_le h

theorem exec_feThermalTrip_hot {mean : BitVec 16} (runs : (s.dev.fe p).runs = true) (cool : (s.dev.fe p).tripped = false)
    (hot : 1200 ≤ mean.toInt) :
    Completes (.feThermalTrip p mean) s fun d =>
      (d.fe p).tripped = true ∧ (d.fe p).fenceActed = true ∧ ∀ r < 256, ((d.fe p).region r).level ≤ 1 := by
  have below : ¬ mean.toInt < tripAt := by unfold tripAt; omega
  refine .of_next (d := (s.dev.setFe p { s.dev.fe p with tripped := true, tripFrom := some s.dev.now, fenceActed := true }).recap p) ?_ ?_
  · change execFeThermalTrip p mean s = _
    unfold execFeThermalTrip State.on
    simp only [runs, cool, below, decide_false, Bool.not_true, Bool.or_self, if_neg Bool.false_ne_true]
  · have fe := s.dev.fe_setFe_same p { s.dev.fe p with tripped := true, tripFrom := some s.dev.now, fenceActed := true }
    have kept := (s.dev.setFe p { s.dev.fe p with tripped := true, tripFrom := some s.dev.now, fenceActed := true }).recap_trip p
    rw [fe] at kept
    refine ⟨kept.tripped, kept.acted, fun r hr => Dev.recap_tripped ?_ hr⟩
    rw [fe]

theorem exec_feTripRelease {mean : BitVec 16} {cool : BitVec 32} {t : Nat} (tripped : (s.dev.fe p).tripped = true)
    (since : (s.dev.fe p).tripFrom = some t) :
    exec (.feTripRelease p mean cool) s = .next { s with dev := (
      if mean.toInt < 1120 ∧ s.dev.ms 100 ≤ cool.toNat ∧ t + cool.toNat ≤ s.dev.now then
        (s.dev.setFe p { s.dev.fe p with tripped := false, tripFrom := none }).recap p
      else s.dev) } := by
  change execFeTripRelease p mean cool s = _
  unfold execFeTripRelease State.on
  have guard : (!(s.dev.fe p).tripped || decide (tripClear ≤ mean.toInt) || decide (cool.toNat < s.dev.ms 100)
        || decide (s.dev.now < (s.dev.fe p).tripFrom.getD 0 + cool.toNat)) = true
      ↔ ¬ (mean.toInt < 1120 ∧ s.dev.ms 100 ≤ cool.toNat ∧ t + cool.toNat ≤ s.dev.now) := by
    rw [tripped, since]
    generalize s.dev.ms 100 = m
    have warm : tripClear ≤ mean.toInt ↔ ¬ mean.toInt < 1120 := Int.not_lt.symm
    simp only [warm, Bool.or_eq_true, Bool.not_true, decide_eq_true_eq, Bool.false_eq_true, false_or, Option.getD_some]
    omega
  simp only [guard, ite_not]

theorem exec_feTripRelease_when {mean : BitVec 16} {cool : BitVec 32} {t : Nat} (tripped : (s.dev.fe p).tripped = true)
    (since : (s.dev.fe p).tripFrom = some t) :
    Completes (.feTripRelease p mean cool) s fun d =>
      if mean.toInt < 1120 ∧ s.dev.ms 100 ≤ cool.toNat ∧ t + cool.toNat ≤ s.dev.now then
        (d.fe p).tripped = false ∧ (d.fe p).tripFrom = none
      else d = s.dev := by
  refine .of_next (exec_feTripRelease tripped since) ?_
  by_cases released : mean.toInt < 1120 ∧ s.dev.ms 100 ≤ cool.toNat ∧ t + cool.toNat ≤ s.dev.now
  · rw [if_pos released, if_pos released]
    have kept := (s.dev.setFe p { s.dev.fe p with tripped := false, tripFrom := none }).recap_trip p
    rw [Dev.fe_setFe_same] at kept
    exact ⟨kept.tripped, kept.since⟩
  · rw [if_neg released, if_neg released]

/-! ### The bias limit (R366) -/

/-- What the dictionary says of the bias limit. -/
theorem fenceMax_row : objRow Reg.GV_FENCE_MAX = some ⟨Reg.GV_FENCE_MAX, .u8, .rw, 512, 3, 1, 3⟩ := by decide +kernel

theorem Dev.Admits.fenceMax_lt {e : Nat} (h : d.Admits w Reg.GV_FENCE_MAX e val) : beNat val < 2 ^ regBits Reg.GV_FENCE_MAX := by
  rw [regBits, fenceMax_row]
  exact valueCheck_lt (h.value fenceMax_row) (show ObjTy.u8.bytes ≠ 0 by decide)

/-- A write that is let through names an element of its object, or all of them. -/
theorem Dev.Admits.elem {a e : Nat} {r : ObjRow} (h : d.Admits w a e val) (row : objRow a = some r) : e < r.elems ∨ e = 0xFFFF := by
  unfold Dev.Admits Dev.gate at h
  rw [row] at h
  dsimp only at h
  unfold elemCheck at h
  by_cases inside : e < r.elems
  · exact .inl inside
  · by_cases all : e = 0xFFFF ∧ 1 < r.elems
    · exact .inr all.1
    · rw [if_neg inside, if_neg all] at h
      exact nomatch h

/-- The groups a write of the bias limit names. -/
def namedGroups (e : Nat) : List Nat := if e = 0xFFFF then List.range 512 else [e]

theorem mem_namedGroups {e k : Nat} (valid : e < 512 ∨ e = 0xFFFF) : k ∈ namedGroups e ↔ k < 512 ∧ (e = k ∨ e = 0xFFFF) := by
  unfold namedGroups
  split
  · simp; omega
  · simp; omega

/-- The bias limit of some groups written. -/
def Dev.setFences (d : Dev) (es : List Nat) (v : Nat) : Dev := forEach es (fun e d => d.set Reg.GV_FENCE_MAX e v) d

theorem Dev.get_setFences (d : Dev) {es : List Nat} (small : ∀ k ∈ es, k < 512) {v k : Nat} (hk : k < 512) :
    (d.setFences es v).get Reg.GV_FENCE_MAX k = if k ∈ es then v % 2 ^ regBits Reg.GV_FENCE_MAX else d.get Reg.GV_FENCE_MAX k := by
  have same : d.setFences es v = d.putEff Reg.GV_FENCE_MAX (es.map fun k => (k, 0, v)) := by
    simp [Dev.setFences, Dev.putEff, forEach, List.foldl_map]
  rw [same]
  exact d.get_putEff _ (fun _ => 0) (fun _ => v) es (fun k hk => by have := small k hk; omega) (by omega)

/-- What a write of the bias limit does that the dictionary lets through. -/
def Dev.putFence (e : Nat) (d : Dev) (v : Nat) : Status × Dev :=
  if d.mode ≠ .configure && (namedGroups e).any fun k => decide (d.get Reg.GV_FENCE_MAX k < v) then refuse .wrongMode d
  else (.accepted, forEach (namedGroups e) (fun k d => d.tellFes Reg.GV_FENCE_MAX k) (d.setFences (namedGroups e) v))

theorem exec_fenceBiasLimitWrite (w : Writer) (e : BitVec 16) (val : Bytes) (s : State) :
    exec (.fenceBiasLimitWrite w e val) s
      = .next { s with dev := s.dev.write w Reg.GV_FENCE_MAX e.toNat val (Dev.putFence e.toNat) } := rfl

theorem Dev.tellFes_portsSent (d : Dev) (a e : Nat) : PortsSent d (d.tellFes a e) := by
  unfold Dev.tellFes
  split
  · exact .refl d
  · exact forEach_portsSent _ _ (fun _ x => x.cfgQueue_portsSent _ _) d

theorem PortsSent.fes (h : PortsSent d d') : d'.fes = d.fes := by
  obtain ⟨_, _, _, rfl⟩ := h; rfl

@[simp] theorem Dev.answer_fes (d : Dev) (w : Writer) (st : Status) (value : Bytes) : (d.answer w st value).fes = d.fes := by
  obtain ⟨r, k, n, o, eq⟩ := d.answer_keeps w st value; rw [eq]

theorem Dev.setFences_fes (d : Dev) (es : List Nat) (v : Nat) : (d.setFences es v).fes = d.fes :=
  forEach_same (fun x : Dev => x.fes) es (fun e x => x.set Reg.GV_FENCE_MAX e v) (fun _ _ _ => rfl) d

/-- The front ends of a bias limit written stay as they are, until its message comes. -/
theorem Dev.putFence_fes (d : Dev) (e v : Nat) : (d.putFence e v).2.fes = d.fes := by
  unfold Dev.putFence
  split
  · rfl
  · exact (forEach_portsSent _ _ (fun _ x => x.tellFes_portsSent _ _) _).fes.trans (d.setFences_fes _ v)

/-- The limit is raised in CONFIGURE alone. -/
theorem Dev.putFence_raised {e v : Nat} (raised : d.mode ≠ .configure ∧ ∃ k ∈ namedGroups e, d.get Reg.GV_FENCE_MAX k < v) :
    d.putFence e v = (.wrongMode, d) := by
  refine if_pos ?_
  simpa using raised

/-- Otherwise the groups named take it. -/
theorem Dev.putFence_taken {e v : Nat} (valid : e < 512 ∨ e = 0xFFFF) (fits : v < 2 ^ regBits Reg.GV_FENCE_MAX)
    (open_ : ¬ (d.mode ≠ .configure ∧ ∃ k ∈ namedGroups e, d.get Reg.GV_FENCE_MAX k < v)) :
    (d.putFence e v).1 = .accepted ∧ ∀ k < 512, (d.putFence e v).2.get Reg.GV_FENCE_MAX k
      = if e = k ∨ e = 0xFFFF then v else d.get Reg.GV_FENCE_MAX k := by
  have free : d.putFence e v
      = (.accepted, forEach (namedGroups e) (fun k d => d.tellFes Reg.GV_FENCE_MAX k) (d.setFences (namedGroups e) v)) := by
    refine if_neg ?_
    simpa using open_
  rw [free]
  refine ⟨rfl, fun k hk => ?_⟩
  dsimp only
  rw [(forEach_portsSent _ _ (fun _ x => x.tellFes_portsSent _ _) _).get,
    d.get_setFences (fun k hk => ((mem_namedGroups valid).1 hk).1) hk, Nat.mod_eq_of_lt fits]
  simp only [mem_namedGroups valid, hk, true_and]

theorem Dev.get_answer_fenceMax (d : Dev) (w : Writer) (st : Status) (k : Nat) :
    (d.answer w st).get Reg.GV_FENCE_MAX k = d.get Reg.GV_FENCE_MAX k :=
  Dev.get_answer_addr _ (by decide) (by decide) (by decide) _ _ _ _

theorem exec_fenceBiasLimitWrite_outcome {e : BitVec 16} (admits : s.dev.Admits w Reg.GV_FENCE_MAX e.toNat val) :
    Completes (.fenceBiasLimitWrite w e val) s fun d =>
      let named := fun (k : Nat) => e.toNat = k ∨ e.toNat = 0xFFFF
      let raised := s.dev.mode ≠ .configure ∧ ∃ k < 512, named k ∧ s.dev.get Reg.GV_FENCE_MAX k < beNat val
      d.fes = s.dev.fes ∧ (raised → d.Answered w .wrongMode ∧ ∀ k < 512, d.get Reg.GV_FENCE_MAX k = s.dev.get Reg.GV_FENCE_MAX k)
        ∧ (¬ raised → d.Answered w .accepted ∧ (∀ k < 512, named k → d.get Reg.GV_FENCE_MAX k = beNat val)
          ∧ ∀ k < 512, ¬ named k → d.get Reg.GV_FENCE_MAX k = s.dev.get Reg.GV_FENCE_MAX k) := by
  have valid := admits.elem fenceMax_row
  refine .of_write (exec_fenceBiasLimitWrite w e val s) admits fun c => ?_
  intro named raised
  have kept : ({ s.dev with keeper := c } : Dev).fes = s.dev.fes := rfl
  have mode : ({ s.dev with keeper := c } : Dev).mode = s.dev.mode := rfl
  have get (k : Nat) : ({ s.dev with keeper := c } : Dev).get Reg.GV_FENCE_MAX k = s.dev.get Reg.GV_FENCE_MAX k := rfl
  generalize ({ s.dev with keeper := c } : Dev) = d at *
  have raises : raised ↔ d.mode ≠ .configure ∧ ∃ k ∈ namedGroups e.toNat, d.get Reg.GV_FENCE_MAX k < beNat val := by
    simp only [raised, named, mem_namedGroups valid, mode, get, and_assoc]
  refine ⟨?_, fun up => ?_, fun down => ?_⟩
  · rw [Dev.answer_fes, Dev.putFence_fes, kept]
  · rw [Dev.putFence_raised (raises.1 up)]
    exact ⟨Dev.answer_answered _ _ _, fun k _ => (Dev.get_answer_fenceMax _ _ _ _).trans (get k)⟩
  · obtain ⟨status, values⟩ := Dev.putFence_taken valid admits.fenceMax_lt fun h => down (raises.2 h)
    rw [status]
    refine ⟨Dev.answer_answered _ _ _, fun k hk here => ?_, fun k hk other => ?_⟩
    · rw [Dev.get_answer_fenceMax, values k hk, if_pos here]
    · rw [Dev.get_answer_fenceMax, values k hk, if_neg other, get]

end Sys2Proof.Machine

open Sys2Proof.Machine

/-- Settles O52: a lemma for each of its twelve parts. -/
theorem governorGrantsGatesAndFences : Obligations.GovernorGrantsGatesAndFences := by
  unfold Obligations.GovernorGrantsGatesAndFences
  intro hottest open_
  refine ⟨?_, ?_, ?_, ?_, ?_, ?_, ?_, ?_, ?_, ?_, ?_, ?_⟩
  · intro s p o raise g req dur next single allowed ahead idle
    obtain ⟨up, pend, none_, filled, cool, fence, rest, cost⟩ := allowed
    exact exec_precisionGrant_allowed next single up pend none_ filled cool fence rest cost ahead idle
  · intro s p o raise g next single up refuses
    exact exec_precisionGrant_refused next single up refuses
  · intro s p last groups late cancelled g start hold single mode next allowed
    obtain ⟨up, -, none_, filled, cool, fence, rest, cost⟩ := allowed
    exact exec_festatWakeReceive_allowed single mode next up none_ filled cool fence rest cost
  · exact fun s p pend => exec_raiseEnd_settled pend
  · exact fun s p l slot cycle up idle level => exec_biasRepeat_due slot cycle up idle level
  · intro s sensors t x temp twelve runs due fresh below hot since steep quiet often room logic memory
    exact exec_thermalEvaluation_critical twelve runs due fresh below hot since steep quiet often room logic memory
  · intro s sensors x temp twelve runs due fresh normal warm hot critical logic memory
    exact exec_thermalEvaluation_normal twelve runs due fresh normal warm hot critical logic memory
  · intro s i t top x stale held past quiet often
    exact exec_flapHoldEnd_due held past quiet often
  · intro s logic serdes memory runs due
    obtain ⟨t, next, kept, domains⟩ := exec_domainCaddyUpdate_due (logic := logic) (serdes := serdes) (memory := memory) runs due
    refine ⟨t, next, kept, fun c => ?_⟩
    have resumes := s.dev.domainCaddy_eq c.val (#v[logic, serdes, memory])[c].toNat
    exact ⟨(domains c).1.trans resumes, (domains c).2⟩
  · exact fun s p mean runs cool hot => exec_feThermalTrip_hot runs cool hot
  · exact fun s p mean cool t tripped since => exec_feTripRelease_when tripped since
  · intro s w e val admits
    exact exec_fenceBiasLimitWrite_outcome admits
end

section
/-! What the parts of a change of mode leave as it is (R29 to R32, R490 to R497; O59). -/

namespace Sys2Proof.Machine

variable {d d' d'' : Dev} {K : Prop}

/-! ### What is left -/

/-- What of the device says how it stands in its modes, its boot and the numbering of its baskets. -/
structure Standing where
  now : Nat
  mode : Mode
  modePend : Option ModePend
  modeFrom : Nat
  safeReason : Option Nat
  safeFrom : Nat
  draining : Bool
  step : Option Nat
  memDone : Bool
  clocksDone : Bool
  planSafe : Option Nat
  next : Nat
  formed : List (Nat × Nat × Nat)
  caches : Vector (List (Nat × Route)) 8
  gatedFrom : Nat

def Dev.standing (d : Dev) : Standing where
  now := d.now
  mode := d.mode
  modePend := d.modePend
  modeFrom := d.modeFrom
  safeReason := d.safeReason
  safeFrom := d.safeFrom
  draining := d.draining
  step := d.boot.step
  memDone := d.boot.memDone
  clocksDone := d.boot.clocksDone
  planSafe := d.boot.planSafe
  next := d.merge.next
  formed := d.merge.formed
  caches := d.merge.caches
  gatedFrom := d.mem.gatedFrom

/-- The objects that count changes of mode and tell the state of the memory's channels. -/
def steadyObjects : List Nat := [Reg.MD_CHANGES, Reg.MEM_CH_STATE, Reg.MEM_CH_SIZE]

/-- `d'` stands as `d`; where there was no window, or no raise but for windows, there is none; and, under `K`, the raises are
the same. -/
structure Steady (K : Prop) (d d' : Dev) : Prop where
  standing : d'.standing = d.standing
  windows : d.mem.windows = [] → d'.mem.windows = []
  windowed : (∀ r ∈ d.gov.raises, r.window = true) → ∀ r ∈ d'.gov.raises, r.window = true
  raises : K → d'.gov.raises = d.gov.raises
  get : ∀ a, a % 2 ^ 24 ∈ steadyObjects → ∀ e, d'.get a e = d.get a e
  recorded : ∀ source code, d.Recorded source code → d'.Recorded source code

theorem Steady.refl (d : Dev) : Steady K d d := ⟨rfl, id, id, fun _ => rfl, fun _ _ _ => rfl, fun _ _ => id⟩

theorem Steady.trans (h : Steady K d d') (h' : Steady K d' d'') : Steady K d d'' where
  standing := h'.standing.trans h.standing
  windows := fun none_ => h'.windows (h.windows none_)
  windowed := fun all => h'.windowed (h.windowed all)
  raises := fun k => (h'.raises k).trans (h.raises k)
  get := fun a ha e => (h'.get a ha e).trans (h.get a ha e)
  recorded := fun source code there => h'.recorded source code (h.recorded source code there)

theorem forEach_steady {α : Type} (l : List α) (f : α → Dev → Dev) (h : ∀ a d, Steady K d (f a d)) (d : Dev) :
    Steady K d (forEach l f d) :=
  forEach_keeps (Steady K d) l f (fun a _ d' hd => hd.trans (h a d')) d (.refl d)

theorem forRange_steady (n : Nat) (f : Nat → Dev → Dev) (h : ∀ i d, Steady K d (f i d)) (d : Dev) : Steady K d (forRange n f d) :=
  forRange_keeps (Steady K d) n f (fun i _ d' hd => hd.trans (h i d')) d (.refl d)

/-- What changes neither the memory, the governor, the objects nor the ledger. -/
theorem Steady.of_parts (standing : d'.standing = d.standing) (windows : d'.mem.windows = d.mem.windows)
    (raises : d'.gov.raises = d.gov.raises) (regs : d'.regs = d.regs) (ledger : d'.ledger = d.ledger) : Steady K d d' where
  standing := standing
  windows := fun none_ => windows.trans none_
  windowed := fun all => by rwa [raises]
  raises := fun _ => raises
  get := fun a _ e => Dev.get_of_regs regs a e
  recorded := fun source code => by unfold Dev.Recorded; rw [ledger]; exact id

/-! ### Writes, records, messages and answers -/

theorem Dev.set_steady {a : Nat} (other : a % 2 ^ 24 ∉ steadyObjects) (d : Dev) (e v : Nat) : Steady K d (d.set a e v) where
  standing := rfl
  windows := id
  windowed := id
  raises := fun _ => rfl
  get := fun _ hb e' => Dev.get_set_addr _ (fun same => other (same ▸ hb)) _ _ e'
  recorded := fun _ _ => id

theorem Dev.bump_steady {a : Nat} (other : a % 2 ^ 24 ∉ steadyObjects) (d : Dev) (e n : Nat) : Steady K d (d.bump a e n) :=
  Dev.set_steady other d e _

theorem Dev.log_steady (d : Dev) (source code : Nat) (v1 v2 v3 : Int) : Steady K d (d.log source code v1 v2 v3) := by
  have kept := fun a b => d.log_keeps source code v1 v2 v3 a b
  obtain ⟨b, n, eq⟩ := d.log_eq source code v1 v2 v3
  rw [eq] at kept ⊢
  exact ⟨rfl, id, id, fun _ => rfl, fun _ _ _ => rfl, kept⟩

theorem PortsSent.steady (h : PortsSent d d') : Steady K d d' := by
  obtain ⟨_, _, _, rfl⟩ := h
  exact .of_parts rfl rfl rfl rfl rfl

theorem TraceOnly.steady (h : TraceOnly d d') : Steady K d d' := by
  have get := h.get
  obtain ⟨_, _, _, rfl⟩ := h.only
  exact ⟨rfl, id, id, fun _ => rfl, fun a ha e => get a (by rintro same; rw [same] at ha; revert ha; decide) e, fun _ _ => id⟩

theorem Dev.answer_steady (d : Dev) (w : Writer) (st : Status) (value : Bytes) : Steady K d (d.answer w st value) := by
  have get (a : Nat) (ha : a % 2 ^ 24 ∈ steadyObjects) (e : Nat) : (d.answer w st value).get a e = d.get a e := by
    refine Dev.get_answer_addr _ ?_ ?_ ?_ _ _ _ _
    all_goals
      intro same
      rw [same] at ha
      revert ha
      decide
  obtain ⟨r, k, n, o, eq⟩ := d.answer_keeps w st value
  rw [eq] at get ⊢
  exact ⟨rfl, id, id, fun _ => rfl, get, fun _ _ => id⟩

/-! ### The memory's stalls (R320 to R323, R343) -/

/-- `d'` is `d` but for the memory, its objects and the ledger. -/
structure StallsOnly (d d' : Dev) : Prop where
  only : ∃ r m l a, d' = { d with regs := r, mem := m, ledger := l, aon := a }
  windows : d'.mem.windows = d.mem.windows
  gatedFrom : d'.mem.gatedFrom = d.mem.gatedFrom
  get : ∀ a, a % 2 ^ 24 ≠ Reg.MEM_RETIRED % 2 ^ 24 → a % 2 ^ 24 ≠ Reg.MEM_USABLE % 2 ^ 24 → ∀ e, d'.get a e = d.get a e
  recorded : ∀ source code, d.Recorded source code → d'.Recorded source code

theorem StallsOnly.refl (d : Dev) : StallsOnly d d := ⟨⟨_, _, _, _, rfl⟩, rfl, rfl, fun _ _ _ _ => rfl, fun _ _ => id⟩

theorem StallsOnly.trans (h : StallsOnly d d') (h' : StallsOnly d' d'') : StallsOnly d d'' where
  only := by
    obtain ⟨_, _, _, _, rfl⟩ := h.only
    obtain ⟨_, _, _, _, rfl⟩ := h'.only
    exact ⟨_, _, _, _, rfl⟩
  windows := h'.windows.trans h.windows
  gatedFrom := h'.gatedFrom.trans h.gatedFrom
  get := fun a h1 h2 e => (h'.get a h1 h2 e).trans (h.get a h1 h2 e)
  recorded := fun source code there => h'.recorded source code (h.recorded source code there)

theorem forEach_stallsOnly {α : Type} (l : List α) (f : α → Dev → Dev) (h : ∀ a d, StallsOnly d (f a d)) (d : Dev) :
    StallsOnly d (forEach l f d) :=
  forEach_keeps (StallsOnly d) l f (fun a _ d' hd => hd.trans (h a d')) d (.refl d)

theorem forRange_stallsOnly (n : Nat) (f : Nat → Dev → Dev) (h : ∀ i d, StallsOnly d (f i d)) (d : Dev) : StallsOnly d (forRange n f d) :=
  forRange_keeps (StallsOnly d) n f (fun i _ d' hd => hd.trans (h i d')) d (.refl d)

theorem StallsOnly.merge (h : StallsOnly d d') : d'.merge = d.merge := by obtain ⟨_, _, _, _, rfl⟩ := h.only; rfl

theorem StallsOnly.draining (h : StallsOnly d d') : d'.draining = d.draining := by obtain ⟨_, _, _, _, rfl⟩ := h.only; rfl

theorem StallsOnly.steady (h : StallsOnly d d') : Steady K d d' := by
  obtain ⟨only, windows, gatedFrom, get, recorded⟩ := h
  have own (a : Nat) (ha : a % 2 ^ 24 ∈ steadyObjects) (e : Nat) : d'.get a e = d.get a e := by
    refine get a ?_ ?_ e
    all_goals
      intro same
      rw [same] at ha
      revert ha
      decide
  obtain ⟨_, _, _, _, rfl⟩ := only
  refine ⟨?_, fun none_ => windows.trans none_, id, fun _ => rfl, own, recorded⟩
  unfold Dev.standing
  rw [gatedFrom]

/-- A memory whose windows and trigger boundary are those of `d`. -/
theorem Dev.withMem_stallsOnly (d : Dev) {m : Memory} (windows : m.windows = d.mem.windows) (gatedFrom : m.gatedFrom = d.mem.gatedFrom) :
    StallsOnly d { d with mem := m } :=
  ⟨⟨_, _, _, _, rfl⟩, windows, gatedFrom, fun _ _ _ _ => rfl, fun _ _ => id⟩

theorem Dev.setStall_stallsOnly (d : Dev) (k : Nat) (x : Stall) : StallsOnly d { d with mem := d.mem.setStall k x } :=
  d.withMem_stallsOnly rfl rfl

theorem Dev.log_stallsOnly (d : Dev) (source code : Nat) (v1 v2 v3 : Int) : StallsOnly d (d.log source code v1 v2 v3) := by
  have kept := fun a b => d.log_keeps source code v1 v2 v3 a b
  obtain ⟨b, n, eq⟩ := d.log_eq source code v1 v2 v3
  rw [eq] at kept ⊢
  exact ⟨⟨_, _, _, _, rfl⟩, rfl, rfl, fun _ _ _ _ => rfl, kept⟩

theorem Dev.retireFreed_stallsOnly (d : Dev) (b : Nat) : StallsOnly d (d.retireFreed b) := by
  have counted (x : Dev) : StallsOnly x (x.bump Reg.MEM_RETIRED) :=
    ⟨⟨_, _, _, _, rfl⟩, rfl, rfl, fun a h1 _ e => Dev.get_bump_addr _ h1 _ _ _, fun _ _ => id⟩
  have shown (x : Dev) (v : Nat) : StallsOnly x (x.set Reg.MEM_USABLE 0 v) :=
    ⟨⟨_, _, _, _, rfl⟩, rfl, rfl, fun a _ h2 e => Dev.get_set_addr _ h2 _ _ _, fun _ _ => id⟩
  unfold Dev.retireFreed
  split
  · exact (((d.withMem_stallsOnly (by rfl) (by rfl)).trans (counted _)).trans (Dev.log_stallsOnly _ _ _ _ _ _)).trans (shown _ _)
  · exact .refl d

theorem Dev.allotBlock_stallsOnly (d : Dev) (k : Nat) (avoid : Option Nat) : StallsOnly d (d.allotBlock k avoid) := by
  unfold Dev.allotBlock
  dsimp only
  split
  · exact d.withMem_stallsOnly rfl rfl
  · exact .refl d

theorem Dev.clearOver_stallsOnly (d : Dev) (k : Nat) : StallsOnly d (d.clearOver k) := by
  unfold Dev.clearOver
  split
  · exact d.withMem_stallsOnly rfl rfl
  · exact .refl d

theorem Dev.syncRing_stallsOnly (d : Dev) (k : Nat) : StallsOnly d (d.syncRing k) := by
  unfold Dev.syncRing
  extract_lets x need held d₁
  have cut : StallsOnly d d₁ := d.setStall_stallsOnly k _
  clear_value need held d₁
  split
  · exact forRange_stallsOnly _ _ (fun _ y => y.allotBlock_stallsOnly k none) d
  · exact cut.trans (forEach_stallsOnly _ _ (fun _ y => y.retireFreed_stallsOnly _) _)

theorem Dev.syncStall_stallsOnly (d : Dev) (k : Nat) : StallsOnly d (d.syncStall k) := by
  unfold Dev.syncStall
  dsimp only
  split
  · exact (d.clearOver_stallsOnly k).trans (Dev.syncRing_stallsOnly _ k)
  · exact d.clearOver_stallsOnly k

theorem Dev.syncStalls_stallsOnly (d : Dev) : StallsOnly d d.syncStalls :=
  forEach_stallsOnly (List.range 64) (fun k d => d.syncStall k) (fun k x => x.syncStall_stallsOnly k) d

theorem Dev.freeRun_stallsOnly (d : Dev) (k b n : Nat) : StallsOnly d (d.freeRun k b n) := by
  unfold Dev.freeRun
  dsimp only
  split
  · exact d.withMem_stallsOnly rfl rfl
  · exact (d.withMem_stallsOnly (by rfl) (by rfl)).trans (Dev.retireFreed_stallsOnly _ b)

theorem Dev.dropHomes_stallsOnly (d : Dev) (b : Basket) : StallsOnly d (d.dropHomes b) :=
  (forEach_stallsOnly _ _ (fun _ x => x.freeRun_stallsOnly _ _ _) d).trans (forEach_stallsOnly _ _ (fun _ x => x.freeRun_stallsOnly _ _ _) _)

/-! ### Baskets and the snapshot ring -/

theorem Dev.setRing_steady (d : Dev) (r : List RingEntry) : Steady K d (d.setRing r) := by
  have held : Steady K d { d with merge := { d.merge with ring := r } } := .of_parts rfl rfl rfl rfl rfl
  exact (held.trans (Dev.set_steady (by decide) _ 0 _)).trans (Dev.syncStall_stallsOnly _ 0).steady

theorem Dev.setRing_ring (d : Dev) (r : List RingEntry) : (d.setRing r).merge.ring = r :=
  congrArg Merge.ring (Dev.syncStall_stallsOnly _ 0).merge

theorem Dev.decideFrame_steady (d : Dev) (key : Nat) (sel : Bool) : Steady K d (d.decideFrame key sel) := by
  unfold Dev.decideFrame
  extract_lets frames ring
  have decided : Steady K d { d with merge := { d.merge with frames := frames } } := .of_parts rfl rfl rfl rfl rfl
  exact decided.trans (Dev.setRing_steady _ ring)

theorem Dev.freeBasket_steady (d : Dev) (n : Nat) : Steady K d (d.freeBasket n) := by
  unfold Dev.freeBasket
  extract_lets d₁
  have freed : Steady K d d₁ := by
    unfold d₁
    split
    · exact (d.dropHomes_stallsOnly _).steady
    · exact .refl d
  clear_value d₁
  have gone : Steady K d₁ { d₁ with merge := { d₁.merge with baskets := d₁.merge.baskets.filter fun b => b.num != n } } :=
    .of_parts rfl rfl rfl rfl rfl
  exact (freed.trans gone).trans (Dev.syncStalls_stallsOnly _).steady

theorem Dev.expire_steady (d : Dev) (b : Basket) : Steady K d (d.expire b) :=
  ((d.decideFrame_steady _ false).trans (Dev.bump_steady (by decide) _ 0 1)).trans (Dev.freeBasket_steady _ b.num)

theorem Dev.dropWindows_steady (d : Dev) : Steady K d d.dropWindows := by
  unfold Dev.dropWindows
  split
  · exact .refl d
  · have dropped : Steady K d { d with mem := { d.mem with windows := [] } } :=
      ⟨rfl, fun _ => rfl, id, fun _ => rfl, fun _ _ _ => rfl, fun _ _ => id⟩
    exact dropped.trans (Dev.set_steady (by decide) _ 0 0)

/-! ### Ports -/

theorem Dev.sweepDrop_steady (d : Dev) (p : Port) : Steady K d (d.sweepDrop p) := .of_parts rfl rfl rfl rfl rfl

theorem Dev.leaveBaskets_steady (d : Dev) (p : Port) : Steady K d (d.leaveBaskets p) := by
  unfold Dev.leaveBaskets
  extract_lets waits n mark
  have marked : Steady K d { d with merge := { d.merge with baskets := d.merge.baskets.map mark } } := .of_parts rfl rfl rfl rfl rfl
  exact marked.trans (Dev.bump_steady (by decide) _ _ _)

theorem Dev.dropRequests_steady (d : Dev) (p : Port) : Steady K d (d.dropRequests p) := by
  unfold Dev.dropRequests
  extract_lets begun asked part gone d₁
  have told : Steady K d d₁ := (d.setPort_portsSent p _).steady
  exact (told.trans (forEach_steady gone _ (fun w x => x.answer_steady w .portDown []) d₁)).trans (Dev.sweepDrop_steady _ p)

theorem Dev.setPortState_steady (d : Dev) (p : Port) (st : Nat) : Steady K d (d.setPortState p st) := by
  have put : Steady K d (d.set Reg.WP_STATE p.val st) := Dev.set_steady (by decide) d _ _
  unfold Dev.setPortState
  dsimp only
  split
  · exact (put.trans (Dev.leaveBaskets_steady _ p)).trans (Dev.dropRequests_steady _ p)
  · exact put

theorem Dev.startTraining_steady (d : Dev) (p : Port) : Steady K d (d.startTraining p) := by
  unfold Dev.startTraining
  split
  · exact .refl d
  · exact (d.setPortState_steady p 1).trans (Dev.setPort_portsSent _ p _).steady

theorem Dev.joinGrid_portsSent (d : Dev) (p : Port) : PortsSent d (d.joinGrid p) := by
  unfold Dev.joinGrid
  extract_lets waits d₁
  have joined : PortsSent d d₁ := by
    unfold d₁
    split
    · split
      · exact .refl d
      · exact d.fcmd_portsSent p _ _ _ _
    · exact .refl d
  clear_value d₁
  split
  · split
    · exact joined
    · exact joined.trans (d₁.fcmd_portsSent p _ _ _ _)
  · exact joined

theorem Dev.linkRefresh_steady (d : Dev) (p : Port) : Steady K d (d.linkRefresh p) := by
  unfold Dev.linkRefresh
  extract_lets c m w lanes dls w₁ w₂ d₁ st carried lost d₂
  have shown : Steady K d d₁ := Dev.set_steady (by decide) d _ _
  have up : Steady K d d₂ := shown.trans (Dev.setPortState_steady _ p _)
  clear_value d₁ d₂
  split
  · exact shown
  · split
    · split
      · exact up
      · exact ((up.trans (Dev.set_steady (by decide) _ _ _)).trans (Dev.setPort_portsSent _ p _).steady).trans
          (Dev.joinGrid_portsSent _ p).steady
    · split
      · exact shown.trans (Dev.setPortState_steady _ p 1)
      · exact shown

theorem Dev.idlePort_steady (d : Dev) (p : Port) : Steady K d (d.idlePort p) := by
  unfold Dev.idlePort
  split
  · exact .refl d
  · exact ((d.setPort_portsSent p _).steady.trans (Dev.setPortState_steady _ p 6)).trans (Dev.linkRefresh_steady _ p)

theorem Dev.leadCheck_steady (d : Dev) (p : Port) : Steady K d (d.leadCheck p) := by
  unfold Dev.leadCheck
  split
  · exact .refl d
  · extract_lets short d₁
    have shown : Steady K d d₁ := Dev.set_steady (by decide) d _ _
    split
    · exact shown.trans (Dev.bump_steady (by decide) _ _ _)
    · exact shown

theorem Dev.regate_portsSent (d : Dev) (p : Port) (old : Dev) : PortsSent d (d.regate p old) := by
  unfold Dev.regate
  extract_lets t cs
  split
  · exact (d.biasAll_portsSent p false cs).trans (Dev.rebias_portsSent _ p t false)
  · exact .refl d

theorem Dev.restGroups_steady (d : Dev) (old : Mode) : Steady K d (d.restGroups old) :=
  (forEach_portsSent allPorts (fun p d => d.regate p { d with mode := old }) (fun p x => x.regate_portsSent p _) d).steady

theorem Dev.downBackEnd_steady (d : Dev) : Steady K d d.downBackEnd := by
  refine forRange_steady 8 _ (fun b x => ?_) d
  split
  · exact .refl x
  · exact Dev.set_steady (by decide) x _ _

theorem Dev.linkTests_portsSent (d : Dev) : PortsSent d d.linkTests := by
  refine forEach_portsSent _ _ (fun p x => ?_) d
  dsimp only
  split
  · exact x.setPort_portsSent p _
  · exact (x.setPort_portsSent p _).trans (forEach_portsSent _ _ (fun _ y => y.emit_portsSent _) _)

theorem Dev.backEndTests_steady (d : Dev) : Steady K d d.backEndTests := by
  unfold Dev.backEndTests
  extract_lets code bits d₁
  have reset : Steady K d d₁ := .of_parts rfl rfl rfl rfl rfl
  split
  · exact reset
  · exact reset.trans (forRange_steady 8 _ (fun b x => forRange_steady _ _ (fun k y => (y.emit_portsSent _).steady) x) d₁)

theorem Dev.enterLoopback_steady (d : Dev) : Steady K d d.enterLoopback :=
  (((forEach_steady allPorts _ (fun p x => x.idlePort_steady p) d).trans (Dev.linkTests_portsSent _).steady).trans
    (Dev.downBackEnd_steady _)).trans (Dev.backEndTests_steady _)

end Sys2Proof.Machine
end

section
/-! The change of mode (R29 to R32, R490 to R493; O59). -/

namespace Sys2Proof.Machine

variable {d d' x : Dev} {K : Prop} {m : Mode} {t : Nat}

/-! ### Raises, gates and jobs -/

theorem Dev.payScrub_steady (d : Dev) : Steady K d d.payScrub := .of_parts rfl rfl rfl rfl rfl

theorem Dev.endScrub_steady (d : Dev) : Steady K d d.endScrub := by
  unfold Dev.endScrub
  extract_lets d₁
  have paid : Steady K d d₁ := d.payScrub_steady
  clear_value d₁
  have ended : Steady K d₁ { d₁ with mem := { d₁.mem with scrubUntil := none } } := .of_parts rfl rfl rfl rfl rfl
  exact (paid.trans ended).trans (Dev.set_steady (by decide) _ 0 _)

theorem Dev.publishGates_steady (d : Dev) : Steady K d d.publishGates := by
  unfold Dev.publishGates
  extract_lets d₁ st hold status was gates held sched d₂ d₃ d₄ t d₅ mem
  have paid : Steady K d d₁ := d.payScrub_steady
  have gated : Steady K d₁ d₂ := .of_parts rfl rfl rfl rfl rfl
  have shown : Steady K d₂ d₃ :=
    ((Dev.set_steady (by decide) d₂ 0 _).trans (Dev.set_steady (by decide) _ 0 status)).trans (Dev.set_steady (by decide) _ 0 _)
  have traced : Steady K d₃ d₄ := by
    unfold d₄
    split
    · exact .refl d₃
    · exact (d₃.traceEvent_traceOnly _ _ _ _ _ _ _).steady
  have all : Steady K d d₅ := (((paid.trans gated).trans shown).trans traced).trans (Dev.set_steady (by decide) d₄ 0 t)
  clear_value d₅
  split
  · exact all.trans (.of_parts rfl rfl rfl rfl rfl)
  · split
    · exact all.trans (.of_parts rfl rfl rfl rfl rfl)
    · exact all

theorem Dev.setCaddy_steady (d : Dev) (i : Nat) (c : Caddy) : Steady K d (d.setCaddy i c) := by
  unfold Dev.setCaddy
  -- the caddies written stay opaque
  generalize (Vector.ofFn fun k : Fin 35 => if k.val = i then c else d.gov.caddies[k]) = v
  exact .of_parts rfl rfl rfl rfl rfl

theorem Dev.fillCaddies_steady (d : Dev) : Steady K d d.fillCaddies := by
  unfold Dev.fillCaddies
  extract_lets d₁
  have ports : Steady K d d₁ := forEach_steady allPorts _ (fun p x => ((x.setCaddy_steady _ _).trans (Dev.set_steady (by decide) _ _ _)).trans
    (Dev.set_steady (by decide) _ _ _)) d
  clear_value d₁
  exact (ports.trans (forRange_steady 3 _ (fun c x => (x.setCaddy_steady _ _).trans (Dev.set_steady (by decide) _ _ _)) d₁)).trans
    (Dev.publishGates_steady _)

theorem Dev.traceJob_steady (d : Dev) (event core : Nat) (j : Job) (detail : Nat) : Steady K d (d.traceJob event core j detail) := by
  unfold Dev.traceJob
  split
  · exact (d.traceEntry_traceOnly _).steady
  · exact .refl d

theorem Dev.failItem_steady (d : Dev) (j : Job) : Steady K d (d.failItem j) := by
  unfold Dev.failItem
  split
  · split
    · exact d.answer_steady _ _ _
    · exact .refl d
  · exact .refl d

theorem Dev.loseJobs_steady (d : Dev) (js : List Job) : Steady K d (d.loseJobs js) :=
  forEach_steady js _ (fun j x => ((Dev.bump_steady (by decide) x 0 1).trans (Dev.traceJob_steady _ _ _ _ _)).trans (Dev.failItem_steady _ j)) d

/-! ### Movements of the grid -/

theorem moveRaise_window {e new : Nat} {r r' : Raise} (moved : moveRaise e new r = some r') (window : r.window = true) :
    r'.window = true := by
  unfold moveRaise at moved
  split at moved
  · cases moved
    exact window
  · split at moved
    · cases moved
      exact window
    · split at moved
      · cases moved
        exact window
      · exact nomatch moved

theorem Dev.regrid_steady (d old : Dev) (k : Nat) : Steady False d (d.regrid old k) := by
  unfold Dev.regrid
  extract_lets e new gov moved
  have raises : Steady False d moved := by
    refine ⟨rfl, id, fun all r there => ?_, False.elim, fun _ _ _ => rfl, fun _ _ => id⟩
    obtain ⟨r₀, own, from_⟩ := List.mem_filterMap.1 there
    exact moveRaise_window from_ (all r₀ own)
  refine raises.trans (forEach_portsSent _ _ (fun p d => ?_) moved).steady
  exact (d.setPort_portsSent p _).trans (Dev.rebias_portsSent _ p _ true)

theorem Dev.dropMove_steady (d : Dev) : Steady False d d.dropMove := by
  unfold Dev.dropMove
  split
  · exact .of_parts rfl rfl rfl rfl rfl
  · extract_lets sent grid gone dropped
    have left : Steady False d gone := .of_parts rfl rfl rfl rfl rfl
    have told : Steady False d dropped :=
      left.trans (forEach_portsSent _ _ (fun p d => d.setPort_portsSent p _) gone).steady
    exact told.trans (dropped.regrid_steady d _)

theorem Dev.moveGrid_steady (d : Dev) (g : GridMove) : Steady False d (d.moveGrid g) := by
  unfold Dev.moveGrid
  extract_lets old grid moved
  have begun : Steady False d moved := d.dropMove_steady.trans (.of_parts rfl rfl rfl rfl rfl)
  split
  · exact begun
  · extract_lets regridded
    have placed : Steady False d regridded := begun.trans (moved.regrid_steady old _)
    split
    · exact placed
    · exact placed.trans (forEach_portsSent allPorts (fun p d => d.tellCycleEnd p _ _) (fun p d => d.tellCycleEnd_portsSent p _ _)
        regridded).steady

theorem Dev.alignSynth_steady (d : Dev) : Steady False d d.alignSynth := by
  unfold Dev.alignSynth
  split
  · exact .refl d
  · exact d.moveGrid_steady _

theorem Dev.startAligning_steady (d : Dev) : Steady False d d.startAligning := by
  unfold Dev.startAligning
  extract_lets src x tb
  have dropped : Steady False d x := d.dropMove_steady
  clear_value x
  split
  · exact .refl d
  · exact dropped.trans (.of_parts rfl rfl rfl rfl rfl)

/-! ### CONFIGURE (R487, R489) -/

/-- The device out of its boot or its SAFE. -/
def Dev.configured (d : Dev) : Dev := { d with boot := { d.boot with step := none }, safeReason := none, draining := false }

theorem Steady.configured (h : Steady K d x) (exit : Bool) :
    Steady K d.configured { x with boot := { x.boot with step := none, exitSafe := exit }, safeReason := none, draining := false } := by
  refine ⟨?_, h.windows, h.windowed, h.raises, h.get, h.recorded⟩
  have standing := h.standing
  unfold Dev.standing Dev.configured at *
  simp only [Standing.mk.injEq] at standing ⊢
  obtain ⟨now, mode, modePend, modeFrom, -, safeFrom, -, -, rest⟩ := standing
  exact ⟨now, mode, modePend, modeFrom, trivial, safeFrom, trivial, trivial, rest⟩

theorem Dev.enterConfigure_steady (d : Dev) (old : Mode) : Steady False d.configured (d.enterConfigure old) := by
  unfold Dev.enterConfigure
  extract_lets held d₁ d₂ boot d₃
  have emptied : Steady False d d₁ := ((forEach_steady held _ (fun b x => x.expire_steady b) d).trans (Dev.dropWindows_steady _)).trans
    (Dev.fillCaddies_steady _)
  have aligned : Steady False d d₂ := by
    unfold d₂
    split
    · exact emptied.trans d₁.alignSynth_steady
    · exact emptied.trans d₁.startAligning_steady
  clear_value d₁ d₂
  have open_ : Steady False d.configured d₃ := aligned.configured false
  clear_value d₃
  split
  · exact open_.trans (.of_parts rfl rfl rfl rfl rfl)
  · exact open_

/-! ### SAFE (R489, R492, R493) -/

/-- The device as it drains. -/
def Dev.safed (d : Dev) : Dev :=
  { d with safeReason := some (d.safeReason.getD 0x14), safeFrom := d.now, draining := true
           boot := { d.boot with step := none, planSafe := none }, mem := { d.mem with windows := [] } }

theorem Dev.failStart_steady (d : Dev) (reason : Nat) : Steady K d (d.failStart reason) := by
  unfold Dev.failStart
  extract_lets boot aon d₁
  have failed : Steady K d d₁ := .of_parts rfl rfl rfl rfl rfl
  exact failed.trans (Dev.log_steady _ _ _ _ _ _)

theorem Dev.enterSafe_steady (d : Dev) : Steady K d.safed d.enterSafe := by
  unfold Dev.enterSafe
  extract_lets reason d₁ held selected d₂ d₃ d₄ spilled noWait boot merge mem sched em keeper d₅ d₆ d₇
  have failed : Steady K d d₁ := by
    unfold d₁
    split
    · exact d.failStart_steady reason
    · exact .refl d
  have freed : Steady K d d₂ := failed.trans (forEach_steady held _ (fun b x => x.expire_steady b) d₁)
  have told : Steady K d d₃ := freed.trans (d₂.log_steady _ _ _ _ _)
  have paused : Steady K d d₄ := by
    refine told.trans ?_
    unfold d₄
    split
    · exact Dev.bump_steady (by decide) d₃ 0 _
    · exact .refl d₃
  clear_value d₁ d₂ d₃ d₄
  have drains : Steady K d.safed d₅ := by
    refine ⟨?_, fun _ => rfl, paused.windowed, paused.raises, paused.get, paused.recorded⟩
    have standing := paused.standing
    unfold d₅ Dev.standing Dev.safed at *
    simp only [Standing.mk.injEq] at standing ⊢
    obtain ⟨now, mode, modePend, modeFrom, -, -, -, -, memDone, clocksDone, -, rest⟩ := standing
    exact ⟨now, mode, modePend, modeFrom, rfl, now, trivial, trivial, memDone, clocksDone, trivial, rest⟩
  clear_value d₅
  have lost : Steady K d.safed d₆ := ((drains.trans (Dev.set_steady (by decide) d₅ 0 0)).trans (Dev.set_steady (by decide) _ 0 0)).trans
    (Dev.loseJobs_steady _ spilled)
  have idle : Steady K d.safed d₇ :=
    lost.trans (forEach_steady allPorts _ (fun p x => (x.sweepDrop_steady p).trans (Dev.idlePort_steady _ p)) d₆)
  clear_value d₆ d₇
  exact (idle.trans (d₇.setRing_steady [])).trans (Dev.syncStalls_stallsOnly _).steady

theorem Dev.enterSafe_ring (d : Dev) : d.enterSafe.merge.ring = [] := by
  obtain ⟨x, eq⟩ : ∃ x : Dev, d.enterSafe = (x.setRing []).syncStalls := ⟨_, rfl⟩
  rw [eq]
  exact (congrArg Merge.ring (Dev.syncStalls_stallsOnly _).merge).trans (Dev.setRing_ring _ [])

end Sys2Proof.Machine
end

section
/-! MODE_CHANGE (R29 to R32, R490 to R493; O59). -/

namespace Sys2Proof.Machine

variable {d d' x y : Dev} {K : Prop} {m : Mode} {t : Nat} {reason : Option Nat} {s : State}

/-! ### What a change of mode takes -/

theorem Steady.fields (h : Steady K d x) : x.now = d.now ∧ x.mode = d.mode ∧ x.modePend = d.modePend ∧ x.modeFrom = d.modeFrom
    ∧ x.safeReason = d.safeReason ∧ x.safeFrom = d.safeFrom ∧ x.draining = d.draining ∧ x.boot.step = d.boot.step
    ∧ x.merge.next = d.merge.next ∧ x.merge.formed = d.merge.formed ∧ x.merge.caches = d.merge.caches
    ∧ x.mem.gatedFrom = d.mem.gatedFrom := by
  have standing := h.standing
  unfold Dev.standing at standing
  simp only [Standing.mk.injEq] at standing
  obtain ⟨now, mode, modePend, modeFrom, safeReason, safeFrom, draining, step, -, -, -, next, formed, caches, gatedFrom⟩ := standing
  exact ⟨now, mode, modePend, modeFrom, safeReason, safeFrom, draining, step, next, formed, caches, gatedFrom⟩

theorem Steady.mono {K' : Prop} (h : Steady K d x) (weaker : K' → K) : Steady K' d x :=
  { h with raises := fun k => h.raises (weaker k) }

/-- The raises that stand through the boundary `t`: those for windows of the new mode (R37). -/
def Dev.raisesFrom (d : Dev) (t : Nat) : List Raise := d.gov.raises.filter fun r => r.window && decide (t ≤ r.start)

/-- `x` has taken the mode `m` at `t`, counted the change, and from `d` keeps no more raises than a change of mode leaves. -/
structure ModeBegun (d : Dev) (m : Mode) (t : Nat) (reason : Option Nat) (x : Dev) : Prop where
  now : x.now = d.now
  mode : x.mode = m
  modePend : x.modePend = none
  modeFrom : x.modeFrom = t
  safeReason : x.safeReason = reason
  windowed : ∀ r ∈ x.gov.raises, r.window = true
  raises : m ≠ .configure → x.gov.raises = d.raisesFrom t
  changes : x.get Reg.MD_CHANGES = min (d.get Reg.MD_CHANGES + 1) (2 ^ 32 - 1)

theorem ModeBegun.steady (h : ModeBegun d m t reason x) (rest : Steady (m ≠ .configure) x d') : ModeBegun d m t reason d' := by
  obtain ⟨now, mode, modePend, modeFrom, safeReason, -⟩ := rest.fields
  exact ⟨now.trans h.now, mode.trans h.mode, modePend.trans h.modePend, modeFrom.trans h.modeFrom, safeReason.trans h.safeReason, rest.windowed h.windowed,
    fun c => (rest.raises c).trans (h.raises c), (rest.get _ (by decide) 0).trans h.changes⟩

/-- The windows of the memory cut at `t`. -/
def Dev.cutWindows (d : Dev) (ws : List Window) (t : Nat) : Dev :=
  { d with mem := { d.mem with windows := ws }, gov := { d.gov with raises := d.raisesFrom t } }

theorem Dev.endWindows_steady (d : Dev) (t : Nat) : ∃ ws, Steady K (d.cutWindows ws t) (d.endWindows t) := by
  unfold Dev.endWindows
  extract_lets cut ws raises gov mem d₁
  refine ⟨ws, ?_⟩
  have begun : Steady K (d.cutWindows ws t) d₁ := Dev.set_steady (by decide) _ 0 _
  clear_value d₁
  split
  · exact (begun.trans d₁.endScrub_steady).trans (Dev.set_steady (by decide) _ 0 0)
  · exact begun.trans (Dev.set_steady (by decide) _ 0 0)

/-- The device in the mode `m` from `t` on. -/
def Dev.inMode (d : Dev) (m : Mode) (t : Nat) : Dev := { d with mode := m, modeFrom := t, modePend := none }

/-- The mode taken, and what the old one leaves in progress ended. -/
theorem Dev.endWindows_begun (now : y.now = d.now) (safeReason : y.safeReason = reason) (gov : y.gov = d.gov)
    (changes : y.get Reg.MD_CHANGES = min (d.get Reg.MD_CHANGES + 1) (2 ^ 32 - 1)) : ModeBegun d m t reason ((y.inMode m t).endWindows t) := by
  obtain ⟨ws, rest⟩ := Dev.endWindows_steady (K := m ≠ .configure) (y.inMode m t) t
  have kept : y.raisesFrom t = d.raisesFrom t := by unfold Dev.raisesFrom; rw [gov]
  have cut : ModeBegun d m t reason ((y.inMode m t).cutWindows ws t) := by
    refine ⟨now, rfl, rfl, rfl, safeReason, fun r there => ?_, fun _ => kept, changes⟩
    have own : r ∈ y.raisesFrom t := there
    have both := (List.mem_filter.1 own).2
    rw [Bool.and_eq_true] at both
    exact both.1
  exact cut.steady rest

/-! ### The old mode left -/

/-- `x` has begun the mode `m`, its baskets numbered anew out of CONFIGURE and the boundary of GATED noted. -/
structure ModeTaken (d : Dev) (m : Mode) (t : Nat) (reason : Option Nat) (x : Dev) : Prop extends ModeBegun d m t reason x where
  numbers : d.mode = .configure → x.merge.next = 0 ∧ x.merge.formed = [] ∧ x.merge.caches = Vector.replicate 8 []
  gated : m = .gated → x.mem.gatedFrom = t

theorem ModeTaken.steady (h : ModeTaken d m t reason x) (rest : Steady (m ≠ .configure) x d') : ModeTaken d m t reason d' := by
  obtain ⟨-, -, -, -, -, -, -, -, next, formed, caches, gatedFrom⟩ := rest.fields
  refine { h.toModeBegun.steady rest with numbers := fun c => ?_, gated := fun g => gatedFrom.trans (h.gated g) }
  rw [next, formed, caches]
  exact h.numbers c

theorem ModeBegun.renumber (h : ModeBegun d m t reason x) (gated : m = .gated → x.mem.gatedFrom = t) : ModeTaken d m t reason x.renumber :=
  { now := h.now, mode := h.mode, modePend := h.modePend, modeFrom := h.modeFrom, safeReason := h.safeReason, windowed := h.windowed, raises := h.raises
    changes := h.changes, numbers := fun _ => ⟨rfl, rfl, rfl⟩, gated := gated }

/-- A change of mode is the old mode left, the new one entered, windows dropped, and the lead checked where the mode needs one. -/
theorem Dev.changeMode_stages (d : Dev) (m : Mode) (t : Nat) : ∃ x, ModeTaken d m t d.safeReason x
    ∧ (m = .configure → Steady False (x.enterConfigure d.mode) (d.changeMode m t))
    ∧ (m = .safe → d.changeMode m t = x.enterSafe.dropWindows)
    ∧ (m ≠ .configure → m ≠ .safe → Steady (m ≠ .configure) x (d.changeMode m t)) := by
  unfold Dev.changeMode
  extract_lets old d₁ d₂ d₃ d₄ mem d₅ d₆ d₇ d₈ d₉ d₁₀ d₁₁ d₁₂
  have counted : Steady True (d.bump Reg.MD_CHANGES) d₁ := Dev.log_steady _ _ _ _ _ _
  have begun₂ : ModeBegun d m t d.safeReason d₂ :=
    Dev.endWindows_begun counted.fields.1 counted.fields.2.2.2.2.1 (Dev.log_gov_ports _ _ _ _ _ _).1
      ((counted.get _ (by decide) 0).trans (Dev.get_bump_same _ _ _ _))
  have begun₃ : ModeBegun d m t d.safeReason d₃ := by
    unfold d₃
    split
    · exact begun₂.steady (Dev.set_steady (by decide) d₂ 0 _)
    · exact begun₂
  have begun₄ : ModeBegun d m t d.safeReason d₄ := begun₃.steady (d₃.restGroups_steady old)
  clear_value d₁ d₂ d₃ d₄
  have begun₅ : ModeBegun d m t d.safeReason d₅ ∧ (m = .gated → d₅.mem.gatedFrom = t) := by
    unfold d₅
    split
    · exact ⟨⟨begun₄.now, begun₄.mode, begun₄.modePend, begun₄.modeFrom, begun₄.safeReason, begun₄.windowed, begun₄.raises,
        begun₄.changes⟩, fun _ => rfl⟩
    · rename_i other
      exact ⟨begun₄, fun gated => absurd gated other⟩
  clear_value d₅
  have taken₆ : ModeTaken d m t d.safeReason d₆ := by
    unfold d₆
    split
    · exact begun₅.1.renumber begun₅.2
    · rename_i other
      exact { begun₅.1 with numbers := fun c => absurd c other, gated := begun₅.2 }
  clear_value d₆
  have taken₇ : ModeTaken d m t d.safeReason d₇ := by
    unfold d₇
    split
    · exact taken₆.steady d₆.downBackEnd_steady
    · exact taken₆
  clear_value d₇
  have taken₈ : ModeTaken d m t d.safeReason d₈ := by
    unfold d₈
    split
    · exact taken₇.steady (forEach_steady allPorts _ (fun p x => x.startTraining_steady p) d₇)
    · exact taken₇
  clear_value d₈
  have entered₉ : m = .configure → d₉ = d₈.enterConfigure old := fun c => if_pos c
  have entered₁₀ : m = .safe → d₁₀ = d₉.enterSafe := fun f => if_pos f
  have same₉ : m ≠ .configure → d₉ = d₈ := fun c => if_neg c
  have same₁₀ : m ≠ .safe → d₁₀ = d₉ := fun f => if_neg f
  have same₁₁ : m ≠ .loopback → d₁₁ = d₁₀ := fun l => if_neg l
  have tested : Steady (m ≠ .configure) d₁₀ d₁₁ := by
    unfold d₁₁
    split
    · exact d₁₀.enterLoopback_steady
    · exact .refl d₁₀
  have dropped : d₁₂ = d₁₁.dropWindows := rfl
  clear_value d₉ d₁₀ d₁₁ d₁₂
  have checked {K : Prop} : Steady K d₁₂ (if m = .boot ∨ m = .safe then d₁₂ else forEach allPorts (fun p d => d.leadCheck p) d₁₂) := by
    split
    · exact .refl d₁₂
    · exact forEach_steady allPorts _ (fun p x => x.leadCheck_steady p) d₁₂
  subst dropped
  refine ⟨d₈, taken₈, fun set_up => ?_, fun safe => ?_, fun set_up safe => ?_⟩
  · have other : m ≠ .safe ∧ m ≠ .loopback := by rw [set_up]; decide
    rw [same₁₁ other.2, same₁₀ other.1, entered₉ set_up] at checked ⊢
    exact (Dev.dropWindows_steady _).trans checked
  · have other : m ≠ .configure ∧ m ≠ .loopback := by rw [safe]; decide
    rw [if_pos (.inr safe), same₁₁ other.2, entered₁₀ safe, same₉ other.1]
  · rw [same₁₀ safe, same₉ set_up] at tested
    exact (tested.trans d₁₁.dropWindows_steady).trans checked

/-! ### The entry of the new mode -/

theorem ModeTaken.configured (h : ModeTaken d .configure t reason x) : ModeTaken d .configure t none x.configured :=
  ⟨⟨h.now, h.mode, h.modePend, h.modeFrom, rfl, h.windowed, fun other => absurd rfl other, h.changes⟩, h.numbers, fun other => nomatch other⟩

theorem ModeTaken.safed (h : ModeTaken d .safe t reason x) : ModeTaken d .safe t (some (reason.getD 0x14)) x.safed :=
  ⟨⟨h.now, h.mode, h.modePend, h.modeFrom, by rw [← h.safeReason]; rfl, h.windowed, h.raises, h.changes⟩, h.numbers, fun other => nomatch other⟩

/-- The mode CONFIGURE entered. -/
theorem Dev.changeMode_configure (d : Dev) (t : Nat) :
    ModeTaken d .configure t none (d.changeMode .configure t) ∧ (d.changeMode .configure t).boot.step = none := by
  obtain ⟨x, taken, entered, -, -⟩ := d.changeMode_stages .configure t
  have rest := (x.enterConfigure_steady d.mode).trans (entered rfl)
  obtain ⟨-, -, -, -, -, -, -, step, -⟩ := rest.fields
  exact ⟨taken.configured.steady (rest.mono fun other => other rfl), step⟩

theorem Dev.dropWindows_ring (d : Dev) : d.dropWindows.merge.ring = d.merge.ring := by
  unfold Dev.dropWindows
  split <;> rfl

/-- `x` drains since slot `now`, with no window and no snapshot left. -/
structure Drains (now : Nat) (x : Dev) : Prop where
  draining : x.draining = true
  safeFrom : x.safeFrom = now
  windows : x.mem.windows = []
  ring : x.merge.ring = []

theorem ModeTaken.drains (taken : ModeTaken d .safe t reason x) (rest : Steady (Mode.safe ≠ .configure) x.safed y) (ring : y.merge.ring = []) :
    ModeTaken d .safe t (some (reason.getD 0x14)) y ∧ Drains d.now y := by
  obtain ⟨-, -, -, -, -, safeFrom, draining, -⟩ := rest.fields
  exact ⟨taken.safed.steady rest, draining, safeFrom.trans taken.now, rest.windows rfl, ring⟩

/-- The mode SAFE entered. -/
theorem Dev.changeMode_safe (d : Dev) (t : Nat) :
    ModeTaken d .safe t (some (d.safeReason.getD 0x14)) (d.changeMode .safe t) ∧ Drains d.now (d.changeMode .safe t) := by
  obtain ⟨x, taken, -, entered, -⟩ := d.changeMode_stages .safe t
  rw [entered rfl]
  exact taken.drains (x.enterSafe_steady.trans (Dev.dropWindows_steady _)) ((Dev.dropWindows_ring _).trans x.enterSafe_ring)

/-- Any other mode entered. -/
theorem Dev.changeMode_other (d : Dev) (t : Nat) (set_up : m ≠ .configure) (safe : m ≠ .safe) :
    ModeTaken d m t d.safeReason (d.changeMode m t) := by
  obtain ⟨x, taken, -, -, entered⟩ := d.changeMode_stages m t
  exact taken.steady (entered set_up safe)

end Sys2Proof.Machine
end

section
/-! MODE_CHANGE taken and refused (R29, R491; O59). -/

namespace Sys2Proof.Machine

variable {d : Dev} {m : ModePend} {s : State}

/-- What `ModeTaken` says of the raises, one by one. -/
theorem Dev.mem_raisesFrom {t : Nat} {r : Raise} : r ∈ d.raisesFrom t ↔ r ∈ d.gov.raises ∧ r.window = true ∧ t ≤ r.start := by
  simp [Dev.raisesFrom]

theorem Dev.changeMode_taken (d : Dev) (m : Mode) (t : Nat) : ∃ reason, ModeTaken d m t reason (d.changeMode m t) := by
  by_cases set_up : m = .configure
  · subst set_up
    exact ⟨_, (d.changeMode_configure t).1⟩
  · by_cases safe : m = .safe
    · subst safe
      exact ⟨_, (d.changeMode_safe t).1⟩
    · exact ⟨_, d.changeMode_other t set_up safe⟩

theorem exec_modeChange (pend : s.dev.modePend = some m) (runs : s.dev.inReset = false) (time : s.dev.noTime = false)
    (due : s.dev.modeDue = true) (step : s.dev.stepDue = false) (first : s.dev.firstDue = false) (free : s.dev.modeRefusal m.target = none) :
    exec .modeChange s = .next { s with dev := s.dev.changeMode m.target s.dev.grid.cycleStart } := by
  have open_ : ¬ (s.dev.inReset || !(s.dev.noTime || (s.dev.modeDue && !s.dev.stepDue && !s.dev.firstDue))) = true := by
    rw [runs, due, step, first]
    simp
  change execModeChange s = _
  unfold execModeChange State.on
  simp only [pend, if_neg open_, free]
  rw [time, if_neg Bool.false_ne_true]

/-- The pending mode takes effect at its boundary. -/
theorem exec_modeChange_taken (pend : s.dev.modePend = some m) (runs : s.dev.inReset = false) (time : s.dev.noTime = false)
    (due : s.dev.modeDue = true) (step : s.dev.stepDue = false) (first : s.dev.firstDue = false) (free : s.dev.modeRefusal m.target = none) :
    Completes .modeChange s fun d =>
      d.mode = m.target ∧ d.modePend = none ∧ d.modeFrom = s.dev.grid.cycleStart ∧ (∀ r ∈ d.gov.raises, r.window = true)
        ∧ (m.target ≠ .configure → ∀ r ∈ d.gov.raises, r ∈ s.dev.gov.raises ∧ s.dev.grid.cycleStart ≤ r.start)
        ∧ d.get Reg.MD_CHANGES = min (s.dev.get Reg.MD_CHANGES + 1) (2 ^ 32 - 1)
        ∧ (s.dev.mode = .configure → d.merge.next = 0 ∧ d.merge.formed = [] ∧ d.merge.caches = Vector.replicate 8 [])
        ∧ (m.target = .gated → d.mem.gatedFrom = s.dev.grid.cycleStart)
        ∧ (m.target = .configure → d.safeReason = none ∧ d.boot.step = none)
        ∧ (m.target = .safe → d.draining = true ∧ d.safeFrom = s.dev.now ∧ d.mem.windows = [] ∧ d.merge.ring = []
          ∧ d.safeReason = some (s.dev.safeReason.getD 0x14)) := by
  refine .of_next (exec_modeChange pend runs time due step first free) ?_
  obtain ⟨reason, taken⟩ := s.dev.changeMode_taken m.target s.dev.grid.cycleStart
  have ready := s.dev.changeMode_configure s.dev.grid.cycleStart
  have drained := s.dev.changeMode_safe s.dev.grid.cycleStart
  refine ⟨taken.mode, taken.modePend, taken.modeFrom, taken.windowed, fun other r there => ?_, taken.changes, taken.numbers, taken.gated,
    fun set_up => ?_, fun safe => ?_⟩
  · rw [taken.raises other] at there
    obtain ⟨own, -, later⟩ := Dev.mem_raisesFrom.1 there
    exact ⟨own, later⟩
  · rw [set_up]
    exact ⟨ready.1.safeReason, ready.2⟩
  · rw [safe]
    exact ⟨drained.2.draining, drained.2.safeFrom, drained.2.windows, drained.2.ring, drained.1.safeReason⟩

/-! ### The checks on leaving CONFIGURE (R491) -/

/-- A check that fails does not answer with ACCEPTED. -/
theorem Dev.exitChecks_refuses {st : Status} (fails : d.exitChecks = some st) : st ≠ .accepted := by
  rintro rfl
  unfold Dev.exitChecks at fails
  dsimp only at fails
  split_ifs at fails <;> exact nomatch fails

theorem statusCode_refuses {st : Status} (other : st ≠ .accepted) : statusCode st % 2 ^ 8 ≠ 0 := by
  cases st
  case accepted => exact absurd rfl other
  all_goals decide

/-- What is asked of the ports, the pitches and the routes fails. -/
theorem Dev.exitChecks_fails
    (fault : (∃ p : Port, d.get Reg.WP_EN p.val = 1 ∧ ((d.port p).cycLenAcked = false
        ∨ d.get Reg.BASKET_TIMEOUT * 256 < d.mir p Reg.FE_FRAME_CLOSE + 256))
      ∨ d.usableMiB < d.stallSum Reg.ST_CAP ∨ d.bandwidth < d.stallSum Reg.ST_BW
      ∨ (∃ k < d.get Reg.ROUTE_SPAN, d.get Reg.RT_MAC k = 0 ∨ d.get Reg.RT_IP k = 0)) : d.exitChecks ≠ none := by
  intro passes
  unfold Dev.exitChecks at passes
  dsimp only at passes
  split_ifs at passes with bank acked timeout pitches unfit routes
  rcases fault with ⟨p, on, behind⟩ | usable | bandwidth | ⟨k, span, unset⟩
  · have enabled : p ∈ allPorts.filter fun p => d.get Reg.WP_EN p.val == 1 :=
      List.mem_filter.2 ⟨List.mem_finRange p, by simpa using on⟩
    rcases behind with late | short
    · exact acked (List.any_eq_true.2 ⟨p, enabled, by simp [late]⟩)
    · exact timeout (List.any_eq_true.2 ⟨p, enabled, by simpa using short⟩)
  · exact pitches (.inl usable)
  · exact pitches (.inr bandwidth)
  · refine routes (List.any_eq_true.2 ⟨k, List.mem_cons_of_mem _ (List.mem_range.2 span), ?_⟩)
    rcases unset with mac | ip
    · simp [Dev.routeUnset, mac]
    · simp [Dev.routeUnset, ip]

theorem PortsSent.ledger {d d' : Dev} (h : PortsSent d d') : d'.ledger = d.ledger := by obtain ⟨_, _, _, rfl⟩ := h; rfl

theorem Dev.refuseBank_ledger (d : Dev) : d.refuseBank.ledger = d.ledger := by
  unfold Dev.refuseBank
  split
  · rfl
  · dsimp only
    split
    · exact (Dev.sendMirror_portsSent _ _ _).ledger
    · rfl

/-- The change withdrawn with its status shown and recorded. -/
def Dev.refuseMode (d : Dev) (m : Mode) (st : Status) : Dev :=
  let d := if st = .calConflict then d.refuseBank else d
  ({ d with modePend := none }.withdrawMode.set Reg.MD_REFUSAL 0 (statusCode st)).log 0xFF 0x0106 (modeCode m) (statusCode st) d.grid.cycle

theorem exec_modeChange_refuses {st : Status} (pend : s.dev.modePend = some m) (runs : s.dev.inReset = false)
    (due : s.dev.modeDue = true) (step : s.dev.stepDue = false) (first : s.dev.firstDue = false)
    (refused : s.dev.modeRefusal m.target = some st) :
    exec .modeChange s = .next { s with dev := s.dev.refuseMode m.target st } := by
  have open_ : ¬ (s.dev.inReset || !(s.dev.noTime || (s.dev.modeDue && !s.dev.stepDue && !s.dev.firstDue))) = true := by
    rw [runs, due, step, first]
    simp
  change execModeChange s = _
  unfold execModeChange State.on
  simp only [pend, if_neg open_, refused]
  rfl

theorem Dev.refuseMode_facts (d : Dev) (m : Mode) {st : Status} (other : st ≠ .accepted) (room : d.ledger.buffer.length < 1024) :
    (d.refuseMode m st).mode = d.mode ∧ (d.refuseMode m st).modePend = none ∧ (d.refuseMode m st).get Reg.MD_REFUSAL ≠ 0
      ∧ (d.refuseMode m st).Recorded 0xFF 0x0106 := by
  unfold Dev.refuseMode
  extract_lets x
  have same : x.mode = d.mode ∧ x.ledger = d.ledger := by
    unfold x
    split
    · exact ⟨d.refuseBank_keepsMode, d.refuseBank_ledger⟩
    · exact ⟨rfl, rfl⟩
  clear_value x
  have withdrawn := Dev.withdrawMode_portsSent { x with modePend := none }
  generalize Dev.withdrawMode { x with modePend := none } = y at *
  obtain ⟨-, mode, modePend, -⟩ := ((y.set Reg.MD_REFUSAL 0 (statusCode st)).log_steady (K := True) 0xFF 0x0106 (modeCode m) (statusCode st)
    x.grid.cycle).fields
  refine ⟨mode.trans (withdrawn.mode.trans same.1), modePend.trans withdrawn.modePend, ?_, Dev.log_recorded _ _ _ _ _ _ ?_⟩
  · rw [Dev.log_get, Dev.get_set_same]
    exact statusCode_refuses other
  · exact (congrArg (fun l => l.buffer.length) (withdrawn.ledger.trans same.2)).trans_lt room

/-- A check that fails refuses the change. -/
theorem exec_modeChange_refused (pend : s.dev.modePend = some m) (runs : s.dev.inReset = false)
    (due : s.dev.modeDue = true) (step : s.dev.stepDue = false) (first : s.dev.firstDue = false) (set_up : s.dev.mode = .configure)
    (acquires : sendsMarkers m.target = true) (room : s.dev.ledger.buffer.length < 1024)
    (fault : (∃ p : Port, s.dev.get Reg.WP_EN p.val = 1 ∧ ((s.dev.port p).cycLenAcked = false
        ∨ s.dev.get Reg.BASKET_TIMEOUT * 256 < s.dev.mir p Reg.FE_FRAME_CLOSE + 256))
      ∨ s.dev.usableMiB < s.dev.stallSum Reg.ST_CAP ∨ s.dev.bandwidth < s.dev.stallSum Reg.ST_BW
      ∨ (∃ k < s.dev.get Reg.ROUTE_SPAN, s.dev.get Reg.RT_MAC k = 0 ∨ s.dev.get Reg.RT_IP k = 0)) :
    Completes .modeChange s fun d =>
      d.mode = .configure ∧ d.modePend = none ∧ d.get Reg.MD_REFUSAL ≠ 0 ∧ d.Recorded 0xFF 0x0106 := by
  have checked : s.dev.modeRefusal m.target = s.dev.exitChecks := if_pos ⟨set_up, acquires⟩
  obtain ⟨st, fails⟩ := Option.ne_none_iff_exists'.1 (Dev.exitChecks_fails fault)
  refine .of_next (exec_modeChange_refuses pend runs due step first (checked.trans fails)) ?_
  obtain ⟨mode, rest⟩ := s.dev.refuseMode_facts m.target (Dev.exitChecks_refuses fails) room
  exact ⟨mode.trans set_up, rest⟩

end Sys2Proof.Machine
end

section
/-! The drain of SAFE, the SENTINEL promotion, and the power of the front ends (R483, R493, R496; O59). -/

namespace Sys2Proof.Machine

variable {d d' x : Dev} {p : Port} {s : State}

/-! ### The drain's end (R493) -/

/-- A back-end port but 0 down. -/
def Dev.linkOff (d : Dev) (b : Nat) : Dev := d.set Reg.BE_LINK (b + 1) 0

theorem Dev.linkOff_get (d : Dev) {b e : Nat} (hb : b < 7) (he : e < 8) :
    (d.linkOff b).get Reg.BE_LINK e = if e = b + 1 then 0 else d.get Reg.BE_LINK e := by
  unfold Dev.linkOff
  split
  · rename_i here
    rw [here, Dev.get_set_same, Nat.zero_mod]
  · exact Dev.get_set_other _ _ _ _ _ _ (regKey_ne_of_elem (by omega) _ _ _ _)

/-- The back-end ports but 0 down. -/
def Dev.linksOff (d : Dev) : Dev := forEach (List.range 7) (fun b d => d.linkOff b) d

theorem Dev.linksOff_merge (d : Dev) : d.linksOff.merge = d.merge :=
  forEach_same Dev.merge (List.range 7) (fun b d => d.linkOff b) (fun _ _ _ => rfl) d

theorem Dev.linksOff_steady (d : Dev) : Steady True d d.linksOff :=
  forEach_steady (List.range 7) (fun b d => d.linkOff b) (fun b x => Dev.set_steady (by decide) x _ _) d

theorem Dev.linksOff_off (d : Dev) {b : Nat} (hb : b < 7) : d.linksOff.get Reg.BE_LINK (b + 1) = 0 := by
  refine forEach_reaches (Q := fun x : Dev => x.get Reg.BE_LINK (b + 1) = 0) (f := fun b d => d.linkOff b) (List.mem_range.2 hb)
    (fun x => ?_) (fun c mem x h => ?_) d
  · rw [x.linkOff_get hb (by omega), if_pos rfl]
  · rw [x.linkOff_get (List.mem_range.1 mem) (by omega), h, ite_self]

theorem Dev.linksOff_zero (d : Dev) : d.linksOff.get Reg.BE_LINK 0 = d.get Reg.BE_LINK 0 := by
  refine forEach_same (fun x : Dev => x.get Reg.BE_LINK 0) (List.range 7) (fun b d => d.linkOff b) (fun b mem x => ?_) d
  rw [x.linkOff_get (List.mem_range.1 mem) (by decide), if_neg (by omega)]

theorem Dev.dropPause_facts (d : Dev) (b : Fin 8) : Steady True d (d.dropPause b)
    ∧ (∀ e, (d.dropPause b).get Reg.BE_LINK e = d.get Reg.BE_LINK e) := by
  unfold Dev.dropPause
  split
  · exact ⟨Dev.bump_steady (by decide) d _ _, fun e => Dev.get_bump_addr _ (by decide) _ _ _⟩
  · exact ⟨.refl d, fun _ => rfl⟩

/-- What is left unsent is recorded, and what held it freed. -/
def Dev.dropUnsent (d : Dev) : Dev :=
  let n := d.merge.baskets.length
  let d := if n = 0 then d else d.log 0xFF 0x0107 (d.safeReason.getD 0x14) n
  let waited := match d.merge.waitFrom with
    | some t => d.now - t
    | none => 0
  let d := forEach d.merge.baskets (fun b d => d.dropHomes b) (d.bump Reg.MG_EGR_WAIT 0 waited)
  forEach (List.finRange 8) (fun b d => if b = 0 then d else d.dropPause b) d

theorem Dev.dropUnsent_facts (d : Dev) : (∀ e, d.dropUnsent.get Reg.BE_LINK e = d.get Reg.BE_LINK e)
    ∧ (d.ledger.buffer.length < 1024 → d.merge.baskets ≠ [] → d.dropUnsent.Recorded 0xFF 0x0107) := by
  unfold Dev.dropUnsent
  extract_lets n d₁ waited d₂
  have told : (∀ e, d₁.get Reg.BE_LINK e = d.get Reg.BE_LINK e)
      ∧ (d.ledger.buffer.length < 1024 → d.merge.baskets ≠ [] → d₁.Recorded 0xFF 0x0107) := by
    unfold d₁
    split
    · rename_i none_
      exact ⟨fun _ => rfl, fun _ some_ => absurd (List.length_eq_zero_iff.1 none_) some_⟩
    · exact ⟨fun e => Dev.log_get _ _ _ _ _ _ _ _, fun room _ => Dev.log_recorded _ _ _ _ _ _ room⟩
  have homes := forEach_stallsOnly d₁.merge.baskets (fun b d => d.dropHomes b) (fun b x => x.dropHomes_stallsOnly b)
    (d₁.bump Reg.MG_EGR_WAIT 0 waited)
  have freed : (∀ e, d₂.get Reg.BE_LINK e = d₁.get Reg.BE_LINK e) ∧ (d₁.Recorded 0xFF 0x0107 → d₂.Recorded 0xFF 0x0107) :=
    ⟨fun e => (homes.get _ (by decide) (by decide) e).trans (Dev.get_bump_addr _ (by decide) _ _ _), homes.recorded _ _⟩
  clear_value d₁ d₂
  have dropped := forEach_keeps (fun x : Dev => (∀ e, x.get Reg.BE_LINK e = d₂.get Reg.BE_LINK e)
      ∧ (d₂.Recorded 0xFF 0x0107 → x.Recorded 0xFF 0x0107)) (List.finRange 8) (fun b d => if b = 0 then d else d.dropPause b)
    (fun b _ x h => by
      split
      · exact h
      · obtain ⟨steady, links⟩ := x.dropPause_facts b
        exact ⟨fun e => (links e).trans (h.1 e), fun there => steady.recorded _ _ (h.2 there)⟩) d₂ ⟨fun _ => rfl, id⟩
  exact ⟨fun e => (dropped.1 e).trans ((freed.1 e).trans (told.1 e)), fun room some_ => dropped.2 (freed.2 (told.2 room some_))⟩

/-- What the end of the drain leaves of `d`. -/
structure DrainEnded (d x : Dev) : Prop where
  draining : x.draining = false
  baskets : x.merge.baskets = []
  egress : ∀ b : Fin 8, (x.egr b).queue = [] ∧ (x.egr b).feed = []
  off : ∀ b < 7, x.get Reg.BE_LINK (b + 1) = 0
  first : x.get Reg.BE_LINK 0 = d.get Reg.BE_LINK 0
  recorded : d.ledger.buffer.length < 1024 → d.merge.baskets ≠ [] → x.Recorded 0xFF 0x0107

/-- The empty queues, and the links off. -/
theorem Dev.endDrain_ended (links : ∀ e, x.get Reg.BE_LINK e = d.get Reg.BE_LINK e)
    (recorded : d.ledger.buffer.length < 1024 → d.merge.baskets ≠ [] → x.Recorded 0xFF 0x0107) (net : Vector NetPort 8)
    {empty : Egress → Egress} (queue : ∀ e, (empty e).queue = []) (feed : ∀ e, (empty e).feed = []) :
    DrainEnded d (({ x with draining := false, net := net, merge := { x.merge with
      baskets := [], waitFrom := none, egress := x.merge.egress.map empty } } : Dev).linksOff).syncStalls := by
  generalize hy : ({ x with draining := false, net := net, merge := { x.merge with
    baskets := [], waitFrom := none, egress := x.merge.egress.map empty } } : Dev) = y
  have freed : y.draining = false ∧ y.merge.baskets = [] ∧ y.merge.egress = x.merge.egress.map empty
      ∧ (∀ e, y.get Reg.BE_LINK e = x.get Reg.BE_LINK e) ∧ (x.Recorded 0xFF 0x0107 → y.Recorded 0xFF 0x0107) := by
    subst hy
    exact ⟨rfl, rfl, rfl, fun _ => rfl, id⟩
  clear hy
  obtain ⟨draining, baskets, egress, get, kept⟩ := freed
  have off := y.linksOff_steady
  have merge := y.linksOff_merge
  have links' := fun b (hb : b < 7) => y.linksOff_off hb
  have first := y.linksOff_zero
  generalize y.linksOff = z at *
  have synced := z.syncStalls_stallsOnly
  generalize z.syncStalls = w at *
  obtain ⟨-, -, -, -, -, -, drain, -⟩ := off.fields
  have merge' : w.merge = y.merge := synced.merge.trans merge
  refine ⟨synced.draining.trans (drain.trans draining), by rw [merge', baskets], fun b => ?_, fun b hb => ?_, ?_, fun room some_ => ?_⟩
  · unfold Dev.egr
    rw [merge', egress, Vector.getElem_map]
    exact ⟨queue _, feed _⟩
  · rw [synced.get _ (by decide) (by decide), links' b hb]
  · rw [synced.get _ (by decide) (by decide), first, get, links]
  · exact synced.recorded _ _ (off.recorded _ _ (kept (recorded room some_)))

/-- The drain of SAFE ends. -/
theorem exec_safeDrainEnd (safe : s.dev.mode = .safe) (drains : s.dev.draining = true)
    (past : s.dev.safeFrom + (s.dev.get Reg.BASKET_TIMEOUT + 64) * 256 ≤ s.dev.now) :
    Completes .safeDrainEnd s fun d => DrainEnded s.dev d := by
  refine .of_next (by change execSafeDrainEnd s = _; unfold execSafeDrainEnd State.on; rfl) ?_
  have open_ : ¬ (s.dev.mode ≠ .safe ∨ ¬ s.dev.draining = true ∨ s.dev.now < s.dev.safeFrom + (s.dev.get Reg.BASKET_TIMEOUT + 64) * 256) := by
    rw [safe, drains]
    simpa using past
  beta_reduce
  rw [if_neg open_]
  extract_lets n d₁ waited d₂ empty d₃ net merge d₄
  obtain ⟨links, recorded⟩ : (∀ e, d₃.get Reg.BE_LINK e = s.dev.get Reg.BE_LINK e)
      ∧ (s.dev.ledger.buffer.length < 1024 → s.dev.merge.baskets ≠ [] → d₃.Recorded 0xFF 0x0107) := s.dev.dropUnsent_facts
  clear_value d₃ n
  exact Dev.endDrain_ended links recorded net (fun _ => rfl) (fun _ => rfl)

/-! ### The SENTINEL promotion (R496, R497) -/

theorem PortsSent.keeper (h : PortsSent d d') : d'.keeper = d.keeper := by obtain ⟨_, _, _, rfl⟩ := h; rfl

theorem Dev.log_keeper_modePend (d : Dev) (source code : Nat) (v1 v2 v3 : Int) :
    (d.log source code v1 v2 v3).keeper = d.keeper ∧ (d.log source code v1 v2 v3).modePend = d.modePend
      ∧ (d.log source code v1 v2 v3).mode = d.mode := by
  obtain ⟨b, n, eq⟩ := d.log_eq source code v1 v2 v3
  rw [eq]
  exact ⟨rfl, rfl, rfl⟩

/-- The sweep over. -/
def Dev.sweepOver (d : Dev) : Dev := { d with keeper := { d.keeper with sweep := none } }

/-- STREAM requested by a sweep that counted `counts` regions. -/
def Dev.promote (d : Dev) (counts : Nat) : Dev :=
  let d := (d.set Reg.MD_REQUEST 0 6).pendMode { target := .stream, cycle := none, notBefore := d.now + modeLead }
  d.log 0xFF 0x0108 counts d.pendingCycle

theorem Dev.promote_facts (d : Dev) (counts : Nat) :
    (d.promote counts).keeper = d.keeper ∧ (d.promote counts).mode = d.mode
      ∧ (d.promote counts).modePend = some { target := .stream, cycle := none, notBefore := d.now + 4096 }
      ∧ (d.promote counts).get Reg.MD_REQUEST = 6 := by
  unfold Dev.promote
  extract_lets x
  have pend : x.keeper = d.keeper ∧ x.mode = d.mode ∧ x.modePend = some { target := .stream, cycle := none, notBefore := d.now + 4096 }
      ∧ x.get Reg.MD_REQUEST = 6 := by
    obtain ⟨modePend, mode, get⟩ := (d.set Reg.MD_REQUEST 0 6).pendMode_facts { target := .stream, cycle := none, notBefore := d.now + modeLead }
    refine ⟨(Dev.announceMode_portsSent _ _ _).keeper, mode, modePend, (get _ 0).trans ?_⟩
    rw [Dev.get_set_same]
    rfl
  clear_value x
  obtain ⟨keeper, mode, modePend, get⟩ := pend
  obtain ⟨keeper', modePend', mode'⟩ := x.log_keeper_modePend 0xFF 0x0108 counts x.pendingCycle 0
  exact ⟨keeper'.trans keeper, mode'.trans mode, modePend'.trans modePend, (Dev.log_get _ _ _ _ _ _ _ _).trans get⟩

theorem exec_rateSweepComplete {w : RateSweep} (sweep : s.dev.keeper.sweep = some w) (read : w.ports = []) :
    exec .rateSweepComplete s = .next { s with dev := (
      if s.dev.mode = .sentinel ∧ s.dev.get Reg.MD_SEN_PROMOTE = 1 ∧ s.dev.get Reg.MD_SEN_REGIONS ≤ w.counts
          ∧ s.dev.modePend.isNone then s.dev.sweepOver.promote w.counts
      else s.dev.sweepOver) } := by
  change execRateSweepComplete s = _
  unfold execRateSweepComplete State.on
  simp only [sweep, read]
  rfl

/-- The sweep ends, and STREAM is requested when it counted enough. -/
theorem exec_rateSweepComplete_read {w : RateSweep} (sweep : s.dev.keeper.sweep = some w) (read : w.ports = []) :
    Completes .rateSweepComplete s fun d =>
      d.keeper.sweep = none ∧ d.mode = s.dev.mode ∧
        if s.dev.mode = .sentinel ∧ s.dev.get Reg.MD_SEN_PROMOTE = 1 ∧ s.dev.get Reg.MD_SEN_REGIONS ≤ w.counts
            ∧ s.dev.modePend = none then
          d.modePend = some { target := .stream, cycle := none, notBefore := s.dev.now + 4096 } ∧ d.get Reg.MD_REQUEST = 6
        else d.modePend = s.dev.modePend := by
  refine .of_next (exec_rateSweepComplete sweep read) ?_
  have idle : (s.dev.modePend.isNone = true) = (s.dev.modePend = none) := propext Option.isNone_iff_eq_none
  simp only [idle]
  split
  · obtain ⟨keeper, mode, modePend, get⟩ := s.dev.sweepOver.promote_facts w.counts
    exact ⟨congrArg Keeper.sweep keeper, mode, modePend, get⟩
  · exact ⟨rfl, rfl, rfl⟩

/-! ### The power of the front ends (R483) -/

theorem Dev.feReset_facts (d : Dev) (p : Port) (power : FePower) :
    ((d.feReset p power).fe p).power = power ∧ ((d.feReset p power).fe p).supplyFrom = (d.fe p).supplyFrom
      ∧ ((d.feReset p power).fe p).cmds = [] ∧ ((d.feReset p power).fe p).frames = [] ∧ (d.feReset p power).mode = d.mode
      ∧ ∀ q, q ≠ p → (d.feReset p power).fe q = d.fe q := by
  unfold Dev.feReset
  extract_lets f fresh d₁
  have same : d₁.mode = d.mode ∧ ∀ q, d₁.fe q = d.fe q := ⟨rfl, fun _ => rfl⟩
  clear_value d₁
  rw [Dev.fe_setFe_same]
  exact ⟨rfl, rfl, rfl, rfl, same.1, fun q other => (Dev.fe_setFe_other _ _ _ _ other).trans (same.2 q)⟩

theorem exec_fePowerOnReset_due (off : (s.dev.fe p).power = .powerOn) (past : (s.dev.fe p).supplyFrom + s.dev.ms 1 ≤ s.dev.now) :
    Completes (.fePowerOnReset p) s fun d => (d.fe p).power = .lowPower ∧ d.mode = s.dev.mode := by
  have runs : exec (.fePowerOnReset p) s = .next { s with dev := s.dev.feReset p .lowPower } := by
    change execFePowerOnReset p s = _
    unfold execFePowerOnReset State.on
    dsimp only
    rw [if_pos ⟨off, past⟩]
  obtain ⟨power, -, -, -, mode, -⟩ := s.dev.feReset_facts p .lowPower
  exact .of_next runs ⟨power, mode⟩

theorem exec_feSupplyFault_facts (s : State) (p : Port) :
    Completes (.feSupplyFault p) s fun d =>
      (d.fe p).power = .powerOn ∧ (d.fe p).supplyFrom = s.dev.now ∧ (d.fe p).cmds = [] ∧ (d.fe p).frames = []
        ∧ ∀ q, q ≠ p → d.fe q = s.dev.fe q := by
  refine .of_next (d := (s.dev.updFe p fun (f : FrontEnd) => { f with supplyFrom := s.dev.now }).feReset p .powerOn) rfl ?_
  obtain ⟨power, supplyFrom, cmds, frames, -, others⟩ :=
    (s.dev.updFe p fun (f : FrontEnd) => { f with supplyFrom := s.dev.now }).feReset_facts p .powerOn
  rw [Dev.fe_updFe_same] at supplyFrom
  exact ⟨power, supplyFrom, cmds, frames, fun q other => (others q other).trans (Dev.fe_setFe_other _ _ _ _ other)⟩

end Sys2Proof.Machine
end

section
/-! Reset, and the steps of the boot that tell how the device starts (R485 to R489, R495, R498; O59). -/

namespace Sys2Proof.Machine

variable {d d' x : Dev} {s : State}

/-! ### A device held in reset (R485, R486) -/

/-- `d'` is `d` restarted for `reason`. -/
structure Restarted (d d' : Dev) (reason : Nat) : Prop where
  inReset : d'.inReset = true
  mode : d'.mode = .boot
  regs : d'.regs = []
  reason : d'.aon.reason = reason
  copies : d'.ledger.copies = d.ledger.copies
  preferred : d'.aon.preferred = d.aon.preferred

theorem Restarted.failStart {reason : Nat} (h : Restarted d d' reason) (why : Nat) : Restarted d (d'.failStart why) reason := by
  unfold Dev.failStart
  extract_lets boot aon x
  have failed : Restarted d x reason := ⟨h.inReset, h.mode, h.regs, h.reason, h.copies, h.preferred⟩
  clear_value x
  obtain ⟨b, n, eq⟩ := x.log_eq 0xFF 0x0103 why x.failedStarts 0
  rw [eq]
  exact ⟨failed.inReset, failed.mode, failed.regs, failed.reason, failed.copies, failed.preferred⟩

theorem Dev.restart_restarted (d : Dev) (reason : Nat) : Restarted d (d.restart reason) reason := by
  unfold Dev.restart
  extract_lets fails fes kept aon fresh
  have held : Restarted d fresh reason := ⟨rfl, rfl, rfl, rfl, rfl, rfl⟩
  clear_value fresh
  split
  · exact held.failStart reason
  · exact held

theorem exec_resetAssert_facts (s : State) (lost : Bool) :
    Completes (.resetAssert lost) s fun d =>
      d.inReset = true ∧ (lost = true → d.aon = {} ∧ d.ledger.buffer = [] ∧ d.ledger.copies = s.dev.ledger.copies)
        ∧ (lost = false → s.dev.inReset = true → d = s.dev) ∧ (lost = false → s.dev.inReset = false → Restarted s.dev d 2) := by
  cases lost with
  | true =>
    have held := s.dev.restart_restarted 0x01
    refine .of_next (d := { s.dev.restart 0x01 with aon := {}, ledger := { (s.dev.restart 0x01).ledger with readPos := 0, buffer := [] } })
      rfl ⟨held.inReset, fun _ => ⟨rfl, rfl, held.copies⟩, nofun, nofun⟩
  | false =>
    have held := s.dev.restart_restarted 0x02
    refine .of_next (d := if s.dev.inReset then s.dev else s.dev.restart 0x02) rfl ?_
    cases down : s.dev.inReset with
    | true => exact ⟨down, nofun, fun _ _ => rfl, fun _ => nofun⟩
    | false => exact ⟨held.inReset, nofun, fun _ => nofun, fun _ _ => held⟩

/-! ### The release of reset (R486, R487) -/

/-- The device at step 1 of its boot, with Node Address sampled. -/
def Dev.released (d : Dev) (node : Nat) : Dev :=
  ({ inReset := false, free := d.free, fes := d.fes.map fun f => f.atRelease d.now
     aon := { d.aon with restarts := (d.aon.restarts + 1) % 2 ^ 32, msBase := d.aonMs }, flash := d.flash
     ledger := { buffer := d.ledger.buffer, copies := d.ledger.copies, seq := d.ledger.seq, readPos := d.ledger.readPos }
     out := d.out : Dev }.set Reg.COM_NODE 0 node).newChallenge

/-- What the release of reset leaves of `d`. -/
structure Released (d : Dev) (node : Nat) (x : Dev) : Prop where
  inReset : x.inReset = false
  mode : x.mode = .boot
  step : x.boot.step = some 1
  now : x.now = 0
  modePend : x.modePend = none
  restarts : x.aon.restarts = (d.aon.restarts + 1) % 2 ^ 32
  preferred : x.aon.preferred = d.aon.preferred
  node : x.get Reg.COM_NODE = node % 2 ^ 8
  fresh : ∀ a < 2 ^ 24, a ≠ Reg.COM_NODE → ∀ e, x.get a e = regDflt (regKey 0xFF a e)

theorem Dev.released_released (d : Dev) (node : Nat) : Released d node (d.released node) := by
  refine ⟨rfl, rfl, rfl, rfl, rfl, rfl, rfl, ?_, fun a small other e => ?_⟩
  · exact Dev.get_set_same _ _ _ _
  · have apart : a % 2 ^ 24 ≠ Reg.COM_NODE % 2 ^ 24 := by
      rw [Nat.mod_eq_of_lt small]
      exact other
    exact (Dev.get_set_addr _ apart _ _ _).trans rfl

theorem Released.log {node : Nat} (h : Released d node x) (source code : Nat) (v1 v2 v3 : Int) :
    Released d node (x.log source code v1 v2 v3) := by
  obtain ⟨b, n, eq⟩ := x.log_eq source code v1 v2 v3
  rw [eq]
  exact ⟨h.inReset, h.mode, h.step, h.now, h.modePend, h.restarts, h.preferred, h.node, h.fresh⟩

theorem exec_resetRelease_boots {strap : BitVec 8} (held : s.dev.inReset = true) :
    Completes (.resetRelease strap) s fun d => Released s.dev (if strap = 0 ∨ strap = 0xFF then 1 else strap.toNat) d := by
  have bad : (strap == 0 || strap == 0xFF) = true ↔ strap = 0 ∨ strap = 0xFF := by simp
  refine .of_next (d := if (strap == 0 || strap == 0xFF) = true
    then (s.dev.released (if (strap == 0 || strap == 0xFF) = true then 1 else strap.toNat)).log 0xFF 0x0109 strap.toNat
    else s.dev.released (if (strap == 0 || strap == 0xFF) = true then 1 else strap.toNat)) ?_ ?_
  · change execResetRelease strap s = _
    unfold execResetRelease State.on
    dsimp only
    rw [held]
    rfl
  · simp only [bad]
    split
    · exact (s.dev.released_released _).log _ _ _ _ _
    · exact s.dev.released_released _

/-! ### A start that fails (R488, R489, R495) -/

theorem exec_bootTimeout_past (boots : s.dev.mode = .boot) (runs : s.dev.inReset = false) (past : 10 * s.dev.second ≤ s.dev.now) :
    Completes .bootTimeout s fun d => Restarted s.dev d 6 := by
  refine .of_next (d := s.dev.restart 0x06) ?_ (s.dev.restart_restarted 6)
  change execBootTimeout s = _
  unfold execBootTimeout State.on
  dsimp only
  rw [if_pos ⟨boots, by simp [runs], past⟩]

theorem exec_startConfirm_due {t : Nat} (waits : s.dev.confirmAt = some t) (past : t ≤ s.dev.now) (room : s.dev.ledger.buffer.length < 1024) :
    Completes .startConfirm s fun d =>
      d.confirmAt = none ∧ d.boot.startOpen = false ∧ d.aon.failedTimes = [] ∧ d.Recorded 0xFF 0x0102 := by
  have runs : exec .startConfirm s = .next { s with dev := { s.dev with
      confirmAt := none, boot := { s.dev.boot with startOpen := false }, aon := { s.dev.aon with failedTimes := [] } }.log 0xFF 0x0102 } := by
    change execStartConfirm s = _
    unfold execStartConfirm State.on
    simp only [waits, Nat.not_lt.mpr past, if_false]
  refine .of_next runs ?_
  generalize hx : ({ s.dev with confirmAt := none, boot := { s.dev.boot with startOpen := false }
                                aon := { s.dev.aon with failedTimes := [] } } : Dev) = x
  have confirmed : x.confirmAt = none ∧ x.boot.startOpen = false ∧ x.aon.failedTimes = [] ∧ x.ledger = s.dev.ledger := by
    subst hx
    exact ⟨rfl, rfl, rfl, rfl⟩
  obtain ⟨confirmAt, startOpen, failedTimes, ledger⟩ := confirmed
  have recorded := x.log_recorded 0xFF 0x0102 0 0 0 (by rwa [ledger])
  obtain ⟨b, n, eq⟩ := x.log_eq 0xFF 0x0102 0 0 0
  rw [eq] at recorded ⊢
  exact ⟨confirmAt, startOpen, failedTimes, recorded⟩

/-! ### SAFE asked for by a fault (R493, R495) -/

/-- `d'` is `d` with SAFE pending for `reason`, from the next boundary on. -/
structure SafeNext (d d' : Dev) (reason : Nat) : Prop where
  mode : d'.mode = d.mode
  safeReason : d'.safeReason = some reason
  modePend : d'.modePend = some { target := .safe, cycle := none, notBefore := d.now + 1 }

/-- SAFE pending for `reason`. -/
def Dev.safeAsked (d : Dev) (reason : Nat) : Dev :=
  { d with modePend := some { target := .safe, cycle := none, notBefore := d.now + 1 }, safeReason := some reason }

/-- SAFE asked for, and the front ends told in time or not at all. -/
theorem Dev.safeSoon_portsSent (d : Dev) (reason : Nat) : PortsSent (d.safeAsked reason) (d.safeSoon reason) := by
  unfold Dev.safeSoon
  extract_lets cyc x
  split
  · exact x.announceMode_portsSent _ _
  · exact x.withdrawMode_portsSent

theorem PortsSent.safeReason (h : PortsSent d d') : d'.safeReason = d.safeReason := by obtain ⟨_, _, _, rfl⟩ := h; rfl

theorem PortsSent.gov (h : PortsSent d d') : d'.gov = d.gov := by obtain ⟨_, _, _, rfl⟩ := h; rfl

theorem PortsSent.boot (h : PortsSent d d') : d'.boot = d.boot := by obtain ⟨_, _, _, rfl⟩ := h; rfl

theorem Dev.safeSoon_next (d : Dev) (reason : Nat) : SafeNext d (d.safeSoon reason) reason := by
  have sent := d.safeSoon_portsSent reason
  exact ⟨sent.mode, sent.safeReason, sent.modePend⟩

theorem exec_fatalFault_facts (runs : s.dev.inReset = false) :
    Completes .fatalFault s fun d =>
      if s.dev.mode = .boot then Restarted s.dev d 5
      else if s.dev.mode = .safe then d = { s.dev with safeReason := some 0x13 } else SafeNext s.dev d 0x13 := by
  have faults : exec .fatalFault s = .next { s with dev := s.dev.fallSafe 0x13 } := by
    change execFatalFault s = _
    unfold execFatalFault State.on
    dsimp only
    rw [runs]
    rfl
  refine .of_next faults ?_
  unfold Dev.fallSafe
  split
  · exact s.dev.restart_restarted 5
  · split
    · rfl
    · exact s.dev.safeSoon_next 0x13

end Sys2Proof.Machine
end

section
/-! The concentrator's thermal trip (R365, R367, R493; O59). -/

namespace Sys2Proof.Machine

variable {d d' x : Dev} {K : Prop} {s : State}

theorem Dev.withDies_steady (d : Dev) (dies : Vector Die 33) : Steady K d { d with gov := { d.gov with dies := dies } } :=
  .of_parts rfl rfl rfl rfl rfl

theorem Dev.setDie_steady (d : Dev) (i : Nat) (x : Die) : Steady K d (d.setDie i x) := by
  unfold Dev.setDie
  exact (d.withDies_steady _).trans (Dev.set_steady (a := Reg.GV_TSTATE) (by decide) _ i _)

/-- The device that has noted the trip of its die at a sensor. -/
def Dev.tripDie (d : Dev) (sensor : Fin 12) (mean : Int) : Dev :=
  ({ d with gov := { d.gov with sensors := d.gov.sensors.set sensor.val mean } } : Dev).setDie 32 { d.die 32 with trip := true }

theorem Dev.tripDie_facts (d : Dev) (sensor : Fin 12) (mean : Int) :
    (d.tripDie sensor mean).gov.dies[32].trip = true ∧ (d.tripDie sensor mean).gov.sensors[sensor.val] = mean
      ∧ (d.tripDie sensor mean).get Reg.GV_FENCE_CNT = d.get Reg.GV_FENCE_CNT ∧ Steady True d (d.tripDie sensor mean) := by
  unfold Dev.tripDie
  generalize hx : ({ d with gov := { d.gov with sensors := d.gov.sensors.set sensor.val mean } } : Dev) = x
  have sensed : x.gov.sensors[sensor.val] = mean ∧ x.get Reg.GV_FENCE_CNT = d.get Reg.GV_FENCE_CNT ∧ Steady True d x := by
    subst hx
    exact ⟨Vector.getElem_set_self _, rfl, .of_parts rfl rfl rfl rfl rfl⟩
  obtain ⟨sensors, count, steady⟩ := sensed
  have die := x.die_setDie (i := 32) (by decide) { d.die 32 with trip := true }
  have only := x.setDie_dieOnly 32 { d.die 32 with trip := true }
  refine ⟨?_, ?_, (only.get _ (by decide) 0).trans count, steady.trans (x.setDie_steady _ _)⟩
  · exact congrArg Die.trip ((Dev.die_eq _ 32).symm.trans die)
  · simp only [only.sensors]
    exact sensors

/-- What a fence event leaves. -/
theorem Dev.fenceEvent_facts (d : Dev) (source limit_ concerned : Nat) :
    (d.fenceEvent source limit_ concerned).gov = d.gov
      ∧ (d.fenceEvent source limit_ concerned).get Reg.GV_FENCE_CNT = min (d.get Reg.GV_FENCE_CNT + 1) (2 ^ 32 - 1)
      ∧ Steady True d (d.fenceEvent source limit_ concerned) := by
  unfold Dev.fenceEvent
  refine ⟨(Dev.log_gov_ports _ _ _ _ _ _).1, ?_, (Dev.bump_steady (by decide) d 0 1).trans (Dev.log_steady _ _ _ _ _ _)⟩
  rw [Dev.log_get, Dev.get_bump_same]
  rfl

/-- What the trip leaves of `d`, with SAFE asked for. -/
structure DieTripped (d x : Dev) (sensor : Fin 12) (mean : Int) : Prop where
  trip : x.gov.dies[32].trip = true
  sensor : x.gov.sensors[sensor.val] = mean
  count : x.get Reg.GV_FENCE_CNT = min (d.get Reg.GV_FENCE_CNT + 1) (2 ^ 32 - 1)

theorem Dev.tripFence_facts (d : Dev) (sensor : Fin 12) (mean : Int) :
    DieTripped d ((d.tripDie sensor mean).fence 0xFF 4 0) sensor mean ∧ Steady True d ((d.tripDie sensor mean).fence 0xFF 4 0) := by
  obtain ⟨trip, sensed, count, steady⟩ := d.tripDie_facts sensor mean
  generalize d.tripDie sensor mean = x at *
  obtain ⟨gov, count', steady'⟩ := x.fenceEvent_facts 0xFF 4 0
  have same : x.fence 0xFF 4 0 = x.fenceEvent 0xFF 4 0 := rfl
  rw [same]
  refine ⟨⟨?_, ?_, by rw [count', count]⟩, steady.trans steady'⟩
  · simp only [gov]
    exact trip
  · simp only [gov]
    exact sensed

theorem DieTripped.safeSoon {sensor : Fin 12} {mean : Int} (h : DieTripped d x sensor mean) (reason : Nat) :
    DieTripped d (x.safeSoon reason) sensor mean := by
  have sent := x.safeSoon_portsSent reason
  have gov : (x.safeSoon reason).gov = x.gov := sent.gov
  refine ⟨?_, ?_, (sent.get _ 0).trans h.count⟩
  · simp only [gov]
    exact h.trip
  · simp only [gov]
    exact h.sensor

/-- The device that asks for SAFE after a trip. -/
def Dev.safeByTrip (d : Dev) : Dev :=
  if d.mode = .safe then d
  else if d.mode = .boot then ((d.safeSoon 0x12).updBoot fun b => { b with planSafe := some 0x12 }).toStep 9
  else d.safeSoon 0x12

theorem exec_concThermalTrip {sensor : Fin 12} {mean : BitVec 16} (runs : s.dev.inReset = false) (cool : s.dev.gov.dies[32].trip = false)
    (hot : 1200 ≤ mean.toInt) :
    exec (.concThermalTrip sensor mean) s
      = .next { s with dev := ((s.dev.tripDie sensor mean.toInt).fence 0xFF 4 0).safeByTrip } := by
  have below : ¬ mean.toInt < tripAt := Int.not_lt.mpr hot
  have untripped : (s.dev.die 32).trip = false := (congrArg Die.trip (s.dev.die_eq 32)).trans cool
  have open_ : ¬ (s.dev.inReset || (s.dev.die 32).trip || decide (mean.toInt < tripAt)) = true := by
    rw [runs, untripped]
    simpa using below
  change execConcThermalTrip sensor mean s = _
  unfold execConcThermalTrip State.on
  exact congrArg (fun x => Host.Outcome.next { s with dev := x }) (if_neg open_)

/-- A trip fences the device and asks for SAFE, unless it is in SAFE. -/
theorem exec_concThermalTrip_hot {sensor : Fin 12} {mean : BitVec 16} (runs : s.dev.inReset = false)
    (cool : s.dev.gov.dies[32].trip = false) (hot : 1200 ≤ mean.toInt) :
    Completes (.concThermalTrip sensor mean) s fun d =>
      DieTripped s.dev d sensor mean.toInt ∧ (s.dev.mode = .safe → d.mode = .safe ∧ d.modePend = s.dev.modePend)
        ∧ (s.dev.mode = .boot → d.boot.planSafe = some 0x12 ∧ d.boot.step = some 9)
        ∧ (s.dev.mode ≠ .safe → SafeNext s.dev d 0x12) := by
  refine .of_next (exec_concThermalTrip runs cool hot) ?_
  obtain ⟨tripped, steady⟩ := s.dev.tripFence_facts sensor mean.toInt
  generalize (s.dev.tripDie sensor mean.toInt).fence 0xFF 4 0 = x at *
  obtain ⟨now, mode, modePend, -⟩ := steady.fields
  have asked := tripped.safeSoon 0x12
  have next : SafeNext s.dev (x.safeSoon 0x12) 0x12 := by
    obtain ⟨mode', reason, pend⟩ := x.safeSoon_next 0x12
    exact ⟨mode'.trans mode, reason, by rw [pend, now]⟩
  unfold Dev.safeByTrip
  generalize x.safeSoon 0x12 = y at *
  rw [mode]
  split
  · rename_i safe
    exact ⟨tripped, fun _ => ⟨mode.trans safe, modePend⟩, fun boots => absurd (safe.symm.trans boots) (by decide), fun awake => absurd safe awake⟩
  · rename_i awake
    split
    · exact ⟨⟨asked.trip, asked.sensor, asked.count⟩, fun safe => absurd safe awake, fun _ => ⟨rfl, rfl⟩,
        fun _ => ⟨next.mode, next.safeReason, next.modePend⟩⟩
    · rename_i started
      exact ⟨asked, fun safe => absurd safe awake, fun boots => absurd boots started, fun _ => next⟩

end Sys2Proof.Machine
end

section
/-! The steps of the boot (R341, R487, R488; O59). -/

namespace Sys2Proof.Machine

variable {d d' x : Dev} {K : Prop} {s : State}

/-! ### The first steps -/

theorem bootOpen (boots : d.mode = .boot) (runs : d.inReset = false) : ¬ (d.inReset || !(d.mode == .boot || d.boot.exitSafe)) = true := by
  rw [runs, boots]
  simp

theorem Dev.stepFailed_steady (d : Dev) (step what : Nat) : Steady K d (d.stepFailed step what) := d.log_steady _ _ _ _ _

theorem Dev.stepFailed_keeper (d : Dev) (step what : Nat) : (d.stepFailed step what).keeper = d.keeper :=
  (d.log_keeper_modePend _ _ _ _ _).1

theorem exec_bootSelfTest {a b : Bool} (boots : s.dev.mode = .boot) (runs : s.dev.inReset = false) (step : s.dev.boot.step = some 1) :
    exec (.bootStepComplete (.selfTest a b)) s = .next { s with dev := s.dev.bootSelfTest a b } := by
  change execBootStepComplete (.selfTest a b) s = _
  unfold execBootStepComplete State.on
  simp only [step, if_neg (bootOpen boots runs)]

/-- A Keeper that passes its self-test is active; with none the start fails. -/
theorem exec_bootSelfTest_facts {a b : Bool} (boots : s.dev.mode = .boot) (runs : s.dev.inReset = false) (step : s.dev.boot.step = some 1) :
    Completes (.bootStepComplete (.selfTest a b)) s fun d =>
      if a = false ∧ b = false then Restarted s.dev d 4
      else d.boot.step = some 2 ∧ d.keeper.active = (if a then 0 else 1)
        ∧ d.keeper.health = if a = true ∧ b = true then #v[0, 1] else if a then #v[0, 2] else #v[2, 0] := by
  refine .of_next (exec_bootSelfTest boots runs step) ?_
  cases a <;> cases b
  · exact s.dev.restart_restarted 4
  · exact ⟨rfl, congrArg Keeper.active (Dev.stepFailed_keeper _ 1 0), congrArg Keeper.health (Dev.stepFailed_keeper _ 1 0)⟩
  · exact ⟨rfl, congrArg Keeper.active (Dev.stepFailed_keeper _ 1 0), congrArg Keeper.health (Dev.stepFailed_keeper _ 1 0)⟩
  · exact ⟨rfl, rfl, rfl⟩

/-- Three starts failed plan SAFE. -/
theorem exec_bootFailedStarts_facts (boots : s.dev.mode = .boot) (runs : s.dev.inReset = false) (step : s.dev.boot.step = some 2) :
    Completes (.bootStepComplete .failedStarts) s fun d =>
      d.boot.step = some 3 ∧ d.boot.planSafe = if 3 ≤ s.dev.failedStarts then some 0x10 else s.dev.boot.planSafe := by
  have started : exec (.bootStepComplete .failedStarts) s = .next { s with dev := s.dev.bootFailedStarts } := by
    change execBootStepComplete .failedStarts s = _
    unfold execBootStepComplete State.on
    simp only [step, if_neg (bootOpen boots runs)]
  refine .of_next started ⟨rfl, ?_⟩
  unfold Dev.bootFailedStarts
  split
  · rfl
  · rfl

/-! ### START (R487) -/

theorem Dev.trainChannels_facts (d : Dev) : d.trainChannels.boot = d.boot ∧ d.trainChannels.ledger = d.ledger
    ∧ d.trainChannels.get Reg.BE_FW_VER = d.get Reg.BE_FW_VER := by
  have kept {β : Type} (g : Dev → β) (h : ∀ (x : Dev) m v, g (x.set Reg.MEM_CH_STATE m v) = g x) : g d.trainChannels = g d := by
    refine forRange_same g 8 _ (fun m _ x => ?_) d
    split
    · rfl
    · exact h x m 1
  exact ⟨kept Dev.boot fun _ _ _ => rfl, kept Dev.ledger fun _ _ _ => rfl,
    kept (fun x => x.get Reg.BE_FW_VER) fun x _ _ => x.get_set_addr (by decide) _ _ _⟩

/-- The version of the image that runs shown, with the format of its messages. -/
def Dev.showImage (d : Dev) : Dev :=
  let d := if d.get Reg.IMG_IN_USE = 2 then d
    else d.set Reg.BE_FW_VER 0 (d.get Reg.IMG_VERSION (d.get Reg.IMG_IN_USE))
  d.set Reg.BE_FMT 0 d.currentFormat

theorem Dev.showImage_facts (d : Dev) : d.showImage.boot = d.boot ∧ d.showImage.ledger = d.ledger
    ∧ d.showImage.get Reg.BE_FW_VER = if d.get Reg.IMG_IN_USE = 2 then d.get Reg.BE_FW_VER
      else d.get Reg.IMG_VERSION (d.get Reg.IMG_IN_USE) % 2 ^ 32 := by
  unfold Dev.showImage
  dsimp only
  rw [Dev.get_set_addr _ (by decide)]
  split
  · exact ⟨rfl, rfl, rfl⟩
  · refine ⟨rfl, rfl, ?_⟩
    rw [Dev.get_set_same]
    rfl

/-- START written. -/
def Dev.logStart (d : Dev) : Dev := d.log 0xFF 0x0101 (if d.boot.cold then 0x01 else d.aon.reason) d.aon.restarts d.failedStarts

theorem Dev.bootLoaded_eq (d : Dev) : d.bootLoaded =
    if d.showImage.logStart.boot.planSafe.isSome then d.showImage.logStart.toStep 7 else d.showImage.logStart.trainChannels.toStep 6 := rfl

theorem Dev.logStart_facts (d : Dev) : d.logStart.boot = d.boot ∧ d.logStart.get Reg.BE_FW_VER = d.get Reg.BE_FW_VER
    ∧ (d.ledger.buffer.length < 1024 → d.logStart.Recorded 0xFF 0x0101) := by
  refine ⟨?_, Dev.log_get _ _ _ _ _ _ _ _, Dev.log_recorded _ _ _ _ _ _⟩
  obtain ⟨b, n, eq⟩ := d.log_eq 0xFF 0x0101 (if d.boot.cold then 0x01 else d.aon.reason) d.aon.restarts d.failedStarts
  unfold Dev.logStart
  rw [eq]

/-- START is recorded, and the boot goes on to step 6, or to step 7 with SAFE planned. -/
theorem exec_bootLoaded_facts (boots : s.dev.mode = .boot) (runs : s.dev.inReset = false) (step : s.dev.boot.step = some 5)
    (room : s.dev.ledger.buffer.length < 1024) :
    Completes (.bootStepComplete .loaded) s fun d =>
      d.boot.step = some (if s.dev.boot.planSafe.isSome then 7 else 6) ∧ d.Recorded 0xFF 0x0101
        ∧ d.get Reg.BE_FW_VER = if s.dev.get Reg.IMG_IN_USE = 2 then s.dev.get Reg.BE_FW_VER
          else s.dev.get Reg.IMG_VERSION (s.dev.get Reg.IMG_IN_USE) % 2 ^ 32 := by
  have loaded : exec (.bootStepComplete .loaded) s = .next { s with dev := s.dev.bootLoaded } := by
    change execBootStepComplete .loaded s = _
    unfold execBootStepComplete State.on
    simp only [step, if_neg (bootOpen boots runs)]
  refine .of_next loaded ?_
  rw [Dev.bootLoaded_eq]
  obtain ⟨boot, ledger, version⟩ := s.dev.showImage_facts
  rw [← version]
  generalize s.dev.showImage = x at *
  obtain ⟨boot', version', recorded⟩ := x.logStart_facts
  replace recorded := recorded (by rwa [ledger])
  rw [boot', boot, ← version']
  generalize x.logStart = y at *
  obtain ⟨-, ledger', version''⟩ := y.trainChannels_facts
  generalize y.trainChannels = z at *
  have recorded' : z.Recorded 0xFF 0x0101 := by
    unfold Dev.Recorded
    rw [ledger']
    exact recorded
  split
  · exact ⟨rfl, recorded, rfl⟩
  · exact ⟨rfl, recorded', version''⟩

end Sys2Proof.Machine
end

section
/-! The memory, the clocks and the ports of a boot (R341, R487, R494; O59). -/

namespace Sys2Proof.Machine

variable {d d' x : Dev} {K : Prop} {s : State} {p : Port}

/-! ### The tests of the memory's channels (R341) -/

/-- What a channel shows after the sequence of R341, by what its test gave. -/
def Dev.ShowsTest (d : Dev) (m was : Nat) : Option MemTest → Prop
  | some .absent => d.get Reg.MEM_CH_STATE m = 0 ∧ d.get Reg.MEM_CH_SIZE m = 0
  | some (.failed mib) => d.get Reg.MEM_CH_STATE m = 4 ∧ d.get Reg.MEM_CH_SIZE m = mib.toNat
  | some (.passed mib) => d.get Reg.MEM_CH_STATE m = 2 ∧ d.get Reg.MEM_CH_SIZE m = mib.toNat
  | none => d.get Reg.MEM_CH_STATE m = was

/-- `d'` shows of channel `m` what `d` shows. -/
def SameChannel (m : Nat) (d d' : Dev) : Prop :=
  d'.get Reg.MEM_CH_STATE m = d.get Reg.MEM_CH_STATE m ∧ d'.get Reg.MEM_CH_SIZE m = d.get Reg.MEM_CH_SIZE m

theorem SameChannel.trans {m : Nat} {d'' : Dev} (h : SameChannel m d d') (h' : SameChannel m d' d'') : SameChannel m d d'' :=
  ⟨h'.1.trans h.1, h'.2.trans h.2⟩

theorem SameChannel.showsTest {m was : Nat} {t : Option MemTest} (same : SameChannel m d d') (h : d.ShowsTest m was t) :
    d'.ShowsTest m was t := by
  obtain ⟨state, size⟩ := same
  have shown {st v : Nat} (h : d.get Reg.MEM_CH_STATE m = st ∧ d.get Reg.MEM_CH_SIZE m = v) :
      d'.get Reg.MEM_CH_STATE m = st ∧ d'.get Reg.MEM_CH_SIZE m = v := ⟨state.trans h.1, size.trans h.2⟩
  match t with
  | some .absent => exact shown h
  | some (.failed _) => exact shown h
  | some (.passed _) => exact shown h
  | none => exact state.trans h

theorem Dev.setChannel_get (d : Dev) {i j : Nat} (hi : i < 8) (hj : j < 8) (st size : Nat) :
    ((d.set Reg.MEM_CH_STATE i st).set Reg.MEM_CH_SIZE i size).get Reg.MEM_CH_STATE j
        = (if j = i then st % 2 ^ 8 else d.get Reg.MEM_CH_STATE j)
      ∧ ((d.set Reg.MEM_CH_STATE i st).set Reg.MEM_CH_SIZE i size).get Reg.MEM_CH_SIZE j
        = (if j = i then size % 2 ^ 32 else d.get Reg.MEM_CH_SIZE j) := by
  by_cases here : j = i
  · subst here
    rw [if_pos rfl, if_pos rfl]
    exact ⟨(Dev.get_set_addr _ (by decide) _ _ _).trans (Dev.get_set_same _ _ _ _), Dev.get_set_same _ _ _ _⟩
  · have apart (a : Nat) (a' : Nat) : regKey 255 a j ≠ regKey 255 a' i := regKey_ne_of_elem (by omega) _ _ _ _
    rw [if_neg here, if_neg here]
    exact ⟨(Dev.get_set_other _ _ _ _ _ _ (apart _ _)).trans (Dev.get_set_other _ _ _ _ _ _ (apart _ _)),
      (Dev.get_set_other _ _ _ _ _ _ (apart _ _)).trans (Dev.get_set_other _ _ _ _ _ _ (apart _ _))⟩

theorem Dev.bootChannel_same (d : Dev) {i j : Nat} (hi : i < 8) (hj : j < 8) (other : j ≠ i) (t : MemTest) :
    SameChannel j d (d.bootChannel i t) := by
  have kept (st size : Nat) : SameChannel j d ((d.set Reg.MEM_CH_STATE i st).set Reg.MEM_CH_SIZE i size) := by
    obtain ⟨state, size'⟩ := d.setChannel_get hi hj st size
    rw [if_neg other] at state size'
    exact ⟨state, size'⟩
  unfold Dev.bootChannel
  split
  · exact ⟨rfl, rfl⟩
  · cases t with
    | absent => exact kept _ _
    | failed mib => exact kept _ _
    | passed mib => exact kept _ _

theorem Dev.bootChannel_shows (d : Dev) {i : Nat} (hi : i < 8) (t : MemTest) :
    (d.get Reg.MEM_CH_STATE i = 3 → (d.bootChannel i t).get Reg.MEM_CH_STATE i = 3)
      ∧ (d.get Reg.MEM_CH_STATE i ≠ 3 → (d.bootChannel i t).ShowsTest i (d.get Reg.MEM_CH_STATE i) (some t)) := by
  unfold Dev.bootChannel
  refine ⟨fun offline => by rw [if_pos offline]; exact offline, fun online => ?_⟩
  rw [if_neg online]
  have shown (st size : Nat) := d.setChannel_get hi hi st size
  simp only [if_true] at shown
  cases t with
  | absent => exact shown 0 0
  | failed mib =>
    have fits : mib.toNat < 2 ^ 32 := Nat.lt_trans mib.isLt (by decide)
    exact ⟨(shown 4 _).1, (shown 4 _).2.trans (Nat.mod_eq_of_lt fits)⟩
  | passed mib =>
    have fits : mib.toNat < 2 ^ 32 := Nat.lt_trans mib.isLt (by decide)
    exact ⟨(shown 2 _).1, (shown 2 _).2.trans (Nat.mod_eq_of_lt fits)⟩

/-- The tests of the eight channels, each with its channel. -/
def channelTests (chans : List MemTest) : List (Nat × MemTest) := (chans.zipIdx.take 8).map fun x => (x.2, x.1)

theorem channelTests_eq (chans : List MemTest) : channelTests chans = (chans.take 8).zipIdx.map Prod.swap := by
  unfold channelTests
  have cut : chans.zipIdx.take 8 = (chans.take 8).zipIdx := by
    refine List.ext_getElem? fun i => ?_
    simp only [List.getElem?_take, List.getElem?_zipIdx]
    split <;> rfl
  rw [cut]
  rfl

theorem mem_channelTests {chans : List MemTest} {y : Nat × MemTest} : y ∈ channelTests chans ↔ y.1 < 8 ∧ chans[y.1]? = some y.2 := by
  rw [channelTests_eq, List.mem_map]
  constructor
  · rintro ⟨x, mem, rfl⟩
    have test := List.mem_zipIdx_iff_getElem?.1 mem
    rw [List.getElem?_take] at test
    by_cases small : x.2 < 8
    · exact ⟨small, by rwa [if_pos small] at test⟩
    · rw [if_neg small] at test
      exact nomatch test
  · rintro ⟨small, test⟩
    refine ⟨y.swap, List.mem_zipIdx_iff_getElem?.2 ?_, Prod.swap_swap y⟩
    rw [List.getElem?_take]
    exact (if_pos small).trans test

theorem channelTests_nodup (chans : List MemTest) : (channelTests chans).Nodup := by
  refine List.Nodup.of_map Prod.fst ?_
  rw [channelTests_eq, List.map_map, show Prod.fst ∘ Prod.swap = (Prod.snd : MemTest × Nat → Nat) from rfl, List.zipIdx_map_snd]
  exact List.nodup_range'

/-- Every channel shows what its test gave; one that is OFFLINE stays so (R344). -/
theorem Dev.bootChannels_shows (d : Dev) (chans : List MemTest) {m : Nat} (hm : m < 8) :
    let d' := forEach (channelTests chans) (fun x d => d.bootChannel x.1 x.2) d
    (d.get Reg.MEM_CH_STATE m = 3 → d'.get Reg.MEM_CH_STATE m = 3)
      ∧ (d.get Reg.MEM_CH_STATE m ≠ 3 → d'.ShowsTest m (d.get Reg.MEM_CH_STATE m) chans[m]?) := by
  intro d'
  have apart (y : Nat × MemTest) (mem : y ∈ channelTests chans) (other : m ≠ y.1) (x : Dev) : SameChannel m x (x.bootChannel y.1 y.2) :=
    x.bootChannel_same (mem_channelTests.1 mem).1 hm other y.2
  cases test : chans[m]? with
  | none =>
    have kept : SameChannel m d d' := forEach_keeps (SameChannel m d) (channelTests chans) (fun x d => d.bootChannel x.1 x.2)
      (fun y mem x h => h.trans (apart y mem (by
        rintro rfl
        exact nomatch test.symm.trans (mem_channelTests.1 mem).2) x)) d ⟨rfl, rfl⟩
    exact ⟨fun offline => kept.1.trans offline, fun _ => kept.1⟩
  | some t =>
    have mem : (m, t) ∈ channelTests chans := mem_channelTests.2 ⟨hm, test⟩
    have alone (y : Nat × MemTest) (there : y ∈ channelTests chans) (other : y ≠ (m, t)) : m ≠ y.1 := by
      rintro rfl
      have same := test.symm.trans (mem_channelTests.1 there).2
      exact other (Prod.ext rfl (Option.some.inj same).symm)
    exact forEach_once (I := SameChannel m d)
      (Q := fun x : Dev => (d.get Reg.MEM_CH_STATE m = 3 → x.get Reg.MEM_CH_STATE m = 3)
        ∧ (d.get Reg.MEM_CH_STATE m ≠ 3 → x.ShowsTest m (d.get Reg.MEM_CH_STATE m) (some t)))
      (channelTests_nodup chans) mem (fun y there x other h => h.trans (apart y there (alone y there other) x))
      (fun x h => by
        have shown := x.bootChannel_shows hm t
        rwa [h.1] at shown)
      (fun y there x other h => by
        have same := apart y there (alone y there other) x
        exact ⟨fun offline => same.1.trans (h.1 offline), fun online => same.showsTest (h.2 online)⟩) ⟨rfl, rfl⟩

end Sys2Proof.Machine
end

section
/-! The memory, the clocks and the ports of a boot taken in (R341, R487, R494; O59). -/

namespace Sys2Proof.Machine

variable {d d' x : Dev} {K : Prop} {s : State} {p : Port}

/-! ### The ports begin to train (R487, step 8) -/

theorem Dev.answer_mem (d : Dev) (w : Writer) (st : Status) (value : Bytes) : (d.answer w st value).mem = d.mem := by
  obtain ⟨r, k, n, o, eq⟩ := d.answer_keeps w st value; rw [eq]

theorem Dev.dropRequests_mem (d : Dev) (p : Port) : (d.dropRequests p).mem = d.mem := by
  unfold Dev.dropRequests
  extract_lets begun asked part gone d₁
  have told : d₁.mem = d.mem := rfl
  clear_value d₁
  exact (forEach_same Dev.mem gone (fun w x => x.answer w .portDown) (fun w _ x => x.answer_mem w .portDown []) d₁).trans told

theorem Dev.startTraining_mem (d : Dev) (p : Port) : (d.startTraining p).mem = d.mem := by
  have put : (d.setPortState p 1).mem = d.mem := by
    unfold Dev.setPortState
    dsimp only
    split
    · exact Dev.dropRequests_mem _ p
    · rfl
  unfold Dev.startTraining
  split
  · rfl
  · exact put

theorem Dev.bootJoin_facts (d : Dev) : d.bootJoin.mem = d.mem ∧ d.bootJoin.boot.memDone = d.boot.memDone
    ∧ d.bootJoin.boot.clocksDone = d.boot.clocksDone ∧ (d.boot.memDone = true → d.boot.clocksDone = true → d.bootJoin.boot.step = some 8)
    ∧ ∀ a, a % 2 ^ 24 ∈ steadyObjects → ∀ e, d.bootJoin.get a e = d.get a e := by
  have trained := forEach_steady (K := True) allPorts (fun p d => d.startTraining p) (fun p x => x.startTraining_steady p) d
  have mem := forEach_same Dev.mem allPorts (fun p d => d.startTraining p) (fun p _ x => x.startTraining_mem p) d
  have standing := trained.standing
  have get := trained.get
  unfold Dev.bootJoin
  generalize forEach allPorts (fun p d => d.startTraining p) d = x at *
  unfold Dev.standing at standing
  simp only [Standing.mk.injEq] at standing
  obtain ⟨-, -, -, -, -, -, -, -, memDone, clocksDone, -⟩ := standing
  split
  · exact ⟨mem, memDone, clocksDone, fun _ _ => rfl, get⟩
  · rename_i waits
    exact ⟨rfl, rfl, rfl, fun m c => absurd (by rw [m, c]; rfl) waits, fun _ _ _ => rfl⟩

/-! ### Step 6 (R341) -/

theorem Dev.computeIndex_facts (d : Dev) : d.computeIndex.mem = d.mem
    ∧ ∀ a, a % 2 ^ 24 ∈ steadyObjects → ∀ e, d.computeIndex.get a e = d.get a e := by
  obtain ⟨u, v, eq⟩ : ∃ u v, d.computeIndex = (d.set Reg.ST_CAP 2 u).set Reg.ST_BW 2 v := ⟨_, _, rfl⟩
  have rest : Steady True d ((d.set Reg.ST_CAP 2 u).set Reg.ST_BW 2 v) := (Dev.set_steady (by decide) d 2 u).trans (Dev.set_steady (by decide) _ 2 v)
  rw [eq]
  exact ⟨rfl, rest.get⟩

theorem Dev.rescale_channels (d : Dev) (m : Nat) : SameChannel m d d.rescale :=
  ⟨d.get_rescale (by decide) m, d.get_rescale (by decide) m⟩

theorem sameChannel_of_steady {m : Nat} (get : ∀ a, a % 2 ^ 24 ∈ steadyObjects → ∀ e, d'.get a e = d.get a e) : SameChannel m d d' :=
  ⟨get _ (by decide) m, get _ (by decide) m⟩

/-- The memory of `x` has been taken in at a boot of `d`, as its tests told. -/
structure MemoryBooted (d : Dev) (chans : List MemTest) (x : Dev) : Prop where
  memDone : x.boot.memDone = true
  epochs : x.mem.epochs = []
  spill : x.mem.spill = []
  offline : ∀ m < 8, d.get Reg.MEM_CH_STATE m = 3 → x.get Reg.MEM_CH_STATE m = 3
  tested : ∀ m < 8, d.get Reg.MEM_CH_STATE m ≠ 3 → x.ShowsTest m (d.get Reg.MEM_CH_STATE m) chans[m]?

/-- The memory taken in, and the ports trained if the clocks run. -/
def Dev.memoryDone (d : Dev) : Dev := (d.updBoot fun b => { b with memDone := true }).bootJoin

theorem Dev.memoryDone_facts (d : Dev) : d.memoryDone.boot.memDone = true ∧ d.memoryDone.mem = d.mem ∧ ∀ m, SameChannel m d d.memoryDone := by
  obtain ⟨joined, memDone, -, -, get⟩ := (d.updBoot fun b => { b with memDone := true }).bootJoin_facts
  exact ⟨memDone, joined, fun m => sameChannel_of_steady (d := d.updBoot fun b => { b with memDone := true }) get⟩

/-- The stalls scaled to the memory there is. -/
def Dev.scaleMemory (d : Dev) : Dev := d.computeIndex.rescale

theorem Dev.scaleMemory_facts (d : Dev) : (∃ st, d.scaleMemory.mem = { d.mem with stalls := st }) ∧ ∀ m, SameChannel m d d.scaleMemory := by
  obtain ⟨indexed, get⟩ := d.computeIndex_facts
  unfold Dev.scaleMemory
  obtain ⟨stalls, scaled⟩ := d.computeIndex.rescale_mem
  rw [indexed] at scaled
  exact ⟨⟨stalls, scaled⟩, fun m => (sameChannel_of_steady get).trans (d.computeIndex.rescale_channels m)⟩

/-- The memory empty, its faults, epochs and spilled jobs forgotten. -/
def Dev.emptied (d : Dev) : Dev :=
  { d with mem := { d.mem with
    stalls := [], epochs := [], marked := [], lost := [], diag := [], spill := [], lapFrom := d.now, sramLapFrom := d.now
    scrubPos := 0, scrubPaid := 0, scrubAt := d.now } }

/-- The outcome of the tests that failed, told and shown. -/
def Dev.showTests (d : Dev) (failed : Nat) : Dev := (if failed = 0 then d else d.stepFailed 6 failed).set Reg.ECC_SELFTEST 0 failed

theorem Dev.showTests_steady (d : Dev) (failed : Nat) : Steady True d (d.showTests failed) := by
  refine Steady.trans ?_ (Dev.set_steady (by decide) _ 0 _)
  split
  · exact .refl d
  · exact d.stepFailed_steady 6 failed

theorem Dev.bootMemory_eq (d : Dev) (chans : List MemTest) : ∃ failed, d.bootMemory true chans
    = ((forEach (channelTests chans) (fun x d => d.bootChannel x.1 x.2) d).showTests failed).emptied.scaleMemory.memoryDone := by
  unfold Dev.bootMemory
  rw [if_neg (by decide)]
  extract_lets tests failed d₁ d₂ mem d₃
  exact ⟨failed, rfl⟩

theorem Dev.emptied_facts (d : Dev) : d.emptied.mem.epochs = [] ∧ d.emptied.mem.spill = [] ∧ ∀ m, SameChannel m d d.emptied :=
  ⟨rfl, rfl, fun _ => ⟨rfl, rfl⟩⟩

theorem Dev.bootMemory_booted (d : Dev) (chans : List MemTest) : MemoryBooted d chans (d.bootMemory true chans) := by
  obtain ⟨failed, eq⟩ := d.bootMemory_eq chans
  rw [eq]
  have shown := fun m (hm : m < 8) => d.bootChannels_shows chans hm
  dsimp only at shown
  generalize forEach (channelTests chans) (fun x d => d.bootChannel x.1 x.2) d = x at *
  have counted := x.showTests_steady failed
  generalize x.showTests failed = y at *
  obtain ⟨epochs, spill, cleared⟩ := y.emptied_facts
  generalize y.emptied = z at *
  obtain ⟨⟨stalls, scaled⟩, scales⟩ := z.scaleMemory_facts
  generalize z.scaleMemory = v at *
  obtain ⟨memDone, kept, joins⟩ := v.memoryDone_facts
  generalize v.memoryDone = w at *
  have same (m : Nat) : SameChannel m x w :=
    (((sameChannel_of_steady counted.get).trans (cleared m)).trans (scales m)).trans (joins m)
  exact ⟨memDone, by rw [kept, scaled]; exact epochs, by rw [kept, scaled]; exact spill,
    fun m hm offline => (same m).1.trans ((shown m hm).1 offline), fun m hm online => (same m).showsTest ((shown m hm).2 online)⟩

theorem exec_bootMemory {sram : Bool} {chans : List MemTest} (boots : s.dev.mode = .boot) (runs : s.dev.inReset = false)
    (step : s.dev.boot.step = some 6) (waits : s.dev.boot.memDone = false) :
    exec (.bootStepComplete (.memory sram chans)) s = .next { s with dev := s.dev.bootMemory sram chans } := by
  change execBootStepComplete (.memory sram chans) s = _
  unfold execBootStepComplete State.on
  simp only [step, if_neg (bootOpen boots runs), waits, Bool.false_eq_true, if_false]

theorem exec_bootMemory_facts {sram : Bool} {chans : List MemTest} (boots : s.dev.mode = .boot) (runs : s.dev.inReset = false)
    (step : s.dev.boot.step = some 6) (waits : s.dev.boot.memDone = false) :
    Completes (.bootStepComplete (.memory sram chans)) s fun d =>
      if sram = false then Restarted s.dev d 5 else MemoryBooted s.dev chans d := by
  refine .of_next (exec_bootMemory boots runs step waits) ?_
  cases sram with
  | true => exact s.dev.bootMemory_booted chans
  | false =>
    have fatal : s.dev.bootMemory false chans = (s.dev.set Reg.ECC_SELFTEST 0 256).restart 0x05 := by
      have started : (s.dev.set Reg.ECC_SELFTEST 0 256).mode = .boot := boots
      unfold Dev.bootMemory
      rw [if_pos (by decide)]
      dsimp only
      rw [if_pos started]
      exact if_pos started
    obtain ⟨inReset, mode, regs, reason, copies, preferred⟩ := (s.dev.set Reg.ECC_SELFTEST 0 256).restart_restarted 0x05
    rw [fatal]
    exact ⟨inReset, mode, regs, reason, copies, preferred⟩

/-! ### Step 7 (R487, R494) -/

theorem Dev.setTim_steady (d : Dev) (i : Fin 8) (c : TimChan) : Steady K d (d.setTim i c) := .of_parts rfl rfl rfl rfl rfl

theorem Dev.measureTim_steady (d : Dev) (i : Fin 8) (from_ : Option TimEdge) (edge : TimEdge) : Steady K d (d.measureTim i from_ edge) := by
  unfold Dev.measureTim
  extract_lets c b b'
  clear_value b'
  split
  · exact d.setTim_steady i _
  · exact d.setTim_steady i _

theorem Dev.settleTims_steady (d : Dev) : Steady K d d.settleTims :=
  forEach_steady (List.finRange 8) (fun i d => d.settleTim i) (fun i x => (x.setTim_steady i _).trans
    (forEach_steady _ _ (fun e y => y.measureTim_steady i _ e) _)) d

theorem Dev.goState_steady (d : Dev) (st : TbState) : Steady K d (d.goState st) := by
  unfold Dev.goState
  generalize hx : ({ d with tb := { d.tb with state := st, stateWas := d.tb.state, stateFrom := d.now } } : Dev) = x
  have went : Steady K d x := by
    subst hx
    exact .of_parts rfl rfl rfl rfl rfl
  unfold Dev.markTim
  split
  · exact went
  · have settled : Steady K x x.settleTims := x.settleTims_steady
    dsimp only
    generalize x.settleTims = y at *
    exact (went.trans settled).trans (.of_parts rfl rfl rfl rfl rfl)

/-- A time base replaced. -/
theorem Dev.withTb_steady (d : Dev) (tb : TimeBase) : Steady K d { d with tb := tb } := .of_parts rfl rfl rfl rfl rfl

theorem Dev.changeRef_steady (d : Dev) (new : Nat) (byFault : Bool) : Steady K d (d.changeRef new byFault) := by
  unfold Dev.changeRef
  extract_lets old vsOsc diff i moved tb₀ tb₁ acc pend tb₂ d₁ tb₃ d₂
  have timed : Steady K d d₁ := (d.withTb_steady tb₂).trans (Dev.withTb_steady _ _)
  have kept : Steady K d₁ d₂ := d₁.withTb_steady _
  clear_value d₁ d₂
  split
  · exact .refl d
  · exact (((timed.trans kept).trans (Dev.set_steady (by decide) d₂ 0 new)).trans (Dev.bump_steady (by decide) _ 0 1)).trans
      (Dev.log_steady _ _ _ _ _ _)

theorem Dev.startClocks_steady (d : Dev) : Steady K d d.startClocks := by
  unfold Dev.startClocks
  extract_lets ok inUse d₁
  have set_ : Steady K d d₁ := d.changeRef_steady _ true
  clear_value d₁
  split
  · exact set_
  · exact set_.trans (d₁.goState_steady _)

theorem Dev.loadTasks_steady (d : Dev) : Steady K d d.loadTasks := by
  unfold Dev.loadTasks
  split
  · exact .refl d
  · extract_lets i ts code load sched
    have loaded (sc : Sched) : Steady K d { d with sched := sc } := .of_parts rfl rfl rfl rfl rfl
    exact (loaded _).trans
      (forEach_steady ts (fun t d => d.set Reg.SC_TASK_PRIO t.1 t.2.prio) (fun t x => Dev.set_steady (by decide) x _ _) _)

theorem Steady.bootFields (h : Steady K d x) : x.now = d.now ∧ x.boot.memDone = d.boot.memDone ∧ x.boot.clocksDone = d.boot.clocksDone
    ∧ x.boot.planSafe = d.boot.planSafe := by
  have standing := h.standing
  unfold Dev.standing at standing
  simp only [Standing.mk.injEq] at standing
  obtain ⟨now, -, -, -, -, -, -, -, memDone, clocksDone, planSafe, -⟩ := standing
  exact ⟨now, memDone, clocksDone, planSafe⟩

/-- Step 7 once a reference is qualified or its time is over, the clocks started: the cores loaded, or SAFE asked for. -/
def Dev.clocksJoin (d : Dev) : Dev :=
  match d.boot.planSafe with
  | some r => (d.safeSoon r).toStep 9
  | none => (d.loadTasks.updBoot fun b => { b with clocksDone := true }).bootJoin

theorem Dev.clocksJoin_safe {r : Nat} (plan : d.boot.planSafe = some r) :
    d.clocksJoin.boot.step = some 9 ∧ d.clocksJoin.safeReason = some r
      ∧ d.clocksJoin.modePend = some { target := .safe, cycle := none, notBefore := d.now + 1 } := by
  have next := d.safeSoon_next r
  unfold Dev.clocksJoin
  rw [plan]
  exact ⟨rfl, next.safeReason, next.modePend⟩

theorem Dev.clocksJoin_open (plan : d.boot.planSafe = none) :
    d.clocksJoin.boot.clocksDone = true ∧ (d.boot.memDone = true → d.clocksJoin.boot.step = some 8) := by
  obtain ⟨-, memDone, -, -⟩ := (d.loadTasks_steady (K := True)).bootFields
  obtain ⟨-, -, clocksDone, step, -⟩ := (d.loadTasks.updBoot fun b => { b with clocksDone := true }).bootJoin_facts
  unfold Dev.clocksJoin
  rw [plan]
  exact ⟨clocksDone, fun done => step (memDone.trans done) rfl⟩

theorem Dev.bootClocks_boot (boots : d.mode = .boot) : d.bootClocks =
    if d.tu.refs.toList.any RefInput.qualified = true ∨ d.boot.stepFrom + d.ms 200 ≤ d.now then d.startClocks.clocksJoin else d := by
  have waits : (d.mode == .boot && !(d.tu.refs.toList.any RefInput.qualified || d.stepTimeout 200)) = true
      ↔ ¬ (d.tu.refs.toList.any RefInput.qualified = true ∨ d.boot.stepFrom + d.ms 200 ≤ d.now) := by
    rw [boots]
    simp [Dev.stepTimeout]
  unfold Dev.bootClocks
  dsimp only
  by_cases ready : d.tu.refs.toList.any RefInput.qualified = true ∨ d.boot.stepFrom + d.ms 200 ≤ d.now
  · have open_ := fun h => waits.1 h ready
    rw [if_pos ready, if_neg open_, if_pos ⟨boots, open_⟩]
    rfl
  · have closed := waits.2 ready
    rw [if_neg ready, if_pos closed, if_neg fun h => h.2 closed]

/-- The references qualified, or waited for long enough: the clocks start. -/
theorem exec_bootClocks_facts (boots : s.dev.mode = .boot) (runs : s.dev.inReset = false)
    (step : s.dev.boot.step = some 7 ∨ (s.dev.boot.step = some 6 ∧ s.dev.boot.clocksDone = false)) :
    Completes (.bootStepComplete .clocks) s fun d =>
      d = if s.dev.tu.refs.toList.any RefInput.qualified = true ∨ s.dev.boot.stepFrom + s.dev.ms 200 ≤ s.dev.now
        then s.dev.startClocks.clocksJoin else s.dev := by
  have clocks : exec (.bootStepComplete .clocks) s = .next { s with dev := s.dev.bootClocks } := by
    change execBootStepComplete .clocks s = _
    unfold execBootStepComplete State.on
    rcases step with seven | ⟨six, waits⟩
    · simp only [seven, if_neg (bootOpen boots runs)]
    · simp only [six, if_neg (bootOpen boots runs), waits, Bool.false_eq_true, if_false]
  exact .of_next clocks (Dev.bootClocks_boot boots)

/-! ### Step 8 (R487) -/

theorem exec_bootPorts_facts (boots : s.dev.mode = .boot) (runs : s.dev.inReset = false) (step : s.dev.boot.step = some 8) :
    let ready := (∀ p : Port, s.dev.get Reg.WP_EN p.val ≠ 0 → s.dev.portUp p = true) ∨ s.dev.boot.stepFrom + s.dev.ms 100 ≤ s.dev.now
    Completes (.bootStepComplete .ports) s fun d =>
      (¬ ready → d = s.dev) ∧ (ready → d.boot.step = some 9 ∧ d.mode = .boot
        ∧ d.modePend = some { target := .configure, cycle := none, notBefore := s.dev.now + 4096 }) := by
  intro ready
  have ports : exec (.bootStepComplete .ports) s = .next { s with dev := s.dev.bootPorts } := by
    change execBootStepComplete .ports s = _
    unfold execBootStepComplete State.on
    simp only [step, if_neg (bootOpen boots runs)]
  have waits : (!(allPorts.all fun p => s.dev.get Reg.WP_EN p.val == 0 || s.dev.portUp p) && !s.dev.stepTimeout 100) = true ↔ ¬ ready := by
    have all : (allPorts.all fun p => s.dev.get Reg.WP_EN p.val == 0 || s.dev.portUp p) = true
        ↔ ∀ p : Port, s.dev.get Reg.WP_EN p.val ≠ 0 → s.dev.portUp p = true := by
      simp only [allPorts, List.all_eq_true, List.mem_finRange, forall_true_left, Bool.or_eq_true, beq_iff_eq, or_iff_not_imp_left]
    have timeout : s.dev.stepTimeout 100 = true ↔ s.dev.boot.stepFrom + s.dev.ms 100 ≤ s.dev.now := decide_eq_true_iff
    rw [Bool.and_eq_true, Bool.not_eq_true', Bool.not_eq_true', ← Bool.not_eq_true, ← Bool.not_eq_true, all, timeout, ← not_or]
  refine .of_next ports ?_
  unfold Dev.bootPorts
  dsimp only
  by_cases open_ : ready
  · have pend : ∃ x, s.dev.pendMode { target := .configure, cycle := none, notBefore := s.dev.now + modeLead } = x
        ∧ x.modePend = some { target := .configure, cycle := none, notBefore := s.dev.now + 4096 } ∧ x.mode = s.dev.mode := by
      obtain ⟨modePend, mode, -⟩ := s.dev.pendMode_facts { target := .configure, cycle := none, notBefore := s.dev.now + modeLead }
      exact ⟨_, rfl, modePend, mode⟩
    obtain ⟨x, sent, modePend, mode⟩ := pend
    rw [if_neg fun h => waits.1 h open_, sent]
    exact ⟨fun no => absurd open_ no, fun _ => ⟨rfl, mode.trans boots, modePend⟩⟩
  · rw [if_pos (waits.2 open_)]
    exact ⟨fun _ => rfl, fun yes => absurd yes open_⟩

end Sys2Proof.Machine

open Sys2Proof.Machine

/-- Settles O59: a lemma for each of its eighteen parts. -/
theorem modesChangeAndTheDeviceStarts : Obligations.ModesChangeAndTheDeviceStarts := by
  unfold Obligations.ModesChangeAndTheDeviceStarts
  intro due down safeNext
  have held {s d : Dev} {reason : Nat} (h : Restarted s d reason) : down s d reason := ⟨h.inReset, h.mode, h.regs, h.reason, h.copies⟩
  have next {s d : Dev} {reason : Nat} (h : SafeNext s d reason) : safeNext s d reason := ⟨h.mode, h.safeReason, h.modePend⟩
  refine ⟨?_, ?_, ?_, ?_, ?_, ?_, ?_, ?_, ?_, ?_, ?_, ?_, ?_, ?_, ?_, ?_, ?_, ?_⟩
  · intro s m ready free
    obtain ⟨pend, runs, time, boundary, step, first⟩ := ready
    exact exec_modeChange_taken pend runs time boundary step first free
  · intro s m ready set_up acquires room fault
    obtain ⟨pend, runs, -, boundary, step, first⟩ := ready
    exact exec_modeChange_refused pend runs boundary step first set_up acquires room fault
  · intro s safe drains past room
    obtain ⟨t, runs, kept, ended⟩ := exec_safeDrainEnd safe drains past
    exact ⟨t, runs, kept, ended.draining, ended.baskets, ended.egress, ended.off, ended.first, ended.recorded room⟩
  · exact fun s w sweep read => exec_rateSweepComplete_read sweep read
  · exact fun s p off past => exec_fePowerOnReset_due off past
  · exact exec_feSupplyFault_facts
  · intro s lost
    obtain ⟨t, runs, kept, inReset, gone, stays, restarts⟩ := exec_resetAssert_facts s lost
    exact ⟨t, runs, kept, inReset, gone, stays, fun keeps awake => ⟨held (restarts keeps awake), (restarts keeps awake).preferred⟩⟩
  · intro s strap inReset
    obtain ⟨t, runs, kept, h⟩ := exec_resetRelease_boots (strap := strap) inReset
    refine ⟨t, runs, kept, h.inReset, h.mode, h.step, h.now, h.modePend, h.restarts, h.preferred, h.node.trans (Nat.mod_eq_of_lt ?_), h.fresh⟩
    split
    · decide
    · exact strap.isLt
  · intro s boots runs past
    obtain ⟨t, run, kept, h⟩ := exec_bootTimeout_past boots runs past
    exact ⟨t, run, kept, held h⟩
  · intro s a b boots runs step
    obtain ⟨t, run, kept, h⟩ := exec_bootSelfTest_facts (a := a) (b := b) boots runs step
    refine ⟨t, run, kept, ?_⟩
    by_cases fails : a = false ∧ b = false
    · rw [if_pos fails] at h ⊢
      exact held h
    · rw [if_neg fails] at h ⊢
      exact h
  · exact fun s boots runs step => exec_bootFailedStarts_facts boots runs step
  · exact fun s boots runs step room => exec_bootLoaded_facts boots runs step room
  · intro s sram chans boots runs step waits
    obtain ⟨t, run, kept, h⟩ := exec_bootMemory_facts (sram := sram) (chans := chans) boots runs step waits
    refine ⟨t, run, kept, ?_⟩
    by_cases fails : sram = false
    · rw [if_pos fails] at h ⊢
      exact held h
    · rw [if_neg fails] at h ⊢
      refine ⟨h.memDone, h.epochs, h.spill, fun m => ?_⟩
      have offline := h.offline m.val m.isLt
      have tested := h.tested m.val m.isLt
      intro was
      by_cases absent : was = 3
      · rw [if_pos absent]
        exact offline absent
      · rw [if_neg absent]
        replace tested := tested absent
        generalize chans[m.val]? = test at tested ⊢
        rcases test with _ | _ | _ | _ <;> exact tested
  · intro s boots runs step ready
    obtain ⟨t, run, kept, h⟩ := exec_bootClocks_facts boots runs step
    obtain ⟨now, memDone, -, planSafe⟩ := (s.dev.startClocks_steady (K := True)).bootFields
    refine ⟨t, run, kept, fun waits => h.trans (if_neg waits), fun open_ => ?_⟩
    rw [h, if_pos open_]
    cases plan : s.dev.boot.planSafe with
    | none =>
      obtain ⟨clocksDone, joined⟩ := Dev.clocksJoin_open (planSafe.trans plan)
      exact ⟨clocksDone, fun done => joined (memDone.trans done)⟩
    | some r =>
      obtain ⟨at_, reason, pend⟩ := Dev.clocksJoin_safe (planSafe.trans plan)
      exact ⟨at_, reason, by rw [pend, now]⟩
  · exact fun s boots runs step => exec_bootPorts_facts boots runs step
  · exact fun s t waits past room => exec_startConfirm_due waits past room
  · intro s runs
    obtain ⟨t, run, kept, h⟩ := exec_fatalFault_facts runs
    refine ⟨t, run, kept, ?_⟩
    by_cases boots : s.dev.mode = .boot
    · rw [if_pos boots] at h ⊢
      exact held h
    · rw [if_neg boots] at h ⊢
      by_cases safe : s.dev.mode = .safe
      · rw [if_pos safe] at h ⊢
        exact h
      · rw [if_neg safe] at h ⊢
        exact next h
  · intro s sensor mean runs cool hot
    obtain ⟨t, run, kept, tripped, safe, boots, awake⟩ := exec_concThermalTrip_hot runs cool hot
    exact ⟨t, run, kept, tripped.trip, tripped.sensor, tripped.count, safe, boots, fun h => next (awake h)⟩
end
